-- ==== Sys2Proof/Word.lean ====
section
/-! DEFINITION. The word types: 64-bit registers and stream words, bytes, and 16-bit check symbols (R14, R205, R306). -/

namespace Sys2Proof

/-- A 64-bit register, address or stream word (R205, R211). -/
abbrev Word := BitVec 64

/-- One byte of memory. -/
abbrev Byte := BitVec 8

/-- A 32-bit immediate field of a scalar instruction (R211). -/
abbrev Imm := BitVec 32

end Sys2Proof
end

