-- ==== Sys2Proof/Machine/Bits.lean ====
section
/-! DEFINITION. Bit fields, sign extension and byte order (R14), on natural numbers read as unsigned words. -/

namespace Sys2Proof.Machine

/-- Bits [hi:lo] of `w` (R14). -/
def fld (w hi lo : Nat) : Nat := (w >>> lo) % 2 ^ (hi + 1 - lo)

/-- Bit `i` of `w`. -/
def bit (w i : Nat) : Bool := (w >>> i) % 2 == 1

/-- A Bool as a bit. -/
def b2n (b : Bool) : Nat := if b then 1 else 0

/-- `v` placed in bits [hi:lo] of a word, the rest zero. -/
def put (v hi lo : Nat) : Nat := (v % 2 ^ (hi + 1 - lo)) <<< lo

/-- `w` with bits [hi:lo] replaced by `v`. -/
def setFld (w hi lo v : Nat) : Nat := w - put (fld w hi lo) hi lo + put v hi lo

/-- The low `n` bits of `v` read as a two's-complement integer. -/
def sext (n v : Nat) : Int := if v % 2 ^ n < 2 ^ (n - 1) then (v % 2 ^ n : Nat) else ((v % 2 ^ n : Nat) : Int) - (2 ^ n : Nat)

/-- An integer as an `n`-bit two's-complement word. -/
def wrapInt (n : Nat) (i : Int) : Nat := (i % ((2 ^ n : Nat) : Int)).toNat

/-- A value limited to its field's largest value, for saturating counters. -/
def sat (n v : Nat) : Nat := min v (2 ^ n - 1)

/-- The `n` bytes of `v`, least significant first (R14). -/
def leBytes : Nat → Nat → List Byte
  | 0, _ => []
  | n + 1, v => BitVec.ofNat 8 v :: leBytes n (v / 256)

/-- The number that bytes spell, least significant first (R14). -/
def ofLe : List Byte → Nat
  | [] => 0
  | b :: bs => b.toNat + 256 * ofLe bs

/-- Bytes [at, at + n) of a byte string as a number. -/
def leAt (bs : List Byte) (off n : Nat) : Nat := ofLe ((bs.drop off).take n)

/-- Ceiling division. -/
def cdiv (a b : Nat) : Nat := (a + b - 1) / b

/-- The numbers below `n`, rising. -/
def upto (n : Nat) : List Nat := List.range n

/-- A set of numbers, rising and without repeats: the number put in. -/
def setIns : List Nat → Nat → List Nat
  | [], k => [k]
  | j :: m, k => if k < j then k :: j :: m else if k = j then j :: m else j :: setIns m k

/-- A set of numbers: the number taken out. -/
def setDel (m : List Nat) (k : Nat) : List Nat := m.filter (· != k)

end Sys2Proof.Machine
end

