-- ==== Sys2Proof/Syntax.lean ====
section
/-! DEFINITION. The commands: one constructor for each row of the table of operations and events, with the row's operands.
What arrives from outside (a written value, a received flit, a completion, a sensor reading) is an operand. -/

namespace Sys2Proof

/-- The two host ports (R12). -/
inductive HostPort where
  | ha | hb
deriving DecidableEq, Repr

/-- The readers that hold a latch of their own (R23, R288). -/
inductive Reader where
  | ha | hb | mc
deriving DecidableEq, Repr

/-- R212: the operations of the ALU classes, in the order of their op codes. -/
inductive AluOp where
  | add | sub | and | or | xor | sll | srl | sra | mul | mulhu | min | max | minu | maxu | slt | sltu
deriving DecidableEq, Repr

/-- R212: the scalar loads. -/
inductive LoadOp where
  | ld8u | ld16u | ld32u | ld64 | ld8s | ld16s | ld32s
deriving DecidableEq, Repr

/-- R212: the scalar stores. -/
inductive StoreOp where
  | st8 | st16 | st32 | st64
deriving DecidableEq, Repr

/-- R212: the branch comparisons. -/
inductive BranchOp where
  | beq | bne | blt | bge | bltu | bgeu
deriving DecidableEq, Repr

/-- The four words of a wide command (R214). -/
structure Words where
  w0 : Word
  w1 : Word := 0
  w2 : Word := 0
  w3 : Word := 0
deriving DecidableEq, Repr

/-- A submission entry as the host's ring holds it (R244). -/
structure SubEntry where
  stream : Nat
  words : Nat
  userTag : Nat
  flags : Nat
deriving DecidableEq, Repr

/-- The command-scoped counters (R529): the bytes of shuttle `i`, and the elements of the press unit of global engine `i`. -/
inductive ScopedCtr where
  | shuttleBytes (i : Nat)
  | pressElems (i : Nat)
deriving DecidableEq, Repr

/-- The register of a command-scoped counter that a read names: its value, or its _SEQ (R288). -/
structure ScopedReg where
  ctr : ScopedCtr
  seq : Bool := false
deriving DecidableEq, Repr

/-- What the standby supply measures, in the units of MOD_SUPPLY (R563): the input voltage and current, and the coolant's temperatures at the
inlet and the outlet. -/
structure SupplyReading where
  vin : Nat
  iin : Nat
  coolIn : Nat
  coolOut : Nat
deriving DecidableEq, Repr

/-- The contended ports that one arbiter design shares (R319, R320). -/
inductive ArbPort where
  | hubIngress (hub : Nat)
  | coreStoreBank (core bank : Nat)
  | egress (port : Nat)
  | tack (n : Nat)
  | scopedCtr (c : ScopedCtr)
  | streamRegistry
  | tailor
  | role
  | sew
  | chalk
  | mailbox
deriving DecidableEq, Repr

/-- A block stream: an ordered pair of die-network ports, or one direction of a UCIe module (R323). -/
inductive BlockStream where
  | die (src dst : Nat)
  | ucie (hub mod : Nat) (toHub : Bool)
deriving DecidableEq, Repr

/-- A received block (R324 to R326): its payload, the address its header tag gives the receiver, its check field as received, and the
acknowledgement riding in it: none, a positive one up to a sequence, or a negative one naming the expected sequence. -/
structure Block where
  payload : List Byte
  addr : Nat
  crc : Nat
  ack : Option (Bool × Nat) := none
  tag : Nat := 0
  kind : Nat := 0
deriving DecidableEq, Repr

/-- A received flit (R360): its header word, payload bytes and crc field. -/
structure Flit where
  header : Nat
  payload : List Byte
  crc : Nat
deriving DecidableEq, Repr

/-- A transport message (R371): the four header words and the data bytes. -/
structure Msg where
  t0 : Nat
  t1 : Nat
  t2 : Nat
  t3 : Nat
  data : List Byte := []
deriving DecidableEq, Repr

/-- How a host's completion for a module read arrives (R407, R413). -/
inductive HostCpl where
  | data (bytes : List Byte) (ep : Bool)
  | unexpected
  | malformed
deriving DecidableEq, Repr

/-- The internal faults of R459 that a unit detects itself. -/
inductive FaultUnit where
  | bobbinDouble (core : Nat)
  | arrayCheck (core : Nat)
  | coreStoreDouble (core : Nat)
  | stateCheck (core : Nat)
  | bobbinSingle (core : Nat)
  | coreStoreSingle (core : Nat)
  | updateEngine (hub : Nat)
  | hubController (hub : Nat)
  | slice (quadrant : Nat)
  | aerCorrectable (p : HostPort)
  | ideCheckFailed (p : HostPort)
deriving DecidableEq, Repr

/-- A configuration-space write (R402, R405, R408): what the written register controls. -/
inductive CfgWrite where
  | bar2Size (log2 : Nat)
  | powerState (d3hot : Bool)
  | msixControl (enable functionMask : Bool)
  | other (offset value : Nat)
deriving DecidableEq, Repr

/-- A data object of the Data Object Exchange mailbox (R402, R414, R504). -/
inductive DataObject where
  | spdmPsk (ok : Bool)
  | ideKeyProg (stream : Nat) (key : Nat)
  | ideGo (stream : Nat)
  | ideStop (stream : Nat)
deriving DecidableEq, Repr

/-- The commands. Operand names: `c` a core, `q` a core queue, `e` a global engine, `p` a host port or a fabric port, `n` a host
queue or a tack, `h` a hub, `w` the four words of a wide command. -/
inductive Instr where
  | registerWrite (p : HostPort) (off size v : Nat)
  | rcRegisterRead (p : HostPort) (off size : Nat)
  | obsTimeLoRead (r : Reader) (size : Nat)
  | wave (e : Nat)
  | waveRateWindowEnd (e count : Nat)
  | engineTakeTile (e : Nat) (press : Bool)
  | warpLoadStart (e pl : Nat)
  | drainStart (e pl : Nat)
  | newConfigurationInForce (e pl : Nat)
  | shadowSampleCharge (e : Nat)
  | aluRegister (c q : Nat) (op : AluOp) (rd rs1 rs2 : Nat)
  | aluImmediate (c q : Nat) (op : AluOp) (rd rs1 : Nat) (imm : Imm)
  | li (c q rd : Nat) (imm : Imm)
  | lih (c q rd : Nat) (imm : Imm)
  | amov (c q rd rs1 : Nat)
  | gmov (c q rd rs1 : Nat)
  | aadd (c q rd rs1 rs2 : Nat) (imm : Imm)
  | load (c q : Nat) (op : LoadOp) (rd rs1 : Nat) (imm : Imm)
  | store (c q : Nat) (op : StoreOp) (rs1 rs2 : Nat) (imm : Imm)
  | branch (c q : Nat) (op : BranchOp) (rs1 rs2 : Nat) (imm : Imm)
  | jmp (c q : Nat) (imm : Imm)
  | call (c q : Nat) (imm : Imm)
  | ret (c q : Nat)
  | nop (c q : Nat)
  | endSub (c q : Nat)
  | rdsr (c q rd : Nat) (imm : Imm)
  | wrsr (c q rs1 : Nat) (imm : Imm)
  | trap (c q : Nat) (imm : Imm)
  | mm (c q : Nat) (w : Words)
  | loadw (c q : Nat) (w : Words)
  | seam (c q : Nat) (w : Words)
  | quant (c q : Nat) (w : Words)
  | pressElementwise (c q : Nat) (w : Words)
  | pressReduction (c q : Nat) (w : Words)
  | normAcc (c q : Nat) (w : Words)
  | shuttleCopy (c q : Nat) (w : Words)
  | convert (c q : Nat) (w : Words)
  | decrypt (c q : Nat) (w : Words)
  | fill (c q : Nat) (w : Words)
  | tackCmdSet (c q : Nat) (w : Words)
  | tackCmdAdd (c q : Nat) (w : Words)
  | tackCmdWaitGe (c q : Nat) (w : Words)
  | tackCmdWaitEq (c q : Nat) (w : Words)
  | tackCmdArrive (c q : Nat) (w : Words)
  | tackWaitTimeout (n c q : Nat)
  | allreduce (c q : Nat) (w : Words)
  | reduceScatter (c q : Nat) (w : Words)
  | allgather (c q : Nat) (w : Words)
  | broadcast (c q : Nat) (w : Words)
  | reduce (c q : Nat) (w : Words)
  | collNorm (c q : Nat) (w : Words)
  | upd (c q : Nat) (w : Words)
  | updBlockGroup (c q cseq : Nat)
  | stepEnd (c q : Nat) (w : Words)
  | stepEndMerge
  | stepEndDecide
  | loadFit (c q : Nat) (w : Words)
  | saveFit (c q : Nat) (w : Words)
  | saveStats (c q : Nat) (w : Words)
  | streamOpen (c q : Nat) (w : Words)
  | streamClose (c q : Nat) (w : Words)
  | chalkMark (c q : Nat) (w : Words)
  | chalkTrigger (c q : Nat) (w : Words)
  | chalkStart (c q : Nat) (w : Words)
  | chalkStop (c q : Nat) (w : Words)
  | fenceQueue (c q : Nat) (w : Words)
  | fenceCore (c q : Nat) (w : Words)
  | commandIssue (c q : Nat)
  | commandRetire (c q : Nat)
  | submissionStart (c q : Nat) (entry : SubEntry)
  | hostQdoorbell (p : HostPort) (n v : Nat)
  | hostQcfgWrite (p : HostPort) (n v : Nat)
  | hostQcheadWrite (p : HostPort) (n v : Nat)
  | retry (p : HostPort) (c q v : Nat)
  | skip (p : HostPort) (c q v : Nat)
  | abort (p : HostPort) (c q v : Nat)
  | hostTackSet (p : HostPort) (n v : Nat)
  | hostTackAdd (p : HostPort) (n v : Nat)
  | tckCfgWrite (p : HostPort) (n v : Nat)
  | counterLiveRead (r : Reader) (x : ScopedReg)
  | counterSnapRead (r : Reader) (x : ScopedReg)
  | arbiterGrant (a : ArbPort) (req : List Nat)
  | hubChannelAccess (h off : Nat) (write : Option (List Byte)) (err : List (Nat × Nat))
  | scrubRead (h ch page : Nat) (errs : List (Nat × List (Nat × Nat)))
  | dqRetune (h : Nat) (drift : List (Nat × Int × Bool))
  | mr4Read (h : Nat) (rate : Nat)
  | zqCalibrationLatch (h ch : Nat)
  | blockReceive (b : BlockStream) (blk : Block)
  | blockAckTimer (b : BlockStream)
  | ucieRetrain (h m : Nat) (ok : Bool)
  | sramDomainChange (c : Nat)
  | sramZeroFillComplete (c : Nat)
  | portTraining (p : Nat) (ok : Bool) (polarity : Nat)
  | trainingRetryTimer (p : Nat)
  | initSendTimer (p : Nat)
  | init (p : Nat) (f : Flit)
  | idle (p : Nat) (f : Flit)
  | data (p : Nat) (f : Flit)
  | hold (p : Nat) (f : Flit)
  | credit (p : Nat) (f : Flit)
  | audit (p : Nat) (f : Flit)
  | timeReq (p : Nat) (f : Flit)
  | timeResp (p : Nat) (f : Flit)
  | nackRepeatTimer (p : Nat)
  | ackTimer (p : Nat)
  | creditReturnTimer (p : Nat)
  | auditTimer (p : Nat)
  | timeReqTimer (p : Nat)
  | timeAnnounceTimer
  | recoveryTimeout (p : Nat)
  | lossOfSignal (p : Nat)
  | put (p : Nat) (m : Msg)
  | get (p : Nat) (m : Msg)
  | getResp (p : Nat) (m : Msg)
  | atomic (p : Nat) (m : Msg)
  | atomicResp (p : Nat) (m : Msg)
  | tackAdd (p : Nat) (m : Msg)
  | ack (p : Nat) (m : Msg)
  | collReady (p : Nat) (m : Msg)
  | collGet (p : Nat) (m : Msg)
  | collData (p : Nat) (m : Msg)
  | collPut (p : Nat) (m : Msg)
  | collAbort (p : Nat) (m : Msg)
  | peerDown (p : Nat) (m : Msg)
  | timeAnnounce (p : Nat) (m : Msg)
  | transportResendTimeout (dst stream mseq : Nat)
  | holdLimitExpiry
  | stragglerTimer (comm k : Nat)
  | lnkPeerLostClear (p : HostPort) (word v : Nat)
  | bar2Read (p : HostPort) (off len : Nat)
  | bar2Write (p : HostPort) (off : Nat) (bytes : List Byte) (ep : Bool)
  | hostHeartbeat (p : HostPort) (v : Nat)
  | stewardSilent
  | graceEnd
  | claim (p : HostPort)
  | handover (p : HostPort)
  | hostLinkDown (p : HostPort)
  | hostLinkUp (p : HostPort) (width rate : Nat)
  | perst (p : HostPort) (asserted : Bool)
  | functionLevelReset (p : HostPort)
  | drainLimitExpiry (p : HostPort) (n : Nat)
  | completionTimeout (p : HostPort) (tag : Nat)
  | hostEvqCfgWrite (p : HostPort) (v : Nat)
  | eventQueueHeadWrite (p : HostPort) (head : Nat)
  | pwrEnRise
  | pwrGoodRise (failCores failUcie : List Nat) (trained : List (Nat × Option Int)) (failHubs : List Nat) (links : List (HostPort × Nat × Nat))
  | stageTimeout (stage : Nat)
  | pwrEnFall
  | inputStandbyUp (r : SupplyReading)
  | supplyCutoff (tooHigh : Bool) (vin : Nat)
  | touch (p : HostPort)
  | baste (p : HostPort) (v : Nat)
  | stagedWrite (p : HostPort) (off size v : Nat)
  | sew (p : HostPort)
  | sewEnd (p : HostPort)
  | unpick (p : HostPort)
  | transactionIdleTimeout (p : HostPort)
  | restEntry
  | restExit
  | modPowerCtlWrite (p : HostPort) (v : Nat)
  | powerWindow (watts : Nat) (r : SupplyReading)
  | powerFastInterval (watts : Nat)
  | capUnmetAlert
  | thermalRead (die hub ps : Nat) (hubs : List Nat)
  | thermalHoldInterval
  | trip (dieC psC : Nat)
  | errorContainmentStep (unit : Nat)
  | obsErrqPop (p : HostPort) (v : Nat)
  | mcWatchdogExpiry
  | fence (p : HostPort) (c : Nat)
  | retest (p : HostPort) (c : Nat)
  | retestEnd (c : Nat) (passed : Bool)
  | conservationCheck
  | getInfo (p : HostPort)
  | getCerts (p : HostPort)
  | getMeas (p : HostPort)
  | extend (p : HostPort)
  | attest (p : HostPort)
  | keyRelease (p : HostPort)
  | domainAuth (p : HostPort)
  | sessionClose (p : HostPort)
  | domainPurge (p : HostPort)
  | domainKeygen (p : HostPort)
  | sessionTimeout (k : Nat)
  | authorisationLapse (k : Nat)
  | fwBegin (p : HostPort)
  | fwWrite (p : HostPort)
  | fwVerify (p : HostPort)
  | fwActivate (p : HostPort)
  | fwAbort (p : HostPort)
  | fwCommit (p : HostPort)
  | fwUnitRunning (image : Nat)
  | activationTimeout (image : Nat)
  | fwSessionIdleTimeout
  | flashOperationComplete
  | settingsWrite (p : HostPort)
  | setMinSvn (p : HostPort)
  | aliasCertIssue
  | chalkUnitFlush (b : Nat)
  | chalkGap (b : Nat)
  | chalkHostStart (p : HostPort) (b : Nat)
  | chalkHostStop (p : HostPort) (b : Nat)
  | chalkHostTrigger (p : HostPort) (b : Nat)
  | obsChalkCfgWrite (p : HostPort) (b v : Nat)
  | obsChalkHeadWrite (p : HostPort) (b v : Nat)
  | nanTrapRearm (p : HostPort)
  | freezePin (low : Bool) (ns : Nat)
  | swFreeze (p : HostPort) (set : Bool)
  | clearChalk (p : HostPort)
  | obsRoDataRead (r : Reader)
  | ppsEdge (t : Nat)
  | i3cOffsetWrite (off : Nat)
  | i3cRead
  | illegalInstruction (c q : Nat) (w : Word)
  | bar0Read (p : HostPort) (off size : Nat)
  | configurationSpaceWrite (p : HostPort) (x : CfgWrite)
  | dataObjectExchange (p : HostPort) (o : DataObject)
  | hostReadCompletion (p : HostPort) (tag : Nat) (x : HostCpl)
  | internalFault (u : FaultUnit)
  | railSlewComplete
  | pwrEnHoldExpiry
  | standbySupplyStop (vin : Nat)
  | ppsSeenExpiry
  | domainPurgeComplete (d : Nat)
  | fwVerifyComplete
deriving DecidableEq, Repr

end Sys2Proof
end

