-- ==== Sys2Proof/Decode.lean ====
section
/-! DEFINITION. Decoding. The rows of the table of operations give no bits, so no word spells a command by them. The scalar instructions
of a command stream have an encoding of their own (R211, R212): it is decoded here, and encoded. -/

namespace Sys2Proof

open Sys2Proof.Machine

/-- The command that a word spells by the table's bits: no row of the table gives bits. [DESIGN CHOICE, log 2] -/
def decodeTableWord (_nbits _w : Nat) : Option Instr := none

/-- R212: the ALU operation of an op code. -/
def AluOp.ofCode : Nat → Option AluOp
  | 0 => some .add | 1 => some .sub | 2 => some .and | 3 => some .or | 4 => some .xor | 5 => some .sll | 6 => some .srl
  | 7 => some .sra | 8 => some .mul | 9 => some .mulhu | 10 => some .min | 11 => some .max | 12 => some .minu
  | 13 => some .maxu | 14 => some .slt | 15 => some .sltu | _ => none

/-- R212: the op code of an ALU operation. -/
def AluOp.code : AluOp → Nat
  | .add => 0 | .sub => 1 | .and => 2 | .or => 3 | .xor => 4 | .sll => 5 | .srl => 6 | .sra => 7 | .mul => 8 | .mulhu => 9
  | .min => 10 | .max => 11 | .minu => 12 | .maxu => 13 | .slt => 14 | .sltu => 15

/-- R212: the loads 0x00 to 0x06. -/
def LoadOp.ofCode : Nat → Option LoadOp
  | 0 => some .ld8u | 1 => some .ld16u | 2 => some .ld32u | 3 => some .ld64 | 4 => some .ld8s | 5 => some .ld16s
  | 6 => some .ld32s | _ => none

def LoadOp.code : LoadOp → Nat
  | .ld8u => 0 | .ld16u => 1 | .ld32u => 2 | .ld64 => 3 | .ld8s => 4 | .ld16s => 5 | .ld32s => 6

/-- R212: the stores 0x08 to 0x0B. -/
def StoreOp.ofCode : Nat → Option StoreOp
  | 8 => some .st8 | 9 => some .st16 | 10 => some .st32 | 11 => some .st64 | _ => none

def StoreOp.code : StoreOp → Nat
  | .st8 => 8 | .st16 => 9 | .st32 => 10 | .st64 => 11

/-- R212: the branches 0x00 to 0x05. -/
def BranchOp.ofCode : Nat → Option BranchOp
  | 0 => some .beq | 1 => some .bne | 2 => some .blt | 3 => some .bge | 4 => some .bltu | 5 => some .bgeu | _ => none

def BranchOp.code : BranchOp → Nat
  | .beq => 0 | .bne => 1 | .blt => 2 | .bge => 3 | .bltu => 4 | .bgeu => 5

/-- R211: the fields of a scalar word. -/
def wClass (w : Nat) : Nat := fld w 63 60
def wOp (w : Nat) : Nat := fld w 59 54
def wRd (w : Nat) : Nat := fld w 53 49
def wRs1 (w : Nat) : Nat := fld w 48 44
def wRs2 (w : Nat) : Nat := fld w 43 39
def wImm (w : Nat) : Imm := BitVec.ofNat 32 w

/-- R211: the low four bits of a field that names an address register. [DEDUCED, log 19] -/
def areg (r : Nat) : Nat := r % 16

/-- R212: the register ALU class. -/
def decodeAlu (c q w : Nat) : Option Instr :=
  match AluOp.ofCode (wOp w) with
  | some op => some (.aluRegister c q op (wRd w) (wRs1 w) (wRs2 w))
  | none => none

/-- R212: the immediate ALU class. -/
def decodeAluImm (c q w : Nat) : Option Instr :=
  if wOp w = 0x10 then some (.li c q (wRd w) (wImm w))
  else if wOp w = 0x11 then some (.lih c q (wRd w) (wImm w))
  else match AluOp.ofCode (wOp w) with
    | some op => some (.aluImmediate c q op (wRd w) (wRs1 w) (wImm w))
    | none => none

/-- R212: the address class. -/
def decodeAddress (c q w : Nat) : Option Instr :=
  if wOp w = 0 then some (.amov c q (areg (wRd w)) (wRs1 w))
  else if wOp w = 1 then some (.gmov c q (wRd w) (areg (wRs1 w)))
  else if wOp w = 2 then some (.aadd c q (areg (wRd w)) (areg (wRs1 w)) (wRs2 w) (wImm w))
  else none

/-- R212: the memory class. -/
def decodeMemory (c q w : Nat) : Option Instr :=
  match LoadOp.ofCode (wOp w) with
  | some op => some (.load c q op (wRd w) (areg (wRs1 w)) (wImm w))
  | none => match StoreOp.ofCode (wOp w) with
    | some op => some (.store c q op (areg (wRs1 w)) (wRs2 w) (wImm w))
    | none => none

/-- R212: the branch class. -/
def decodeBranch (c q w : Nat) : Option Instr :=
  if wOp w = 8 then some (.jmp c q (wImm w))
  else if wOp w = 9 then some (.call c q (wImm w))
  else if wOp w = 10 then some (.ret c q)
  else match BranchOp.ofCode (wOp w) with
    | some op => some (.branch c q op (wRs1 w) (wRs2 w) (wImm w))
    | none => none

/-- R212: the system class. -/
def decodeSystem (c q w : Nat) : Option Instr :=
  if wOp w = 0 then some (.nop c q)
  else if wOp w = 1 then some (.endSub c q)
  else if wOp w = 2 then some (.rdsr c q (wRd w) (wImm w))
  else if wOp w = 3 then some (.wrsr c q (wRs1 w) (wImm w))
  else if wOp w = 4 then some (.trap c q (wImm w))
  else none

/-- R212: the scalar instruction that a stream word spells, in core queue q of core c; none for a reserved class or op and for the
class of wide commands. [DEDUCED, log 19] -/
def decodeScalar (c q w : Nat) : Option Instr :=
  if wClass w = 0 then decodeAlu c q w
  else if wClass w = 1 then decodeAluImm c q w
  else if wClass w = 2 then decodeAddress c q w
  else if wClass w = 3 then decodeMemory c q w
  else if wClass w = 4 then decodeBranch c q w
  else if wClass w = 5 then decodeSystem c q w
  else none

/-- R211: a scalar word from its fields. -/
def scalarWord (cls op rd rs1 rs2 : Nat) (imm : Imm) : Nat :=
  put cls 63 60 + put op 59 54 + put rd 53 49 + put rs1 48 44 + put rs2 43 39 + imm.toNat

/-- R211, R212: the word of a scalar instruction; none for a command that is no scalar instruction. -/
def encodeScalar : Instr → Option Nat
  | .aluRegister _ _ op rd rs1 rs2 => some (scalarWord 0 op.code rd rs1 rs2 0)
  | .aluImmediate _ _ op rd rs1 imm => some (scalarWord 1 op.code rd rs1 0 imm)
  | .li _ _ rd imm => some (scalarWord 1 0x10 rd 0 0 imm)
  | .lih _ _ rd imm => some (scalarWord 1 0x11 rd 0 0 imm)
  | .amov _ _ rd rs1 => some (scalarWord 2 0 rd rs1 0 0)
  | .gmov _ _ rd rs1 => some (scalarWord 2 1 rd rs1 0 0)
  | .aadd _ _ rd rs1 rs2 imm => some (scalarWord 2 2 rd rs1 rs2 imm)
  | .load _ _ op rd rs1 imm => some (scalarWord 3 op.code rd rs1 0 imm)
  | .store _ _ op rs1 rs2 imm => some (scalarWord 3 op.code 0 rs1 rs2 imm)
  | .branch _ _ op rs1 rs2 imm => some (scalarWord 4 op.code 0 rs1 rs2 imm)
  | .jmp _ _ imm => some (scalarWord 4 8 0 0 0 imm)
  | .call _ _ imm => some (scalarWord 4 9 0 0 0 imm)
  | .ret _ _ => some (scalarWord 4 10 0 0 0 0)
  | .nop _ _ => some (scalarWord 5 0 0 0 0 0)
  | .endSub _ _ => some (scalarWord 5 1 0 0 0 0)
  | .rdsr _ _ rd imm => some (scalarWord 5 2 rd 0 0 imm)
  | .wrsr _ _ rs1 imm => some (scalarWord 5 3 0 rs1 0 imm)
  | .trap _ _ imm => some (scalarWord 5 4 0 0 0 imm)
  | _ => none

end Sys2Proof
end

