-- ==== Sys2Proof/Machine/Check.lean ====
section
/-! DEFINITION. Check codes and generators: CRC-32C (R324), CRC-32 (R363), the Reed–Solomon code of R306, Philox-4x32-10 (R177,
R178), and the algorithms of R314 and R486 that are written out: SHA-256, HMAC, HKDF, AES-256, GCM and XTS. -/

namespace Sys2Proof.Machine

/-! ### CRCs -/

/-- Eight steps of a reflected CRC-32 with the reflected polynomial `poly`. -/
def crcSteps (poly : Nat) : Nat → Nat → Nat
  | 0, c => c
  | k + 1, c => crcSteps poly k (if c % 2 = 1 then (c / 2) ^^^ poly else c / 2)

/-- A reflected 32-bit CRC with initial value and final XOR 0xFFFF_FFFF. -/
def crcReflected (poly : Nat) (bs : List Byte) : Nat :=
  bs.foldl (fun c b => crcSteps poly 8 (c ^^^ b.toNat)) 0xFFFFFFFF ^^^ 0xFFFFFFFF

/-- R324: CRC-32C, polynomial 0x1EDC_6F41. [PRESUMED, log 33] -/
def crc32c (bs : List Byte) : Nat := crcReflected 0x82F63B78 bs

/-- R363: CRC-32 of IEEE 802.3, polynomial 0x04C1_1DB7. [PRESUMED, log 33] -/
def crc32 (bs : List Byte) : Nat := crcReflected 0xEDB88320 bs

/-! ### Philox (R177, R178) -/

def m32 (x : Nat) : Nat := x % 2 ^ 32

/-- One round on (c0, c1, c2, c3) with the round key (k0, k1). -/
def philoxRound (k0 k1 : Nat) (c : Nat × Nat × Nat × Nat) : Nat × Nat × Nat × Nat :=
  let p0 := 0xD2511F53 * c.1
  let p1 := 0xCD9E8D57 * c.2.2.1
  ((p1 / 2 ^ 32) ^^^ c.2.1 ^^^ k0, m32 p1, (p0 / 2 ^ 32) ^^^ c.2.2.2 ^^^ k1, m32 p0)

/-- Rounds with the key incremented between them. [PRESUMED, log 33] -/
def philoxRounds : Nat → Nat → Nat → Nat × Nat × Nat × Nat → Nat × Nat × Nat × Nat
  | 0, _, _, c => c
  | k + 1, k0, k1, c => philoxRounds k (m32 (k0 + 0x9E3779B9)) (m32 (k1 + 0xBB67AE85)) (philoxRound k0 k1 c)

/-- R178: the 24-bit draw of element `i` of tile `t` in site `site` of fit step `step`, under key (k0, k1). -/
def draw24 (k0 k1 site step t i : Nat) : Nat :=
  let r := philoxRounds 10 k0 k1 (m32 (i / 4), m32 t, m32 step, put site 31 16 + put (step / 2 ^ 32) 15 0)
  let w := if i % 4 = 0 then r.1 else if i % 4 = 1 then r.2.1 else if i % 4 = 2 then r.2.2.1 else r.2.2.2
  w / 256

/-! ### The Reed–Solomon code of R306 -/

/-- Multiplication in GF(2^n) by the polynomial `poly` (with its top bit), by shift and add over the bits of `b`. -/
def gfMulN (n poly : Nat) : Nat → Nat → Nat → Nat
  | 0, _, _ => 0
  | k + 1, a, b =>
    let a2 := if bit a (n - 1) then (2 * a) ^^^ poly else 2 * a
    (if b % 2 = 1 then a else 0) ^^^ gfMulN n poly k a2 (b / 2)

/-- GF(2^16) with x^16 + x^12 + x^3 + x + 1. -/
def gf16Mul (a b : Nat) : Nat := gfMulN 16 0x1100B 16 a b

def gf16Pow (a : Nat) : Nat → Nat
  | 0 => 1
  | k + 1 => gf16Mul a (gf16Pow a k)

/-- α^i for α = x. -/
def alphaPow (i : Nat) : Nat := gf16Pow 2 i

/-- The inverse in GF(2^16): a^(2^16 − 2), by squarings. -/
def gf16Inv (a : Nat) : Nat :=
  (upto 15).foldl (fun (acc : Nat × Nat) _ => let sq := gf16Mul acc.2 acc.2; (gf16Mul acc.1 sq, sq)) (1, a) |>.1

/-- The syndrome S_j of a word of symbols, highest power first: its value at α^j. -/
def syndrome (j : Nat) (word : List Nat) : Nat :=
  let x := alphaPow j
  word.foldl (fun acc c => gf16Mul acc x ^^^ c) 0

/-- The generator polynomial with the roots α^0 to α^3: coefficients from x^3 down to x^0 (monic of degree 4). -/
def rsGen : List Nat :=
  (upto 4).foldl (fun g i =>
    let r := alphaPow i
    List.zipWith (· ^^^ ·) (g ++ [0]) (0 :: g.map (gf16Mul r))) [1] |>.drop 1

/-- The four check symbols of 128 data symbols: the remainder of data × x^4 by the generator. -/
def rsCheck (data : List Nat) : List Nat :=
  data.foldl (fun reg d =>
    let f := d ^^^ reg.headD 0
    List.zipWith (· ^^^ ·) (reg.drop 1 ++ [0]) (rsGen.map (gf16Mul f))) [0, 0, 0, 0]

/-- What the decoder finds (R306). -/
inductive RsResult where
  | clean
  | corrected (pos pattern : Nat)
  | uncorrectable
deriving DecidableEq, Repr

/-- R306: a single error of pattern e at power p gives S_j = e × α^(jp); anything else not clean is detected. [DEDUCED, log 36] -/
def rsDecode (word : List Nat) : RsResult :=
  let s := (upto 4).map (fun j => syndrome j word)
  let s0 := s.getD 0 0
  if s.all (· == 0) then .clean
  else if s0 = 0 then .uncorrectable
  else
    let x := gf16Mul (s.getD 1 0) (gf16Inv s0)
    if gf16Mul (s.getD 1 0) x = s.getD 2 0 ∧ gf16Mul (s.getD 2 0) x = s.getD 3 0 then
      match (upto word.length).find? (fun p => alphaPow p == x) with
      | some p => .corrected (word.length - 1 - p) s0
      | none => .uncorrectable
    else .uncorrectable

/-! ### SHA-256 (FIPS 180-4), HMAC and HKDF (RFC 5869) -/

def chunks (n : Nat) : Nat → List Byte → List (List Byte)
  | 0, _ => []
  | k + 1, bs => if bs.isEmpty then [] else bs.take n :: chunks n k (bs.drop n)

def beBytes (n v : Nat) : List Byte := (leBytes n v).reverse

/-- The first 64 primes, whose roots give the constants of SHA-256. -/
def shaPrimes : List Nat :=
  [2, 3, 5, 7, 11, 13, 17, 19, 23, 29, 31, 37, 41, 43, 47, 53, 59, 61, 67, 71, 73, 79,
   83, 89, 97, 101, 103, 107, 109, 113, 127, 131, 137, 139, 149, 151, 157, 163, 167, 173, 179, 181, 191, 193,
   197, 199, 211, 223, 227, 229, 233, 239, 241, 251, 257, 263, 269, 271, 277, 281, 283, 293, 307, 311]

/-- The largest r with r^k ≤ n that agrees with `r` above bit `b`. -/
def rootBelow (k n : Nat) : Nat → Nat → Nat
  | 0, r => r
  | b + 1, r => rootBelow k n b (if (r + 2 ^ b) ^ k ≤ n then r + 2 ^ b else r)

/-- The first 32 bits of the fraction of the k-th root of `p` (a root below 8). -/
def rootFraction (k p : Nat) : BitVec 32 := BitVec.ofNat 32 (rootBelow k (p * 2 ^ (32 * k)) 35 0)

/-- The round constants: cube roots. The starting words: square roots of the first eight primes. -/
def shaKeys : List (BitVec 32) := shaPrimes.map (rootFraction 3)
def shaStart : List (BitVec 32) := (shaPrimes.take 8).map (rootFraction 2)

/-- The XOR of a word's rotations. -/
def spins (rs : List Nat) (x : BitVec 32) : BitVec 32 := rs.foldl (fun acc r => acc ^^^ x.rotateRight r) 0

/-- A block under way: the next sixteen schedule words, and the last four values, newest first, of the two running words that a round
makes (FIPS 180-4 names each one's four values a to d and e to h). -/
structure ShaRun where
  window : List (BitVec 32)
  upper : List (BitVec 32)
  lower : List (BitVec 32)

/-- One round with the key word `k`: the window moves on by a word, and each running word gains a value. -/
def ShaRun.advance (r : ShaRun) (k : BitVec 32) : ShaRun :=
  let w := fun i => r.window.getD i 0
  let up := fun i => r.upper.getD i 0
  let lo := fun i => r.lower.getD i 0
  let t := w 0 + k + lo 3 + spins [6, 11, 25] (lo 0) + (lo 2 ^^^ (lo 0 &&& (lo 1 ^^^ lo 2)))
  { window := r.window.drop 1 ++ [w 0 + w 9 + (spins [7, 18] (w 1) ^^^ (w 1 >>> 3)) + (spins [17, 19] (w 14) ^^^ (w 14 >>> 10))]
    upper := (t + spins [2, 13, 22] (up 0) + ((up 0 &&& (up 1 ||| up 2)) ||| (up 1 &&& up 2))) :: r.upper.take 3
    lower := (up 3 + t) :: r.lower.take 3 }

/-- The hash words after one more block of 64 bytes. -/
def shaBlock (hash : List (BitVec 32)) (blk : List Byte) : List (BitVec 32) :=
  let words := (upto 16).map (fun i => BitVec.ofNat 32 (ofLe ((blk.drop (4 * i)).take 4).reverse))
  let r := shaKeys.foldl ShaRun.advance { window := words, upper := hash.take 4, lower := hash.drop 4 }
  List.zipWith (· + ·) hash (r.upper ++ r.lower)

/-- [PRESUMED, log 33] -/
def sha256 (bs : List Byte) : List Byte :=
  let tail := [0x80] ++ List.replicate ((119 - bs.length % 64) % 64) 0 ++ beBytes 8 (8 * bs.length)
  (chunks 64 (cdiv (bs.length + 9) 64) (bs ++ tail)).foldl shaBlock shaStart |>.flatMap (fun w => beBytes 4 w.toNat)

def xorBytes (a b : List Byte) : List Byte := List.zipWith (· ^^^ ·) a b

/-- [PRESUMED, log 33] -/
def hmac (key msg : List Byte) : List Byte :=
  let k := if 64 < key.length then sha256 key else key
  let k := k ++ List.replicate (64 - k.length) 0
  sha256 (xorBytes k (List.replicate 64 0x5c) ++ sha256 (xorBytes k (List.replicate 64 0x36) ++ msg))

/-- HKDF's expansion: T(i) from T(i − 1), `k` blocks from number `i`. -/
def hkdfBlocks (prk info : List Byte) : Nat → Nat → List Byte → List Byte
  | 0, _, _ => []
  | k + 1, i, t =>
    let t' := hmac prk (t ++ info ++ [BitVec.ofNat 8 i])
    t' ++ hkdfBlocks prk info k (i + 1) t'

/-- HKDF-SHA-256: `n` bytes. [PRESUMED, log 33] -/
def hkdf (salt ikm info : List Byte) (n : Nat) : List Byte := (hkdfBlocks (hmac salt ikm) info (cdiv n 32) 1 []).take n

/-- The bytes of an ASCII string. -/
def ascii (s : String) : List Byte := s.toList.map (fun c => BitVec.ofNat 8 c.toNat)

/-! ### AES-256 and GCM (NIST SP 800-38D) -/

/-- GF(2^8) with x^8 + x^4 + x^3 + x + 1. -/
def gf8Mul (a b : Nat) : Nat := gfMulN 8 0x11B 8 a b

/-- The inverse in GF(2^8), 0 for 0: a^254. -/
def gf8Inv (a : Nat) : Nat :=
  (upto 7).foldl (fun (acc : Nat × Nat) _ => let sq := gf8Mul acc.2 acc.2; (gf8Mul acc.1 sq, sq)) (1, a) |>.1

/-- The AES S-box: the inverse, then the affine map. -/
def aesSub (b : Byte) : Byte :=
  let x := BitVec.ofNat 8 (gf8Inv b.toNat)
  x ^^^ x.rotateLeft 1 ^^^ x.rotateLeft 2 ^^^ x.rotateLeft 3 ^^^ x.rotateLeft 4 ^^^ 0x63

/-- The key schedule of AES-256: words appended to the last eight, from word number `i` on. -/
def aesExpand : Nat → Nat → Nat → List (List Byte) → List (List Byte)
  | 0, _, _, ws => ws
  | k + 1, i, rc, ws =>
    let last := ws.getD (i - 1) []
    let f := if i % 8 = 0 then
        let r := (last.drop 1 ++ last.take 1).map aesSub
        xorBytes r [BitVec.ofNat 8 rc, 0, 0, 0]
      else if i % 8 = 4 then last.map aesSub else last
    aesExpand k (i + 1) (if i % 8 = 0 then gf8Mul rc 2 else rc) (ws ++ [xorBytes (ws.getD (i - 8) []) f])

/-- The 15 round keys. -/
def aesKeys (key : List Byte) : List (List Byte) := chunks 16 15 (aesExpand 52 8 1 (chunks 4 8 key)).flatten

/-- ShiftRows on the 16 bytes, column by column. -/
def aesShift (st : List Byte) : List Byte := (upto 16).map (fun i => st.getD ((i + 4 * (i % 4)) % 16) 0)

def aesMixColumn (c : List Byte) : List Byte :=
  let g := fun i => (c.getD (i % 4) 0).toNat
  (upto 4).map (fun i => BitVec.ofNat 8 (gf8Mul 2 (g i) ^^^ gf8Mul 3 (g (i + 1)) ^^^ g (i + 2) ^^^ g (i + 3)))

def aesRounds : List (List Byte) → List Byte → List Byte
  | [], st => st
  | [k], st => xorBytes (aesShift (st.map aesSub)) k
  | k :: ks, st => aesRounds ks (xorBytes ((chunks 4 4 (aesShift (st.map aesSub))).flatMap aesMixColumn) k)

/-- One block under AES-256. -/
def aesBlock (key blk : List Byte) : List Byte :=
  let ks := aesKeys key
  aesRounds (ks.drop 1) (xorBytes blk (ks.headD []))

/-- The inverse of the S-box. -/
def aesUnsub (b : Byte) : Byte :=
  BitVec.ofNat 8 (gf8Inv (b.rotateLeft 1 ^^^ b.rotateLeft 3 ^^^ b.rotateLeft 6 ^^^ 0x05).toNat)

/-- InvShiftRows and InvSubBytes. -/
def aesUnshift (st : List Byte) : List Byte := (upto 16).map (fun i => aesUnsub (st.getD ((i + 12 * (i % 4)) % 16) 0))

def aesUnmixColumn (c : List Byte) : List Byte :=
  let g := fun i => (c.getD (i % 4) 0).toNat
  (upto 4).map (fun i => BitVec.ofNat 8 (gf8Mul 14 (g i) ^^^ gf8Mul 11 (g (i + 1)) ^^^ gf8Mul 13 (g (i + 2)) ^^^ gf8Mul 9 (g (i + 3))))

/-- The inverse rounds, with the round keys last first. -/
def aesUnrounds : List (List Byte) → List Byte → List Byte
  | [], st => st
  | [k], st => xorBytes (aesUnshift st) k
  | k :: ks, st => aesUnrounds ks ((chunks 4 4 (xorBytes (aesUnshift st) k)).flatMap aesUnmixColumn)

/-- One block decrypted under AES-256. -/
def aesUnblock (key blk : List Byte) : List Byte :=
  let ks := (aesKeys key).reverse
  aesUnrounds (ks.drop 1) (xorBytes blk (ks.headD []))

/-! ### AES-256-XTS (IEEE 1619), for the memory domains of R314 -/

/-- The tweak of the next block: the product with α, the tweak as a little-endian number. -/
def xtsDouble (t : List Byte) : List Byte :=
  let v := ofLe t
  leBytes 16 ((2 * v) % 2 ^ 128 ^^^ (if bit v 127 then 0x87 else 0))

/-- Whole blocks, each through `f` between two additions of its tweak. -/
def xtsBlocks (f : List Byte → List Byte) : Nat → List Byte → List Byte → List Byte
  | 0, _, _ => []
  | k + 1, t, bs => xorBytes (f (xorBytes (bs.take 16) t)) t ++ xtsBlocks f k (xtsDouble t) (bs.drop 16)

/-- A data unit of whole blocks under the two AES-256 keys in `key`, with the tweak `n`. [PRESUMED, log 33] -/
def xtsSeal (key : List Byte) (n : Nat) (bs : List Byte) : List Byte :=
  xtsBlocks (aesBlock (key.take 32)) (bs.length / 16) (aesBlock (key.drop 32) (leBytes 16 n)) bs

/-- [PRESUMED, log 33] -/
def xtsOpen (key : List Byte) (n : Nat) (bs : List Byte) : List Byte :=
  xtsBlocks (aesUnblock (key.take 32)) (bs.length / 16) (aesBlock (key.drop 32) (leBytes 16 n)) bs

/-- GF(2^128) of GHASH, with bit 0 leftmost: the product by shift and add from the left. -/
def ghashMulN : Nat → BitVec 128 → BitVec 128 → BitVec 128 → BitVec 128
  | 0, _, _, z => z
  | k + 1, x, v, z =>
    let z' := if x.getLsbD k then z ^^^ v else z
    let v' := if v.getLsbD 0 then (v >>> 1) ^^^ 0xe1000000000000000000000000000000 else v >>> 1
    ghashMulN k x v' z'

def be128 (bs : List Byte) : BitVec 128 := BitVec.ofNat 128 (bs.foldl (fun v b => v * 256 + b.toNat) 0)

def padTo16 (bs : List Byte) : List Byte := bs ++ List.replicate ((16 - bs.length % 16) % 16) 0

def ghash (h : BitVec 128) (bs : List Byte) : BitVec 128 :=
  (chunks 16 (cdiv bs.length 16) bs).foldl (fun y b => ghashMulN 128 (y ^^^ be128 b) h 0) 0

/-- The keystream from counter block `ctr` on. -/
def gcmStream (key iv : List Byte) : Nat → Nat → List Byte
  | 0, _ => []
  | k + 1, ctr => aesBlock key (iv ++ beBytes 4 ctr) ++ gcmStream key iv k (ctr + 1)

/-- The GCM tag of a ciphertext. -/
def gcmTag (key iv aad ct : List Byte) : List Byte :=
  let h := be128 (aesBlock key (List.replicate 16 0))
  let y := ghash h (padTo16 aad ++ padTo16 ct ++ beBytes 8 (8 * aad.length) ++ beBytes 8 (8 * ct.length))
  xorBytes (beBytes 16 y.toNat) (aesBlock key (iv ++ beBytes 4 1))

/-- GCM decryption with a 96-bit IV and a 128-bit tag: the plaintext, or none where the tag fails. [PRESUMED, log 33] -/
def gcmOpen (key iv aad ct tag : List Byte) : Option (List Byte) :=
  if gcmTag key iv aad ct = tag then some (xorBytes ct (gcmStream key iv (cdiv ct.length 16) 2)) else none

end Sys2Proof.Machine
end

