-- ==== Sys2Proof/Config.lean ====
section
/-! DEFINITION. What the spec leaves open: free values that no proof can evaluate, and functions the spec names by reference to
another standard and does not state. Each is a constant with no body. -/

namespace Sys2Proof.Config

/-- A fresh free value, by the model's own count of draws: what a machine holds where the spec says no more than that some value
results. -/
opaque freeValue : Nat → BitVec 64

/-- The choice within the bound of R228 that a PRESS function (by its op) makes on an FP32 code; its whole result where R228 states none.
[DESIGN CHOICE, log 29] -/
opaque pressFunction : Nat → Nat → Nat

/-- The FP32 passes, less 1 and modulo 3, that R137 takes for a tag whose fit entry names none. [DESIGN CHOICE, log 90] -/
opaque openPasses : Nat → Nat

/-- `n` bytes that a function of the byte's number gives. -/
def bytesOf (n : Nat) (f : Nat → BitVec 8) : List (BitVec 8) := (List.range n).map f

theorem length_bytesOf (n : Nat) (f : Nat → BitVec 8) : (bytesOf n f).length = n := by simp [bytesOf]

/-- A byte of the 256-bit secret that the PUF of this module reconstructs to (R487). [DESIGN CHOICE, log 34] -/
opaque deviceSecretByte : Nat → BitVec 8
/-- The secret, 32 bytes. [DESIGN CHOICE, log 34] -/
def deviceSecret : List (BitVec 8) := bytesOf 32 deviceSecretByte

/-- The PUF helper data that a flash device holds (R487, R491), by its device; none where the copy fails its CRC. Nothing writes it.
[DESIGN CHOICE, log 34] -/
opaque helperData : Nat → Option (List (BitVec 8))

/-- Whether the PUF SRAM of the n-th power-up and the helper data reconstruct the secret (R487, R490). [DESIGN CHOICE, log 34] -/
opaque pufReconstructs : Nat → List (BitVec 8) → Bool

/-- The digest of the thimble's ROM (R485), of 32 bytes (R486). -/
opaque romDigestByte : Nat → BitVec 8
def romDigest : List (BitVec 8) := bytesOf 32 romDigestByte

/-- The public keys that the ROM holds (R485): Yalyind's image keys 0 and 1, and its record key, number 2; of 32 bytes (R486). -/
opaque romKeyByte : Nat → Nat → BitVec 8
def romKey (k : Nat) : List (BitVec 8) := bytesOf 32 (romKeyByte k)

/-- SLH-DSA public-key generation from its 48 seed bytes (FIPS 205; R488). The Bool is true for SHA2-128s. -/
opaque slhPublicByte : Bool → List (BitVec 8) → Nat → BitVec 8
def slhPublicKey (small : Bool) (seed : List (BitVec 8)) : List (BitVec 8) := bytesOf 32 (slhPublicByte small seed)

/-- A byte of an SLH-DSA hedged signature: seed bytes, message and randomness (R486). [DESIGN CHOICE, log 34] -/
opaque slhSignByte : Bool → List (BitVec 8) → List (BitVec 8) → Nat → Nat → BitVec 8
/-- SLH-DSA hedged signing, with the lengths of R486. [DESIGN CHOICE, log 34] -/
def slhSign (small : Bool) (seed msg : List (BitVec 8)) (r : Nat) : List (BitVec 8) :=
  bytesOf (if small then 7856 else 17088) (slhSignByte small seed msg r)

/-- SLH-DSA-SHA2-128s verification: public key, message, signature (R485, R495, R515). [DESIGN CHOICE, log 34] -/
opaque slhVerify : List (BitVec 8) → List (BitVec 8) → List (BitVec 8) → Bool

/-- The bytes of a memory training record (R520) by its sequence number and its values, before its HMAC. [DESIGN CHOICE, log 34] -/
opaque trainingBytes : List Int → List (BitVec 8)

/-- ML-KEM-768 (FIPS 203): the encapsulation key of the key pair made from a seed, of 1,184 bytes (R501). -/
opaque kemKeyByte : BitVec 64 → Nat → BitVec 8
def kemEncapsulationKey (seed : BitVec 64) : List (BitVec 8) := bytesOf 1184 (kemKeyByte seed)
/-- A byte of the secret that ML-KEM-768 decapsulates from a ciphertext (R502). [DESIGN CHOICE, log 34] -/
opaque kemSecretByte : BitVec 64 → List (BitVec 8) → Nat → BitVec 8
/-- The secret of 32 bytes (R502). [DESIGN CHOICE, log 34] -/
def kemDecapsulate (seed : BitVec 64) (c : List (BitVec 8)) : List (BitVec 8) := bytesOf 32 (kemSecretByte seed c)

/-- The DRBG's output at its n-th request, by byte (R486, R507). [DESIGN CHOICE, log 34] -/
opaque randomByte : Nat → Nat → BitVec 8
/-- `n` bytes of the DRBG's k-th request. [DESIGN CHOICE, log 34] -/
def randomBytes (k n : Nat) : List (BitVec 8) := bytesOf n (randomByte k)

/-- The certificates of the certificate area: the manufacturing CA's and the DeviceID's; and the alias certificate issued for a
measurement M1 and a TH security version (R489). [DESIGN CHOICE, log 34] -/
opaque certificate : Nat → List (BitVec 8)
opaque aliasCertificate : List (BitVec 8) → Nat → List (BitVec 8)

end Sys2Proof.Config
end

