-- ==== Sys2Proof/Machine/Map.lean ====
section
/-! DEFINITION. Sparse maps in one canonical form: keys strictly rising, no entry equal to the default. Memory, the register
file, tacks, queues and every other numbered set of units are held in this form, so that equal contents are equal data. -/

namespace Sys2Proof.Machine

/-- A sparse map from a number (an address, a unit number, a register offset) to a value. -/
abbrev SMap (α : Type) := List (Nat × α)

/-- What key `k` holds; an unlisted key holds the default `d`. -/
def SMap.get {α : Type} (d : α) : SMap α → Nat → α
  | [], _ => d
  | (j, v) :: m, k => if k < j then d else if k = j then v else SMap.get d m k

/-- An entry put in front of `m`, left out where it equals the default. -/
def SMap.cons {α : Type} [DecidableEq α] (d : α) (k : Nat) (v : α) (m : SMap α) : SMap α :=
  if v = d then m else (k, v) :: m

/-- Key `k` set to `v`; setting the default removes the entry. -/
def SMap.set {α : Type} [DecidableEq α] (d : α) : SMap α → Nat → α → SMap α
  | [], k, v => SMap.cons d k v []
  | (j, w) :: m, k, v =>
    if k < j then SMap.cons d k v ((j, w) :: m)
    else if k = j then SMap.cons d k v m
    else (j, w) :: SMap.set d m k v

/-- Every entry's key is above `lo`, keys rise strictly, and no entry equals the default. -/
def SMap.wfFrom {α : Type} [DecidableEq α] (d : α) : Nat → SMap α → Bool
  | _, [] => true
  | lo, (k, v) :: m => decide (lo ≤ k) && decide (v ≠ d) && SMap.wfFrom d (k + 1) m

/-- The canonical form. -/
def SMap.wf {α : Type} [DecidableEq α] (d : α) (m : SMap α) : Bool := SMap.wfFrom d 0 m

/-- Every entry's key is above `lo`, and keys rise strictly. -/
def SMap.risingFrom {α : Type} : Nat → SMap α → Bool
  | _, [] => true
  | lo, (k, _) :: m => decide (lo ≤ k) && SMap.risingFrom (k + 1) m

/-- The keys rise strictly: what reading and writing rest on. -/
def SMap.rising {α : Type} (m : SMap α) : Bool := SMap.risingFrom 0 m

/-- The keys `lo ≤ k < hi` returned to the default. -/
def SMap.clear {α : Type} (m : SMap α) (lo hi : Nat) : SMap α :=
  m.filter (fun e => decide (e.1 < lo) || decide (hi ≤ e.1))

/-- The listed keys whose value satisfies `p`. -/
def SMap.keysWhere {α : Type} (p : α → Bool) (m : SMap α) : List Nat :=
  (m.filter (fun e => p e.2)).map (·.1)

/-- Every listed value rewritten by `f`; entries that become the default are left out. -/
def SMap.mapVals {α : Type} [DecidableEq α] (d : α) (f : Nat → α → α) : SMap α → SMap α
  | [] => []
  | (k, v) :: m => SMap.cons d k (f k v) (SMap.mapVals d f m)

end Sys2Proof.Machine
end

