-- ==== Sys2Proof/Machine/Num.lean ====
section
/-! DEFINITION. Number formats and scaling: element codes (R55 to R61), UE6M2 block scales (R64, R65), stitch operand form
(R69 to R73), exact values, one rounding (R76, R77), the quantiser (R75) and the conversions (R81, R82, R83, R85). -/

namespace Sys2Proof.Machine

/-- The element formats of R55 that name a storage format; ADAPT (0xF) and the reserved code 0xE are none of them. -/
inductive Fmt where
  | fp4 | int4 | e2m3 | e3m2 | e4m3 | e5m2 | int8 | bf16 | fp16 | int16 | fp32 | fp32p8 | fp64 | int32
deriving DecidableEq, Repr

/-- R55: the format of a format code. -/
def Fmt.ofCode : Nat → Option Fmt
  | 0 => some .fp4 | 1 => some .int4 | 2 => some .e2m3 | 3 => some .e3m2 | 4 => some .e4m3 | 5 => some .e5m2
  | 6 => some .int8 | 7 => some .bf16 | 8 => some .fp16 | 9 => some .int16 | 10 => some .fp32 | 11 => some .fp32p8
  | 12 => some .fp64 | 13 => some .int32 | _ => none

/-- R55: the format code. -/
def Fmt.code : Fmt → Nat
  | .fp4 => 0 | .int4 => 1 | .e2m3 => 2 | .e3m2 => 3 | .e4m3 => 4 | .e5m2 => 5 | .int8 => 6 | .bf16 => 7
  | .fp16 => 8 | .int16 => 9 | .fp32 => 10 | .fp32p8 => 11 | .fp64 => 12 | .int32 => 13

/-- R55: the width of an element in bits; FP32+8 counts its FP32 word, its lining byte lies in a plane of its own (R84). -/
def Fmt.width : Fmt → Nat
  | .fp4 | .int4 => 4 | .e2m3 | .e3m2 => 6 | .e4m3 | .e5m2 | .int8 => 8 | .bf16 | .fp16 | .int16 => 16
  | .fp32 | .fp32p8 | .int32 => 32 | .fp64 => 64

/-- R55: whether the format carries block scales. -/
def Fmt.blockScaled : Fmt → Bool
  | .fp4 | .int4 | .e2m3 | .e3m2 | .e4m3 | .e5m2 | .int8 => true
  | _ => false

/-- The integer formats of R55. -/
def Fmt.isInt : Fmt → Bool
  | .int4 | .int8 | .int16 | .int32 => true
  | _ => false

/-- R55: the seam modes; the formats without one are storage, reduction or output formats. -/
inductive Seam where
  | s1 | s4 | s16 | off
deriving DecidableEq, Repr

/-- R55: the seam mode of a format; `off` for the formats that name none. -/
def Fmt.seam : Fmt → Seam
  | .fp4 | .int4 => .s1
  | .e2m3 | .e3m2 | .e4m3 | .e5m2 | .int8 | .bf16 => .s4
  | .fp16 | .int16 | .fp32 => .s16
  | .fp32p8 | .fp64 | .int32 => .off

/-- Exponent width, fraction width and bias of a floating-point format (R55, R56); FP32+8 has 31 fraction bits (R83). -/
def Fmt.float : Fmt → Option (Nat × Nat × Nat)
  | .fp4 => some (2, 1, 1) | .e2m3 => some (2, 3, 1) | .e3m2 => some (3, 2, 3) | .e4m3 => some (4, 3, 7)
  | .e5m2 => some (5, 2, 15) | .bf16 => some (8, 7, 127) | .fp16 => some (5, 10, 15) | .fp32 => some (8, 23, 127)
  | .fp32p8 => some (8, 31, 127) | .fp64 => some (11, 52, 1023) | _ => none

/-- An exact value: NaN, a signed infinity, or (−1)^neg × mag × 2^ex. -/
inductive Num where
  | nan
  | inf (neg : Bool)
  | fin (neg : Bool) (mag : Nat) (ex : Int)
deriving DecidableEq, Repr

def Num.zero : Num := .fin false 0 0
def Num.one : Num := .fin false 1 0
def Num.ofNat (n : Nat) : Num := .fin false n 0
def Num.ofInt (i : Int) : Num := .fin (decide (i < 0)) i.natAbs 0

def Num.isFin : Num → Bool
  | .fin .. => true
  | _ => false

/-- R199: what the inputs of a value held: finite values only, an infinity but no NaN, or a NaN. -/
inductive Lineage where
  | finite | inf | nan
deriving DecidableEq, Repr

def Num.lineage : Num → Lineage
  | .fin .. => .finite
  | .inf _ => .inf
  | .nan => .nan

def Lineage.join (a b : Lineage) : Lineage := if a = .nan ∨ b = .nan then .nan else if a = .inf ∨ b = .inf then .inf else .finite

/-- R199: the kind of an event: INVALID where no input is a NaN and the result is one, PROPAGATED where another input is non-finite,
OVERFLOW where every input is finite. -/
def Lineage.kind (l : Lineage) (v : Num) : Nat :=
  if l = .nan then 2 else match v with | .nan => 1 | _ => if l = .inf then 2 else 0

/-- The inputs of several values together. -/
def lineages (ls : List Lineage) : Lineage := ls.foldl Lineage.join .finite

def Num.isZero : Num → Bool
  | .fin _ m _ => m == 0
  | _ => false

def Num.neg : Num → Num
  | .nan => .nan
  | .inf s => .inf (!s)
  | .fin s m e => .fin (!s) m e

def Num.abs : Num → Num
  | .nan => .nan
  | .inf _ => .inf false
  | .fin _ m e => .fin false m e

def Num.signBit : Num → Bool
  | .nan => false
  | .inf s => s
  | .fin s _ _ => s

/-- The signed multiple of 2^q that a finite value is, for a `q` not above its exponent. -/
def finAt (neg : Bool) (m : Nat) (e q : Int) : Int :=
  let v : Int := ((m <<< (e - q).toNat : Nat) : Int)
  if neg then -v else v

/-- The exact sum; an exact zero sum is +0 unless both operands are −0 (IEEE 754 round to nearest). -/
def Num.add : Num → Num → Num
  | .nan, _ => .nan
  | _, .nan => .nan
  | .inf a, .inf b => if a = b then .inf a else .nan
  | .inf a, _ => .inf a
  | _, .inf b => .inf b
  | .fin s m e, .fin t n f =>
    let q := min e f
    let v := finAt s m e q + finAt t n f q
    if v = 0 then .fin (s && t) 0 0 else .fin (decide (v < 0)) v.natAbs q

def Num.sub (a b : Num) : Num := a.add b.neg

/-- The exact product; Inf × 0 is NaN (R73). -/
def Num.mul : Num → Num → Num
  | .nan, _ => .nan
  | _, .nan => .nan
  | .inf a, .inf b => .inf (a != b)
  | .inf a, .fin t n _ => if n = 0 then .nan else .inf (a != t)
  | .fin s m _, .inf b => if m = 0 then .nan else .inf (s != b)
  | .fin s m e, .fin t n f => .fin (s != t) (m * n) (e + f)

/-- The value times 2^k, exact. -/
def Num.scale2 (k : Int) : Num → Num
  | .fin s m e => .fin s m (e + k)
  | x => x

/-- The exact order of two values that are not NaN: −1, 0 or 1; zeros of both signs are equal. -/
def Num.cmp : Num → Num → Int
  | .nan, _ => 0
  | _, .nan => 0
  | .inf a, .inf b => if a = b then 0 else if a then -1 else 1
  | .inf a, _ => if a then -1 else 1
  | _, .inf b => if b then 1 else -1
  | .fin s m e, .fin t n f =>
    let q := min e f
    let v := finAt s m e q - finAt t n f q
    if v < 0 then -1 else if v = 0 then 0 else 1

def Num.lt (a b : Num) : Bool := a != .nan && b != .nan && a.cmp b == -1
def Num.le (a b : Num) : Bool := a != .nan && b != .nan && a.cmp b != 1

/-- R228: the larger value; NaN when either is NaN, and −0 is less than +0. -/
def Num.max (a b : Num) : Num :=
  if a = .nan || b = .nan then .nan
  else if a.cmp b = 0 then (if a.signBit then b else a)
  else if a.cmp b = 1 then a else b

/-- R228: the smaller value; NaN when either is NaN, and −0 is less than +0. -/
def Num.min (a b : Num) : Num :=
  if a = .nan || b = .nan then .nan
  else if a.cmp b = 0 then (if a.signBit then a else b)
  else if a.cmp b = 1 then b else a

/-- How a value between two grid points is rounded: to nearest, ties to even; stochastically, with a 24-bit draw (R77); or
toward zero. -/
inductive Rnd where
  | near
  | stoch (draw : Nat)
  | trunc
deriving DecidableEq, Repr

/-- The integer that `n / d` rounds to. R77: the upper neighbour is taken when the draw is below
floor(2^24 × the remaining fraction). -/
def roundDiv (r : Rnd) (n d : Nat) : Nat :=
  let q := n / d
  let m := n % d
  match r with
  | .near => if 2 * m < d then q else if d < 2 * m then q + 1 else q + q % 2
  | .stoch draw => if draw < 16777216 * m / d then q + 1 else q
  | .trunc => q

/-- floor(log2 (n / d)) for n, d above 0. -/
def log2Div (n d : Nat) : Int :=
  let k : Int := (Nat.log2 n : Int) - (Nat.log2 d : Int)
  let ge : Bool := if k < 0 then decide (d ≤ n <<< (-k).toNat) else decide (d <<< k.toNat ≤ n)
  if ge then k else k - 1

/-- The magnitude (n / d) × 2^e rounded to `fb` fraction bits, no finer than 2^qmin: the significand and its exponent.
The grid has no upper end. -/
def roundMag (r : Rnd) (fb : Nat) (qmin : Int) (n d : Nat) (e : Int) : Nat × Int :=
  if n = 0 then (0, qmin)
  else
    let q := Max.max (log2Div n d + e - fb) qmin
    let s := e - q
    let m := if s < 0 then roundDiv r n (d <<< (-s).toNat) else roundDiv r (n <<< s.toNat) d
    if m = 2 ^ (fb + 1) then (2 ^ fb, q + 1) else (m, q)

/-- The exponent of the finest grid step of a format with `fb` fraction bits and bias `b`. -/
def qminOf (fb b : Nat) : Int := 1 - (b : Int) - (fb : Int)

/-- R56, R60, R61: the value of a floating-point code. -/
def decodeFloat (f : Fmt) (eb fb b : Nat) (code : Nat) : Num :=
  let s := bit code (eb + fb)
  let e := fld code (eb + fb - 1) fb
  let fr := code % 2 ^ fb
  let top := 2 ^ eb - 1
  match f with
  | .e4m3 => if e = top ∧ fr = 7 then .nan
             else if e = 0 then .fin s fr (qminOf fb b) else .fin s (2 ^ fb + fr) (qminOf fb b + (e - 1 : Nat))
  | .fp4 | .e2m3 | .e3m2 =>
             if e = 0 then .fin s fr (qminOf fb b) else .fin s (2 ^ fb + fr) (qminOf fb b + (e - 1 : Nat))
  | .fp32p8 => if e = top then (if fr / 256 = 0 then .inf s else .nan)
             else if e = 0 then .fin s fr (qminOf fb b) else .fin s (2 ^ fb + fr) (qminOf fb b + (e - 1 : Nat))
  | _ => if e = top then (if fr = 0 then .inf s else .nan)
         else if e = 0 then .fin s fr (qminOf fb b) else .fin s (2 ^ fb + fr) (qminOf fb b + (e - 1 : Nat))

/-- R56, R69: the value of an element code, its block and tensor scale not applied. -/
def Fmt.decode (f : Fmt) (code : Nat) : Num :=
  match f.float with
  | some (eb, fb, b) => decodeFloat f eb fb b code
  | none => Num.ofInt (sext f.width code)

/-- R61: the canonical NaN of a format. -/
def Fmt.nanCode : Fmt → Nat
  | .bf16 => 0x7FC0 | .fp16 => 0x7E00 | .fp32 => 0x7FC00000 | .fp64 => 0x7FF8000000000000
  | .e4m3 => 0x7F | .e5m2 => 0x7E | .fp32p8 => 0x7FC0000000 | _ => 0

/-- The code of a signed significand and exponent already on the format's grid. -/
def encodeMag (eb fb b : Nat) (neg : Bool) (mq : Nat × Int) : Nat :=
  let s := b2n neg <<< (eb + fb)
  if mq.1 < 2 ^ fb then s + mq.1
  else s + ((mq.2 - qminOf fb b).toNat + 1) <<< fb + (mq.1 - 2 ^ fb)

/-- The largest finite magnitude of a floating-point format, as a significand and an exponent (R55). -/
def Fmt.maxMag (f : Fmt) : Nat × Int :=
  match f with
  | .fp4 => (3, 1) | .e2m3 => (15, -1) | .e3m2 => (7, 2) | .e4m3 => (14, 5) | .e5m2 => (7, 13)
  | .bf16 => (255, 120) | .fp16 => (2047, 5) | .fp32 => (16777215, 104) | .fp32p8 => (2 ^ 32 - 1, 96)
  | .fp64 => (2 ^ 53 - 1, 971) | .int4 => (7, 0) | .int8 => (127, 0) | .int16 => (32767, 0) | .int32 => (2147483647, 0)

/-- Whether a magnitude exceeds the format's largest finite one. [DEDUCED, log 28] -/
def Fmt.above (f : Fmt) (mq : Nat × Int) : Bool :=
  Num.lt (.fin false f.maxMag.1 f.maxMag.2) (.fin false mq.1 mq.2)

/-- An IEEE result in FP32 or FP64 arithmetic: overflow gives an infinity (R80). -/
def Num.toIeee (f : Fmt) (r : Rnd) : Num → Nat
  | .nan => f.nanCode
  | .inf s => match f.float with
    | some (eb, fb, _) => b2n s <<< (eb + fb) + (2 ^ eb - 1) <<< fb
    | none => 0
  | .fin s m e => match f.float with
    | some (eb, fb, b) =>
      let mq := roundMag r fb (qminOf fb b) m 1 e
      if f.above mq then b2n s <<< (eb + fb) + (2 ^ eb - 1) <<< fb else encodeMag eb fb b s mq
    | none => 0

/-- The FP32 code of a value, rounded to nearest, ties to even (R80). -/
def Num.toFp32 (x : Num) : Nat := x.toIeee .fp32 .near

/-- A value rounded once to FP32 (R80). -/
def Num.fp32 (x : Num) : Num := Fmt.fp32.decode x.toFp32

/-- A value rounded once to FP64. -/
def Num.fp64 (x : Num) : Num := Fmt.fp64.decode (x.toIeee .fp64 .near)

/-- The exact value (n / d) × 2^e rounded once to FP32. -/
def fp32Ratio (neg : Bool) (n d : Nat) (e : Int) : Num :=
  let mq := roundMag .near 23 (qminOf 23 127) n d e
  if Fmt.fp32.above mq then .inf neg else .fin neg mq.1 mq.2

/-- The FP32 quotient, rounded once (IEEE 754). -/
def Num.div32 : Num → Num → Num
  | .nan, _ => .nan
  | _, .nan => .nan
  | .inf _, .inf _ => .nan
  | .inf a, .fin t _ _ => .inf (a != t)
  | .fin s _ _, .inf b => .fin (s != b) 0 0
  | .fin s m e, .fin t n f =>
    if n = 0 then (if m = 0 then .nan else .inf (s != t))
    else if m = 0 then .fin (s != t) 0 0
    else fp32Ratio (s != t) m n (e - f)

/-- The integer square root, by one bit of the result a step from bit `k` down. -/
def isqrtFrom : Nat → Nat → Nat → Nat
  | 0, _, r => r
  | k + 1, n, r => let c := r + 2 ^ k; isqrtFrom k n (if c * c ≤ n then c else r)

def isqrt (n : Nat) : Nat := isqrtFrom (Nat.log2 n / 2 + 1) n 0

/-- The FP32 square root, rounded once: the root is taken to more bits than FP32 holds, with a sticky bit below them. -/
def Num.sqrt32 : Num → Num
  | .nan => .nan
  | .inf s => if s then .nan else .inf false
  | .fin s m e =>
    if m = 0 then .fin s 0 0
    else if s then .nan
    else
      let e' := if e % 2 = 0 then e else e - 1
      let m' := if e % 2 = 0 then m else 2 * m
      let n := m' <<< 128
      let r := isqrt n
      let sticky := if r * r = n then 0 else 1
      (Num.fin false (2 * r + sticky) (e' / 2 - 65)).fp32

/-! ### Block scales -/

/-- R64: the value of a scale code 0x01 to 0xFE, 2^(e − 32) × (4 + m) / 4. -/
def scaleNum (c : Nat) : Num := .fin false (4 + c % 4) ((c / 4 : Nat) - 34 : Int)

/-- R65, R68, R79: an element of a block-scaled format with its block scale and tensor scale applied. -/
def decodeScaled (f : Fmt) (code scale : Nat) (t : Int) : Num :=
  if scale = 0 then .zero
  else if scale = 255 then .nan
  else ((f.decode code).mul (scaleNum scale)).scale2 t

/-- R74: the largest magnitude the quantiser writes. -/
def Fmt.maxval (f : Fmt) : Num := .fin false f.maxMag.1 f.maxMag.2

/-- R75: whether maxval × the value of scale code `c` reaches the magnitude `a`. -/
def scaleReaches (f : Fmt) (a : Num) (c : Nat) : Bool := a.le (f.maxval.mul (scaleNum c))

/-- The smallest code from `c` on, within `k` tries, that reaches `a`; else 0xFE (R75). -/
def findScale (f : Fmt) (a : Num) : Nat → Nat → Nat
  | 0, _ => 0xFE
  | k + 1, c => if scaleReaches f a c then c else findScale f a k (c + 1)

/-- R75: the scale code of a block with largest scaled magnitude `a`. -/
def scaleFor (f : Fmt) (a : Num) : Nat := findScale f a 254 1

/-- The events a conversion counts (R75, R79, R82), added to the stat record of the tag and role (R142). -/
structure QCount where
  nonFinite : Nat := 0
  zeroBlocks : Nat := 0
  crushed : Nat := 0
  saturated : Nat := 0
  clippedBlocks : Nat := 0
deriving DecidableEq, Repr

def QCount.add (a b : QCount) : QCount :=
  { nonFinite := a.nonFinite + b.nonFinite, zeroBlocks := a.zeroBlocks + b.zeroBlocks, crushed := a.crushed + b.crushed,
    saturated := a.saturated + b.saturated, clippedBlocks := a.clippedBlocks + b.clippedBlocks }

/-- The code of a magnitude on the grid of a block-scaled format. -/
def Fmt.encodeGrid (f : Fmt) (neg : Bool) (mq : Nat × Int) : Nat :=
  match f.float with
  | some (eb, fb, b) => encodeMag eb fb b neg mq
  | none => wrapInt f.width (if neg then -(mq.1 <<< mq.2.toNat : Nat) else (mq.1 <<< mq.2.toNat : Nat))

/-- R75: one element of a block, y divided by the scale and rounded onto the grid: the code, and whether it saturated and
whether it was crushed. A magnitude above maxval saturates (R75, R77). [DEDUCED, log 28] -/
def quantiseElem (f : Fmt) (c : Nat) (r : Rnd) (y : Num) : Nat × Bool × Bool :=
  match y with
  | .fin s m e =>
    if m = 0 then (0, false, false)
    else if Num.lt (f.maxval.mul (scaleNum c)) (.fin false m e) then (f.encodeGrid s f.maxMag, true, false)
    else
      let fb := match f.float with | some (_, fb, _) => fb | none => 64
      let qm := match f.float with | some (_, fb, b) => qminOf fb b | none => 0
      let mq := roundMag r fb qm m (4 + c % 4) (e - ((c / 4 : Nat) - 34 : Int))
      if mq.1 = 0 then (0, false, true) else (f.encodeGrid s mq, false, false)
  | _ => (0, false, false)

/-- The largest magnitude of a list of finite values. -/
def maxAbs (ys : List Num) : Num := ys.foldl (fun a y => if a.lt y.abs then y.abs else a) .zero

/-- R75: a block quantised, with a rounding choice for each element: the element codes, the scale byte and the counts. -/
def quantiseBlock (f : Fmt) (t : Int) (xs : List (Num × Rnd)) : List Nat × Nat × QCount :=
  let bad := (xs.filter (fun x => !x.1.isFin)).length
  if bad ≠ 0 then (xs.map (fun _ => 0), 0xFF, { nonFinite := bad })
  else
    let ys := xs.map (fun x => (x.1.scale2 (-t), x.2))
    let a := maxAbs (ys.map (·.1))
    if a.isZero then (xs.map (fun _ => 0), 0, { zeroBlocks := 1 })
    else
      let c := scaleFor f a
      let es := ys.map (fun y => quantiseElem f c y.2 y.1)
      let satd := (es.filter (·.2.1)).length
      let zero := es.all (fun e => e.1 == 0)
      (es.map (·.1), if zero then 0 else c,
        { crushed := (es.filter (·.2.2)).length, saturated := satd, clippedBlocks := b2n (decide (satd ≠ 0)),
          zeroBlocks := b2n zero })

/-! ### Conversions without block scales -/

/-- R82: an integer result into a signed range of `n` bits: the code and whether it left the range. `wrap` is the ovf field. -/
def narrowInt (n : Nat) (wrap : Bool) (i : Int) : Nat × Bool :=
  let lo : Int := -((2 ^ (n - 1) : Nat) : Int)
  let hi : Int := ((2 ^ (n - 1) : Nat) : Int) - 1
  if lo ≤ i ∧ i ≤ hi then (wrapInt n i, false)
  else if wrap then (wrapInt n i, true)
  else (wrapInt n (if i < lo then lo else hi), true)

/-- R79, R81: a value into BF16, FP16, FP32, FP64 or FP32+8: the code and the counts. A finite value too large for BF16 or
FP16 saturates; FP32 and FP64 overflow to an infinity. -/
def convFloat (f : Fmt) (r : Rnd) (x : Num) : Nat × QCount :=
  match x, f.float with
  | .fin s m e, some (eb, fb, b) =>
    let isOver := match r with
      | .stoch _ => Num.lt f.maxval (.fin false m e)
      | _ => f.above (roundMag r fb (qminOf fb b) m 1 e)
    if (f = .bf16 ∨ f = .fp16) ∧ isOver = true then (encodeMag eb fb b s f.maxMag, { saturated := 1 })
    else (x.toIeee f r, {})
  | .fin .., none => (0, {})
  | _, _ => (x.toIeee f r, { nonFinite := 1 })

/-- The integer a finite value rounds to. -/
def roundToInt (r : Rnd) (s : Bool) (m : Nat) (e : Int) : Int :=
  let n := if e < 0 then roundDiv r m (2 ^ (-e).toNat) else m <<< e.toNat
  if s then -(n : Int) else n

/-- R79, R81: a floating-point value into an integer format: NaN gives 0, an infinity the largest integer of its sign.
[DESIGN CHOICE, log 82] -/
def convInt (n : Nat) (wrap : Bool) (r : Rnd) (x : Num) : Nat × QCount :=
  match x with
  | .nan => (0, { nonFinite := 1 })
  | .inf s => (wrapInt n (if s then -((2 ^ (n - 1) : Nat) : Int) else ((2 ^ (n - 1) : Nat) : Int) - 1), { nonFinite := 1 })
  | .fin s m e =>
    let c := narrowInt n wrap (roundToInt r s m e)
    (c.1, { saturated := b2n c.2 })

/-- R85: a master value rounded once to 31 fraction bits: the FP32 word and the lining byte. -/
def toFp32p8 (x : Num) : Nat × Nat :=
  match x with
  | .fin .. =>
    let c := x.toIeee .fp32p8 .near
    if fld c 38 31 = 255 then (c / 256, 0) else (c / 256, c % 256)
  | _ => (x.toFp32, 0)

/-- R83: the value of an FP32 word with its lining byte; a lining byte beside exponent field 255 reads as zero. -/
def ofFp32p8 (w x : Nat) : Num := Fmt.fp32p8.decode (w * 256 + (if fld w 30 23 = 255 then 0 else x % 256))

/-! ### Which conversions exist -/

/-- R81: the pairs of formats a conversion may name. -/
def convAllowed (src dst : Fmt) : Bool :=
  match src, dst with
  | .fp32, .fp32 | .bf16, .bf16 | .fp16, .fp16 | .fp64, .fp64 | .int16, .int16 | .int32, .int32 => true
  | .fp32, .bf16 | .fp32, .fp16 | .fp32p8, .bf16 | .fp32p8, .fp16 | .fp32, .int16 | .fp32p8, .int16 => true
  | .bf16, .fp32 | .fp16, .fp32 | .int16, .fp32 | .int32, .fp32 => true
  | .fp32, .fp32p8 | .fp32p8, .fp32 | .fp32, .fp64 | .fp64, .fp32 => true
  | .int32, .int4 | .int32, .int8 | .int32, .int16 => true
  | s, d => (d.blockScaled && (s == .fp32 || s == .bf16 || s == .fp16 || s == .fp32p8)) || (s.blockScaled && d == .fp32)

/-- R66: whether the tensor scale applies to a conversion. -/
def usesTensorScale (src dst : Fmt) : Bool :=
  (dst.blockScaled && src != .int32) || (dst == .int16 && (src == .fp32 || src == .fp32p8))

/-- R66: the range a tensor scale exponent must lie in. -/
def tOk (t : Int) : Bool := decide (-64 ≤ t) && decide (t ≤ 64)

/-! ### Stitch operand form -/

/-- An operand of the array: a finite (sign, significand, exponent) or a non-finite marker (R69, R73). -/
inductive StitchOp where
  | nan
  | inf (neg : Bool)
  | fin (neg : Bool) (sig ex : Nat)
deriving DecidableEq, Repr

/-- R71: the format constant k. -/
def Fmt.k : Fmt → Nat
  | .fp4 => 1 | .e2m3 => 3 | .e3m2 => 4 | .e4m3 => 9 | .e5m2 => 16 | .bf16 => 133 | .fp16 => 24 | .fp32 => 149 | _ => 0

/-- R69: an element code in stitch operand form. -/
def Fmt.stitch (f : Fmt) (code : Nat) : StitchOp :=
  match f.decode code, f.float with
  | .nan, _ => .nan
  | .inf s, _ => .inf s
  | .fin s _ _, some (eb, fb, _) =>
    let e := fld code (eb + fb - 1) fb
    .fin s (if e = 0 then code % 2 ^ fb else 2 ^ fb + code % 2 ^ fb) (Nat.max e 1 - 1)
  | .fin s m _, none => .fin s m 0

/-- R69: the value of a stitch operand of a format. -/
def StitchOp.value (f : Fmt) : StitchOp → Num
  | .nan => .nan
  | .inf s => .inf s
  | .fin s sig ex => .fin s sig ((ex : Int) - f.k)

/-- R72: the high 16 or low 8 bits of an FP32 significand, both with the operand's sign and exponent. -/
def StitchOp.half (hi : Bool) : StitchOp → StitchOp
  | .fin s sig ex => .fin s (if hi then sig / 256 * 256 else sig % 256) ex
  | x => x

/-- R73: the product of two operands. -/
def stitchMul (fw fa : Fmt) (w a : StitchOp) : Num := (w.value fw).mul (a.value fa)

end Sys2Proof.Machine
end

