-- ==== Sys2Proof/Machine/State.lean ====
section
/-! DEFINITION. The state of the module as plain data, grouped by the chapter of the spec that names it, and the state after
reset. Sets of units are sparse maps whose default is the unit at reset. -/

namespace Sys2Proof.Machine

/-- Why a step stops with a fault. [DESIGN CHOICE, log 4] -/
inductive Fault where
  /-- The command names a unit the module does not have (core 24 and above, and so on: R12). Raised by a meaning whose operand is out
  of range. Safe: the hardware has no such unit, so no run of it takes such a step. -/
  | noSuchUnit
deriving DecidableEq, Repr

/-- Why a step is refused. -/
inductive Refusal where
  /-- The command has no meaning yet in this model; raised by its arm of the dispatch, by name. Safe: nothing is claimed. -/
  | notModelled (mnemonic : String)
deriving DecidableEq, Repr

/-! ### Command streams and queues (chapter 6) -/

/-- A tensor descriptor as read at dispatch (R218); `resv` says that a reserved bit or byte was not zero (R571). -/
structure Desc where
  data : Nat := 0
  scale : Nat := 0
  aux : Nat := 0
  capacity : Nat := 0
  rows : Nat := 0
  cols : Nat := 0
  stride : Nat := 0
  jitCapacity : Nat := 0
  jit : Nat := 0
  tag : Nat := 0
  role : Nat := 0
  tagged : Bool := false
  fmt : Nat := 0
  layout : Nat := 0
  domain : Nat := 0
  keySlot : Nat := 0
  blockDim : Nat := 0
  resv : Bool := false
  /-- the same of fmt and tag_role, which some commands ignore (R219) -/
  resvFmt : Bool := false
deriving DecidableEq, Repr

/-- R206: the stages of a wide command after its dispatch. -/
inductive Stage where
  | dispatched | issued | complete
deriving DecidableEq, Repr

/-- R255: the registers, return stack and pc of a queue, saved at the dispatch of a wide command. -/
structure Checkpoint where
  g : SMap Word := []
  a : SMap Word := []
  pc : Word := 0
  rstack : List Word := []
deriving DecidableEq, Repr

/-- An operand of a wide command after dispatch: its descriptor with the format and tensor scale it resolved to (R135, R162). -/
structure Operand where
  desc : Desc := {}
  fmt : Nat := 0
  t : Int := 0
  tag : Nat := 0
  role : Nat := 0
  tagged : Bool := false
  adapt : Bool := false
  toJit : Bool := false
deriving DecidableEq, Repr

/-- An update descriptor as read at dispatch (R333). -/
structure UpdDesc where
  grad : Nat := 0
  gradScale : Nat := 0
  master : Nat := 0
  lining : Nat := 0
  mom1 : Nat := 0
  mom2 : Nat := 0
  train : Nat := 0
  trainScale : Nat := 0
  gen : Nat := 0
  genScale : Nat := 0
  state : Nat := 0
  elements : Nat := 0
  beta1 : Nat := 0
  beta2 : Nat := 0
  eps : Nat := 0
  wd : Nat := 0
  trainCapacity : Nat := 0
  gradFmt : Nat := 0
  momFmt : Nat := 0
  copyFmt : Nat := 0
  flags : Nat := 0
  tagRole : Nat := 0
  domain : Nat := 0
  gradT : Nat := 0
deriving DecidableEq, Repr

/-- A dispatched, unretired wide command (R206). -/
structure Wide where
  cseq : Nat := 0
  w : Words := { w0 := 0 }
  stage : Stage := .dispatched
  status : Nat := 0
  outcome : Nat := 0
  fmts : Nat := 0
  domain : Nat := 0
  pc : Word := 0
  /-- completed at its check, so it never issued (R206) -/
  failedCheck : Bool := false
  /-- held by a trap, with its cause (R251) -/
  held : Option Nat := none
  replayed : Bool := false
  issueTime : Nat := 0
  ops : SMap Operand := []
  /-- the fit step and the operands that its check settled, which a RETRY or a re-run keeps (R186, R208) -/
  prior : Option (Nat × SMap Operand) := none
  /-- the core that owns its queue (R255, R471) -/
  home : Nat := 0
  /-- a tack it names had another domain as it dispatched (R264) -/
  tackBad : Bool := false
  /-- SKIP retires it with its status, which traps no more (R253) -/
  skipped : Bool := false
  passes : Nat := 0
  /-- the engine that took each output tile of an MM, plus 1 (R198) -/
  takers : SMap Nat := []
  /-- tiles of a tile-queue command: taken and done (R241, R243) -/
  taken : Nat := 0
  done : Nat := 0
  tiles : Nat := 0
  /-- the queues and sequence numbers a FENCE, or a STREAM_CLOSE, waits for (R239, R184) -/
  waits : List (Nat × Nat) := []
  /-- R236: the COLL NORM a UPD is bound to, by queue and cseq, and the record latched from it -/
  normOf : Option (Nat × Nat) := none
  normRec : Option (List Byte) := none
  /-- UPD: the path in force, the step size latched at issue, and the block groups done (R344, R341, R329) -/
  fallback : Bool := false
  lr : Nat := 0
  /-- UPD: the amax of the new master values so far, an FP32 code (R330, R331) -/
  amax : Nat := 0
  /-- COLL: the collective it started (R282) -/
  coll : Option (Nat × Nat) := none
  /-- a source unit was poisoned (R309) -/
  poisoned : Bool := false
  /-- a bad channel scale has been logged for this MM (R67) -/
  chanLogged : Bool := false
  /-- values of an MM's output blocks that several output tiles share, until each block is whole: by index in the view, with their
  lineage (R568); the new master values of a UPD whose pass is split (R165) -/
  split : SMap (Option (Num × Lineage)) := []
  /-- the first row that an MM or SHUTTLE writes of its destination ring, by R98's count, once it has begun -/
  ringBase : Option Nat := none
  /-- the t that the amax of a staging buffer gave, once taken, and the rows of its ring that the expansion has written (R165) -/
  jitT : Option Int := none
  expanded : Nat := 0
  /-- what the values in its staging buffer came from, where not all was finite, by their place there (R165, R199) -/
  stagedIn : SMap Lineage := []
  /-- shadow samples of the MM not yet charged (R145, R148) -/
  shadowLeft : Nat := 0
  /-- the conversion is measured (R140), and the fit step in force at its dispatch (R144, R330) -/
  measured : Bool := false
  fitStep : Nat := 0
  /-- heritage execution (R201) -/
  heritage : Bool := false
  /-- its descriptors have been read (R208) -/
  readDone : Bool := false
  /-- held by R151: its ADAPT fields are not yet resolved and its check is still to run -/
  unchecked : Bool := false
  /-- UPD: its descriptor, the recipe of the table in force at dispatch, and t_g (R333, R339, R572) -/
  upd : Option UpdDesc := none
  recipe : List Nat := []
  tG : Int := 0
  /-- the bytes a shuttle has still to fetch from host memory, when it waits for a completion (R409) -/
  hostWait : Nat := 0
  /-- the bytes of host memory that arrived with EP set, by address and length (R407) -/
  ep : List (Nat × Nat) := []
  /-- its END record has been made (R532) -/
  endMade : Bool := false
  ck : Checkpoint := {}
deriving DecidableEq, Repr

/-- The submission a core queue runs (R244, R245). -/
structure Submission where
  port : HostPort := .ha
  hq : Nat := 0
  userTag : Nat := 0
  recAll : Bool := false
  irq : Bool := false
  /-- the stream lies in host memory (bit 0 of the entry's stream field) -/
  onHost : Bool := false
  base : Nat := 0
  words : Nat := 0
  /-- END has run, or the word count is exhausted (R245) -/
  ended : Bool := false
  /-- the first status other than ST_OK (R247) -/
  status : Nat := 0
  lastCseq : Option Nat := none
  lastCore : Option Nat := none
deriving DecidableEq, Repr

/-- A completion record waiting for ring space (R247, R249). -/
structure PendingRec where
  bytes : List Byte
  isEnd : Bool
  irq : Bool
deriving DecidableEq, Repr

/-- A trap of a core queue (R251, R254). -/
structure Trap where
  cause : Nat
  code : Nat := 0
  pc : Word := 0
  /-- the trapped record has been made (R251 step 3) -/
  recorded : Bool := false
deriving DecidableEq, Repr

/-- A core queue, under its owning core: 8 × core + queue (R205). -/
structure CoreQ where
  g : SMap Word := []
  a : SMap Word := []
  pc : Word := 0
  rstack : List Word := []
  cseq : Nat := 0
  rseq : Nat := 0
  lastStatus : Nat := 0
  lastOutcome : Nat := 0
  trapOnStatus : Bool := true
  trap : Option Trap := none
  stopped : Bool := false
  sub : Option Submission := none
  inflight : List Wide := []
  recs : List PendingRec := []
  /-- the host queue last served, 64 × port + n, plus 1; 0 for none (R246) -/
  lastHq : Nat := 0
  /-- the core now serving the queue, plus 1, when a sibling does; 0 when its own core does (R255, R470) -/
  movedTo : Nat := 0
  /-- re-running commands up to this cseq after a move (R255) -/
  replayTo : Nat := 0
  /-- the commands that run again, as they stood when the queue moved (R255, R186) -/
  reruns : List Wide := []
deriving DecidableEq, Repr

/-- Lost-host handling of a host queue (R421 to R425). -/
structure LostHandling where
  cancel : Bool := false
  converted : Bool := false
  status : Nat := 0
  discarded : Nat := 0
  userTag : Nat := 0
  cseq : Nat := 0
  tailLimit : Nat := 0
  deadline : Nat := 0
  settled : Bool := false
deriving DecidableEq, Repr

/-- A host queue, 64 × port + n (R243 to R250). -/
structure HostQ where
  enable : Bool := false
  stopping : Bool := false
  lostPolicy : Nat := 0
  core : Nat := 0
  cq : Nat := 0
  sizeLog2 : Nat := 0
  vec : Nat := 0
  sring : Nat := 0
  cring : Nat := 0
  tail : Nat := 0
  shead : Nat := 0
  ctail : Nat := 0
  head : Nat := 0
  /-- the user tag of the last submission that ran -/
  lastTag : Nat := 0
  /-- the phase bit of the current pass of the completion ring (R247) -/
  phase : Bool := true
  lost : Option LostHandling := none
deriving DecidableEq, Repr

/-! ### Tacks (chapter 7) -/

/-- A waiter of a tack (R258). -/
structure Waiter where
  queue : Nat
  cseq : Nat
  eq : Bool
  operand : Nat
  deadline : Option Nat
deriving DecidableEq, Repr

/-- A tack (R258). -/
structure Tack where
  value : Nat := 0
  arrivals : Nat := 0
  arriveN : Nat := 0
  mismatch : Bool := false
  sourceLost : Bool := false
  waiters : List Waiter := []
  remoteOk : Bool := false
  srcKind : Nat := 0
  srcId : Nat := 0
  domain : Nat := 0
deriving DecidableEq, Repr

/-- A command-scoped counter (R285 to R289); the latches are those of HA, HB and the management controller. -/
structure Scoped where
  live : Nat := 0
  liveSeq : Nat := 0
  snap : Nat := 0
  snapSeq : Nat := 0
  latchLive : SMap (Option Nat) := []
  latchSnap : SMap (Option Nat) := []
deriving DecidableEq, Repr

/-! ### Memory system (chapter 8) -/

/-- R320: what an arbiter keeps of one requester. -/
structure Requester where
  losses : Nat := 0
  wait : Nat := 0
deriving DecidableEq, Repr

/-- R320: an arbiter. -/
structure Arbiter where
  owner : Nat := 0
  lastWinner : Nat := 0
  reqs : SMap Requester := []
  /-- the requester granted last, plus 1; 0 before the first grant -/
  granted : Nat := 0
deriving DecidableEq, Repr

/-- A raw page of a channel as the hub keeps it (R307, R308): the corrected errors seen, and its replacement. -/
structure Page where
  lastCorrected : Option Nat := none
  uncorrectableAt : Option Nat := none
  replacement : Nat := 0
  retired : Bool := false
  /-- units copied so far while the retirement runs -/
  copied : Nat := 0
  copying : Bool := false
deriving DecidableEq, Repr

/-- A memory channel (R303 to R310). -/
structure Channel where
  fenced : Bool := false
  atBringUp : Bool := false
  failedRetunes : Nat := 0
  delay : Int := 0
  /-- the window in which a retune holds the channel (R305) -/
  heldFrom : Nat := 0
  heldUntil : Nat := 0
  pages : SMap Page := []
  remaps : Nat := 0
  zqAt : Nat := 0
deriving DecidableEq, Repr

/-- A hub (R295 to R311). -/
structure Hub where
  lost : Bool := false
  controllerFailed : Bool := false
  liveChannels : Nat := 0
  ucieLive : Nat := 0
  localLimit : Nat := 0
  retiredPages : Nat := 0
  sparePages : Nat := 0
  stripesTaken : Nat := 0
  refused : Nat := 0
  corrected : Nat := 0
  uncorrectable : Nat := 0
  scrubPos : Nat := 0
  scrubPasses : Nat := 0
  resends : Nat := 0
  retrains : Nat := 0
  refreshRate : Nat := 0
  halved : Bool := false
  lastRetune : Nat := 0
  lastMr4 : Nat := 0
  lastTrainingWrite : Nat := 0
  /-- tokens in use of each ingress requester (R319) -/
  tokens : SMap Nat := []
  /-- the requester of each request granted and not yet carried out, oldest first (R319) -/
  requests : List Nat := []
  /-- the UCIe module that the next burst takes (R326) -/
  ucieNext : Nat := 0
deriving DecidableEq, Repr

/-- One direction of a block stream (R323 to R325): the receiver's expected sequence, the sender's next one, its replay buffer with the
sequence of each block, and the failures of the expected one since it last passed. -/
structure BlockLink where
  expected : Nat := 0
  nextSeq : Nat := 0
  replay : List (Nat × Block) := []
  resends : Nat := 0
  ackOwed : Bool := false
  nackSent : Bool := false
  /-- how far behind the failed block a later one has been seen since the last negative acknowledgement -/
  ahead : Nat := 0
deriving DecidableEq, Repr

/-! ### Host ports (chapter 11) and transactions (chapter 12) -/

/-- An MSI-X vector (R408). [PRESUMED, log 10] -/
structure MsixVec where
  addr : Nat := 0
  data : Nat := 0
  ctl : Nat := 1
  pending : Bool := false
deriving DecidableEq, Repr

/-- An outstanding module read of host memory (R402, R407). -/
structure HostRead where
  tag : Nat
  queue : Nat
  cseq : Nat
  deadline : Nat
  /-- the bytes of host memory asked for -/
  addr : Nat := 0
  len : Nat := 0
deriving DecidableEq, Repr

/-- R438 to R447: the states of a port's configuration transaction. -/
inductive TxnState where
  | idle | opened | doomed | sewing
deriving DecidableEq, Repr

/-- A port's configuration transaction (R438). -/
structure Txn where
  state : TxnState := .idle
  staged : List (Nat × Nat) := []
  released : Bool := false
  idleNs : Nat := 0
  lastTouch : Nat := 0
  status : Nat := 0
  endCause : Nat := 0
  seq : Nat := 0
  /-- R316: the granules assigned at the sew point whose zero-fill runs: first and count -/
  filling : List (Nat × Nat) := []
  /-- R443: the fabric ports that the sew point takes down to retrain -/
  retrain : List Nat := []
deriving DecidableEq, Repr

/-- One host port (R402 to R414). -/
structure Port where
  linkUp : Bool := false
  width : Nat := 0
  rate : Nat := 0
  perst : Bool := true
  d3hot : Bool := false
  heldDown : Bool := false
  bar2Log2 : Nat := 36
  cfg : SMap Nat := []
  msixEnable : Bool := false
  msixMask : Bool := false
  msix : SMap MsixVec := []
  /-- messages sent, newest last: the vector numbers -/
  msixSent : List Nat := []
  evqEnable : Bool := false
  evqSize : Nat := 0
  evqVec : Nat := 0
  evqHead : Nat := 0
  evqTail : Nat := 0
  evqPhase : Bool := true
  evqBase : Nat := 0
  heartbeat : Nat := 0
  claimResult : Nat := 0
  nextTag : Nat := 0
  reads : List HostRead := []
  /-- read requests that wait for a tag (R403) -/
  asks : List HostRead := []
  /-- Device Control and Device Control 2 of the PCI Express capability (R402, R403) -/
  devCtl : Nat := 0x2000
  devCtl2 : Nat := 0
  /-- lost-host handling: its cause and the queues under it (R426) -/
  lostCause : Nat := 0
  lostQueues : Nat := 0
  lostOpen : Bool := false
  ideRequired : Bool := false
  ideKeys : SMap Nat := []
  ideSecure : List Nat := []
  spdmPsk : Bool := false
  aerCor : Nat := 0
  aerUnc : Nat := 0
  /-- writes and reads that wait for freeze to end (R429), oldest first -/
  waiting : List Instr := []
  /-- the model's own mark: the access being served is one of those that waited -/
  draining : Bool := false
  /-- the last completion returned to this host: its data, whether it is poisoned, and whether it is a Completer Abort -/
  lastRead : Nat := 0
  lastBytes : List Byte := []
  lastEp : Bool := false
  lastAbort : Bool := false
  txn : Txn := {}
deriving DecidableEq, Repr

/-- R415 to R420: who is steward. -/
structure Roles where
  assigned : Bool := false
  steward : Option HostPort := none
  claim : Nat := 0
  silence : Nat := 0
  lastHb : Nat := 0
  graceEnds : Nat := 0
  /-- when a port took a role that nobody held because its link came up (R415) -/
  upAt : Option Nat := none
deriving DecidableEq, Repr

/-- An event (R411). -/
structure Event where
  code : Nat
  time : Nat
  payload : Nat
deriving DecidableEq, Repr

/-! ### Errors and fencing (chapter 13) -/

/-- The containment domain kinds of R457. -/
inductive DomKind where
  | module | core | queue | channel | hub | ucie | port | slice | hostPort | job
deriving DecidableEq, Repr

/-- An error record (R462), and the step its handling unit has reached (R464). -/
structure ErrRec where
  seq : Nat := 0
  version : Nat := 0
  time : Nat := 0
  source : Nat := 0
  cls : Nat := 0
  firstCls : Nat := 0
  isOpen : Bool := false
  escalated : Bool := false
  coalesced : Bool := false
  overflow : Bool := false
  memDomain : Option Nat := none
  count : Nat := 1
  kind : DomKind := .module
  domId : Nat := 0
  detail : Nat := 0
  step : Nat := 0
deriving DecidableEq, Repr

/-- The error queue (R462 to R467). `slots` holds the records held; `offQueue` the open records that R466 pushed out. -/
structure ErrQueue where
  slots : SMap (Option ErrRec) := []
  offQueue : List ErrRec := []
  nextSeq : Nat := 1
  newest : Nat := 0
  lost : Nat := 0
  raised : Nat := 0
  stored : Nat := 0
  merged : Nat := 0
  coalesced : Nat := 0
  checks : Nat := 0
  replayMismatch : Nat := 0
  storeMismatch : Nat := 0
  tokenRestores : Nat := 0
  rebuilds : Nat := 0
  /-- the record each handling unit works on: 0 management controller, 1 sequencers, 2 link control, 3 + h hub controllers -/
  handling : SMap Nat := []
deriving DecidableEq, Repr

/-- CORE_FENCE_CTL's states. -/
inductive FenceState where
  | inService | fencing | fenced | scrubbing | testing
deriving DecidableEq, Repr

/-- A core (chapters 6, 8, 13). -/
structure Core where
  fence : FenceState := .inService
  withdrawn : Bool := false
  bySw : Bool := false
  source : Nat := 0
  stoppedAtFence : Nat := 0
  /-- guest contexts: the owner queue of each, plus 1 (R470) -/
  guests : SMap Nat := []
  /-- the tile queue: queue and cseq of each command, oldest first (R241) -/
  tileQ : List (Nat × Nat) := []
  /-- the shuttles: the queue and cseq each works for (R229) -/
  shuttle0 : Option (Nat × Nat) := none
  shuttle1 : Option (Nat × Nat) := none
  lastServed : Nat := 7
  scrubBusy : Bool := false
  sramDomain : Nat := 0
  sramPending : Option Nat := none
  /-- allocation blocks SCRUBBING and WITHDRAWN; the rest of 512 are SERVING (R480) -/
  blocksScrub : Nat := 0
  blocksOut : Nat := 0
deriving DecidableEq, Repr

/-! ### Chalk, freeze and counters (chapter 15) -/

/-- The states of a chalk buffer. -/
inductive ChalkState where
  | stopped | recording | postTrigger | full
deriving DecidableEq, Repr

/-- A chalk record waiting in the writer: its position and bytes (R538). -/
structure ChalkWait where
  buf : Nat
  pos : Nat
  bytes : List Byte
  time : Nat
deriving DecidableEq, Repr

/-- A chalk buffer (R534 to R541); the configuration fields are those of OBS_CHALK_CFG. -/
structure Chalk where
  cfg : Nat := 0
  base : Nat := 0
  state : ChalkState := .stopped
  triggered : Bool := false
  wrapped : Bool := false
  next : Nat := 0
  trigPos : Nat := 0
  head : Nat := 0
  count : Nat := 0
  post : Nat := 0
  lostTotal : Nat := 0
  pending : Nat := 0
deriving DecidableEq, Repr

/-- Freeze (R542 to R548). -/
structure Freeze where
  frozen : Bool := false
  pin : Bool := false
  sw : Bool := false
  chalk : Bool := false
  pinEnable : Bool := true
  holding : Bool := false
  holdExpired : Bool := false
  roError : Bool := false
  freezes : Nat := 0
  began : Nat := 0
  frozenMs : Nat := 0
  roSel : Nat := 0
deriving DecidableEq, Repr

/-! ### The stitch array (chapters 1 and 3) -/

/-- A row of a ring whose lanes are still being read (R99): its number in the ring, the warp it meets, the columns of its tile, whether the
tile is of the first column block, what each pass has read of it, and its block scales. -/
structure RowReading where
  place : Nat
  codes : List Nat
  scales : List Nat
  off : Nat
  cols : Nat
  first : Bool
  lanes : List (List Nat) := []
  weftScales : List Nat := []
deriving DecidableEq, Repr

/-- A weft row inside the array (R95): its row of the output tile, the wave E_g it entered, its passes, and its column sums. -/
structure RowFlight where
  queue : Nat
  cseq : Nat
  otile : Nat
  tile : Nat
  row : Nat
  entered : Nat
  passes : Nat
  hc : Nat
  wc : Nat
  sums : List Num
  /-- what the products of each column took in (R199) -/
  inputs : List Lineage := []
  /-- the sums of a row of a ring follow from it once it is read -/
  reading : Option RowReading := none
deriving DecidableEq, Repr

/-- An output tile that an engine has taken (R93, R119): its hem region and its progress along the reduction dimension. -/
structure Region where
  queue : Nat := 0
  cseq : Nat := 0
  otile : Nat := 0
  pleat : Nat := 0
  /-- the configuration tag (R124): the rectangle's panels and the mode -/
  top : Nat := 0
  left : Nat := 0
  bottom : Nat := 0
  right : Nat := 0
  mode : Seam := .off
  depth : Nat := 0
  through : Bool := false
  rows : Nat := 0
  tiles : Nat := 0
  nextTile : Nat := 0
  /-- accumulators, at row × 256 + column -/
  acc : SMap (Option Num) := []
  /-- rows the epilogue has taken -/
  taken : Nat := 0
  /-- rows whose last tile has latched in every column -/
  ready : Nat := 0
  entered : Nat := 0
  /-- what the products of each accumulator took in (R199), and the accumulators whose INT32 result left its range (R82) -/
  inputs : SMap Lineage := []
  leftRange : List Nat := []
deriving DecidableEq, Repr

/-- One weft row as the edge delivers it (R95, R99): for each cell row the element's code, as the first pass read it and, where they read it again, as
the later ones did, the scale byte of each block, and how far the first element stands inside its block. -/
structure WeftRow where
  codes : List Nat := []
  later : List (List Nat) := []
  scales : List Nat := []
  off : Nat := 0
deriving DecidableEq, Repr

/-- What the shuttles filled an engine's bobbins with for one tile (R93): the warp tile and its scale plane as R117 lays them out, and
the weft rows not yet streamed, oldest first, where no ring of the program's own holds them. -/
structure Fill where
  warp : List Byte := []
  scales : List Byte := []
  weft : List WeftRow := []
deriving DecidableEq, Repr

/-- The tile running on a pleat: its output tile, its index along the reduction dimension, its stream, and its operands in the bobbins. -/
structure TileRun where
  queue : Nat
  cseq : Nat
  otile : Nat
  tile : Nat
  /-- the wave its warp load began, once begun (R115) -/
  loadAt : Option Nat := none
  /-- the first wave its edge is open (R115) -/
  opens : Nat := 0
  nextRow : Nat := 0
  rows : Nat := 0
  loadw : Bool := false
  fill : Fill := {}
deriving DecidableEq, Repr

/-- R223, R224: the warp that LOADW left resident in a pleat. -/
structure Resident where
  dAddr : Nat
  fmt : Nat
deriving DecidableEq, Repr

/-- A pleat of an engine (R110 to R129). -/
structure Pleat where
  run : Option TileRun := none
  /-- the wave of the last entry, last pass included (R115) -/
  lastEntry : Nat := 0
  /-- the wave after the one in which the hem latches the last sum of that entry (R125) -/
  lastLatch : Nat := 0
  /-- the warp in the stitches: element codes by R117, the scale byte of each (block, column), and how far its first row stands inside
  its block -/
  codes : List Nat := []
  scales : List Nat := []
  off : Nat := 0
  /-- a drain runs, and the first wave in which every cell is empty of old sums (R125) -/
  draining : Bool := false
  drainEnd : Nat := 0
  resident : Option Resident := none
  lastHeritage : Nat := 0
deriving DecidableEq, Repr

/-- A sampled sub-tile waiting for its FP32 reference (R145 to R148). -/
structure ShadowSample where
  queue : Nat
  cseq : Nat
  row0 : Nat
  col0 : Nat
  rows : Nat
  cols : Nat
  narrow : List Num
  /-- the values of the rows of a weft ring that the sub-tile reads, as they passed the edge: at row × 2^16 + tile (R146) -/
  weft : SMap (List Num) := []
deriving DecidableEq, Repr

/-- A SEAM waiting on an engine (R125 to R127). -/
structure SeamWait where
  queue : Nat
  cseq : Nat
  map : Nat
  modes : Nat
deriving DecidableEq, Repr

/-- A weft ring's counts, in rows (R100), and the commands that write it, by queue and cseq, in the order in which they began. -/
structure RingCount where
  fill : Nat := 0
  consume : Nat := 0
  writers : List (Nat × Nat) := []
deriving DecidableEq, Repr

/-- An engine (R37, R46, R110 to R133). -/
structure Engine where
  wave : Nat := 0
  rateValid : Bool := false
  rateSeq : Nat := 0
  rate : Nat := 0
  /-- when the monitor's window in progress began (R46) -/
  rateFrom : Nat := 0
  map : Nat := 0
  mode : Nat := 0xFFFFFFFC
  pleats : SMap Pleat := []
  regions : List Region := []
  flight : List RowFlight := []
  /-- the warp bobbin port: held before this wave, and the pleats whose loads wait, oldest first (R116) -/
  portFree : Nat := 0
  loadQ : List Nat := []
  /-- row groups, by their top panel row: the pleat last served, plus 1, and the wave before which its words hold the lanes (R113) -/
  lastServed : SMap Nat := []
  laneBusy : SMap Nat := []
  rings : SMap RingCount := []
  seam : Option SeamWait := none
  samples : List ShadowSample := []
  /-- the pleat after the one whose row the epilogue took last (R121) -/
  epilogueNext : Nat := 0
deriving DecidableEq, Repr

/-! ### Precision steering and training numerics (chapters 4 and 5) -/

/-- A stat record (R141). amax and shadowMax are FP32 codes, shadowErr an FP64 code. -/
structure StatRec where
  rung : Nat := 0
  touched : Bool := false
  stepLo : Nat := 0
  digest : Nat := 0
  amax : Nat := 0
  shadowMax : Nat := 0
  agree : Nat := 0
  elements : Nat := 0
  nonzero : Nat := 0
  blocks : Nat := 0
  zeroBlocks : Nat := 0
  clippedBlocks : Nat := 0
  crushed : Nat := 0
  saturated : Nat := 0
  nonFinite : Nat := 0
  shadowSamples : Nat := 0
  shadowMismatch : Nat := 0
  shadowErr : Nat := 0
  hist : SMap Nat := []
deriving DecidableEq, Repr

/-- A role word of a fit entry (R156). -/
structure RoleWord where
  t : Int := 0
  fixedT : Int := 0
  clean : Nat := 0
  crushExp : Nat := 0
  clipExp : Nat := 0
  shadowExp : Nat := 0
  tighten : Nat := 0
  margin : Int := 0
  cleanExp : Nat := 0
  holdExp : Nat := 0
  coldLeft : Nat := 0
  histValid : Bool := false
  lastNarrow : Bool := false
  pinned : Bool := false
  mode : Nat := 0
  steer : Bool := false
  top : Nat := 0
  rung : Nat := 0
  fmt0 : Nat := 0
  fmt1 : Nat := 0
  fmt2 : Nat := 0
  fmt3 : Nat := 0
deriving DecidableEq, Repr

/-- A fit entry (R155): its header and the role words of W, A and G. -/
structure FitEntry where
  fp32Passes : Nat := 0
  shadowLog2n : Nat := 0
  valid : Bool := false
  w : RoleWord := {}
  a : RoleWord := {}
  g : RoleWord := {}
deriving DecidableEq, Repr

/-- A step boundary in progress (R149): the STEP_END's queue and cseq, its fit step, and whether its records are merged. -/
structure Boundary where
  queue : Nat
  cseq : Nat
  comm : Nat
  step : Nat
  merged : Bool := false
  /-- a LOAD_FIT is in progress, not a boundary (R150) -/
  load : Bool := false
  /-- the collective number that the reduction takes (R383) -/
  k : Nat := 0
  /-- past step 8: only the retirement of its STEP_END is left -/
  ended : Bool := false
deriving DecidableEq, Repr

/-- The tailor unit (R149 to R171). Histories are by 4 × tag + role: 16 FP32 codes, newest first. -/
structure Tailor where
  bank0 : SMap FitEntry := []
  bank1 : SMap FitEntry := []
  hist0 : SMap (List Nat) := []
  hist1 : SMap (List Nat) := []
  bank : Bool := false
  step : Nat := 0
  boundary : Option Boundary := none
  /-- what the reduction of the boundary in progress ended with: its status, once it has (R149 step 4) -/
  reduction : Option Nat := none
  /-- the core queue that the unit's arbiter has granted, while its command has not issued (R150) -/
  grant : Option Nat := none
  lastResult : Nat := 0
  diverged : Bool := false
  pinnedTags : Nat := 0
  coldTags : Nat := 0
  narrowedTags : Nat := 0
  widenedTags : Nat := 0
  /-- record slots of each measure unit (0–95 engines, 96–103 hubs): tag-role key and record, most recent first (R143) -/
  slots : SMap (List (Nat × StatRec)) := []
  table : SMap StatRec := []
  reduced : SMap StatRec := []
deriving DecidableEq, Repr

/-- A norm record's summed fields (R188); sumsq is an FP64 code. -/
structure NormRec where
  sumsq : Nat := 0
  nonFinite : Nat := 0
  nfBlocks : Nat := 0
  elements : Nat := 0
  tokens : Nat := 0
  clip : Nat := 0
  policy : Nat := 0
  agree : Bool := true
deriving DecidableEq, Repr

/-- R236: the last COLL NORM of a clip group to issue, and its reduced record once it has retired. -/
structure LastNorm where
  queue : Nat := 0
  cseq : Nat := 0
  issued : Bool := false
  result : Option (List Byte) := none
deriving DecidableEq, Repr

/-- The first-NaN trap (R198 to R200). -/
structure NanTrap where
  info : Nat := 0
  seq : Nat := 0
  pos : Nat := 0
  time : Nat := 0
  count : Nat := 0
deriving DecidableEq, Repr

/-- The stream registry (R181 to R184): the active keys (k0, seed). -/
structure Registry where
  keys : List (Nat × Nat) := []
  highWater : Nat := 0
  dupRejects : Nat := 0
deriving DecidableEq, Repr

/-! ### The fabric (chapter 10) -/

/-- R356: the states of a fabric port. -/
inductive PortState where
  | down | training | up | held | recovery | fenced
deriving DecidableEq, Repr

/-- A flit kept in the replay buffer (R365). -/
structure Kept where
  seq : Nat
  header : Nat
  payload : List Byte
deriving DecidableEq, Repr

/-- Credits and books of one virtual channel of a port (R366 to R368). -/
structure VcBook where
  avail : Nat := 0
  sentTotal : Nat := 0
  creditTotal : Nat := 0
  occ : Nat := 0
  returned : Nat := 0
  owed : Nat := 0
deriving DecidableEq, Repr

/-- A CTRL flit that waits to leave (R369): its figures and times are taken as it is sent. -/
inductive Ctrl where
  /-- credits of one virtual channel -/
  | credit (vc : Nat)
  | audit
  | timeReq
  /-- the t1 of the request answered and the time of its receipt -/
  | timeResp (t1 t2 : Nat)
deriving DecidableEq, Repr

/-- A fabric port (R352 to R370). -/
structure FabPort where
  state : PortState := .down
  step : Nat := 0
  ownReady : Bool := false
  sentReady : Bool := false
  partnerSwitch : Bool := false
  partnerId : Nat := 0
  duplicate : Bool := false
  polarity : Nat := 0
  cause : Nat := 0
  txSeq : Nat := 0
  replay : List Kept := []
  rxSeq : Nat := 0
  nackOpen : Bool := false
  unacked : Nat := 0
  nackedSeq : Nat := 0
  nackCount : Nat := 0
  vcs : SMap VcBook := []
  fecCorrected : Nat := 0
  fecUncorrectable : Nat := 0
  crcFail : Nat := 0
  replays : Nat := 0
  recoveries : Nat := 0
  retrainTimes : List Nat := []
  auditFixes : Nat := 0
  holds : Nat := 0
  /-- when the port entered HELD or RECOVERY, or went DOWN -/
  since : Nat := 0
  t1 : Nat := 0
  delay : Option Int := none
  /-- retries of training allowed from this time (R357) -/
  retryAt : Nat := 0
  /-- the partner's INIT with ready = 1 has come, and the depths it advertised (R359) -/
  partnerReady : Bool := false
  depths : List Nat := []
  replayDepth : Nat := 512
  /-- flits ready to leave, by VC, oldest first (R370) -/
  outq : SMap (List Flit) := []
  /-- CTRL flits that ask for VC3, oldest first (R369, R370) -/
  ctrlq : List Ctrl := []
  /-- bytes of the messages being assembled, by VC (R371) -/
  assembling : SMap (List Byte) := []
  /-- received whole: the virtual channel, the flits, and the message -/
  inq : List (Nat × Nat × Msg) := []
deriving DecidableEq, Repr

/-- A message kept by its source until an ACK covers it (R375). -/
structure SentMsg where
  mseq : Nat
  msg : Msg
  port : Nat
  sentAt : Nat
  resends : Nat := 0
deriving DecidableEq, Repr

/-- A transport stream to or from a peer (R375): what this module sends, and what it receives. -/
structure Stream where
  nextMseq : Nat := 0
  unacked : List SentMsg := []
  expected : Nat := 0
  reorder : List (Nat × Msg) := []
  waiting : List Msg := []
deriving DecidableEq, Repr

/-- A partial result of a node of a collective's tree (R384, R389). -/
inductive Partial where
  | nums (xs : List Num)
  | bytes (bs : List Byte)
  | stats (rs : List (Nat × StatRec))
  | norms (rs : List (Nat × NormRec))
deriving DecidableEq, Repr

/-- A node of a chunk's tree, at its home (R384, R385). -/
structure CollNode where
  left : Option Partial := none
  right : Option Partial := none
  value : Option Partial := none
  /-- the other child's home has reported READY; COLL_GET has been sent -/
  ready : Bool := false
  getSent : Bool := false
  /-- when COLL_GET was sent (R482) -/
  askedAt : Nat := 0
  /-- the partials of its children have been added -/
  summed : Bool := false
  /-- parts received of the other child's partial, by part number -/
  parts : SMap (Option (List Byte)) := []
  /-- of the root: what each element was combined from (R199) -/
  inputs : List Lineage := []
deriving DecidableEq, Repr

/-- What a collective reduces or moves (R232, R383). -/
inductive CollKind where
  | allreduce | reduceScatter | allgather | broadcast | reduce | norm | stepEnd
deriving DecidableEq, Repr

/-- A collective in progress in this member (R382 to R390). -/
structure Coll where
  kind : CollKind := .allreduce
  comm : Nat := 0
  k : Nat := 0
  queue : Nat := 0
  cseq : Nat := 0
  sig : Nat := 0
  rop : Nat := 0
  elems : Nat := 0
  n : Nat := 0
  rank : Nat := 0
  src : Operand := {}
  dst : Operand := {}
  groups : Nat := 0
  step : Nat := 0
  linear : Bool := false
  rnd : Bool := false
  stream : Option (Nat × Nat) := none
  site : Nat := 0
  nodes : SMap CollNode := []
  /-- results pushed to this member, by chunk: parts received, and chunks written -/
  results : SMap (SMap (Option (List Byte))) := []
  doneChunks : List Nat := []
  norms : List (Nat × NormRec) := []
  /-- straggler reports made, and when the longest wait began (R482) -/
  reports : Nat := 0
  startedAt : Nat := 0
  /-- the wait last reported, and the reports made of it (R482) -/
  watched : Option Nat := none
  watchedFor : Nat := 0
  normSlot : Option Nat := none
  measured : Bool := false
  /-- the t that this member's share of a JIT or COLD output was converted with (R165) -/
  jitT : Option Int := none
  /-- a boundary's reduction that has its place in the order of its communicator and has not begun (R282, R383) -/
  unbegun : Bool := false
  /-- the status it has ended with, while an earlier collective of its communicator is in progress (R282) -/
  endedAs : Option Nat := none
deriving DecidableEq, Repr

/-- A communicator's running state (R382, COL_COMM_STATUS). -/
structure CommState where
  nextK : Nat := 0
  lost : Option Nat := none
  /-- JOB-FATAL has ended it until it is rewritten (R479) -/
  fatal : Bool := false
deriving DecidableEq, Repr

/-- Time-base synchronisation (R398 to R400). -/
structure TimeSync where
  locked : Bool := false
  gmId : Option Nat := none
  gmPps : Bool := false
  heardAt : Nat := 0
  parent : Nat := 0
  /-- the last measured offset, in units of 2^−17 ns (R398) -/
  offset : Int := 0
  stepped : Bool := false
  /-- what is to be slewed away, in units of 2^−17 ns and signed, and the time base when that was measured (R400) -/
  slew : Int := 0
  slewFrom : Nat := 0
  /-- the fraction of a nanosecond by which the time base is ahead of `now`, in units of 2^−17 / 5,000 ns -/
  frac : Nat := 0
deriving DecidableEq, Repr

/-- The link block (R352 to R401). Messages and flits sent are recorded newest last. -/
structure Link where
  ports : SMap FabPort := []
  lost : List Nat := []
  streams : SMap Stream := []
  comms : SMap CommState := []
  colls : List Coll := []
  held : List (Nat × Msg) := []
  conflicts : Nat := 0
  audits : Nat := 0
  deficits : Nat := 0
  surpluses : Nat := 0
  sliceFaults : List Nat := []
  rr : Nat := 0
  time : TimeSync := {}
  sentFlits : List (Nat × Flit) := []
  sentMsgs : List (Nat × Msg) := []
deriving DecidableEq, Repr

/-! ### Parameter update (chapter 9) -/

/-- The update engines of the hubs and the fall-back path (R344 to R347). -/
structure Update where
  /-- the queue and cseq of the UPDs each hub's engine has accepted, oldest first -/
  accepted : SMap (List (Nat × Nat)) := []
  /-- the UPDs that run on the fall-back path, in order -/
  fallback : List (Nat × Nat) := []
  notActive : List Nat := []
  resumed : Nat := 0
  redirected : Nat := 0
  /-- UPD_LR_SEEN of each optimizer group -/
  seen : SMap Nat := []
deriving DecidableEq, Repr

/-! ### Security and firmware (chapter 14) -/

/-- A session of the thimble (R501). -/
structure Session where
  /-- which of the sessions opened since power-up it is -/
  uid : Nat := 0
  seq : Nat := 0
  flags : Nat := 0
  /-- the decapsulation key, as the seed it was generated from -/
  dk : Word := 0
  auth : List Byte := []
  psk : List Byte := []
  salt : List Byte := []
  last : Nat := 0
deriving DecidableEq, Repr

/-- A key slot that holds a GCM key (R502, R503), bound to a domain and held by a session, by its uid. -/
structure KeySlot where
  key : List Byte
  domain : Nat
  session : Nat
deriving DecidableEq, Repr

/-- What the thimble and the hubs hold of a memory domain (R315, R503, R507). -/
structure DomainKey where
  keyed : Bool := false
  /-- the uid of the session that holds the domain, which is then confidential, plus 1 -/
  holder : Nat := 0
  key : List Byte := []
  /-- the zero-fill of a purge runs (R507) -/
  purging : Bool := false
deriving DecidableEq, Repr

/-- An authorised domain-map request (R505); the session by its uid. -/
structure Authorisation where
  session : Nat
  assign : Bool
  domain : Nat
  first : Nat
  count : Nat
  time : Nat
deriving DecidableEq, Repr

/-- A security mailbox (R508). -/
structure Mailbox where
  busy : Bool := false
  status : Nat := 0
  opcode : Nat := 0
  req : Nat := 0
  resp : Nat := 0
  buf : SMap Byte := []
deriving DecidableEq, Repr

/-- An image as one flash device holds it (R493, R494): its 4 KiB units, and what verification read from its header. -/
structure ImageFile where
  verified : Bool := false
  iface : Nat := 0
  svn : Nat := 0
  build : Nat := 0
  windows : List (Nat × Nat) := []
  fmts : List (Nat × Nat) := []
  measure : List Byte := []
  units : SMap (List Byte) := []
deriving DecidableEq, Repr

/-- The firmware state of one image code (R510 to R513): the device of slot A, and slot B's fields of FW_STAGED. -/
structure FwImage where
  devA : Nat := 0
  staged : Nat := 0
  covered : Nat := 0
  lastStatus : Nat := 0
deriving DecidableEq, Repr

/-- A copy of the boot selector (R492): bit j of `map` is the device of slot A of image j. -/
structure Selector where
  valid : Bool := false
  seq : Nat := 0
  map : Nat := 0
deriving DecidableEq, Repr

/-- A settings record as a slot holds it (R515): the fields of its header, its body, and the signature after it; and, of one that this
module signed, which draw of randomness hedged the signature (R486). -/
structure SettingsRec where
  magic : Nat := 0
  kind : Nat := 0
  format : Nat := 0
  signer : Nat := 0
  seq : Nat := 0
  bodyLen : Nat := 0
  binding : List Byte := []
  body : List Byte := []
  sig : List Byte := []
  hedge : Nat := 0
deriving DecidableEq, Repr

/-- A copy of the memory training record of a hub (R520): its sequence number, the delay of each channel, the remap table of each, its
pages and its entries, and its HMAC. -/
structure TrainRec where
  mac : List Byte := []
  seq : Nat := 0
  delays : List Int := []
  tables : List (SMap Page × Nat) := []
deriving DecidableEq, Repr

/-- A flash operation (R491): they run one at a time, in this order of acceptance. -/
inductive FlashOp where
  | eraseB (image : Nat)
  | program (port : HostPort) (image unit : Nat) (units : List (List Byte))
  | selector (port : Option HostPort) (image : Nat)
  | record (kind : Nat) (values : List Nat) (report : Bool)
  | training (hub : Nat)
  | aliasCert (m1 : List Byte)
deriving DecidableEq, Repr

/-- The activation in progress (R511): the port that asked, the images still to activate, and the one activating. -/
structure Activation where
  port : HostPort
  rest : List Nat
  cur : Nat
  deadline : Nat
deriving DecidableEq, Repr

/-- The thimble and the flash devices (R485 to R522). -/
structure Security where
  mode : Nat := 0
  identityValid : Bool := false
  dsn : Nat := 0
  /-- what the derivations of R488 made at power-up: the seeds of the DeviceID, record and alias keys, and the training MAC key; empty
  where the secret could not be reconstructed -/
  deviceSeed : List Byte := []
  recordSeed : List Byte := []
  aliasSeed : List Byte := []
  trainKey : List Byte := []
  measures : SMap (List Byte) := []
  aliasIssued : Bool := false
  /-- the M1 that the alias certificate stored in a flash device names, by device (R489, R491) -/
  aliasFor : SMap (List Byte) := []
  /-- power-ups so far, and sessions opened -/
  powerUps : Nat := 0
  opened : Nat := 0
  sessions : SMap (Option Session) := []
  keySlots : SMap (Option KeySlot) := []
  domains : SMap DomainKey := []
  auths : List Authorisation := []
  mailA : Mailbox := {}
  mailB : Mailbox := {}
  settingsBusy : Bool := false
  settingsStatus : Nat := 0
  fwSession : Option (Nat × Nat) := none
  activation : Option Activation := none
  fw : SMap FwImage := []
  /-- the images held, at 5 × device + image -/
  files : SMap ImageFile := []
  selectors : SMap Selector := []
  /-- the values that settings records put in force last, by kind (R21) -/
  loaded : SMap (List Nat) := []
  /-- settings records, at 3 × device + kind -/
  records : SMap SettingsRec := []
  /-- training records, at 8 × device + hub -/
  training : SMap TrainRec := []
  flashQ : List FlashOp := []
  /-- svn floors in force, and the preferred steward (R514, R516) -/
  floors : SMap Nat := []
  preferHb : Bool := false
deriving DecidableEq, Repr

/-! ### Bring-up, power and pins (chapters 12 and 16) -/

/-- The order codes of R2. [DESIGN CHOICE, log 9] -/
inductive OrderCode where
  | m3t | m15
deriving DecidableEq, Repr

/-- MOD_STATUS and MOD_EARLY_ACCESS (R432 to R435). -/
structure BringUp where
  state : Nat := 0
  stage : Nat := 0
  fault : Nat := 0
  earlyR0 : Nat := 0
  earlyW0 : Nat := 0
  earlyR2 : Nat := 0
  earlyW2 : Nat := 0
  usableKib : Nat := 0
  order : OrderCode := .m3t
deriving DecidableEq, Repr

/-- R448: the power states of a powered module. -/
inductive PowerState where
  | active | entering | rest | exiting
deriving DecidableEq, Repr

/-- Supply, power control and temperatures (R449 to R455, R559 to R563). -/
structure Power where
  standby : Bool := false
  pwrEn : Bool := false
  pwrGood : Bool := false
  /-- MOD_SUPPLY supply_state: 0 STANDBY, 1 RAMPING, 2 ON, 3 UV_OFF, 4 OV_OFF, 5 TRIPPED -/
  supply : Nat := 0
  vin : Nat := 0
  tIn : Nat := 0
  tOut : Nat := 0
  iin : Nat := 0
  /-- R562: a rise of PWR_EN is held; PWR_GOOD fell less than 100 ms ago; a cut-off or trip waits for a PWR_EN cycle -/
  heldRise : Bool := false
  goodFell : Bool := false
  latchedOff : Bool := false
  state : PowerState := .active
  /-- REST is requested, by the req_state in force (R449) -/
  restReq : Bool := false
  /-- the rail as its last movement began, where it slews to, and since when (R450) -/
  railMv : Nat := 0
  targetMv : Nat := 0
  slewFrom : Nat := 0
  vCap : Nat := 850
  vTherm : Nat := 850
  capW : Nat := 1800
  vTargetMv : Nat := 750
  capUnmet : Bool := false
  capUnmetSince : Nat := 0
  capAlert : Bool := false
  inputW : Nat := 0
  hold : Bool := false
  holdPhase : Bool := false
  fastArmed : Bool := true
  tjDie : Nat := 0
  tjHub : Nat := 0
  tPs : Nat := 0
  throttleMs : Nat := 0
  holds : Nat := 0
  i3cOff : Nat := 0
  i3cData : Nat := 0
  ppsSeen : Bool := false
  ppsLast : Nat := 0
  frzLow : Bool := false
deriving DecidableEq, Repr

/-- The state of the module. -/
@[ext]
structure State where
  /-- the commands that are waiting, first in, first out -/
  pending : List Instr := []
  /-- the time base in ns (R54) -/
  now : Nat := 0
  /-- the model's own field: how many free values have been drawn -/
  freeCtr : Nat := 0
  bring : BringUp := {}
  power : Power := {}
  /-- plain registers, by BAR0 offset; per-port registers at offset + 2^26 × port -/
  regs : SMap Nat := []
  /-- the _HI latch of each reader (R23) -/
  hiLatch : SMap (Option Nat) := []
  /-- what the management controller's last read of a command-scoped counter or of the time base returned (R23, R288) -/
  mcRead : Nat := 0
  /-- memory: module addresses, host memory included (R292) -/
  mem : List Host.Cell := []
  /-- poisoned 256-byte units, by address / 256 (R309) -/
  poison : List Nat := []
  /-- the bytes of each poisoned unit written since it was poisoned, as a mask -/
  covered : SMap Nat := []
  /-- the domain of each granule, plus 1; 0 unassigned (R312) -/
  granules : SMap Nat := []
  dmapLast : Nat := 0
  hubs : SMap Hub := []
  channels : SMap Channel := []
  blockLinks : SMap BlockLink := []
  arbiters : SMap Arbiter := []
  ha : Port := {}
  hb : Port := {}
  roles : Roles := {}
  evBuf : List Event := []
  evLost : Nat := 0
  queues : SMap CoreQ := []
  hostqs : SMap HostQ := []
  cores : SMap Core := []
  tacks : SMap Tack := []
  remoteSent : Nat := 0
  remoteApplied : Nat := 0
  remoteRejected : Nat := 0
  scopes : SMap Scoped := []
  gctr : SMap Nat := []
  ctx : SMap Nat := []
  errq : ErrQueue := {}
  chalk : SMap Chalk := []
  chalkQ : List ChalkWait := []
  freeze : Freeze := {}
  engines : SMap Engine := []
  tailor : Tailor := {}
  /-- norm slots, at 256 × clip group + slot (R189) -/
  normSlots : SMap (Option NormRec) := []
  lastNorm : SMap LastNorm := []
  nanTrap : NanTrap := {}
  registry : Registry := {}
  upd : Update := {}
  link : Link := {}
  sec : Security := {}
deriving DecidableEq, Repr

/-- The image of a code that a module holds as shipped (R493); the spec states no version numbers, digest or windows of it.
[DESIGN CHOICE, log 9] -/
def shippedImage : ImageFile :=
  { verified := true, windows := [(0, 65535), (0, 65535), (0, 65535), (0, 65535), (0, 65535)], fmts := [(1, 1), (1, 1), (1, 1)],
    measure := List.replicate 32 0 }

/-- The module right after reset: registers at their reset values, memory with nothing listed, no power (R21, R432); F0 holds an image
of each code (R492). [DESIGN CHOICE, log 8; DESIGN CHOICE, log 9] -/
def State.reset : State :=
  { sec := { files := [(0, shippedImage), (1, shippedImage), (2, shippedImage), (3, shippedImage), (4, shippedImage)] } }

end Sys2Proof.Machine
end

