-- ==== Sys2Proof/Machine/Ops.lean ====
section
/-! DEFINITION. Named operations over the state: accessors, registers, the address map (R292 to R297), memory with poison (R309) and
domains (R312, R313), interrupts (R408), events (R411, R412) and always-on counters (R524). -/

namespace Sys2Proof.Machine

/-! ### Accessors -/

def State.queue (s : State) (i : Nat) : CoreQ := SMap.get {} s.queues i
def State.setQueue (s : State) (i : Nat) (q : CoreQ) : State := { s with queues := SMap.set {} s.queues i q }
def State.modQueue (s : State) (i : Nat) (f : CoreQ → CoreQ) : State := s.setQueue i (f (s.queue i))

def State.hostq (s : State) (i : Nat) : HostQ := SMap.get {} s.hostqs i
def State.setHostq (s : State) (i : Nat) (q : HostQ) : State := { s with hostqs := SMap.set {} s.hostqs i q }
def State.modHostq (s : State) (i : Nat) (f : HostQ → HostQ) : State := s.setHostq i (f (s.hostq i))

def State.core (s : State) (c : Nat) : Core := SMap.get {} s.cores c
def State.setCore (s : State) (c : Nat) (x : Core) : State := { s with cores := SMap.set {} s.cores c x }
def State.modCore (s : State) (c : Nat) (f : Core → Core) : State := s.setCore c (f (s.core c))

def State.tack (s : State) (n : Nat) : Tack := SMap.get {} s.tacks n
def State.setTack (s : State) (n : Nat) (t : Tack) : State := { s with tacks := SMap.set {} s.tacks n t }

def State.scope (s : State) (i : Nat) : Scoped := SMap.get {} s.scopes i
def State.setScope (s : State) (i : Nat) (x : Scoped) : State := { s with scopes := SMap.set {} s.scopes i x }

def State.hub (s : State) (h : Nat) : Hub := SMap.get {} s.hubs h
def State.setHub (s : State) (h : Nat) (x : Hub) : State := { s with hubs := SMap.set {} s.hubs h x }
def State.modHub (s : State) (h : Nat) (f : Hub → Hub) : State := s.setHub h (f (s.hub h))

def State.channel (s : State) (c : Nat) : Channel := SMap.get {} s.channels c
def State.setChannel (s : State) (c : Nat) (x : Channel) : State := { s with channels := SMap.set {} s.channels c x }
def State.modChannel (s : State) (c : Nat) (f : Channel → Channel) : State := s.setChannel c (f (s.channel c))

def State.engine (s : State) (e : Nat) : Engine := SMap.get {} s.engines e
def State.setEngine (s : State) (e : Nat) (x : Engine) : State := { s with engines := SMap.set {} s.engines e x }
def State.modEngine (s : State) (e : Nat) (f : Engine → Engine) : State := s.setEngine e (f (s.engine e))

def State.buffer (s : State) (b : Nat) : Chalk := SMap.get {} s.chalk b
def State.setBuffer (s : State) (b : Nat) (x : Chalk) : State := { s with chalk := SMap.set {} s.chalk b x }
def State.modBuffer (s : State) (b : Nat) (f : Chalk → Chalk) : State := s.setBuffer b (f (s.buffer b))

def State.fport (s : State) (p : Nat) : FabPort := SMap.get {} s.link.ports p
def State.setFport (s : State) (p : Nat) (x : FabPort) : State :=
  { s with link := { s.link with ports := SMap.set {} s.link.ports p x } }
def State.modFport (s : State) (p : Nat) (f : FabPort → FabPort) : State := s.setFport p (f (s.fport p))

def State.port (s : State) : HostPort → Port
  | .ha => s.ha
  | .hb => s.hb
def State.setPort (s : State) : HostPort → Port → State
  | .ha, x => { s with ha := x }
  | .hb, x => { s with hb := x }
def State.modPort (s : State) (p : HostPort) (f : Port → Port) : State := s.setPort p (f (s.port p))

def State.fit (s : State) (bank : Bool) (tag : Nat) : FitEntry :=
  SMap.get {} (if bank then s.tailor.bank1 else s.tailor.bank0) tag

/-- The number of a host port (R12): 0 HA, 1 HB. -/
def portNum : HostPort → Nat
  | .ha => 0
  | .hb => 1

/-- The other host port. -/
def otherPort : HostPort → HostPort
  | .ha => .hb
  | .hb => .ha

/-- The host port of a number. -/
def portOf (n : Nat) : HostPort := if n = 0 then .ha else .hb

/-! ### The limits of a host port as requester (R402, R403) -/

/-- R403: the read request size that the host has programmed, at most 4,096 bytes. [PRESUMED, log 10] -/
def Port.readSize (x : Port) : Nat := 128 * 2 ^ min (fld x.devCtl 14 12) 5

/-- R402: the Completion Timeout in ns: 50 ms by default, else the longest time of the sub-range programmed of Ranges B and C.
[PRESUMED, log 10] -/
def Port.timeoutNs (x : Port) : Nat :=
  match fld x.devCtl2 3 0 with
  | 5 => 55000000
  | 6 => 210000000
  | 9 => 900000000
  | 10 => 3500000000
  | _ => 50000000

/-- R403: the next tag in turn that no outstanding request has, of 768. -/
def Port.freeTag (x : Port) : Nat :=
  match ((upto 768).map (fun i => (x.nextTag + i) % 768)).find? (fun t => !x.reads.any (fun r => r.tag == t)) with | some t => t | none => 0

/-- R402, R403: read requests leave while fewer than 768 are outstanding. -/
def Port.sendReads (x : Port) (now : Nat) : Port :=
  (x.asks.take (768 - x.reads.length)).foldl (fun x a =>
    let t := x.freeTag
    { x with nextTag := (t + 1) % 768, reads := x.reads ++ [{ a with tag := t, deadline := now + x.timeoutNs }], asks := x.asks.drop 1 }) x

/-- R403: a range cut into read requests, at the multiples of the request size. [DESIGN CHOICE, log 32] -/
def readPieces (size a n : Nat) : List (Nat × Nat) :=
  (upto (cdiv (a % size + n) size)).map (fun k =>
    let lo := max a ((a / size + k) * size)
    (lo, min ((a / size + k + 1) * size) (a + n) - lo))

/-! ### Plain registers -/

/-- The recipe words of the built-in recipes (R340): op, d, a, b, c packed by R336. -/
def recipeWord (op d a b c : Nat) : Nat := put op 31 26 + put d 25 22 + put a 21 18 + put b 17 14 + put c 13 10

/-- R340: the micro-operations of the built-in slots; the operand numbers are those of R337. -/
def builtinRecipe : Nat → List Nat
  | 0 => [recipeWord 4 4 11 1 0, recipeWord 11 0 12 4 0]
  | 1 => [recipeWord 4 2 8 2 0, recipeWord 4 4 11 1 2, recipeWord 11 0 12 4 0]
  | 2 => [recipeWord 2 4 15 8 0, recipeWord 3 5 4 0 0, recipeWord 4 2 8 2 5, recipeWord 2 4 15 9 0, recipeWord 3 5 0 0 0,
          recipeWord 3 5 4 5 0, recipeWord 4 3 9 3 5, recipeWord 3 6 3 14 0, recipeWord 6 6 6 0 0, recipeWord 1 6 6 10 0,
          recipeWord 3 7 2 13 0, recipeWord 5 7 7 6 0, recipeWord 4 7 11 1 7, recipeWord 11 0 12 7 0]
  | 3 => [recipeWord 2 4 15 8 0, recipeWord 3 5 4 0 0, recipeWord 4 5 8 2 5, recipeWord 7 5 5 0 0, recipeWord 4 5 11 1 5,
          recipeWord 2 4 15 9 0, recipeWord 3 6 4 0 0, recipeWord 4 2 9 2 6, recipeWord 11 0 12 5 0]
  | _ => []

/-- The offset of a register in its block, for a block of equal strides: `some` of the index and the offset within it. -/
def inBlock (base stride count off : Nat) : Option (Nat × Nat) :=
  if base ≤ off ∧ off < base + stride * count then some ((off - base) / stride, (off - base) % stride) else none

/-- R21: the reset value of the plain register at a BAR0 offset. [DESIGN CHOICE, log 8] -/
def regReset (off : Nat) : Nat :=
  if off = 0x40 then 0x07081400
  else if off % 2 ^ 26 = 0x3018 then 0x000A300000640 * 2 ^ 12 + 0x00A
  else if off = 0x3020 ∨ off = 0x3028 then 1
  else if off = 0x03100010 then 0x7464
  else if off = 0x03780000 then 0x80400000
  else if off = 0x03210008 then 0x3E8
  else if off = 0x03B00020 then 0x40000000
  else match inBlock 0x01000000 0x10000 24 off with
    | some (_, r) => if r = 0x0F20 then 0x44444444 else 0
    | none => match inBlock 0x02000000 0x100000 8 off with
      | some (_, r) => if r = 0x18 then 0x1000 else if r = 0x28 then 0x80180000 else if r = 0x30 then 0x4444444444444444
          else if r = 0x38 then 0x0000444444444444 else 0
      | none => match inBlock 0x03000000 0x1000 48 off with
        | some (_, r) => if r = 0 then 0x80000000 else 0
        | none => match inBlock 0x02800800 0x40 4 off with
          | some (slot, r) => (builtinRecipe slot).getD (r / 4) 0
          | none => 0

/-- The value of a plain register. -/
def State.reg (s : State) (off : Nat) : Nat := SMap.get (regReset off) s.regs off

/-- A plain register set. -/
def State.setReg (s : State) (off v : Nat) : State := { s with regs := SMap.set (regReset off) s.regs off v }

/-- The offset at which a register of the host-port window is kept: one copy for each port (R18). -/
def perPort (p : HostPort) (off : Nat) : Nat := off + 2 ^ 26 * portNum p

/-- A register of the region of core `c` (R18). -/
def coreReg (c r : Nat) : Nat := 0x01000000 + 0x10000 * c + r

/-- A register of the block of hub `h`. -/
def hubReg (h r : Nat) : Nat := 0x02000000 + 0x100000 * h + r

/-- A register of the block of fabric port `p`. -/
def fportReg (p r : Nat) : Nat := 0x03000000 + 0x1000 * p + r

/-- R432: the module is ready: powered, and in state READY. -/
def State.ready (s : State) : Bool := s.power.pwrGood && s.bring.state == 1

/-- R435: the module is in recovery. -/
def State.recovery (s : State) : Bool := s.power.pwrGood && s.bring.state == 2

/-- The clockless die works: ready, not frozen (R42), and neither in retention nor on its way into or out of it (R448).
[DESIGN CHOICE, log 61] -/
def State.alive (s : State) : Bool := s.ready && !s.freeze.frozen && s.power.state == .active

/-! ### The core rail (R43 to R45, R450) -/

/-- The core rail in force, in mV: it moves in 5 mV steps and slews at 1 mV per µs. [DEDUCED, log 60] -/
def State.railNow (s : State) : Nat :=
  let x := s.power
  let d := (s.now - x.slewFrom) / 5000 * 5
  if x.railMv ≤ x.targetMv then min (x.railMv + d) x.targetMv else max (x.railMv - d) x.targetMv

/-- R450: the time at which the rail is stable: it has reached where it slews to. -/
def Power.stableAt (x : Power) : Nat := x.slewFrom + 1000 * (if x.railMv ≤ x.targetMv then x.targetMv - x.railMv else x.railMv - x.targetMv)

/-- R450: what the limits in force ask of the rail in ACTIVE. -/
def Power.wanted (x : Power) : Nat := max 650 (min x.vTargetMv (min x.vCap x.vTherm))

/-- The rail begins to move to `mv`. -/
def State.slewTo (s : State) (mv : Nat) : State :=
  if mv = s.power.targetMv then s else { s with power := { s.power with railMv := s.railNow, targetMv := mv, slewFrom := s.now } }

/-- The power state changes (R448). -/
def State.powerState (s : State) (x : PowerState) : State := { s with power := { s.power with state := x } }

/-- A fresh free value, and the state that has drawn it. [DESIGN CHOICE, log 6] -/
def State.draw (s : State) : BitVec 64 × State := (Config.freeValue s.freeCtr, { s with freeCtr := s.freeCtr + 1 })

/-- R3: the Subsystem ID, which is also MOD_IDENT's order code. -/
def State.subsystem (s : State) : Nat := match s.bring.order with | .m3t => 0x0301 | .m15 => 0x0151

/-! ### Counters (R524 to R527) -/

/-- The counters wrap modulo 2^64 (R524). [DESIGN CHOICE, log 17] -/
def State.addGctr (s : State) (i n : Nat) : State :=
  { s with gctr := SMap.set 0 s.gctr i ((SMap.get 0 s.gctr i + n) % 2 ^ 64) }

/-- Counter `j` of domain `d` (R527). [DESIGN CHOICE, log 17] -/
def State.addCtx (s : State) (d j n : Nat) : State :=
  { s with ctx := SMap.set 0 s.ctx (16 * d + j) ((SMap.get 0 s.ctx (16 * d + j) + n) % 2 ^ 64) }

/-! ### The address map (R292) -/

/-- The regions of the module address map. -/
inductive Area where
  | interleaved
  | hubLocal (hub : Nat)
  | coreStore (core : Nat)
  | bobbin (engine : Nat)
  | window (quadrant : Nat)
  | host (port : Nat)
deriving DecidableEq, Repr

/-- ilv in bytes: the interleaved portion of each hub (R300). -/
def State.ilv (s : State) : Nat := fld (s.reg 0x02810000) 8 0 * 2 ^ 30

/-- R292: the region of a module address; none where it is unmapped. -/
def State.area (s : State) (a : Nat) : Option Area :=
  if 2 ^ 63 ≤ a then (if a < 2 ^ 64 then some (.host (b2n (bit a 62))) else none)
  else if a < 8 * s.ilv then some .interleaved
  else if 0x040000000000 ≤ a ∧ a < 0x080000000000 then
    let n := (a - 0x040000000000) / 0x8000000000
    if (a - 0x040000000000) % 0x8000000000 < (s.hub n).localLimit then some (.hubLocal n) else none
  else if 0x0D0000000000 ≤ a ∧ a < 0x0D0000000000 + 0x2000000 * 24 then some (.coreStore ((a - 0x0D0000000000) / 0x2000000))
  else if 0x0D1000000000 ≤ a ∧ a < 0x0D1000000000 + 0x400000 * 96 then
    if (a - 0x0D1000000000) % 0x400000 < 0x200000 then some (.bobbin ((a - 0x0D1000000000) / 0x400000)) else none
  else if 0x0D2000000000 ≤ a ∧ a < 0x0D2000000000 + 0x2000000 * 4 then
    some (.window ((a - 0x0D2000000000) / 0x2000000))
  else none

/-- The regions whose granules have a domain of their own (R312). -/
def Area.granular : Area → Bool
  | .interleaved | .hubLocal _ | .window _ => true
  | _ => false

/-- The slow tier (R295). -/
def Area.slow : Area → Bool
  | .interleaved | .hubLocal _ => true
  | _ => false

/-- The size of a domain granule (R312). -/
def granuleSize : Nat := 0x200000

/-- The domain a granule is assigned to (R312). -/
def State.granuleDomain (s : State) (g : Nat) : Option Nat :=
  match SMap.get 0 s.granules g with
  | 0 => none
  | d + 1 => some d

/-- R316: the domain that may reach a granule: none while its zero-fill runs. -/
def State.granuleOpen (s : State) (g : Nat) : Option Nat :=
  if (s.ha.txn.filling ++ s.hb.txn.filling).any (fun f => decide (f.1 ≤ g) && decide (g < f.1 + f.2)) then none else s.granuleDomain g

/-- The pieces of [a, a + n) by granule: the first and the last byte of each. -/
def pieces (a n : Nat) : List (Nat × Nat) :=
  if n = 0 then []
  else (upto ((a + n - 1) / granuleSize + 1 - a / granuleSize)).map (fun i =>
    let g := a / granuleSize + i
    (max a (g * granuleSize), min (a + n - 1) (g * granuleSize + granuleSize - 1)))

/-- R293: every byte of [a, a + n) is mapped. -/
def State.mapped (s : State) (a n : Nat) : Bool :=
  (pieces a n).all (fun p => s.area p.1 != none && s.area p.1 == s.area p.2)

/-- Who makes an access: what R34, R35, R290 let it reach. `home` is the core that owns the queue it works for: where a sibling serves the
queue (R255), the core store and the bobbins of that core stay within reach (R471, R472). -/
inductive Agent where
  /-- the sequencer of a core: its core store and the slow tier -/
  | sequencer (core home : Nat)
  /-- a shuttle of a core: also its bobbins and host memory -/
  | shuttle (core home : Nat)
  /-- the shuttles of a core as they fill bobbins for MM and LOADW: all of that but host memory -/
  | fill (core home : Nat)
  /-- the press unit of a global engine: its own bobbins (R32, R34), and what the shuttles of its core bring it and take from it -/
  | press (engine home : Nat)
  /-- the collective engine and the fall-back path -/
  | collective
  /-- a hub's update engine: its local region -/
  | hub (hub : Nat)
  /-- the hem epilogue with a row-major output: the core store of its core (R121) -/
  | epilogue (core home : Nat)
  /-- the array of a global engine, and its hem epilogue with a weft ring: that engine's own bobbins (R33, R34) -/
  | array (engine home : Nat)
deriving DecidableEq, Repr

/-- The engine of the home core that has the place of engine `e` in its own. -/
def homeEngine (e h : Nat) : Nat := 4 * h + e % 4

/-- R34, R35, R290, R294: whether the agent reaches a region. -/
def Agent.reaches : Agent → Area → Bool
  | .sequencer c h, .coreStore k => c == k || h == k
  | .sequencer _ _, .interleaved => true
  | .sequencer _ _, .hubLocal _ => true
  | .sequencer _ _, _ => false
  | .shuttle c h, .coreStore k => c == k || h == k
  | .shuttle c h, .bobbin g => g / 4 == c || g / 4 == h
  | .shuttle _ _, _ => true
  | .fill c h, .coreStore k => c == k || h == k
  | .fill c h, .bobbin g => g / 4 == c || g / 4 == h
  | .fill _ _, .host _ => false
  | .fill _ _, _ => true
  | .press e h, .coreStore k => e / 4 == k || h == k
  | .press e h, .bobbin g => e == g || homeEngine e h == g
  | .press _ _, .host _ => false
  | .press _ _, _ => true
  | .epilogue c h, .coreStore k => c == k || h == k
  | .epilogue _ _, _ => false
  | .array e h, .bobbin g => e == g || homeEngine e h == g
  | .array _ _, _ => false
  | .collective, .bobbin _ => false
  | .collective, .host _ => false
  | .collective, _ => true
  | .hub h, .hubLocal n => h == n
  | .hub _, _ => false

/-- R313: the domain that owns the byte at `a`. -/
def State.domainOf (s : State) (a : Nat) : Option Nat :=
  match s.area a with
  | some (.coreStore c) => some (s.core c).sramDomain
  | some (.bobbin g) => some (s.core (g / 4)).sramDomain
  | some .interleaved => s.granuleOpen (a / granuleSize)
  | some (.hubLocal _) => s.granuleOpen (a / granuleSize)
  | some (.window _) => s.granuleOpen (a / granuleSize)
  | _ => none

/-- R318: the core-local SRAM of a core whose zero-fill runs, which no queue may address. [DEDUCED, log 65] -/
def State.filling (s : State) : Area → Bool
  | .coreStore c => (s.core c).scrubBusy
  | .bobbin g => (s.core (g / 4)).scrubBusy
  | _ => false

/-- R293, R313: an agent working for domain `d` may access [a, a + n). Host memory has no domain. -/
def State.accessOk (s : State) (who : Agent) (d a n : Nat) : Bool :=
  (pieces a n).all (fun p =>
    match s.area p.1 with
    | some r => s.area p.2 == some r && who.reaches r &&
        (match r with | .host _ => true | _ => s.domainOf p.1 == some d && !s.filling r)
    | none => false)

/-! ### Hub space (R295 to R297) -/

/-- The raw pages of a channel (R299). -/
def State.rawPages (s : State) : Nat := match s.bring.order with | .m3t => 1048576 | .m15 => 524288

/-- R295, R296: the hub and hub offset of a slow-tier address. -/
def State.hubOffset (s : State) (a : Nat) : Option (Nat × Nat) :=
  match s.area a with
  | some .interleaved => some (a / 4096 % 8, a / 32768 * 4096 + a % 4096)
  | some (.hubLocal n) => some (n, s.ilv + (a - 0x040000000000) % 0x8000000000)
  | _ => none

/-- R295, R296 the other way: the module address of a hub offset, where it has one. -/
def State.moduleAddr (s : State) (h o : Nat) : Option Nat :=
  if o < s.ilv then some (o / 4096 * 32768 + h * 4096 + o % 4096)
  else if o - s.ilv < (s.hub h).localLimit then some (0x040000000000 + 0x8000000000 * h + (o - s.ilv)) else none

/-- The channels of a hub that form its space: those not fenced at bring-up (R310). -/
def State.liveList (s : State) (h : Nat) : List Nat :=
  (upto 48).filterMap (fun k => if (s.channel (48 * h + k)).atBringUp then none else some (48 * h + k))

/-- R308: slot `i` of a raw page has been copied to the replacement of a retirement in progress. -/
def Page.moved (p : Page) (i : Nat) : Bool := p.copying && decide (i < p.copied)

/-- R308: the raw page that holds page `p` of a channel: a retired page's replacement, which may itself be retired. -/
def Channel.rawPage (c : Channel) : Nat → Nat → Nat
  | 0, p => p
  | k + 1, p => if (SMap.get {} c.pages p).retired then c.rawPage k (SMap.get {} c.pages p).replacement else p

/-- R308 the other way: the page whose units raw page `r` holds. -/
def Channel.pageHeld (c : Channel) : Nat → Nat → Nat
  | 0, r => r
  | k + 1, r => match c.pages.find? (fun e => e.2.retired && e.2.replacement == r) with | some e => c.pageHeld k e.1 | none => r

/-- R297: channel, raw page and slot of a hub offset; a retired page's units are in its replacement, and so are those already copied. -/
def State.dramOf (s : State) (h o : Nat) : Nat × Nat × Nat :=
  let live := s.liveList h
  let n := max live.length 1
  let u := o / 256
  let ch := live.getD (u % n) (48 * h)
  let page := (s.channel ch).rawPage 512 (u / n / 31)
  let p := SMap.get {} (s.channel ch).pages page
  (ch, if p.moved (u / n % 31) then p.replacement else page, u / n % 31)

/-- R297: the raw address, in its channel, of the byte at a hub offset, and of the check bytes of its unit. -/
def State.rawData (s : State) (h o : Nat) : Nat := let d := s.dramOf h o; 8192 * d.2.1 + 256 * d.2.2 + o % 256
def State.rawCheck (s : State) (h o : Nat) : Nat := let d := s.dramOf h o; 8192 * d.2.1 + 7936 + 8 * d.2.2

/-- R307, R308: the module address of slot `i` of a raw page of the `ix`-th live channel; none where the page is retired or a spare, or the
unit has been copied away or not yet been copied here. -/
def State.unitAddr (s : State) (h ix raw i : Nat) : Option Nat :=
  let live := s.liveList h
  let c := s.channel (live.getD ix (48 * h))
  let addr := fun page => s.moduleAddr h (((c.pageHeld 512 page * 31 + i) * max live.length 1 + ix) * 256)
  let p := SMap.get {} c.pages raw
  if p.retired || p.moved i then none
  else match c.pages.find? (fun e => e.2.copying && e.2.replacement == raw) with
    | some e => if e.2.moved i then addr e.1 else none
    | none => addr raw

/-- R291: the bank of core store that holds byte `x` of it, and the arbiter of the bank of a module address. -/
def bankOf (x : Nat) : Nat := x / 256 % 16
def State.bankPort (s : State) (a : Nat) : Option ArbPort :=
  match s.area a with
  | some (.coreStore c) => some (.coreStoreBank c (bankOf ((a - 0x0D0000000000) % 0x2000000)))
  | _ => none

/-- R299: the bytes of a stripe of hub `h`. -/
def State.stripe (s : State) (h : Nat) : Nat := 7936 * (s.hub h).liveChannels

/-- R309, R310: the unit of a slow-tier address lies behind a channel fenced while running, or a lost hub. -/
def State.unreachable (s : State) (a : Nat) : Bool :=
  match s.area a with
  | some (.coreStore c) => (s.core c).withdrawn || (s.core c).fence == .scrubbing || (s.core c).fence == .testing
  | some (.bobbin g) => (s.core (g / 4)).fence != .inService
  | some (.window q) => decide (q ∈ s.link.sliceFaults)
  | _ => match s.hubOffset a with
    | some (h, o) => (s.hub h).lost || (s.channel (s.dramOf h o).1).fenced
    | none => false

/-! ### Memory -/

/-- The reset contents: a byte that nothing has written reads as 0 (R432 zero-fills every memory; for host memory a choice).
[DESIGN CHOICE, log 7] -/
def memDefault : Byte := 0

/-- The canonical form of memory. -/
def Memory.wf (m : List Host.Cell) : Bool := SMap.wf memDefault m

/-- [DESIGN CHOICE, log 7] -/
def State.memByte (s : State) (a : Nat) : Byte := SMap.get memDefault s.mem a

/-- One byte of memory set. -/
def State.setByte (s : State) (a : Nat) (b : Byte) : State := { s with mem := SMap.set memDefault s.mem a b }

/-- The stored bytes of [a, a + n), poison and fences aside. -/
def State.rawBytes (s : State) (a n : Nat) : List Byte := (upto n).map (fun i => s.memByte (a + i))

/-- Consecutive bytes set. -/
def State.setBytes (s : State) : Nat → List Byte → State
  | _, [] => s
  | a, b :: bs => (s.setByte a b).setBytes (a + 1) bs

/-- The 256-byte units that [a, a + n) touches. -/
def unitsOf (a n : Nat) : List Nat := if n = 0 then [] else (upto ((a + n - 1) / 256 + 1 - a / 256)).map (· + a / 256)

/-- R309: a unit reads as poison. -/
def State.unitPoisoned (s : State) (u : Nat) : Bool := decide (u ∈ s.poison) || s.unreachable (256 * u)

/-- R309: some unit of [a, a + n) reads as poison. -/
def State.poisoned (s : State) (a n : Nat) : Bool := (unitsOf a n).any s.unitPoisoned

/-- R309: the bytes of [a, a + n), poisoned units as zero bytes. -/
def State.readBytes (s : State) (a n : Nat) : List Byte :=
  (upto n).map (fun i => if s.unitPoisoned ((a + i) / 256) then 0 else s.memByte (a + i))

/-- The number at [a, a + n), little-endian (R14). -/
def State.readLe (s : State) (a n : Nat) : Nat := ofLe (s.readBytes a n)

/-- The bytes of unit `u` that [a, a + n) takes in, as a mask. -/
def unitMask (a n u : Nat) : Nat :=
  let lo := max a (256 * u) - 256 * u
  let hi := min (a + n) (256 * u + 256) - 256 * u
  if lo < hi then 2 ^ hi - 2 ^ lo else 0

/-- The bytes of a poisoned unit written since it was poisoned, a write of [a, a + n) included. [DESIGN CHOICE, log 80] -/
def State.coverOf (s : State) (a n u : Nat) : Nat := SMap.get 0 s.covered u ||| unitMask a n u

/-- R309: a unit loses its poison when writes have covered all of it: the pieces in which a command writes are one write.
[DESIGN CHOICE, log 80] -/
def State.clearPoison (s : State) (a n : Nat) : State :=
  { s with poison := s.poison.filter (fun u => s.coverOf a n u != 2 ^ 256 - 1),
           covered := s.poison.foldl (fun m u => SMap.set 0 m u (if s.coverOf a n u = 2 ^ 256 - 1 then 0 else s.coverOf a n u)) [] }

/-- Bytes written: writes to unreachable units are dropped (R310, R471, R476); whole units lose their poison (R309). -/
def State.putBytes (s : State) : Nat → List Byte → State
  | _, [] => s
  | a, b :: bs => (if s.unreachable a then s else s.setByte a b).putBytes (a + 1) bs

def State.writeBytes (s : State) (a : Nat) (bs : List Byte) : State := (s.putBytes a bs).clearPoison a bs.length

/-- `n` bytes of a number written, little-endian. -/
def State.writeLe (s : State) (a n v : Nat) : State := s.writeBytes a (leBytes n v)

/-- R407: every unit that [a, a + n) touches marked poisoned. -/
def State.poisonUnits (s : State) (a n : Nat) : State :=
  { s with poison := (unitsOf a n).foldl setIns s.poison, covered := (unitsOf a n).foldl (fun m u => SMap.set 0 m u 0) s.covered }

/-- A range returned to zero, with its poison cleared: the zero-fills of R316, R318, R432, R474 and R507. -/
def State.zeroFill (s : State) (a n : Nat) : State :=
  { s with mem := SMap.clear s.mem a (a + n),
           poison := s.poison.filter (fun u => !(decide (a ≤ 256 * u + 255) && decide (256 * u < a + n))),
           covered := s.covered.filter (fun e => !(decide (a ≤ 256 * e.1 + 255) && decide (256 * e.1 < a + n))) }

/-- R292: a bus address of a port as a module address. -/
def hostAddr (p : HostPort) (busAddr : Nat) : Nat := 2 ^ 63 + 2 ^ 62 * portNum p + busAddr

/-- Bytes written to host memory, in posted order (R410), and counted (R526). [DESIGN CHOICE, log 7] -/
def State.writeHost (s : State) (p : HostPort) (busAddr : Nat) (bs : List Byte) : State :=
  (s.setBytes (hostAddr p busAddr) bs).addGctr (851 + 4 * portNum p) bs.length

/-- Traffic counters of a module access (R526, R527): `rd` a read. [DESIGN CHOICE, log 17] -/
def State.countBytes (s : State) (d : Option Nat) (rd : Bool) (a n : Nat) : State :=
  match s.area a with
  | some (.coreStore c) =>
    let t := s.addGctr ((if rd then 192 else 216) + c) n
    match d with | some d => t.addCtx d 4 n | none => t
  | some (.window q) => s.addGctr ((if rd then 856 else 860) + q) n
  | some (.host p) =>
    let t := s.addGctr (848 + 4 * p + (if rd then 2 else 3)) n
    match d with | some d => t.addCtx d 7 n | none => t
  | some r => if r.slow then
      let t := match s.hubOffset a with
        | some (h, _) => (s.addGctr ((if rd then 336 else 344) + h) n).addGctr ((if rd then 352 else 360) + h) n
        | none => s
      match d with | some d => t.addCtx d (if rd then 2 else 3) n | none => t
    else s
  | none => s

/-! ### Interrupts and events (R408 to R412) -/

/-- R408: a vector raised on a port: sent at once, or left pending where it or the function is masked. [PRESUMED, log 10] -/
def State.raiseMsix (s : State) (p : HostPort) (vec : Nat) : State :=
  let x := s.port p
  let v := SMap.get {} x.msix vec
  if !x.msixEnable || !x.linkUp then s
  else if x.msixMask || bit v.ctl 0 then s.setPort p { x with msix := SMap.set {} x.msix vec { v with pending := true } }
  else s.setPort p { x with msixSent := x.msixSent ++ [vec] }

/-- R411: an event record. -/
def eventBytes (e : Event) (phase : Bool) (lost : Nat) : List Byte :=
  leBytes 2 e.code ++ leBytes 1 (b2n phase) ++ [0] ++ leBytes 4 lost ++ leBytes 8 e.time ++ leBytes 16 e.payload

/-- R250, R411: the event ring of a port has room. -/
def Port.evqRoom (x : Port) : Bool :=
  x.evqEnable && decide ((x.evqTail + 65536 - x.evqHead) % 65536 < 2 ^ x.evqSize - 1)

/-- R411, R409: one event written to a port's ring, then its vector raised. -/
def State.writeEvent (s : State) (p : HostPort) (e : Event) : State :=
  let x := s.port p
  let pos := x.evqTail % 2 ^ x.evqSize
  let s := s.writeHost p (x.evqBase + 32 * pos) (eventBytes e x.evqPhase s.evLost)
  let s := { s with evLost := 0 }
  let phase := if pos + 1 = 2 ^ x.evqSize then !x.evqPhase else x.evqPhase
  let s := s.modPort p (fun x => { x with evqTail := (x.evqTail + 1) % 65536, evqPhase := phase })
  s.raiseMsix p x.evqVec

/-- R412, R426: held events written in order while the steward's link is up and its ring has room; one try for each event held. -/
def State.flushEventsN (s : State) : Nat → State
  | 0 => s
  | k + 1 =>
    match s.roles.steward, s.evBuf with
    | some p, e :: es => if (s.port p).evqRoom && (s.port p).linkUp && s.ready then (State.writeEvent { s with evBuf := es } p e).flushEventsN k else s
    | _, _ => s

def State.flushEvents (s : State) : State := s.flushEventsN s.evBuf.length

/-- R412: an event raised to the steward: written, held in the buffer of 64, or dropped and counted. -/
def State.raiseEvent (s : State) (code payload : Nat) : State :=
  let e : Event := { code := code, time := s.now, payload := payload }
  if s.evBuf.length < 64 then State.flushEvents { s with evBuf := s.evBuf ++ [e] }
  else { s with evLost := sat 32 (s.evLost + 1) }

end Sys2Proof.Machine
end

