-- ==== Sys2Proof/Machine/Flits.lean ====
section
/-! DEFINITION. The flits of a fabric port as they leave: kinds (R362), payloads (R360) and the check (R363). -/

namespace Sys2Proof.Machine

/-- R363: the check of a flit: header, payload and sequence number. -/
def flitCrc (header : Nat) (payload : List Byte) (seq : Nat) : Nat :=
  crc32 (leBytes 8 header ++ payload ++ leBytes 2 (seq % 4096))

/-- The kinds of R362. -/
def fkIdle : Nat := 0
def fkData : Nat := 1
def fkCtrl : Nat := 2
def fkHold : Nat := 3
def fkInit : Nat := 4

/-- A payload filled to its 240 bytes. -/
def pad240 (bs : List Byte) : List Byte := bs.take 240 ++ List.replicate (240 - bs.length) 0

/-- A flit put on the wire. -/
def State.emit (s : State) (p : Nat) (header : Nat) (payload : List Byte) (seq : Nat) : State :=
  { s with link := { s.link with sentFlits := s.link.sentFlits ++ [(p, Flit.mk header payload (flitCrc header payload seq))] } }

end Sys2Proof.Machine
end

