-- ==== Sys2Proof/Machine/Trace.lean ====
section
/-! DEFINITION. Chalk records and triggers (R530 to R541) and the beginning of freeze (R542, R543), which a trigger can assert. -/

namespace Sys2Proof.Machine

/-! ### Freeze -/

/-- R542, R543: some source asserts freeze. -/
def Freeze.asserted (f : Freeze) : Bool := f.pin || f.sw || f.chalk

/-- R543 steps 1 to 3: freeze begins; every UP port sends HOLD (R395). [DEDUCED, log 49] -/
def State.beginFreeze (s : State) : State :=
  let ups := (upto 48).filter (fun p => (s.fport p).state == .up)
  let f := { s.freeze with frozen := true, holding := ups != [], holdExpired := false, freezes := sat 16 (s.freeze.freezes + 1),
                           began := s.now, frozenMs := 0 }
  ups.foldl (fun s p => s.emit p (put fkHold 63 61) (pad240 []) 0) { s with freeze := f }

/-- R542: chalk freeze asserted (R537). -/
def State.assertChalkFreeze (s : State) : State :=
  let s := { s with freeze := { s.freeze with chalk := true } }
  if s.freeze.frozen || !s.ready then s else s.beginFreeze

/-! ### Chalk buffers -/

/-- The fields of OBS_CHALK_CFG. -/
def Chalk.policy (c : Chalk) : Nat := fld c.cfg 62 61
def Chalk.allDomains (c : Chalk) : Bool := bit c.cfg 60
def Chalk.domain (c : Chalk) : Nat := fld c.cfg 59 54
def Chalk.freezeOnTrigger (c : Chalk) : Bool := bit c.cfg 53
def Chalk.size (c : Chalk) : Nat := 2 ^ fld c.cfg 52 48

/-- R534: the buffer takes records: it is not STOPPED. -/
def Chalk.recording (c : Chalk) : Bool := c.state == .recording || c.state == .postTrigger

/-- R534: under STOP the buffer is full when next equals head and it holds S records; `count` is the positions not freed.
[DEDUCED, log 51] -/
def Chalk.fullNow (c : Chalk) : Bool := c.policy == 1 && c.count == c.size && c.next == c.head

/-- R531: a chalk record. -/
def chalkBytes (time type opcode core domain seq payload : Nat) : List Byte :=
  leBytes 8 time ++ leBytes 1 type ++ leBytes 1 opcode ++ leBytes 1 core ++ leBytes 1 domain ++ leBytes 4 0 ++ leBytes 8 seq ++
  leBytes 8 payload

/-- R538: the writer's queue has room. -/
def State.writerRoom (s : State) : Bool := decide (s.chalkQ.length < 1024)

/-- R534: a record of buffer `b` stored at next; the position advances and wraps. -/
def State.chalkStore (s : State) (b : Nat) (bytes : List Byte) : State :=
  let c := s.buffer b
  let c' := { c with next := (c.next + 1) % c.size, wrapped := c.wrapped || c.next + 1 == c.size, count := min c.size (c.count + 1) }
  let s := { s with chalkQ := s.chalkQ ++ [ChalkWait.mk b c.next bytes s.now] }
  (s.setBuffer b c').addCtx c.domain 10 1

/-- R534, R538: a record that finds no space is counted lost; under STOP the buffer becomes FULL. -/
def State.chalkLose (s : State) (b : Nat) : State :=
  s.modBuffer b (fun c => { c with lostTotal := sat 32 (c.lostTotal + 1), pending := sat 32 (c.pending + 1),
                                   state := if c.fullNow then .full else c.state })

/-- R535: after a record in POST_TRIGGER one fewer is wanted; at none the buffer stops, and may assert freeze (R537). -/
def State.chalkCountDown (s : State) (b : Nat) : State :=
  let c := s.buffer b
  if c.state = .postTrigger then
    if c.post ≤ 1 then
      let s := s.setBuffer b { c with post := 0, state := .stopped }
      if c.freezeOnTrigger then s.assertChalkFreeze else s
    else s.setBuffer b { c with post := c.post - 1 }
  else s

/-- R539: lost records wait to be reported and there is space for their GAP record. -/
def State.gapDue (s : State) (b : Nat) : Bool :=
  let c := s.buffer b
  c.pending != 0 && (c.recording || c.state == .full) && !c.fullNow && s.writerRoom

/-- R539, R541: the GAP record is stored and EV_TRACE_GAP raised; a FULL buffer with space records again. -/
def State.chalkGap (s : State) (b : Nat) : State :=
  let c := s.buffer b
  let n := c.pending
  let s := s.setBuffer b { c with pending := 0, state := if c.state = .full then .recording else c.state }
  let s := s.chalkStore b (chalkBytes s.now 5 0 0xFF 0 0 n)
  let s := s.chalkCountDown b
  s.raiseEvent 0x0240 (put b 67 64 + put c.next 63 32 + put n 31 0)

/-- R534, R539: a record made in buffer `b`: the GAP record owed goes first. [DEDUCED, log 51] -/
def State.chalkPut (s : State) (b : Nat) (bytes : List Byte) : State :=
  let s := if s.gapDue b then s.chalkGap b else s
  let c := s.buffer b
  if c.recording then
    if c.fullNow || !s.writerRoom then s.chalkLose b else (s.chalkStore b bytes).chalkCountDown b
  else if c.state = .full then s.chalkLose b
  else s

/-- R535 to R537: a trigger fires on buffer `b`. -/
def State.chalkTrigger (s : State) (b cause detail : Nat) : State :=
  let c := s.buffer b
  if c.state = .stopped then s
  else
    let first := !c.triggered
    let s := s.chalkPut b (chalkBytes s.now 4 0 0xFF 0 0 (put cause 7 0 + put detail 63 8))
    let c' := s.buffer b
    let pos := (c'.next + c'.size - 1) % c'.size
    let enters := c'.policy == 2 && c'.state == .recording
    let s := s.setBuffer b { c' with triggered := true, trigPos := if first && c'.next != c.next then pos else c'.trigPos,
                                     state := if enters then .postTrigger else c'.state,
                                     post := if enters then c'.size / 2 - 1 else c'.post }
    if c.freezeOnTrigger && c.policy != 2 then s.assertChalkFreeze else s

/-- R315, R503: domain `d` is confidential: a session holds it. -/
def State.confidential (s : State) (d : Nat) : Bool := (SMap.get ({} : DomainKey) s.sec.domains d).holder != 0

/-- R315: domain `d` carries a key. -/
def State.keyed (s : State) (d : Nat) : Bool := (SMap.get ({} : DomainKey) s.sec.domains d).keyed

/-- R533: buffer `c` takes a command's record: its domain, the event bit, the core mask. -/
def State.chalkTakes (s : State) (c : Chalk) (core domain : Nat) : Bool :=
  (c.domain == domain || (c.allDomains && !s.confidential domain)) && bit c.cfg core

/-- R533: a record made in every buffer that takes it, in ascending buffer number. -/
def State.chalkEach (s : State) (take : State → Chalk → Bool) (f : State → Nat → State) : State :=
  (upto 16).foldl (fun s b => if (s.buffer b).state != .stopped && take s (s.buffer b) then f s b else s) s

/-- R532: a BEGIN record. -/
def State.chalkBegin (s : State) (opcode core domain seq payload : Nat) : State :=
  let r := chalkBytes s.now 1 opcode core domain seq payload
  s.chalkEach (fun s c => s.chalkTakes c core domain && bit c.cfg 36) (fun s b => s.chalkPut b r)

/-- R532, R536: an END record and the trigger on its status. -/
def State.chalkEnd (s : State) (opcode core domain seq status payload : Nat) : State :=
  let r := chalkBytes s.now 2 opcode core domain seq payload
  s.chalkEach (fun s c => s.chalkTakes c core domain && (bit c.cfg 37 || (status != 0 && bit c.cfg 38))) (fun s b =>
    let s := s.chalkPut b r
    if status != 0 && bit (s.buffer b).cfg 35 then s.chalkTrigger b 2 status else s)

/-- R533: an ERROR record reaches a buffer of one domain only when the error names it. [DEDUCED, log 51] -/
def chalkErrorTakes (c : Chalk) (memDom : Option Nat) : Bool := c.allDomains || memDom == some c.domain

/-- R532, R536: an ERROR record, and the trigger on an error of class at least trig_class. -/
def State.chalkError (s : State) (source seq cls : Nat) (memDom : Option Nat) : State :=
  let r := chalkBytes s.now 6 0 0xFF (memDom.getD 0) 0 (put source 63 48 + put seq 47 0)
  s.chalkEach (fun _ c => chalkErrorTakes c memDom) (fun s b =>
    let c := s.buffer b
    if bit c.cfg 40 then
      let s := s.chalkPut b r
      if bit c.cfg 34 && decide (fld c.cfg 31 30 ≤ cls) then s.chalkTrigger b 3 seq else s
    else s)

/-- R536: a trigger on EV_STRAGGLER. -/
def State.chalkStraggler (s : State) : State :=
  s.chalkEach (fun _ c => bit c.cfg 32) (fun s b => s.chalkTrigger b 5 0)

/-- R536: a trigger on a first-NaN capture by a command of a core and domain. -/
def State.chalkNan (s : State) (core domain : Nat) : State :=
  s.chalkEach (fun s c => bit c.cfg 33 && s.chalkTakes c core domain) (fun s b => s.chalkTrigger b 4 0)

/-- R532: the FREEZE record made as freeze ends, in every buffer that is RECORDING or POST_TRIGGER with rec_freeze set. -/
def State.chalkFreezeRecords (s : State) (began : Nat) : State :=
  let r := chalkBytes s.now 7 0 0xFF 0 0 began
  s.chalkEach (fun _ c => c.recording && bit c.cfg 41) (fun s b => s.chalkPut b r)

end Sys2Proof.Machine
end

