-- ==== Sys2Proof/Machine/Flags.lean ====
section
/-! DEFINITION. Error flags: the raising of errors (R459), records and the error queue (R462 to R467), and the outputs they drive
(R458). -/

namespace Sys2Proof.Machine

/-- R457: the codes of the containment domain kinds. -/
def DomKind.code : DomKind → Nat
  | .module => 0 | .core => 1 | .queue => 2 | .channel => 3 | .hub => 4 | .ucie => 5 | .port => 6 | .slice => 7
  | .hostPort => 8 | .job => 9

/-- R457: the highest class that a kind reaches by escalation. -/
def DomKind.highest : DomKind → Nat
  | .module => 1
  | .ucie => 2 | .port => 2 | .hostPort => 2
  | _ => 3

/-- R456: the error classes. -/
def corrected : Nat := 0
def contained : Nat := 1
def degrading : Nat := 2
def jobFatal : Nat := 3

/-- R462: the 32 bytes of a record. -/
def ErrRec.bytes (r : ErrRec) : List Byte :=
  leBytes 8 (r.seq * 65536 + r.version % 65536) ++ leBytes 8 r.time ++ leBytes 2 r.source ++
  leBytes 1 (put r.cls 7 6 + put r.firstCls 5 4) ++
  leBytes 1 (b2n r.isOpen + 2 * b2n r.escalated + 4 * b2n r.coalesced + 8 * b2n r.overflow + 16 * b2n r.memDomain.isSome) ++
  leBytes 4 r.count ++ leBytes 1 r.kind.code ++ leBytes 1 (r.memDomain.getD 0) ++ leBytes 2 r.domId ++ leBytes 4 r.detail

/-- The records held (R466). -/
def ErrQueue.held (q : ErrQueue) : List ErrRec := q.slots.filterMap (·.2)

/-- The open records, held or not (R464, R466). -/
def ErrQueue.opened (q : ErrQueue) : List ErrRec := (q.held.filter (·.isOpen)) ++ q.offQueue

/-- R458: a DEGRADING or JOB-FATAL record is held. -/
def ErrQueue.alert (q : ErrQueue) : Bool := q.held.any (fun r => decide (degrading ≤ r.cls))

/-- R466: record `r` put into slot seq mod 256. -/
def ErrQueue.setSlot (q : ErrQueue) (r : ErrRec) : ErrQueue := { q with slots := SMap.set none q.slots (r.seq % 256) (some r) }

/-- R466: a new record stored in its slot; where the slot holds a record not released, it replaces the newest held one, whose version goes
on (R462). The count of lost records runs on, so that R480 holds of it; the register that shows it saturates. [DEDUCED, log 68] -/
def ErrQueue.store (q : ErrQueue) (r : ErrRec) : ErrQueue × ErrRec :=
  match SMap.get none q.slots (q.nextSeq % 256) with
  | none =>
    let r := { r with seq := q.nextSeq }
    ({ q.setSlot r with nextSeq := q.nextSeq + 1, newest := q.nextSeq, stored := q.stored + 1 }, r)
  | some _ =>
    let top := q.held.foldl (fun m x => if m.seq < x.seq then x else m) {}
    let r := { r with seq := top.seq, overflow := true, version := top.version + 1 }
    ({ q.setSlot r with newest := top.seq, lost := q.lost + 1,
                        offQueue := if top.isOpen then q.offQueue ++ [top] else q.offQueue }, r)

/-- R467: the vectors of OBS_ERRQ_CTL, for a record stored or escalated to class `cls`. -/
def State.errVectors (s : State) (cls : Nat) : State :=
  let ctl := s.reg 0x03B00020
  if fld ctl 31 30 ≤ cls then
    let s := if bit ctl 22 then s.raiseMsix .ha (fld ctl 10 0) else s
    if bit ctl 23 then s.raiseMsix .hb (fld ctl 21 11) else s
  else s

/-- R463: a CORRECTED record of the same source and domain, raised within the last second and still held. -/
def ErrQueue.coalesceInto (q : ErrQueue) (now source : Nat) (kind : DomKind) (id : Nat) : Option ErrRec :=
  q.held.find? (fun r => r.cls == corrected && r.source == source && r.kind == kind && r.domId == id &&
    decide (now ≤ r.time + 1000000000))

/-- R465: the open record of a containment domain. -/
def ErrQueue.openOf (q : ErrQueue) (kind : DomKind) (id : Nat) : Option ErrRec :=
  q.opened.find? (fun r => r.kind == kind && r.domId == id)

/-- R465: a record after an error of class `cls` merges into it; the steps of the old class not yet done are abandoned. -/
def ErrRec.merge (r : ErrRec) (cls : Nat) : ErrRec :=
  let up := min (max cls (r.cls + 1)) r.kind.highest
  { r with count := sat 32 (r.count + 1), cls := up, escalated := true, version := r.version + 1,
           step := if up = r.cls then r.step else 0 }

/-- R459, R463 to R467: an error raised. [DEDUCED, log 67] -/
def State.raiseError (s : State) (source cls : Nat) (kind : DomKind) (id : Nat) (memDom : Option Nat) (detail : Nat) : State :=
  let q := { s.errq with raised := s.errq.raised + 1 }
  let fresh : ErrRec := { time := s.now, source := source, cls := cls, firstCls := cls, isOpen := decide (cls ≠ corrected),
                          memDomain := memDom, kind := kind, domId := id, detail := detail }
  match (if cls = corrected then q.coalesceInto s.now source kind id else none) with
  | some r =>
    let r := { r with count := sat 32 (r.count + 1), coalesced := true, version := r.version + 1 }
    { s with errq := { q.setSlot r with coalesced := q.coalesced + 1 } }
  | none =>
    match q.openOf kind id with
    | some r =>
      let m := r.merge cls
      if q.offQueue.any (fun x => x == r) then
        let (q, m) := ErrQueue.store { q with offQueue := q.offQueue.filter (fun x => x != r) }
          { m with overflow := true, version := 0, time := s.now }
        (State.errVectors { s with errq := q } m.cls).chalkError m.source m.seq m.cls m.memDomain
      else
        let s := { s with errq := { q.setSlot m with merged := q.merged + 1 } }
        if m.cls = r.cls then s else (s.errVectors m.cls).chalkError m.source m.seq m.cls m.memDomain
    | none =>
      let (q, r) := q.store fresh
      (State.errVectors { s with errq := q } cls).chalkError source r.seq cls memDom

/-- A CONTAINED error logged against a core queue: source 0x010C (R459), with detail cseq[31:0] (R573). -/
def State.logQueue (s : State) (source qi domain cseq : Nat) : State :=
  (s.raiseError source contained .queue qi (some domain) (cseq % 2 ^ 32)).addCtx domain 11 1

/-- R413: the AER status bits; bit 14 Completion Timeout, 12 Poisoned TLP, 15 Completer Abort, 16 Unexpected Completion, 18 Malformed
TLP, 20 Unsupported Request, and bit 22 for a misuse that only the module logs. -/
def State.logPort (s : State) (p : HostPort) (aer : Nat) : State :=
  let s := s.modPort p (fun x => { x with aerUnc := if aer = 0 then x.aerUnc else x.aerUnc ||| 2 ^ aer })
  s.raiseError 0x0402 contained .hostPort (portNum p) none (s.port p).aerUnc

/-- R20, R22, R250, R416, R438: misuse of a register by a host, logged as source 0x0402. -/
def State.misuse (s : State) (p : HostPort) : State := s.logPort p 0

/-- R573: the detail of a PORT error not caused by a transport message. [DEDUCED, log 68] -/
def State.portDetail (s : State) (p : Nat) : Nat :=
  let x := s.fport p
  put x.partnerId 13 0 + put (b2n x.partnerSwitch) 17 17

/-- An error charged to a fabric port. -/
def State.errPort (s : State) (source cls p : Nat) : State := s.raiseError source cls .port p none (s.portDetail p)

/-- R573: an error charged to a fabric port for a transport message from `src`. -/
def State.errMsg (s : State) (p src : Nat) : State := s.raiseError 0x0304 contained .port p none (put src 13 0 + 2 ^ 16)

/-- R512: the longest hold of an image's activation, over all its units, in ns. [DEDUCED, log 76] -/
def activationHold (j : Nat) : Nat := [300000000, 50000000, 240000000, 10000, 80000000].getD j 0

/-- R512: image `j` is activating. -/
def State.activating (s : State) (j : Nat) : Bool := match s.sec.activation with | some a => a.cur == j | none => false

/-- R512: image `j` is activating and unit `u` of it restarts, where the units restart in turn and each takes `each` ns.
[DEDUCED, log 76] -/
def State.unitRestarts (s : State) (j each u : Nat) : Bool :=
  match s.sec.activation with
  | some a => a.cur == j && (s.now + activationHold j - a.deadline) / each == u
  | none => false

/-- R458, R452, R454: ALERT_N is asserted. -/
def State.alertAsserted (s : State) : Bool := s.power.standby && s.power.pwrGood && (s.errq.alert || s.power.capAlert || s.power.hold)

/-- R556: MOD_HEALTH is high. -/
def State.modHealth (s : State) : Bool := s.power.standby && s.power.pwrEn && s.ready

end Sys2Proof.Machine
end

