-- ==== Sys2Proof/Machine/Queues.lean ====
section
/-! DEFINITION. Core queues and host queues: who may dispatch (R209), completion records (R247 to R249), traps (R251), the end of a
submission (R245, R247) and its settling under lost-host handling (R421 to R425). -/

namespace Sys2Proof.Machine

/-! ### Status codes (R248) and trap causes (R254) -/

def stOk : Nat := 0
def stPeerLost : Nat := 1
def stConflict : Nat := 2
def stDupStream : Nat := 3
def stIncompatible : Nat := 4
def stContained : Nat := 5
def stSourceLost : Nat := 6
def stNotReady : Nat := 7
def stBadSignature : Nat := 8
def stTimeout : Nat := 9

def trIllegal : Nat := 1
def trMisaligned : Nat := 2
def trAddress : Nat := 3
def trRstack : Nat := 4
def trSoftware : Nat := 5
def trStatus : Nat := 6
def trContained : Nat := 7

/-! ### Fields of a wide command (R214) -/


/-- The words of a dispatched command as numbers. -/
def Wide.n0 (w : Wide) : Nat := w.w.w0.toNat
def Wide.n1 (w : Wide) : Nat := w.w.w1.toNat
def Wide.n2 (w : Wide) : Nat := w.w.w2.toNat
def Wide.n3 (w : Wide) : Nat := w.w.w3.toNat

def Wide.opcode (w : Wide) : Nat := fld w.n0 59 52
def Wide.recBit (w : Wide) : Bool := bit w.n0 51
def Wide.nrep (w : Wide) : Bool := bit w.n0 50
def Wide.measBit (w : Wide) : Bool := bit w.n0 49
def Wide.retEn (w : Wide) : Bool := bit w.n0 48
def Wide.retTack (w : Wide) : Nat := fld w.n0 47 34
/-- The op field of SHUTTLE is [23:20] of w0; of TACK, COLL, MEASURE, CHALK and FENCE it is [31:28] (R229 to R239). -/
def Wide.op (w : Wide) : Nat := if w.opcode = 6 then fld w.n0 23 20 else fld w.n0 31 28

/-- R209, R239: the command is a TACK wait or a FENCE, at which the queue stands. -/
def Wide.stalls (w : Wide) : Bool := (w.opcode == 7 && (w.op == 2 || w.op == 3)) || w.opcode == 0xC

/-! ### The queue and its core -/

/-- The core now serving core queue `qi` (R255, R470). -/
def State.serving (s : State) (qi : Nat) : Nat :=
  let q := s.queue qi
  if q.movedTo = 0 then qi / 8 else q.movedTo - 1

/-- R255, R471: the sequencer that works for core queue `qi`; it reaches the core store of the queue's own core too. -/
def State.sequencerOf (s : State) (qi : Nat) : Agent := .sequencer (s.serving qi) (qi / 8)

/-- R312: the memory domain of a core queue, from CORE_QDOMAIN. -/
def State.queueDomain (s : State) (qi : Nat) : Nat := fld (s.reg (coreReg (qi / 8) 0x0F10)) (8 * (qi % 8) + 5) (8 * (qi % 8))

/-- The priority of a core queue, from CORE_QUEUE_PRIO of its own core (R209, R470). -/
def State.queuePrio (s : State) (qi : Nat) : Nat := fld (s.reg (coreReg (qi / 8) 0x0F08)) (4 * (qi % 8) + 2) (4 * (qi % 8))

/-- R201: the queue runs in heritage mode. -/
def State.queueHeritage (s : State) (qi : Nat) : Bool := bit (s.reg (coreReg (qi / 8) 0x0F00)) (qi % 8)

/-- R287: the sequence word of a command. -/
def seqWord (qi cseq : Nat) : Nat := 2 ^ 63 + put (qi / 8) 62 58 + put (qi % 8) 57 55 + put cseq 54 0

/-- The host queue of a submission, 64 × port + n. -/
def Submission.hostq (x : Submission) : Nat := 64 * portNum x.port + x.hq

/-- R423, R424: lost-host handling of the queue's submission has cancelled it: nothing more dispatches. -/
def State.cancelled (s : State) (q : CoreQ) : Bool :=
  match q.sub with
  | some x => match (s.hostq x.hostq).lost with
    | some l => l.cancel && !l.settled
    | none => false
  | none => false

/-- R209: the queue is stalled at a command that has not issued, at a FENCE or at a TACK wait; a command kept through a move and not
yet reached again (R255) does not count. -/
def CoreQ.stalled (q : CoreQ) : Bool :=
  q.inflight.any (fun w => decide (w.cseq ≤ q.cseq) && (w.stage == .dispatched || (w.stage == .issued && w.stalls)))

/-- R209, R245, R251: the queue can dispatch. -/
def State.canDispatch (s : State) (qi : Nat) : Bool :=
  let q := s.queue qi
  (match q.sub with | some x => !x.ended | none => false) && q.trap.isNone && !q.stopped && !q.stalled && !s.cancelled q &&
  (s.core (s.serving qi)).fence == .inService

/-- The contexts of core `c`: its own queues at 0–7 and its guest contexts at 8–15 (R470), each with the queue it serves. -/
def State.contexts (s : State) (c : Nat) : List (Nat × Nat) :=
  ((upto 8).filterMap (fun q => if (s.queue (8 * c + q)).movedTo = 0 then some (q, 8 * c + q) else none)) ++
  ((upto 8).filterMap (fun g => match SMap.get 0 (s.core c).guests g with | 0 => none | n + 1 => some (8 + g, n)))

/-- R209: the context that the sequencer of core `c` serves next: the highest priority, in turn after the last one served. -/
def State.nextContext (s : State) (c : Nat) : Option (Nat × Nat) :=
  let cand := (s.contexts c).filter (fun x => s.canDispatch x.2)
  let top := cand.foldl (fun m x => max m (s.queuePrio x.2)) 0
  let best := cand.filter (fun x => s.queuePrio x.2 == top)
  match best.find? (fun x => decide ((s.core c).lastServed < x.1)) with
  | some x => some x
  | none => best.head?

/-- R512: the sequencers restart with a new SQ image; dispatch is held module-wide. -/
def State.sqHeld (s : State) : Bool := s.activating 3

/-- R209: it is the turn of queue `qi` to dispatch, and the die works. -/
def State.turn (s : State) (qi : Nat) : Bool :=
  s.alive && !s.sqHeld && (match s.nextContext (s.serving qi) with | some x => x.2 == qi | none => false)

/-- The turn taken: the sequencer remembers the context it served. -/
def State.took (s : State) (qi : Nat) : State :=
  let c := s.serving qi
  s.modCore c (fun x => { x with lastServed := match (s.contexts c).find? (fun y => y.2 == qi) with | some y => y.1 | none => x.lastServed })

/-! ### Completion records (R247, R249) -/

/-- R247: a completion record; the phase bit is added as it is written. -/
def recBytes (cseq tag opcode status outcome flags fmts core queue cause time : Nat) : List Byte :=
  leBytes 8 cseq ++ leBytes 4 tag ++ leBytes 1 opcode ++ leBytes 1 status ++ leBytes 1 outcome ++ leBytes 1 flags ++
  leBytes 2 fmts ++ leBytes 1 core ++ leBytes 1 queue ++ leBytes 4 cause ++ leBytes 8 time

/-- R249, R250: the completion ring has a free entry. -/
def HostQ.ringRoom (h : HostQ) : Bool := decide ((h.ctail + 65536 - h.head) % 65536 < 2 ^ h.sizeLog2 - 1)

/-- R422: the queue is under lost-host handling: no record is written and no vector raised. -/
def HostQ.underHandling (h : HostQ) : Bool := match h.lost with | some l => !l.settled | none => false

/-- R247: a record written to the ring of host queue `hq`, with the phase of the pass; then its vector (R409, R410). -/
def State.writeRec (s : State) (hq : Nat) (r : PendingRec) : State :=
  let h := s.hostq hq
  if h.underHandling then s
  else
    let pos := h.ctail % 2 ^ h.sizeLog2
    let flags := (r.bytes.getD 15 0).toNat
    let bytes := r.bytes.set 15 (BitVec.ofNat 8 (flags + 8 * b2n h.phase))
    let s := s.writeHost (portOf (hq / 64)) (h.cring + 32 * pos) bytes
    let s := s.setHostq hq { h with ctail := (h.ctail + 1) % 65536, phase := if pos + 1 = 2 ^ h.sizeLog2 then !h.phase else h.phase }
    if r.irq then s.raiseMsix (portOf (hq / 64)) h.vec else s

/-- R249: waiting records written while the ring has room. -/
def State.drainRecsN (s : State) (qi hq : Nat) : Nat → State
  | 0 => s
  | k + 1 =>
    let q := s.queue qi
    match q.recs with
    | [] => s
    | r :: rs => if (s.hostq hq).ringRoom || (s.hostq hq).underHandling
      then ((s.setQueue qi { q with recs := rs }).writeRec hq r).drainRecsN qi hq k else s

def State.drainRecs (s : State) (qi hq : Nat) : State := s.drainRecsN qi hq (s.queue qi).recs.length

/-- A record made by queue `qi` for its submission's host queue: written at once where there is room. -/
def State.pushRec (s : State) (qi hq : Nat) (r : PendingRec) : State :=
  (s.modQueue qi (fun q => { q with recs := q.recs ++ [r] })).drainRecs qi hq

/-- R249: retirement that writes a record may go on: no earlier record waits and the ring has room. -/
def State.recRoom (s : State) (qi : Nat) : Bool :=
  let q := s.queue qi
  match q.sub with
  | some x => (q.recs.isEmpty && (s.hostq x.hostq).ringRoom) || (s.hostq x.hostq).underHandling
  | none => true

/-! ### Completion of wide commands -/

/-- The dispatched command of a queue with sequence number `cseq`. -/
def State.wide (s : State) (qi cseq : Nat) : Option Wide := (s.queue qi).inflight.find? (fun w => w.cseq == cseq)

/-- R206: the command of the queue that waits to issue. -/
def CoreQ.unissued (q : CoreQ) : Option Wide :=
  q.inflight.find? (fun w => w.stage == .dispatched && w.held.isNone && decide (w.cseq ≤ q.cseq))

/-- A dispatched command rewritten. -/
def State.modWide (s : State) (qi cseq : Nat) (f : Wide → Wide) : State :=
  s.modQueue qi (fun q => { q with inflight := q.inflight.map (fun w => if w.cseq == cseq then f w else w) })

/-- R240: a command's work is finished with a status. -/
def State.complete (s : State) (qi cseq status : Nat) : State :=
  s.modWide qi cseq (fun w => if w.stage = .complete then w else { w with stage := .complete, status := status })

/-- Every dispatched command of the module, with its queue. -/
def State.allWide (s : State) : List (Nat × Wide) := s.queues.flatMap (fun e => e.2.inflight.map (fun w => (e.1, w)))

/-- R239, R184: a retired command leaves the lists of what FENCE and STREAM_CLOSE wait for; one with an empty list completes. -/
def Wide.unwait (w : Wide) (qi cseq : Nat) : Wide :=
  if w.waits.isEmpty then w
  else
    let ws := w.waits.filter (fun x => x != (qi, cseq))
    if ws.isEmpty && w.stage == .issued then { w with waits := [], stage := .complete } else { w with waits := ws }

def State.unwaitAll (s : State) (qi cseq : Nat) : State :=
  { s with queues := SMap.mapVals {} (fun _ q => { q with inflight := q.inflight.map (fun w => w.unwait qi cseq) }) s.queues }

/-! ### Discarded work (R253, R422) -/

/-- R125, R253: what one engine holds for core queue `qi` given up; the sums in flight move on to no region, and a drain that was for it
ends. [DESIGN CHOICE, log 31] -/
def Engine.dropQueue (e : Engine) (qi : Nat) : Engine :=
  let gone := (upto 16).filter (fun p => match (SMap.get {} e.pleats p).run with | some r => r.queue == qi | none => false)
  let seamGone := match e.seam with | some x => x.queue == qi | none => false
  { e with regions := e.regions.filter (fun r => r.queue != qi),
           pleats := SMap.mapVals {} (fun p x => if decide (p ∈ gone) then { x with run := none, draining := false } else if seamGone then { x with draining := false } else x) e.pleats,
           loadQ := e.loadQ.filter (fun p => !decide (p ∈ gone)),
           seam := if seamGone then none else e.seam,
           samples := e.samples.filter (fun x => x.queue != qi) }

/-- What one core's shared units hold for core queue `qi` given up. -/
def Core.dropQueue (c : Core) (qi : Nat) : Core :=
  let keep := fun (o : Option (Nat × Nat)) => match o with | some x => if x.1 = qi then none else some x | none => none
  { c with tileQ := c.tileQ.filter (fun x => x.1 != qi), shuttle0 := keep c.shuttle0, shuttle1 := keep c.shuttle1 }

/-- R253: the units of the module give up the discarded commands of core queue `qi`; commands that waited for them to retire wait no
longer. A collective or a boundary that one of them started runs on. -/
def State.dropWork (s : State) (qi : Nat) : State :=
  let gone := (s.queue qi).inflight
  if gone.isEmpty then s
  else
    let s := { s with engines := SMap.mapVals {} (fun _ e => e.dropQueue qi) s.engines,
                      cores := SMap.mapVals {} (fun _ c => c.dropQueue qi) s.cores,
                      tacks := SMap.mapVals {} (fun _ t => { t with waiters := t.waiters.filter (fun x => x.queue != qi) }) s.tacks,
                      ha := { s.ha with asks := s.ha.asks.filter (fun r => r.queue != qi) },
                      hb := { s.hb with asks := s.hb.asks.filter (fun r => r.queue != qi) },
                      upd := { s.upd with accepted := SMap.mapVals [] (fun _ l => l.filter (fun x => x.1 != qi)) s.upd.accepted,
                                          fallback := s.upd.fallback.filter (fun x => x.1 != qi) } }
    gone.foldl (fun s w => s.unwaitAll qi w.cseq) s

/-! ### The end of a submission -/

/-- R425: a host queue settles: disabled, its outcome recorded. -/
def State.settleHostq (s : State) (hq : Nat) : State :=
  s.modHostq hq (fun h => match h.lost with
    | some l => { h with enable := false, stopping := false, lost := some { l with settled := true } }
    | none => h)

/-- R426: every queue under handling of a port has settled: the second EV_HOST_LOST. -/
def State.lostDone (s : State) (p : HostPort) : State :=
  let x := s.port p
  if x.lostOpen && (upto 64).all (fun n => !(bit x.lostQueues n) || !(s.hostq (64 * portNum p + n)).underHandling) then
    (s.setPort p { x with lostOpen := false }).raiseEvent 0x0130
      (put x.lostQueues 127 64 + put 1 8 8 + put x.lostCause 7 5 + put (portNum p) 4 4)
  else s

/-- R425: the queue settled and, with the last one, the handling reported. -/
def State.settle (s : State) (hq : Nat) : State := (s.settleHostq hq).lostDone (portOf (hq / 64))

/-- The submissions a queue still holds unread. -/
def HostQ.waiting (h : HostQ) : Nat := (h.tail + 65536 - h.shead) % 65536

/-- R424: every later submission of the queue discarded. -/
def State.discardLater (s : State) (hq extra : Nat) : State :=
  s.modHostq hq (fun h => match h.lost with
    | some l => { h with shead := h.tail, lost := some { l with discarded := sat 16 (l.discarded + h.waiting + extra) } }
    | none => h)

/-- R423: a DRAIN queue has run every submission up to the tail it held. -/
def HostQ.drained (h : HostQ) : Bool := match h.lost with | some l => h.shead == l.tailLimit | none => true

/-- R423 to R425: handling continues after a submission of `hq` ends: it settles where nothing more is to run. R422: the next entry cannot
be fetched while the port's link is down, so the queue ends as under CANCEL, with ST_CONTAINED. [DEDUCED, log 55] -/
def State.lostStep (s : State) (hq extra : Nat) : State :=
  let h := s.hostq hq
  match h.lost with
  | some l =>
    if l.settled then s
    else if l.cancel then (s.discardLater hq extra).settle hq
    else if h.drained then s.settle hq
    else if !(s.port (portOf (hq / 64))).linkUp then
      ((s.setHostq hq { h with lost := some { l with cancel := true, converted := true,
                                                     status := if l.status = 0 then stContained else l.status } }).discardLater hq extra).settle hq
    else s
  | none => s

/-- R424, R425: a wide command of a queue under handling retires. -/
def State.noteLost (s : State) (hq cseq status : Nat) : State :=
  s.modHostq hq (fun h => match h.lost with
    | some l => if l.settled then h else { h with lost := some { l with cseq := cseq, status := if l.status = 0 then status else l.status } }
    | none => h)

/-- R474 step 3: a moved queue whose own core serves again returns at the end of its submission; its guest context is freed. -/
def State.returnHome (s : State) (qi : Nat) : State :=
  let q := s.queue qi
  if q.movedTo ≠ 0 ∧ (s.core (qi / 8)).fence = .inService then
    let s := s.modCore (q.movedTo - 1) (fun x => { x with guests := SMap.mapVals 0 (fun _ v => if v = qi + 1 then 0 else v) x.guests })
    s.modQueue qi (fun q => { q with movedTo := 0 })
  else s

/-- The core queue that runs a submission of host queue `hq`. -/
def State.runsFor (s : State) (hq : Nat) : Bool :=
  s.queues.any (fun e => match e.2.sub with | some x => x.hostq == hq | none => false)

/-- R249: records of host queue `hq` wait for room in its ring. -/
def State.recsWait (s : State) (hq : Nat) : Bool :=
  s.queues.any (fun e => !e.2.recs.isEmpty && (match e.2.sub with | some x => x.hostq == hq | none => e.2.lastHq == hq + 1))

/-- R250: a host queue that is stopping becomes DISABLED once it runs no submission and its records are written. [DESIGN CHOICE, log 17] -/
def State.settleStop (s : State) (hq : Nat) : State :=
  let h := s.hostq hq
  if h.stopping && !s.runsFor hq && !s.recsWait hq then s.setHostq hq { h with enable := false, stopping := false } else s

/-- R247, R250: the submission of queue `qi` ends with `status`: its end record, and the host queue's disabling where it stops. -/
def State.endSubmission (s : State) (qi status : Nat) : State :=
  let q := s.queue qi
  match q.sub with
  | none => s
  | some x =>
    let r := recBytes (x.lastCseq.getD q.cseq) x.userTag 0 status 0 1 0 (x.lastCore.getD (s.serving qi)) (qi % 8) 0 s.now
    let s := s.setQueue qi { q with sub := none, lastHq := x.hostq + 1, rstack := [], inflight := [], trap := none }
    let s := s.pushRec qi x.hostq { bytes := r, isEnd := true, irq := x.irq }
    ((s.settleStop x.hostq).lostStep x.hostq 0).returnHome qi

/-- R245, R247: the submission ends once END has run and its last wide command has retired. -/
def State.checkEnd (s : State) (qi : Nat) : State :=
  let q := s.queue qi
  match q.sub with
  | some x => if (x.ended || s.cancelled q) && q.inflight.isEmpty && q.trap.isNone && !q.stopped
      then (if s.cancelled q && !x.ended then s.modHostq x.hostq (fun h => match h.lost with
              | some l => { h with lost := some { l with discarded := sat 16 (l.discarded + 1) } } | none => h) else s).endSubmission qi x.status
      else s
  | none => s

/-! ### Traps (R251) -/

/-- The status a trapped record carries: the held command's for STATUS, ST_CONTAINED otherwise (R247). -/
def trapStatus (cause status : Nat) : Nat := if cause = trStatus then status else stContained

/-- The command a trapped queue holds. -/
def CoreQ.heldWide (q : CoreQ) : Option Wide := q.inflight.find? (fun w => w.held.isSome)

/-- R251 step 2, R255: every command before the trapping point has retired; those kept through a move lie past it. -/
def CoreQ.atTrapPoint (q : CoreQ) : Bool :=
  let before := q.inflight.filter (fun w => decide (w.cseq ≤ q.cseq))
  match q.heldWide with
  | some h => (before.head?.map (·.cseq)) == some h.cseq
  | none => before.isEmpty

/-- R425: the core queue of a host queue that settles while the core queue is STOPPED with its submission: what it held is discarded as under
ABORT, and it goes on serving its other host queues. [DEDUCED, log 55] -/
def State.releaseStopped (s : State) (hq qi : Nat) : State :=
  ((s.dropWork qi).modQueue qi (fun q => { q with stopped := false, trap := none, sub := none, inflight := [], rstack := [], lastHq := hq + 1 })).returnHome qi

/-- R251 steps 3 and 4: the trapped record, once the earlier commands have retired; under lost-host handling the queue settles as
CANCEL instead (R422). -/
def State.settleTrap (s : State) (qi : Nat) : State :=
  let q := s.queue qi
  match q.trap, q.sub with
  | some t, some x =>
    if t.recorded || !q.atTrapPoint then s
    else if (s.hostq x.hostq).underHandling then
      let st := trapStatus t.cause (t.code % 256)
      let s := s.modHostq x.hostq (fun h => match h.lost with
        | some l => { h with lost := some { l with converted := l.converted || !l.cancel, cancel := true,
                                                   status := if l.status = 0 then st else l.status } }
        | none => h)
      let s := (s.dropWork qi).modQueue qi (fun q => { q with trap := none, inflight := [] })
      s.endSubmission qi st
    else
      let r := match q.heldWide with
        | some w => recBytes w.cseq x.userTag w.opcode (trapStatus t.cause w.status) w.outcome (4 + 2 * b2n w.replayed) w.fmts
            (s.serving qi) (qi % 8) t.cause s.now
        | none => recBytes q.cseq x.userTag 0 stContained 0 4 0 (s.serving qi) (qi % 8) t.cause s.now
      let s := s.setQueue qi { q with trap := some { t with recorded := true } }
      s.pushRec qi x.hostq { bytes := r, isEnd := false, irq := true }
  | _, _ => s

/-- R251, R254: a scalar instruction, or a stream word, traps: the queue stops before it; `pc` names the word. -/
def State.trapQueue (s : State) (qi cause code : Nat) (pc : Word) : State :=
  let s := s.modQueue qi (fun q => { q with trap := some { cause := cause, code := code, pc := pc } })
  let s := if cause = trContained then s.logQueue 0x010A qi (s.queueDomain qi) (s.queue qi).cseq else s
  s.settleTrap qi

/-- R251: a dispatched command is held by a trap. -/
def State.trapWide (s : State) (qi cseq cause code : Nat) : State :=
  let s := s.modQueue qi (fun q =>
    { q with inflight := q.inflight.map (fun w => if w.cseq == cseq then { w with held := some cause } else w),
             trap := some { cause := cause, code := code, pc := match q.inflight.find? (fun w => w.cseq == cseq) with
               | some w => w.pc | none => q.pc } })
  s.settleTrap qi

/-- R256, R457, R469, R479: the queue goes to STOPPED; a queue with a submission writes a record of ST_CONTAINED. -/
def State.stopQueue (s : State) (qi : Nat) : State :=
  let q := s.queue qi
  if q.stopped then s
  else
    let s := s.setQueue qi { q with stopped := true, trap := none, inflight := q.inflight.map (fun w => { w with held := none }) }
    match q.sub with
    | some x =>
      if (s.hostq x.hostq).underHandling then
        let s := s.modHostq x.hostq (fun h => match h.lost with
          | some l => { h with lost := some { l with status := if l.status = 0 then stContained else l.status } } | none => h)
        (s.releaseStopped x.hostq qi).settle x.hostq
      else
        let r := match q.inflight.head? with
          | some w => recBytes w.cseq x.userTag w.opcode stContained w.outcome (4 + 2 * b2n w.replayed) w.fmts (s.serving qi) (qi % 8)
              trContained s.now
          | none => recBytes q.cseq x.userTag 0 stContained 0 4 0 (s.serving qi) (qi % 8) trContained s.now
        s.pushRec qi x.hostq { bytes := r, isEnd := false, irq := true }
    | none => s

end Sys2Proof.Machine
end

