-- ==== Sys2Proof/Machine/Tacks.lean ====
section
/-! DEFINITION. Tacks (R258 to R274): the operations on one tack, its waiters, SOURCE_LOST, and the host's operations. -/

namespace Sys2Proof.Machine

/-- The tacks of the module (R258). -/
def tackCount : Nat := 16384

/-- R262: a value meets a waiter's condition. -/
def Waiter.met (x : Waiter) (v : Nat) : Bool := if x.eq then v == x.operand else decide (x.operand ≤ v)

/-- R263: waiters whose condition the tack's value meets complete with ST_OK. -/
def State.wakeWaiters (s : State) (n : Nat) : State :=
  let t := s.tack n
  let hit := t.waiters.filter (fun x => x.met t.value)
  let s := s.setTack n { t with waiters := t.waiters.filter (fun x => !x.met t.value) }
  hit.foldl (fun s x => s.complete x.queue x.cseq stOk) s

/-- R260: ADD v, modulo 2^32; also the retirement increment. -/
def State.tackAdd (s : State) (n v : Nat) : State :=
  let t := s.tack n
  (s.setTack n { t with value := (t.value + v) % 2 ^ 32 }).wakeWaiters n

/-- R260: SET v. -/
def State.tackSet (s : State) (n v : Nat) : State :=
  let t := s.tack n
  (s.setTack n { t with value := v % 2 ^ 32, arrivals := 0, arriveN := 0, mismatch := false, sourceLost := false }).wakeWaiters n

/-- R261: an arrival counted in the round: opened where none is open, completed at its n-th. -/
def Tack.arrive (t : Tack) (n : Nat) : Tack :=
  let an := if t.arriveN = 0 then n else t.arriveN
  let t := { t with arriveN := an, mismatch := t.mismatch || an != n, arrivals := t.arrivals + 1 }
  if t.arrivals = an then { t with value := (t.value + 1) % 2 ^ 32, arrivals := 0, arriveN := 0 } else t

/-- R261: ARRIVE n by a command of queue `qi`; a different participant count is logged against the queue. -/
def State.tackArrive (s : State) (tn n qi cseq : Nat) : State :=
  let t := s.tack tn
  let bad := t.arriveN != 0 && t.arriveN != n
  let s := (s.setTack tn (t.arrive n)).wakeWaiters tn
  if bad then s.logQueue 0x010C qi (s.queueDomain qi) cseq else s

/-- R262, R273: a WAIT issues: it completes at once where its condition holds or the tack is in SOURCE_LOST, and waits otherwise. -/
def State.tackWait (s : State) (n : Nat) (x : Waiter) : State :=
  let t := s.tack n
  if x.met t.value then s.complete x.queue x.cseq stOk
  else if t.sourceLost then s.complete x.queue x.cseq stSourceLost
  else s.setTack n { t with waiters := t.waiters ++ [x] }

/-- R262: a waiter leaves with a status. -/
def State.endWait (s : State) (n qi cseq status : Nat) : State :=
  let t := s.tack n
  if t.waiters.any (fun x => x.queue == qi && x.cseq == cseq) then
    (s.setTack n { t with waiters := t.waiters.filter (fun x => !(x.queue == qi && x.cseq == cseq)) }).complete qi cseq status
  else s

/-- R272: the tack enters SOURCE_LOST: every waiter whose condition is not met completes with ST_SOURCE_LOST. -/
def State.enterSourceLost (s : State) (n : Nat) : State :=
  let t := s.tack n
  let s := s.setTack n { t with sourceLost := true, waiters := [] }
  t.waiters.foldl (fun s x => s.complete x.queue x.cseq (if x.met t.value then stOk else stSourceLost)) s

/-! ### Communicators and lost modules, as bindings see them -/

/-- COL_COMM_CFG of communicator `c`. -/
def State.commCfg (s : State) (c : Nat) : Nat := s.reg (0x03200000 + 0x10 * c)

/-- R382: entry `i` of the rank table. -/
def State.rankEntry (s : State) (i : Nat) : Nat :=
  let w := s.reg (0x03300000 + 4 * (i / 2))
  if i % 2 = 0 then fld w 13 0 else fld w 29 16

/-- The fields of COL_COMM_CFG. -/
def State.commValid (s : State) (c : Nat) : Bool := bit (s.commCfg c) 63
def State.commSize (s : State) (c : Nat) : Nat := fld (s.commCfg c) 62 48
def State.commBase (s : State) (c : Nat) : Nat := fld (s.commCfg c) 47 32
def State.commRank (s : State) (c : Nat) : Nat := fld (s.commCfg c) 31 18
def State.commDomain (s : State) (c : Nat) : Nat := fld (s.commCfg c) 17 12

/-- The fabric ID of rank `r` of communicator `c`. -/
def State.member (s : State) (c r : Nat) : Nat := s.rankEntry (s.commBase c + r)

/-- The members of a communicator in rank order. -/
def State.members (s : State) (c : Nat) : List Nat := (upto (s.commSize c)).map (s.member c)

/-- R570: the module's own fabric ID, and whether it is valid. -/
def State.fabricId (s : State) : Nat := fld (s.reg 0x03100000) 13 0
def State.fabricValid (s : State) : Bool := bit (s.reg 0x03100000) 31

/-- R396: a module is declared lost. -/
def State.isLost (s : State) (id : Nat) : Bool := decide (id ∈ s.link.lost)

/-- R272: the modules a tack is bound to. -/
def State.boundTo (s : State) (t : Tack) (id : Nat) : Bool :=
  if t.srcKind = 1 then t.srcId == id
  else if t.srcKind = 2 then
    let c := t.srcId % 256
    s.commValid c && id != s.fabricId && decide (id ∈ s.members c)
  else false

/-- R272, R394: every tack bound to a lost module enters SOURCE_LOST. -/
def State.loseSources (s : State) (id : Nat) : State :=
  (s.tacks.filter (fun e => s.boundTo e.2 id && !e.2.sourceLost)).foldl (fun s e => s.enterSourceLost e.1) s

/-! ### Meanings -/

/-- R262: the WAIT of core queue q of core c on tack n expires. [DESIGN CHOICE, log 5] -/
def doWaitTimeout (n c q : Nat) (s : State) : State :=
  match (s.tack n).waiters.find? (fun x => x.queue == 8 * c + q) with
  | some x => match x.deadline with
    | some d => if s.freeze.frozen then s else
        let s := { s with now := max s.now d }
        s.endWait n (8 * c + q) x.cseq stTimeout
    | none => s
  | none => s

/-- R262: TACK_WAIT_TIMEOUT. -/
def execTackWaitTimeout (n c q : Nat) (s : State) : Host.Outcome State Fault Refusal :=
  if n < tackCount ∧ c < 24 ∧ q < 8 then .next (doWaitTimeout n c q s) else .fault .noSuchUnit

end Sys2Proof.Machine
end

