-- ==== Sys2Proof/Machine/LinkOps.lean ====
section
/-! DEFINITION. Shared operations of the link layer and the transport: flits (R360 to R363), sequence numbers, acknowledgement and
credit fields (R364, R367), messages (R371, R372) and streams (R375, R380). -/

namespace Sys2Proof

open Sys2Proof.Machine

def Flit.kind (f : Flit) : Nat := fld f.header 63 61
def Flit.vc (f : Flit) : Nat := fld f.header 60 59
def Flit.ackValid (f : Flit) : Bool := bit f.header 58
def Flit.nack (f : Flit) : Bool := bit f.header 57
def Flit.ackSeq (f : Flit) : Nat := fld f.header 56 45
def Flit.crVc (f : Flit) : Nat := fld f.header 44 43
def Flit.crCount (f : Flit) : Nat := fld f.header 42 37
def Flit.isFirst (f : Flit) : Bool := bit f.header 36
def Flit.isLast (f : Flit) : Bool := bit f.header 35

/-- R363: the flit's check passes with a sequence number. -/
def Flit.passes (f : Flit) (seq : Nat) : Bool := f.payload.length == 240 && f.crc == flitCrc f.header f.payload seq
def Msg.dst (m : Msg) : Nat := fld m.t0 63 50
def Msg.src (m : Msg) : Nat := fld m.t0 49 36
def Msg.mkind (m : Msg) : Nat := fld m.t0 35 31
def Msg.domain (m : Msg) : Nat := fld m.t0 30 25
def Msg.streamNo (m : Msg) : Nat := fld m.t1 63 48
def Msg.mseq (m : Msg) : Nat := fld m.t1 47 24
def Msg.atomicOp (m : Msg) : Nat := fld m.t1 23 22

/-- The fields of collective kinds. -/
def Msg.comm (m : Msg) : Nat := fld m.t2 63 56
def Msg.k (m : Msg) : Nat := fld m.t2 55 32
def Msg.chunk (m : Msg) : Nat := fld m.t2 31 0
def Msg.level (m : Msg) : Nat := fld m.t3 63 59
def Msg.node (m : Msg) : Nat := fld m.t3 58 45
def Msg.part (m : Msg) : Nat := fld m.t3 44 32
def Msg.sig (m : Msg) : Nat := fld m.t3 31 0

/-- R371: the flits of a message. -/
def Msg.flits (m : Msg) : Nat := cdiv (m.data.length + 32) 240

/-- R371: the wire bytes of a message. -/
def Msg.wire (m : Msg) : List Byte := leBytes 8 m.t0 ++ leBytes 8 m.t1 ++ leBytes 8 m.t2 ++ leBytes 8 m.t3 ++ m.data

/-- R372: the kinds that carry data; a CSWAP carries its compare value. -/
def Msg.hasData (m : Msg) : Bool := m.mkind == 1 || m.mkind == 3 || m.mkind == 5 || m.mkind == 10 || m.mkind == 11 ||
  (m.mkind == 4 && m.atomicOp == 2)

/-- R371: a message read from its wire bytes. -/
def Msg.ofWire (bs : List Byte) : Msg :=
  let m := Msg.mk (leAt bs 0 8) (leAt bs 8 8) (leAt bs 16 8) (leAt bs 24 8) []
  if m.hasData then { m with data := (bs.drop 32).take (fld m.t0 24 11 + 1) } else m

end Sys2Proof

namespace Sys2Proof.Machine

/-! ### Sending flits -/

/-- A virtual channel's books. -/
def FabPort.book (x : FabPort) (vc : Nat) : VcBook := SMap.get {} x.vcs vc
def FabPort.setBook (x : FabPort) (vc : Nat) (b : VcBook) : FabPort := { x with vcs := SMap.set {} x.vcs vc b }

/-- R366: this module's receive depths. -/
def rxDepth (vc : Nat) : Nat := [128, 256, 896, 32].getD vc 0

/-- R364: the acknowledgement fields of the next flit sent: the last sequence accepted. -/
def FabPort.ackFields (x : FabPort) : Nat :=
  if x.unacked = 0 then 0 else put 1 58 58 + put ((x.rxSeq + 4095) % 4096) 56 45

/-- R367: the virtual channel whose freed buffers are returned next, `first` before the others, and how many credits fit. -/
def FabPort.owedVc (x : FabPort) (first : Nat := 0) : Option (Nat × Nat) :=
  match (first :: upto 4).find? (fun v => (x.book v).owed != 0) with
  | some v => some (v, min 63 (x.book v).owed)
  | none => none

/-- R367: the credit fields of a DATA or CTRL flit, and the books after it returns them. -/
def FabPort.returnCredits (x : FabPort) (first : Nat := 0) : Nat × FabPort :=
  match x.owedVc first with
  | some (v, n) =>
    let b := x.book v
    (put v 44 43 + put n 42 37, x.setBook v { b with owed := b.owed - n, returned := (b.returned + n) % 2 ^ 32 })
  | none => (0, x)

/-- R364: an unsequenced flit sent, with the acknowledgement owed riding in it. -/
def State.sendUnsequenced (s : State) (p kind : Nat) (payload : List Byte) : State :=
  let x := s.fport p
  let s := s.setFport p { x with unacked := 0 }
  s.emit p (put kind 63 61 + x.ackFields) (pad240 payload) 0

/-- R365, R367: a sequenced flit first sent on a VC: one credit spent, its sequence number taken, a copy kept for replay. -/
def State.sendSequenced (s : State) (p kind vc flags : Nat) (payload : List Byte) (first : Nat := 0) : State :=
  let x := s.fport p
  let b := x.book vc
  let x := x.setBook vc { b with avail := b.avail - 1, sentTotal := (b.sentTotal + 1) % 2 ^ 32 }
  let (cr, x) := x.returnCredits first
  let header := put kind 63 61 + put vc 60 59 + x.ackFields + cr + flags
  let x := { x with txSeq := (x.txSeq + 1) % 4096, unacked := 0, replay := x.replay ++ [Kept.mk x.txSeq header (pad240 payload)] }
  ((s.setFport p x).emit p header (pad240 payload) (x.txSeq + 4095)).addGctr (752 + p) 256

/-- R365, R367: the port can send a new sequenced flit on a VC. -/
def FabPort.canSend (x : FabPort) (vc : Nat) : Bool :=
  x.state == .up && (x.book vc).avail != 0 && decide (x.replay.length < 512)

/-- R369, R370: a CTRL flit asks for VC3; a link that is down has none. -/
def State.sendCtrl (s : State) (p : Nat) (c : Ctrl) : State :=
  s.modFport p (fun x => if x.state == .up || x.state == .held || x.state == .recovery then { x with ctrlq := x.ctrlq ++ [c] } else x)

/-- R368: the figures of one VC, the AUDIT's own credit spent. -/
def FabPort.auditFigures (x : FabPort) (vc : Nat) : List Byte :=
  let b := x.book vc
  let own := if vc = 3 then 1 else 0
  leBytes 4 (b.sentTotal + own) ++ leBytes 4 b.creditTotal ++ leBytes 2 (b.avail - own)

/-- R369: the payload of a CTRL flit that leaves at time `now`. -/
def FabPort.ctrlPayload (x : FabPort) (now : Nat) : Ctrl → List Byte
  | .credit _ => leBytes 1 1
  | .audit => leBytes 1 2 ++ x.auditFigures 0 ++ x.auditFigures 1 ++ x.auditFigures 2 ++ x.auditFigures 3
  | .timeReq => leBytes 1 3 ++ leBytes 8 now
  | .timeResp t1 t2 => leBytes 1 4 ++ leBytes 8 t1 ++ leBytes 8 t2 ++ leBytes 8 now ++ leBytes 8 0

/-- The virtual channel whose credits a CTRL flit returns first. -/
def Ctrl.first : Ctrl → Nat | .credit vc => vc | _ => 0

/-- R369, R370: the CTRL flit at the head of VC3 leaves. -/
def State.emitCtrl (s : State) (p : Nat) (c : Ctrl) : State :=
  let x := s.fport p
  let s := s.setFport p { x with ctrlq := x.ctrlq.tail, t1 := if c = .timeReq then s.now else x.t1 }
  s.sendSequenced p fkCtrl 3 0 (x.ctrlPayload s.now c) (Ctrl.first c)

/-- R364: a nack naming the expected sequence, in an IDLE flit. -/
def State.sendNack (s : State) (p : Nat) : State :=
  s.emit p (put fkIdle 63 61 + put 1 58 58 + put 1 57 57 + put (s.fport p).rxSeq 56 45) (pad240 []) 0

/-! ### Messages (R371, R372) -/

/-- R372: the virtual channel of a message kind. -/
def kindVc : Nat → Nat
  | 1 => 0 | 2 => 0 | 3 => 1 | 4 => 0 | 5 => 1 | 6 => 0 | 7 => 1 | 8 => 0 | 9 => 0 | 10 => 2 | 11 => 2 | _ => 3

/-- R371: a header's t0. -/
def msgT0 (dst src mkind domain len : Nat) : Nat :=
  put dst 63 50 + put src 49 36 + put mkind 35 31 + put domain 30 25 + put (len - 1) 24 11

/-! ### Streams and ports (R375, R380) -/

/-- The stream with a module: by its fabric ID and stream number. -/
def State.stream (s : State) (id n : Nat) : Stream := SMap.get {} s.link.streams (512 * id + n)
def State.setStream (s : State) (id n : Nat) (x : Stream) : State :=
  { s with link := { s.link with streams := SMap.set {} s.link.streams (512 * id + n) x } }

/-- R380: the port reaches a module: under CLOS any UP port, in a mesh a port cabled to it. -/
def State.portReaches (s : State) (p id : Nat) : Bool :=
  let x := s.fport p
  x.state == .up && (bit (s.reg 0x03100008) 31 || (x.partnerId == id && !x.partnerSwitch))

/-- R380: the next port in turn among those that reach a module, other than `avoid` where another does. -/
def State.choosePort (s : State) (id : Nat) (avoid : Nat) : Option Nat :=
  let all := (upto 48).filter (fun p => s.portReaches p id)
  let cand := if all.any (· != avoid) then all.filter (· != avoid) else all
  match cand.find? (fun p => decide (s.link.rr ≤ p)) with
  | some p => some p
  | none => cand.head?

/-- R371: a message's bytes cut into the payloads of its flits. -/
def flitParts : Nat → List Byte → List (List Byte)
  | 0, _ => []
  | k + 1, bs => if bs.isEmpty then [] else bs.take 240 :: flitParts k (bs.drop 240)

/-- R370, R371: a message's flits queued on a port's virtual channel. -/
def State.queueFlits (s : State) (p : Nat) (m : Msg) : State :=
  let vc := kindVc m.mkind
  let parts := flitParts m.flits m.wire
  let fs := (upto parts.length).map (fun i =>
    Flit.mk (put (b2n (i == 0)) 36 36 + put (b2n (i + 1 == parts.length)) 35 35) (parts.getD i []) 0)
  s.modFport p (fun x => { x with outq := SMap.set [] x.outq vc (SMap.get [] x.outq vc ++ fs) })

/-- A message handed to a port; the port after it is next in turn. -/
def State.dispatchMsg (s : State) (p : Nat) (m : Msg) : State :=
  let s := { s with link := { s.link with rr := (p + 1) % 48, sentMsgs := s.link.sentMsgs ++ [(p, m)] } }
  s.queueFlits p m

/-- R391: the bytes of the source copies and of the reorder buffers that are in use, and their size. -/
def State.transportBytes (s : State) : Nat :=
  (s.link.streams.map (fun e => (e.2.unacked.map (fun k => k.msg.data.length + 32)).sum +
    (e.2.reorder.map (fun k => k.2.data.length + 32)).sum)).sum

/-- R391: the transport's memory has room for a message's copy, its header counted. [DESIGN CHOICE, log 84] -/
def State.transportRoom (s : State) (m : Msg) : Bool := decide (s.transportBytes + m.data.length + 32 ≤ 16 * 2 ^ 20)

/-- R271: a TACK_ADD that leaves for the first time is counted. -/
def State.countSent (s : State) (m : Msg) : State := if m.mkind = 6 then { s with remoteSent := (s.remoteSent + 1) % 2 ^ 64 } else s

/-- R375, R377, R391: a message of a stream may leave: its source copy has room, and a core queue's stream has nothing unacknowledged. -/
def State.mayLeave (s : State) (st : Stream) (n : Nat) (m : Msg) : Bool :=
  decide (st.unacked.length < 4096) && (decide (192 ≤ n) || st.unacked.isEmpty) && s.transportRoom m

/-- R375: a message takes the next mseq of its stream and is kept until acknowledged. One that no UP port reaches is kept and resent by
the timer. -/
def State.leave (s : State) (dst n : Nat) (m : Msg) : State :=
  let st := s.stream dst n
  let m := { m with t1 := put n 63 48 + put st.nextMseq 47 24 + m.t1 % 2 ^ 24 }
  let port := s.choosePort dst 48
  let kept := SentMsg.mk st.nextMseq m (port.getD 48) s.now 0
  let s := s.setStream dst n { st with nextMseq := (st.nextMseq + 1) % 2 ^ 24, unacked := st.unacked ++ [kept] }
  match port with
  | some p => (s.countSent m).dispatchMsg p m
  | none => s

/-- R375, R377: a message of a stream sent, or put behind those that wait; one to a lost module is discarded (R394). [DEDUCED, log 46] -/
def State.sendStream (s : State) (dst n : Nat) (m : Msg) : State :=
  if s.isLost dst then s
  else
    let st := s.stream dst n
    if st.waiting = [] ∧ s.mayLeave st n m then s.leave dst n m else s.setStream dst n { st with waiting := st.waiting ++ [m] }

/-- The messages at the head of a stream that may leave now. -/
def State.drainWaiting (s : State) (dst n : Nat) : Nat → State
  | 0 => s
  | k + 1 =>
    let st := s.stream dst n
    match st.waiting with
    | m :: ms => if s.mayLeave st n m then ((s.setStream dst n { st with waiting := ms }).leave dst n m).drainWaiting dst n k else s
    | [] => s

/-- Every stream with messages that wait, in the order of module and stream number, after room has been made. [DESIGN CHOICE, log 84] -/
def State.drainStreams (s : State) : State :=
  (s.link.streams.filter (fun e => !e.2.waiting.isEmpty)).foldl
    (fun s e => s.drainWaiting (e.1 / 512) (e.1 % 512) e.2.waiting.length) s

/-- R372, R380: an ACK or a response, sent back on the stream that it answers by the next port in turn; it is not itself kept. -/
def State.sendReply (s : State) (m : Msg) : State :=
  match s.choosePort m.dst 48 with
  | some q => s.dispatchMsg q m
  | none => s

/-- R375: the cumulative ACK of a delivered message, with a status. -/
def State.sendAck (s : State) (m : Msg) (status : Nat) : State :=
  s.sendReply { t0 := msgT0 m.src s.fabricId 7 m.domain 1, t1 := put m.streamNo 63 48 + put m.mseq 47 24, t2 := 0, t3 := status }

/-- R268: a remote ADD sent by core queue `qi`, or applied at once where it names this module. R270, R377: with no valid fabric ID, or to a
lost module, it is discarded and does not leave, so R271 does not count it. [DEDUCED, log 26] -/
def State.remoteAdd (s : State) (qi id n v : Nat) : State :=
  if id = s.fabricId then s.tackAdd n v
  else if !s.fabricValid || s.isLost id then s
  else
    let m : Msg := { t0 := msgT0 id s.fabricId 6 (s.queueDomain qi) 1, t1 := 0, t2 := n, t3 := v }
    (s.sendStream id qi m).addCtx (s.queueDomain qi) 5 256

end Sys2Proof.Machine
end

