-- ==== Sys2Proof/Machine/Arbiter.lean ====
section
/-! DEFINITION. The arbiter of R320: its decision point, and the arbiters of the module. -/

namespace Sys2Proof.Machine

/-- The number of an arbiter among those of the module. -/
def arbKey : ArbPort → Nat
  | .hubIngress h => h
  | .coreStoreBank c b => 16 + 16 * c + b
  | .egress p => 512 + p
  | .scopedCtr (.shuttleBytes i) => 600 + i
  | .scopedCtr (.pressElems g) => 700 + g
  | .streamRegistry => 800
  | .role => 801
  | .sew => 802
  | .chalk => 803
  | .tailor => 804
  | .mailbox => 805
  | .tack n => 1024 + n

/-- R320: one decision point: the requester granted, and the arbiter after it. [DESIGN CHOICE, log 66] -/
def Arbiter.decide (x : Arbiter) (prio : Nat → Nat) (masked : Nat → Bool) (asks : List Nat) : Option Nat × Arbiter :=
  let get := fun r => SMap.get ({} : Requester) x.reqs r
  if asks == [x.owner] && !masked x.owner && (get x.owner).wait == 0 then (some x.owner, { x with granted := x.owner + 1 })
  else
    let cand := asks.filter (fun r => !masked r && (get r).wait == 0)
    let reqs := SMap.mapVals ({} : Requester) (fun _ q => { q with wait := q.wait - 1 }) x.reqs
    let top := cand.foldl (fun m r => max m (prio r)) 0
    let best := cand.filter (fun r => prio r == top)
    match (match best.find? (fun r => Decidable.decide (x.lastWinner < r)) with | some r => some r | none => best.head?) with
    | none => (none, { x with reqs := reqs })
    | some w =>
      let lose := fun (q : Requester) => let n := min (q.losses + 1) 9; { q with losses := n, wait := min (2 ^ (n - 1)) 256 }
      let reqs := cand.foldl (fun m r =>
        let q := SMap.get ({} : Requester) m r
        SMap.set ({} : Requester) m r (if r = w then { q with losses := 0, wait := 0 } else lose q)) reqs
      (some w, { x with owner := w, lastWinner := w, reqs := reqs, granted := w + 1 })

/-- R322: masking clears a requester's losses and wait. -/
def Arbiter.clearMasked (x : Arbiter) (masked : Nat → Bool) : Arbiter :=
  { x with reqs := SMap.mapVals ({} : Requester) (fun r q => if masked r then { q with losses := 0, wait := 0 } else q) x.reqs }

/-- R322: a requester is masked: its core is fenced, its host port's link is down, or its hub's update engine is not ACTIVE.
[DESIGN CHOICE, log 66] -/
def State.arbMasked (s : State) (a : ArbPort) (r : Nat) : Bool :=
  match a with
  | .hubIngress h =>
    if r < 24 then (s.core r).fence != .inService
    else if r = 25 then !s.ha.linkUp else if r = 26 then !s.hb.linkUp else decide (r = 27) && ((s.hub h).lost || decide (h ∈ s.upd.notActive))
  | .coreStoreBank c _ => decide (r < 8) && r != 6 && (s.core c).fence != .inService
  | _ => false

/-- R322: of the blocks granted to a masked requester at a hub, the one in flight stays and the rest are dropped, their tokens returning.
[DESIGN CHOICE, log 66] -/
def Hub.dropMasked (x : Hub) (masked : Nat → Bool) : Hub :=
  x.requests.foldl (fun x r =>
    if masked r && x.requests.contains r then { x with tokens := SMap.set 0 x.tokens r (SMap.get 0 x.tokens r - 1) }
    else { x with requests := x.requests ++ [r] }) { x with requests := [] }

/-- R322: the mask of an arbiter asserts: the requests, losses and waits of the requesters that it masks are cleared. -/
def State.maskArb (s : State) (a : ArbPort) : State :=
  let x := (SMap.get {} s.arbiters (arbKey a)).clearMasked (s.arbMasked a)
  let s := { s with arbiters := SMap.set {} s.arbiters (arbKey a) x }
  match a with
  | .hubIngress h => s.modHub h (fun x => x.dropMasked (s.arbMasked a))
  | _ => s

/-- R322: the masks at every hub. -/
def State.maskHubs (s : State) : State := (upto 8).foldl (fun s h => s.maskArb (.hubIngress h)) s

/-- R320: a requester that asks alone until it is granted: the decision points that it sits out pass first. -/
def Arbiter.serve (x : Arbiter) (r : Nat) : Arbiter :=
  let w := (SMap.get ({} : Requester) x.reqs r).wait
  if x.owner = r ∧ w = 0 then { x with granted := r + 1 }
  else
    let reqs := SMap.mapVals ({} : Requester) (fun _ q => { q with wait := q.wait - (w + 1) }) x.reqs
    { x with owner := r, lastWinner := r, granted := r + 1, reqs := SMap.set ({} : Requester) reqs r {} }

/-- R320: requester `r` passes the arbiter `a`, nobody else asking. [DESIGN CHOICE, log 66] -/
def State.passArb (s : State) (a : ArbPort) (r : Nat) : State :=
  { s with arbiters := SMap.set {} s.arbiters (arbKey a) ((SMap.get {} s.arbiters (arbKey a)).serve r) }

/-- R320: a decision point of an arbiter among the requesters that ask; the arbiters with it. -/
def State.arbRound (s : State) (a : ArbPort) (prio : Nat → Nat) (masked : Nat → Bool) (asks : List Nat) : Option Nat × State :=
  let (g, x) := ((SMap.get {} s.arbiters (arbKey a)).clearMasked masked).decide prio masked asks
  (g, { s with arbiters := SMap.set {} s.arbiters (arbKey a) x })

end Sys2Proof.Machine
end

