-- ==== Sys2Proof/Machine/Operands.lean ====
section
/-! DEFINITION. Operand forms: tensor descriptors (R218), the views they name (R62, R63, R568), weft rings (R98, R101, R102), reading and
writing elements, and the conversions of one destination tile (R75, R79, R81, R82, R569). -/

namespace Sys2Proof.Machine

/-! ### Descriptors (R218, R571) -/

/-- R218: a tensor descriptor as its 64 bytes spell it. -/
def descOf (bs : List Byte) : Desc :=
  let tr := leAt bs 0x38 2
  let fb := leAt bs 0x3A 1
  let dm := leAt bs 0x3C 1
  let bl := leAt bs 0x3E 1
  { data := leAt bs 0 8, scale := leAt bs 8 8, aux := leAt bs 0x10 8, capacity := leAt bs 0x18 8,
    rows := leAt bs 0x20 4, cols := leAt bs 0x24 4, stride := leAt bs 0x28 4, jitCapacity := leAt bs 0x2C 4,
    jit := leAt bs 0x30 8, tag := fld tr 11 0, role := fld tr 13 12, tagged := bit tr 14, fmt := fld fb 3 0,
    layout := leAt bs 0x3B 1, domain := fld dm 5 0, keySlot := leAt bs 0x3D 1, blockDim := fld bl 0 0,
    resvFmt := bit tr 15 || fld fb 7 4 != 0,
    resv := fld dm 7 6 != 0 || fld bl 7 1 != 0 || leAt bs 0x3F 1 != 0 }

/-- The descriptor at a module address. -/
def State.readDesc (s : State) (a : Nat) : Desc := descOf (s.readBytes a 64)

/-- R571: reserved values and bits in the fields that a command uses; `usesFmt` is false where it ignores fmt and tag_role (R219), and
`usesLayout` where it ignores the layout. -/
def Desc.reserved (d : Desc) (usesFmt usesLayout : Bool) : Bool :=
  d.resv || (usesLayout && decide (2 < d.layout)) || (usesFmt && (d.resvFmt || d.fmt == 0xE || (d.tagged && d.role == 3)))

/-- The elements of a view. -/
def Desc.count (d : Desc) : Nat := d.rows * d.cols

/-- Whether the view is a weft ring (R98). -/
def Desc.isRing (d : Desc) : Bool := d.layout == 2

/-! ### Where an element lies (R62, R568) -/

/-- Lines of storage: rows of a row-major view, columns of a column-major one. -/
def Desc.lines (d : Desc) : Nat := if d.layout = 1 then d.cols else d.rows
def Desc.lineLen (d : Desc) : Nat := if d.layout = 1 then d.rows else d.cols

/-- The bytes that `n` packed elements of `w` bits take. [DEDUCED, log 27] -/
def packed (n w : Nat) : Nat := cdiv (n * w) 8

/-- R218: the bytes from one line to the next; 0 in the descriptor means packed. [DEDUCED, log 27] -/
def Desc.pitch (d : Desc) (w : Nat) : Nat := if d.stride = 0 then packed d.lineLen w else d.stride

/-- The line and the place in it of view element (r, c). -/
def Desc.place (d : Desc) (r c : Nat) : Nat × Nat := if d.layout = 1 then (c, r) else (r, c)

/-- The address of the first byte of a line. -/
def Desc.lineAt (d : Desc) (w line : Nat) : Nat := d.data + line * d.pitch w

/-- R568: the index of the scale byte of element (r, c). -/
def Desc.scaleIx (d : Desc) (r c : Nat) : Nat := if d.blockDim = 0 then r * cdiv d.cols 32 + c / 32 else r / 32 * d.cols + c

/-- R63, R568: the bytes of a view's scale plane. -/
def Desc.scaleBytes (d : Desc) : Nat := if d.blockDim = 0 then d.rows * cdiv d.cols 32 else cdiv d.rows 32 * d.cols

/-- The address and length of the bytes that hold places [i, i + n) of a line. -/
def Desc.seg (d : Desc) (w line i n : Nat) : Nat × Nat :=
  let a := i * w / 8
  (d.lineAt w line + a, cdiv ((i + n) * w) 8 - a)

/-! ### Weft rings (R98, R101, R102) -/

/-- R102: a weft format that is wide in a seam mode. -/
def wideWeft (f : Fmt) (m : Seam) : Bool := (f == .bf16 && m == .s4) || (f == .fp32 && m == .s16)

/-- R102, R218: a ring with an extension ring, as its writer sees it: the mode that will stream it is not the writer's.
[DEDUCED, log 30] -/
def Desc.wideRing (d : Desc) (f : Fmt) : Bool := d.aux != 0 && (f == .bf16 || f == .fp32)

/-- R98: the lane width of a ring of format `f`, whose weft is wide or not. -/
def laneWidth (f : Fmt) (wide : Bool) : Nat := if wide then f.width / 2 else f.width

/-- R98: the bytes of a ring word of `hc` lanes. -/
def ringWord (hc el : Nat) : Nat := hc * el / 8

/-- R98: the address and first bit of lane `k` of row `g` of a ring of depth `d` at `base`. -/
def laneAt (base d hc el g k : Nat) : Nat × Nat := (base + (g + k) % d * ringWord hc el + k * el / 8, k * el % 8)

/-- R101: the address of the scale byte of elements 32b onward of row `g`. -/
def ringScaleAt (base d hc g b : Nat) : Nat := base + (g + 32 * b) % d * cdiv hc 32 + b

/-- `w` bits at a byte address and first bit. -/
def State.readBits (s : State) (a b w : Nat) : Nat := s.readLe a (cdiv (b + w) 8) >>> b % 2 ^ w

/-- The code of element `k` of row `g` of a ring. -/
def State.ringCode (s : State) (d : Desc) (f : Fmt) (wide : Bool) (g k : Nat) : Nat :=
  let el := laneWidth f wide
  let (a, b) := laneAt d.data d.rows d.cols el g k
  let lo := s.readBits a b el
  if wide then
    let (a, b) := laneAt d.aux d.rows d.cols el g k
    lo + s.readBits a b el <<< el
  else lo

/-! ### The bytes a view touches -/

/-- The bytes of a ring, and of its extension ring. -/
def Desc.ringLen (d : Desc) (f : Fmt) (wide : Bool) : Nat := d.rows * ringWord d.cols (laneWidth f wide)

/-- The ranges of a ring: the ring, its extension ring, its scale ring. -/
def Desc.ringRanges (d : Desc) (f : Fmt) (wide noScale : Bool) : List (Nat × Nat) :=
  [(d.data, d.ringLen f wide)] ++ (if wide then [(d.aux, d.ringLen f wide)] else []) ++
  (if f.blockScaled && !noScale then [(d.scale, d.rows * cdiv d.cols 32)] else [])

/-- The address ranges of a view in format `f`: element data, and the scale and lining planes it has. -/
def Desc.ranges (d : Desc) (f : Fmt) (heritage : Bool) : List (Nat × Nat) :=
  if d.isRing then d.ringRanges f (d.wideRing f) heritage
  else
    let len := packed d.lineLen f.width
    (if d.pitch f.width = len then [(d.data, d.lines * len)] else (upto d.lines).map (fun i => (d.lineAt f.width i, len))) ++
    (if f.blockScaled && !heritage then [(d.scale, d.scaleBytes)] else []) ++
    (if f = .fp32p8 ∧ d.aux ≠ 0 then [(d.aux, d.count)] else [])

/-- R293, R313: an agent working for a domain may reach every byte of these ranges. -/
def State.rangesOk (s : State) (who : Agent) (dom : Nat) (rs : List (Nat × Nat)) : Bool := rs.all (fun x => s.accessOk who dom x.1 x.2)

/-- R309: some byte of these ranges is poisoned. -/
def State.rangesPoisoned (s : State) (rs : List (Nat × Nat)) : Bool := rs.any (fun x => s.poisoned x.1 x.2)

/-! ### Reading elements -/

/-- The code of element (r, c); an FP32+8 code is the word followed by its lining byte (R83, R84). [DEDUCED, log 30] -/
def State.readCode (s : State) (d : Desc) (f : Fmt) (r c : Nat) : Nat :=
  let (line, i) := d.place r c
  let w := f.width
  let v := s.readBits (d.lineAt w line + i * w / 8) (i * w % 8) w
  if f = .fp32p8 then v * 256 + (if d.aux = 0 then 0 else s.readLe (d.aux + r * d.cols + c) 1) else v

/-- R65, R201: the scale byte of element (r, c); in heritage mode every block scale is taken as 0x80. -/
def State.readScale (s : State) (d : Desc) (heritage : Bool) (r c : Nat) : Nat :=
  if heritage then 0x80 else s.readLe (d.scale + d.scaleIx r c) 1

/-- The value of element (r, c) with its block scale and tensor scale (R68). -/
def State.readNum (s : State) (d : Desc) (f : Fmt) (t : Int) (heritage : Bool) (r c : Nat) : Num :=
  let code := s.readCode d f r c
  if f.blockScaled then decodeScaled f code (s.readScale d heritage r c) t
  else if f = .fp32p8 then ofFp32p8 (code / 256) (code % 256)
  else f.decode code

/-- R569: an integer source of an integer operation: no scale; elements of zero and NaN blocks read as 0. The Bool says that the
block is a NaN block. -/
def State.readInt (s : State) (d : Desc) (f : Fmt) (heritage : Bool) (r c : Nat) : Int × Bool :=
  let v := sext f.width (s.readCode d f r c)
  if f.blockScaled then
    let k := s.readScale d heritage r c
    if k = 0 then (0, false) else if k = 255 then (0, true) else (v, false)
  else (v, false)

/-! ### Writing elements -/

/-- The bytes of eight codes of `w` bits each. -/
def packEight (w : Nat) (cs : List Nat) : List Byte := leBytes w (cs.foldr (fun c v => v * 2 ^ w + c % 2 ^ w) 0)

/-- Codes packed eight at a time. [DEDUCED, log 27] -/
def packCodes : Nat → Nat → List Nat → List Byte
  | 0, _, _ => []
  | k + 1, w, cs => if cs.isEmpty then [] else packEight w (cs.take 8) ++ packCodes k w (cs.drop 8)

/-- The stored code at place `i` of a line, for the bits that a write leaves alone. -/
def State.storedCode (s : State) (d : Desc) (w line i : Nat) : Nat :=
  let a := d.lineAt w line + i * w / 8
  ofLe (s.rawBytes a (cdiv (i * w % 8 + w) 8)) >>> (i * w % 8) % 2 ^ w

/-- The bytes of codes written at places [i, i + n) of a line; bits of neighbouring elements keep their value. -/
def State.segBytes (s : State) (d : Desc) (w line i : Nat) (cs : List Nat) : List Byte :=
  if w % 8 = 0 then cs.flatMap (leBytes (w / 8))
  else
    let lo := i / 8 * 8
    let hi := cdiv (i + cs.length) 8 * 8
    let all := (upto (i - lo)).map (fun j => s.storedCode d w line (lo + j)) ++ cs ++
      (upto (hi - i - cs.length)).map (fun j => s.storedCode d w line (i + cs.length + j))
    let skip := i * w / 8 - lo * w / 8
    ((packCodes (all.length + 1) w all).drop skip).take (d.seg w line i cs.length).2

/-- Elements to write, as runs along one line: line, first place, codes. -/
abbrev Run := Nat × Nat × List Nat

/-- Elements in order gathered into runs. -/
def gather (d : Desc) : List (Nat × Nat × Nat) → List Run
  | [] => []
  | (r, c, v) :: es =>
    let (line, i) := d.place r c
    match gather d es with
    | (l, j, vs) :: rs => if l = line ∧ j = i + 1 then (line, i, v :: vs) :: rs else (line, i, [v]) :: (l, j, vs) :: rs
    | [] => [(line, i, [v])]

/-- Neighbouring written ranges joined, for R309. -/
def joinRanges : List (Nat × Nat) → List (Nat × Nat)
  | [] => []
  | (a, n) :: rs =>
    match joinRanges rs with
    | (b, m) :: ts => if b = a + n then (a, n + m) :: ts else (a, n) :: (b, m) :: ts
    | [] => [(a, n)]

/-- Runs written to a view: the bytes, then the poison that the joined ranges cover whole (R309), then the traffic (R526). -/
def State.writeRuns (s : State) (d : Desc) (w : Nat) (dom : Option Nat) (rs : List Run) : State :=
  let s := rs.foldl (fun s x => s.putBytes (d.seg w x.1 x.2.1 x.2.2.length).1 (s.segBytes d w x.1 x.2.1 x.2.2)) s
  let segs := joinRanges (rs.map (fun x => d.seg w x.1 x.2.1 x.2.2.length))
  segs.foldl (fun s x => (s.clearPoison x.1 x.2).countBytes dom false x.1 x.2) s

/-- The byte at which element (r, c) of a view begins. -/
def Desc.byteOf (d : Desc) (w r c : Nat) : Nat := let (line, i) := d.place r c; d.lineAt w line + i * w / 8

/-- Elements of a view written; an FP32+8 code is its word and its lining byte, which is dropped where the descriptor names no lining plane
(R84, R218). -/
def State.writeElems (s : State) (d : Desc) (f : Fmt) (dom : Option Nat) (es : List (Nat × Nat × Nat)) : State :=
  if f = .fp32p8 then
    let s := s.writeRuns d 32 dom (gather d (es.map (fun e => (e.1, e.2.1, e.2.2 / 256))))
    if d.aux = 0 then s else es.foldl (fun s e => s.writeLe (d.aux + e.1 * d.cols + e.2.1) 1 (e.2.2 % 256)) s
  else s.writeRuns d f.width dom (gather d es)

/-- R78: one byte of a scale plane, after the elements of its block. -/
def State.writeScale (s : State) (d : Desc) (dom : Option Nat) (ix v : Nat) : State :=
  (s.writeLe (d.scale + ix) 1 v).countBytes dom false (d.scale + ix) 1

/-- A lane of a ring written. -/
def State.writeLane (s : State) (base d hc el g k v : Nat) : State :=
  let (a, b) := laneAt base d hc el g k
  let n := cdiv (b + el) 8
  let old := ofLe (s.rawBytes a n)
  s.writeLe a n (setFld old (b + el - 1) b v)

/-- R98, R102: lanes from `k0` on of row `g` of a ring written, low halves in the ring and high halves in the extension ring. -/
def State.writeRingRow (s : State) (d : Desc) (f : Fmt) (g k0 : Nat) (cs : List Nat) : State :=
  let el := laneWidth f (d.wideRing f)
  let s := (upto cs.length).foldl (fun s k => s.writeLane d.data d.rows d.cols el g (k0 + k) (cs.getD k 0)) s
  if d.wideRing f then
    (upto cs.length).foldl (fun s k => s.writeLane d.aux d.rows d.cols el g (k0 + k) (cs.getD k 0 >>> el)) s
  else s

/-! ### Stochastic rounding (R76 to R79, R177, R178, R217) -/

/-- R217: the stream operand of a command. -/
def streamSite (w3 : Nat) : Nat := fld w3 45 30
def streamEn (w3 : Nat) : Bool := bit w3 29

/-- R177, R217: key word 0 of the named stream, completed by a fabric ID. -/
def streamK0 (w3 fabric : Nat) : Nat := put fabric 31 18 + put (fld w3 63 57) 17 11 + put (fld w3 56 46) 10 0

/-- R181: the seed of an active key. -/
def State.seedOf (s : State) (k0 : Nat) : Option Nat := (s.registry.keys.find? (fun k => k.1 == k0)).map (·.2)

/-- How a conversion rounds: to nearest, or with draws of a key at a site and step (R178). -/
inductive Rounding where
  | near
  | stoch (k0 k1 site step : Nat)
deriving DecidableEq, Repr

/-- The rounding of element `i` of tile `t` (R179). -/
def Rounding.at : Rounding → Nat → Nat → Rnd
  | .near, _, _ => .near
  | .stoch k0 k1 site step, t, i => .stoch (draw24 k0 k1 site step t i)

/-- R81: the destination formats for which a conversion rounds by R76. -/
def Fmt.rounds (src dst : Fmt) : Bool :=
  src != dst && !src.isInt && (dst.blockScaled || dst == .bf16 || dst == .fp16 || dst == .int16)

/-! ### Conversions into a destination -/

/-- The parts of a conversion: source format, destination format, tensor scale, overflow rule, and whether it is an integer result
(R82, R569). `flush` flushes subnormal FP32 results, as the hem and press unit do in heritage mode (R201). -/
structure Conv where
  src : Fmt
  dst : Fmt
  t : Int := 0
  wrap : Bool := false
  heritage : Bool := false
  flush : Bool := false
deriving DecidableEq, Repr

/-- R201: a subnormal FP32 result of the hem or press unit is flushed to a zero of its sign in heritage mode. -/
def flushFp32 (heritage : Bool) (code : Nat) : Nat :=
  if heritage && fld code 30 23 == 0 then code / 2 ^ 31 * 2 ^ 31 else code

/-- R79, R81: one value into a format without block scales. -/
def convElem (k : Conv) (r : Rnd) (x : Num) : Nat × QCount :=
  match k.dst with
  | .int16 => if k.src.isInt then (match x with
        | .fin s m e => let c := narrowInt 16 k.wrap (roundToInt .near s m e); (c.1, { saturated := b2n c.2 })
        | _ => (0, {}))
      else convInt 16 false r (x.scale2 (-k.t))
  | .int32 => (match x with
        | .fin s m e => let c := narrowInt 32 k.wrap (roundToInt .near s m e); (c.1, { saturated := b2n c.2 })
        | _ => (0, {}))
  | .fp32p8 => if k.src = .fp32p8 then
        let c := toFp32p8 x
        (c.1 * 256 + c.2, { nonFinite := b2n !x.isFin })
      else (x.toFp32 * 256, { nonFinite := b2n !x.isFin })
  | .fp32 => if k.src = .fp32p8 then (match x with
        | .fin _ _ _ => (x.toIeee .fp32 .trunc, {})
        | _ => (x.toFp32, { nonFinite := 1 }))
      else
        let c := convFloat .fp32 r x
        (flushFp32 k.flush c.1, c.2)
  | f => convFloat f r x

/-- R79, R201: what a non-finite value writes where there is no block scale to carry it: in INT8, 0 for NaN and the largest integer of its
sign for an infinity, as into any integer output, kept symmetric by R74; in FP8, the NaN code, which R79 does not state for ±Inf.
[DEDUCED, log 28] -/
def heritageNonFinite (f : Fmt) (x : Num) : Nat :=
  match x with
  | .inf neg => if f.isInt then (if neg then 2 ^ (f.width - 1) + 1 else 2 ^ (f.width - 1) - 1) else Fmt.nanCode f
  | _ => if f.isInt then 0 else Fmt.nanCode f

/-- R201: heritage mode quantises without block scales: the element grid under block scale 0x80. [DEDUCED, log 28] -/
def quantiseHeritage (f : Fmt) (t : Int) (xs : List (Num × Rnd)) : List Nat × QCount :=
  let es := xs.map (fun x =>
    let y := x.1.scale2 (-t)
    if !y.isFin then ((heritageNonFinite f y, false, false), 1) else (quantiseElem f 0x80 x.2 y, 0))
  (es.map (·.1.1), { nonFinite := (es.map (·.2)).sum, saturated := (es.filter (·.1.2.1)).length,
                     crushed := (es.filter (·.1.2.2)).length })

/-- R75, R82, R569: a block of a block-scaled destination: codes, scale byte, counts. -/
def convBlock (k : Conv) (xs : List (Num × Rnd)) : List Nat × Nat × QCount :=
  if k.src.isInt then
    let cs := xs.map (fun x => match x.1 with
      | .fin s m e => narrowInt k.dst.width k.wrap (roundToInt .near s m e)
      | _ => (0, false))
    (cs.map (·.1), 0x80, { saturated := (cs.filter (·.2)).length })
  else if k.heritage then
    let q := quantiseHeritage k.dst k.t xs
    (q.1, 0x80, q.2)
  else quantiseBlock k.dst k.t xs

/-! ### Blocks of a view -/

/-- R568: the elements (r, c) of block `b` of a view. -/
def Desc.block (d : Desc) (b : Nat) : List (Nat × Nat) :=
  if d.blockDim = 0 then
    let n := max (cdiv d.cols 32) 1
    let r := b / n
    let c := b % n * 32
    (upto (min 32 (d.cols - c))).map (fun i => (r, c + i))
  else
    let n := max d.cols 1
    let r := b / n * 32
    (upto (min 32 (d.rows - r))).map (fun i => (r + i, b % n))

/-- The element index of view element (r, c) (R568). -/
def Desc.index (d : Desc) (r c : Nat) : Nat := r * d.cols + c

/-- The view element of an element index. -/
def Desc.elem (d : Desc) (i : Nat) : Nat × Nat := (i / max d.cols 1, i % max d.cols 1)

/-- The element indices [lo, hi) of a view, as elements. -/
def Desc.span (d : Desc) (lo hi : Nat) : List (Nat × Nat) := (upto (min hi d.count - lo)).map (fun j => d.elem (lo + j))

/-- The blocks of a block-scaled view whose first element lies in [lo, hi), in order. Every block lies in one such span, so spans that
cover the view write each block once. -/
def Desc.blocksIn (d : Desc) (lo hi : Nat) : List Nat :=
  (upto d.scaleBytes).filter (fun b => match (d.block b).head? with
    | some (r, c) => decide (lo ≤ d.index r c) && decide (d.index r c < hi)
    | none => false)

/-- A non-finite event of R198: where, the value, and its inputs (R199). -/
structure BadElem where
  row : Nat
  col : Nat
  value : Num
  inputs : Lineage
deriving DecidableEq, Repr

/-- What writing a part of a destination did: the counts of R75 and R79, the blocks written, the elements that received a non-finite
value, and those whose non-finite source was counted and wrote a finite one (R198). -/
structure Written where
  q : QCount := {}
  blocks : Nat := 0
  bad : List BadElem := []
  unwritten : List BadElem := []
deriving DecidableEq, Repr

/-- The value that a written code of a format without block scales decodes to. -/
def Conv.readBack (k : Conv) (code : Nat) : Num := if k.dst = .fp32p8 then Fmt.fp32.decode (code / 256) else k.dst.decode code

/-- What a command writes: the value of a view element, its rounding, and what its inputs held (R199). -/
structure Source where
  val : Nat → Nat → Num
  rnd : Nat → Nat → Rnd
  inputs : Nat → Nat → Lineage

/-- R198: the elements `es` of a block-scaled conversion, with their values and the block's scale byte, that received a non-finite value,
and those whose non-finite source wrote a finite one. -/
def Conv.blockMarks (k : Conv) (src : Source) (sc : Nat) (es : List (Nat × Nat)) : List BadElem × List BadElem :=
  let lost := es.filter (fun e => !(src.val e.1 e.2).isFin)
  let marks := fun v => lost.map (fun e => BadElem.mk e.1 e.2 (v e) (src.inputs e.1 e.2))
  if k.src.isInt then ([], [])
  else if k.heritage then
    (if k.dst.isInt then ([], marks (fun e => src.val e.1 e.2)) else (marks (fun _ => .nan), []))
  else if sc = 0xFF then (es.map (fun e => BadElem.mk e.1 e.2 .nan (lineages (es.map (fun e => src.inputs e.1 e.2)))), [])
  else ([], [])

/-- R198: the same of elements of a format without block scales, with their codes and counts. -/
def Conv.elemMarks (k : Conv) (src : Source) (es : List ((Nat × Nat) × Nat × QCount)) : List BadElem × List BadElem :=
  (es.filterMap (fun x =>
      let v := k.readBack x.2.1
      if !k.dst.isInt && !v.isFin then some (BadElem.mk x.1.1 x.1.2 v (src.inputs x.1.1 x.1.2)) else none),
   es.filterMap (fun x => if k.dst.isInt && x.2.2.nonFinite != 0 then
      some (BadElem.mk x.1.1 x.1.2 (src.val x.1.1 x.1.2) (src.inputs x.1.1 x.1.2)) else none))

/-- One block of a block-scaled destination written (R75, R78). -/
def State.writeBlock (s : State) (d : Desc) (k : Conv) (dom : Option Nat) (src : Source) (b : Nat) : State × Written :=
  let es := d.block b
  let xs := es.map (fun e => (src.val e.1 e.2, src.rnd e.1 e.2))
  let (cs, sc, q) := convBlock k xs
  let s := s.writeElems d k.dst dom ((es.zip cs).map (fun x => (x.1.1, x.1.2, x.2)))
  let s := if k.heritage then s else s.writeScale d dom b sc
  let m := k.blockMarks src sc es
  (s, { q := q, blocks := 1, bad := m.1, unwritten := m.2 })

/-- One part after another. -/
def Written.add (a b : Written) : Written :=
  { q := a.q.add b.q, blocks := a.blocks + b.blocks, bad := a.bad ++ b.bad, unwritten := a.unwritten ++ b.unwritten }

/-- Values written to the span of elements [lo, hi) of a destination. -/
def State.writeSpan (s : State) (d : Desc) (k : Conv) (dom : Option Nat) (lo hi : Nat) (src : Source) : State × Written :=
  if k.dst.blockScaled then
    (d.blocksIn lo hi).foldl (fun acc b =>
      let (s, w) := acc.1.writeBlock d k dom src b
      (s, acc.2.add w)) (s, {})
  else
    let es := (d.span lo hi).map (fun e => (e, convElem k (src.rnd e.1 e.2) (src.val e.1 e.2)))
    let s := s.writeElems d k.dst dom (es.map (fun x => (x.1.1, x.1.2, x.2.1)))
    let m := k.elemMarks src es
    (s, { q := es.foldl (fun q x => q.add x.2.2) {}, bad := m.1, unwritten := m.2 })

/-- Row `r` of a source converted and written as row `gRow` of a weft ring, with its scale bytes (R75, R98, R101). -/
def State.writeRingLine (s : State) (d : Desc) (k : Conv) (src : Source) (gRow r : Nat) : State × Written :=
  let at' := fun c => (src.val r c, src.rnd r c)
  if k.dst.blockScaled then
    (upto (cdiv d.cols 32)).foldl (fun acc b =>
      let cols := (upto (min 32 (d.cols - 32 * b))).map (32 * b + ·)
      let (cs, sc, q) := convBlock k (cols.map at')
      let s := acc.1.writeRingRow d k.dst gRow (32 * b) cs
      let s := if k.heritage then s else s.writeLe (ringScaleAt d.scale d.rows d.cols gRow b) 1 sc
      let m := k.blockMarks src sc (cols.map (fun c => (r, c)))
      (s, acc.2.add { q := q, blocks := 1, bad := m.1, unwritten := m.2 })) (s, {})
  else
    let es := (upto d.cols).map (fun c => ((r, c), convElem k (src.rnd r c) (src.val r c)))
    let m := k.elemMarks src es
    (s.writeRingRow d k.dst gRow 0 (es.map (·.2.1)), { q := es.foldl (fun q x => q.add x.2.2) {}, bad := m.1, unwritten := m.2 })

end Sys2Proof.Machine
end

