-- ==== Sys2Proof/Machine/Steering.lean ====
section
/-! DEFINITION. Precision steering: the fit table (R154 to R158), ADAPT resolution (R135), tensor scales (R162, R163), the measure units
(R140 to R144), decisions (R159 to R161), and the first-NaN trap (R198 to R200). -/

namespace Sys2Proof.Machine

/-! ### Fit entries as bytes (R155, R156) -/

/-- R156: a role word from its 128 bits. -/
def RoleWord.ofNat (v : Nat) : RoleWord :=
  { t := sext 8 (fld v 127 120), fixedT := sext 8 (fld v 119 112), clean := fld v 111 96, crushExp := fld v 95 91,
    clipExp := fld v 90 86, shadowExp := fld v 85 81, tighten := fld v 80 79, margin := sext 3 (fld v 78 76),
    cleanExp := fld v 75 72, holdExp := fld v 71 68, coldLeft := fld v 67 63, histValid := bit v 62, lastNarrow := bit v 61,
    pinned := bit v 60, mode := fld v 59 58, steer := bit v 57, top := fld v 56 55, rung := fld v 54 53,
    fmt3 := fld v 15 12, fmt2 := fld v 11 8, fmt1 := fld v 7 4, fmt0 := fld v 3 0 }

/-- R156: the 128 bits of a role word. -/
def RoleWord.toNat (f : RoleWord) : Nat :=
  put (wrapInt 8 f.t) 127 120 + put (wrapInt 8 f.fixedT) 119 112 + put f.clean 111 96 + put f.crushExp 95 91 +
  put f.clipExp 90 86 + put f.shadowExp 85 81 + put f.tighten 80 79 + put (wrapInt 3 f.margin) 78 76 + put f.cleanExp 75 72 +
  put f.holdExp 71 68 + put f.coldLeft 67 63 + put (b2n f.histValid) 62 62 + put (b2n f.lastNarrow) 61 61 +
  put (b2n f.pinned) 60 60 + put f.mode 59 58 + put (b2n f.steer) 57 57 + put f.top 56 55 + put f.rung 54 53 +
  put f.fmt3 15 12 + put f.fmt2 11 8 + put f.fmt1 7 4 + put f.fmt0 3 0

/-- R155: a fit entry from its 64 bytes. -/
def FitEntry.ofBytes (bs : List Byte) : FitEntry :=
  let h := leAt bs 0 16
  { fp32Passes := fld h 10 9, shadowLog2n := fld h 8 4, valid := bit h 0, w := RoleWord.ofNat (leAt bs 16 16),
    a := RoleWord.ofNat (leAt bs 32 16), g := RoleWord.ofNat (leAt bs 48 16) }

/-- R155: the 64 bytes of a fit entry. -/
def FitEntry.bytes (e : FitEntry) : List Byte :=
  leBytes 16 (put e.fp32Passes 10 9 + put e.shadowLog2n 8 4 + b2n e.valid) ++ leBytes 16 e.w.toNat ++ leBytes 16 e.a.toNat ++
  leBytes 16 e.g.toNat

/-- The role word of a role (R134). -/
def FitEntry.role (e : FitEntry) (role : Nat) : RoleWord := if role = 0 then e.w else if role = 1 then e.a else e.g
def FitEntry.setRole (e : FitEntry) (role : Nat) (f : RoleWord) : FitEntry :=
  if role = 0 then { e with w := f } else if role = 1 then { e with a := f } else { e with g := f }

/-- R156: the format code of a rung. -/
def RoleWord.fmtAt (f : RoleWord) (n : Nat) : Nat :=
  if n = 0 then f.fmt0 else if n = 1 then f.fmt1 else if n = 2 then f.fmt2 else f.fmt3

/-- R157: the digest of a role of an entry. -/
def FitEntry.digest (e : FitEntry) (role : Nat) : Nat :=
  let f := e.role role
  if e.valid then
    crc32c ([e.fp32Passes, e.shadowLog2n, 1, wrapInt 8 f.fixedT, f.crushExp, f.clipExp, f.shadowExp, f.tighten, wrapInt 8 f.margin,
      f.cleanExp, f.mode, b2n f.steer, f.top, f.fmt3, f.fmt2, f.fmt1, f.fmt0].map (BitVec.ofNat 8))
  else 0

/-- The key of a tag and role. -/
def tagRole (tag role : Nat) : Nat := 4 * tag + role

/-- R141: the bank in force. -/
def State.entry (s : State) (tag : Nat) : FitEntry := s.fit s.tailor.bank tag

/-- An entry of a bank set. -/
def State.setFit (s : State) (bank : Bool) (tag : Nat) (e : FitEntry) : State :=
  if bank then { s with tailor := { s.tailor with bank1 := SMap.set {} s.tailor.bank1 tag e } }
  else { s with tailor := { s.tailor with bank0 := SMap.set {} s.tailor.bank0 tag e } }

/-- R164: the amax history of a tag and role in a bank: 16 FP32 codes, newest first. -/
def State.history (s : State) (bank : Bool) (key : Nat) : List Nat := SMap.get [] (if bank then s.tailor.hist1 else s.tailor.hist0) key

def State.setHistory (s : State) (bank : Bool) (key : Nat) (h : List Nat) : State :=
  if bank then { s with tailor := { s.tailor with hist1 := SMap.set [] s.tailor.hist1 key h } }
  else { s with tailor := { s.tailor with hist0 := SMap.set [] s.tailor.hist0 key h } }

/-! ### Tensor scales (R162, R163) -/

/-- The smallest t from `t` on, within `k` tries, with H × 2^−t ≤ maxval. -/
def findT (h maxval : Num) : Nat → Int → Int
  | 0, t => t
  | k + 1, t => if (h.scale2 (-t)).le maxval then t else findT h maxval k (t + 1)

/-- R66: the formats that a tensor scale applies to. -/
def Fmt.carriesT (f : Fmt) : Bool := f.blockScaled || f == .int16

/-- R163: t for an amax (an FP32 code) and a format. -/
def tFor (h : Nat) (f : Fmt) (margin : Int) : Int :=
  if !f.carriesT then 0
  else match Fmt.fp32.decode h with
  | .fin _ m e =>
    if m = 0 then 0
    else
      let lo : Int := (Nat.log2 m : Int) + e - (Nat.log2 f.maxMag.1 : Int) - f.maxMag.2 - 1
      let t := findT (.fin false m e) f.maxval 4 lo + margin
      max (-64) (min 64 t)
  | _ => 0

/-- R162: the tensor scale of a fit-controlled conversion: known, or to come from the amax of the tensor (JIT and COLD). -/
def RoleWord.scale (f : RoleWord) : Option Int :=
  if f.mode = 2 then some f.fixedT
  else if f.mode = 1 ∨ f.coldLeft ≠ 0 then none
  else some f.t

/-! ### Stat records (R141, R142) -/

/-- The largest FP32 code below or equal to a value, or the next above it: |x| rounded toward +Inf (R142). -/
def fp32Up (x : Num) : Nat :=
  let c := x.abs.toIeee .fp32 .trunc
  if (Fmt.fp32.decode c).lt x.abs then c + 1 else c

/-- FP64 codes added, rounded once. -/
def add64 (a b : Nat) : Nat := ((Fmt.fp64.decode a).add (Fmt.fp64.decode b)).toIeee .fp64 .near

/-- R142: the histogram bin of a finite non-zero value. -/
def histBin (x : Num) (t : Int) (f : Fmt) : Nat :=
  match x with
  | .fin _ m e =>
    let a : Int := t + (Nat.log2 f.maxMag.1 : Int) + f.maxMag.2
    let i : Int := (Nat.log2 m : Int) + e - a + 15
    (max 0 (min 15 i)).toNat
  | _ => 0

/-- R141, R389: what two records agree on: rung, step and digest. -/
def StatRec.same (a b : StatRec) : Nat :=
  (if a.rung = b.rung then 1 else 0) + (if a.stepLo = b.stepLo then 2 else 0) + (if a.digest = b.digest then 4 else 0)

/-- R141, R389: two records merged within one module. -/
def StatRec.merge (a b : StatRec) : StatRec :=
  if !b.touched then a
  else if !a.touched then b
  else
    { a with rung := max a.rung b.rung, stepLo := max a.stepLo b.stepLo, digest := max a.digest b.digest,
             agree := (a.agree &&& b.agree) &&& a.same b, amax := max a.amax b.amax, shadowMax := max a.shadowMax b.shadowMax,
             elements := sat 64 (a.elements + b.elements), nonzero := sat 64 (a.nonzero + b.nonzero),
             blocks := sat 64 (a.blocks + b.blocks), zeroBlocks := sat 64 (a.zeroBlocks + b.zeroBlocks),
             clippedBlocks := sat 64 (a.clippedBlocks + b.clippedBlocks), crushed := sat 64 (a.crushed + b.crushed),
             saturated := sat 64 (a.saturated + b.saturated), nonFinite := sat 64 (a.nonFinite + b.nonFinite),
             shadowSamples := sat 64 (a.shadowSamples + b.shadowSamples),
             shadowMismatch := sat 64 (a.shadowMismatch + b.shadowMismatch), shadowErr := add64 a.shadowErr b.shadowErr,
             hist := (upto 16).foldl (fun h i => SMap.set 0 h i (sat 64 (SMap.get 0 a.hist i + SMap.get 0 b.hist i))) [] }

/-- R141: the reduction between members: as within a module, with the agreement of rung, step and digest. -/
def StatRec.reduce (a b : StatRec) : StatRec :=
  let m := if a.touched then a.merge b else if b.touched then b else a
  { m with agree := (a.agree &&& b.agree) &&& a.same b, rung := max a.rung b.rung, stepLo := max a.stepLo b.stepLo, digest := max a.digest b.digest }

/-- R141: the 256 bytes of a record. -/
def StatRec.bytes (key : Nat) (r : StatRec) : List Byte :=
  leBytes 2 (key / 4 + (key % 4) * 4096) ++ leBytes 1 r.rung ++ leBytes 1 (b2n r.touched) ++ leBytes 4 r.stepLo ++
  leBytes 4 r.digest ++ leBytes 4 r.amax ++ leBytes 4 r.shadowMax ++ leBytes 1 r.agree ++ leBytes 3 0 ++
  leBytes 8 r.elements ++ leBytes 8 r.nonzero ++ leBytes 8 r.blocks ++ leBytes 8 r.zeroBlocks ++ leBytes 8 r.clippedBlocks ++
  leBytes 8 r.crushed ++ leBytes 8 r.saturated ++ leBytes 8 r.nonFinite ++ leBytes 8 r.shadowSamples ++
  leBytes 8 r.shadowMismatch ++ leBytes 8 r.shadowErr ++ leBytes 16 0 ++ (upto 16).flatMap (fun i => leBytes 8 (SMap.get 0 r.hist i))

/-- R143: a record merged into the module stat table. -/
def State.mergeTable (s : State) (key : Nat) (r : StatRec) : State :=
  { s with tailor := { s.tailor with table := SMap.set {} s.tailor.table key ((SMap.get {} s.tailor.table key).merge r) } }

/-- R141, R144: a fresh record of a tag and role for a fit step. -/
def State.freshRec (s : State) (key step : Nat) : StatRec :=
  let e := s.entry (key / 4)
  { rung := (e.role (key % 4)).rung, touched := true, stepLo := step % 2 ^ 32, digest := e.digest (key % 4), agree := 7 }

/-- The units that hold record slots: engines 0–95 and hubs 96–103; the measured conversions of shuttles and the collective engine
go to the module stat table itself. [DEDUCED, log 38] -/
def tableUnit : Nat := 104

/-- R143, R144: a record of a measure unit changed, a record of another fit step having made way for it: its slot becomes the most recently used; with none free the least recently used one is
merged into the table. [DEDUCED, log 38] -/
def State.modRec (s : State) (unit key step : Nat) (f : StatRec → StatRec) : State :=
  if unit = tableUnit then s.mergeTable key (f (s.freshRec key step))
  else
    let slots := SMap.get [] s.tailor.slots unit
    let own := slots.find? (fun x => x.1 == key)
    let cur := match own with
      | some (_, r) => if r.stepLo = step % 2 ^ 32 then r else s.freshRec key step
      | none => s.freshRec key step
    let s := match own with
      | some (_, r) => if r.stepLo = step % 2 ^ 32 then s else s.mergeTable key r
      | none => s
    let others := slots.filter (fun x => x.1 != key)
    let s := match others.drop 15 with
      | (k, r) :: _ => s.mergeTable k r
      | [] => s
    { s with tailor := { s.tailor with slots := SMap.set [] s.tailor.slots unit ((key, f cur) :: others.take 15) } }

/-- R142: what a measured conversion adds to its record: its source elements, the format in force and its counts. -/
def StatRec.count (r : StatRec) (xs : List Num) (t : Int) (f : Fmt) (w : Written) : StatRec :=
  let fin := xs.filter (fun x => x.isFin && !x.isZero)
  { r with touched := true, amax := fin.foldl (fun m x => max m (fp32Up x)) r.amax,
           elements := sat 64 (r.elements + xs.length), nonzero := sat 64 (r.nonzero + fin.length),
           blocks := sat 64 (r.blocks + w.blocks), zeroBlocks := sat 64 (r.zeroBlocks + w.q.zeroBlocks),
           clippedBlocks := sat 64 (r.clippedBlocks + w.q.clippedBlocks), crushed := sat 64 (r.crushed + w.q.crushed),
           saturated := sat 64 (r.saturated + w.q.saturated), nonFinite := sat 64 (r.nonFinite + w.q.nonFinite),
           hist := fin.foldl (fun h x => let i := histBin x t f; SMap.set 0 h i (sat 64 (SMap.get 0 h i + 1))) r.hist }

/-- R140: a measured conversion's figures go into the record of its tag and role. -/
def State.measure (s : State) (unit tag role step : Nat) (xs : List Num) (f : Fmt) (w : Written) : State :=
  let t := ((s.entry tag).role role).t
  s.modRec unit (tagRole tag role) step (fun r => r.count xs t f w)

/-! ### The first-NaN trap (R198 to R200) -/

/-- Who produced a non-finite event (R198). -/
structure NanBy where
  unit : Nat
  core : Nat
  queue : Nat
  opcode : Nat
  tag : Nat
  role : Nat
  tagged : Bool
  cseq : Nat
  domain : Nat
deriving DecidableEq, Repr

/-- R199: the kind of an event. -/
def nanKind (b : BadElem) : Nat := b.inputs.kind b.value

/-- The value field of UPD_NAN_TRAP_INFO. -/
def nanValue : Num → Nat
  | .inf true => 2
  | .inf false => 1
  | _ => 0

/-- R198, R200: one event: captured when the trap is armed, counted after a capture; a capture fires chalk triggers (R536). -/
def State.nanEvent (s : State) (who : NanBy) (kind value pos : Nat) : State :=
  if bit s.nanTrap.info 63 then { s with nanTrap := { s.nanTrap with count := sat 32 (s.nanTrap.count + 1) } }
  else
    let info := 2 ^ 63 + put kind 62 61 + put value 60 59 + put who.unit 58 52 + put who.core 51 47 + put who.queue 46 44 +
      put who.opcode 43 36 + (if who.tagged then put who.tag 35 24 + put who.role 23 22 + put 1 21 21 else 0)
    State.chalkNan { s with nanTrap := { info := info, seq := who.cseq, pos := pos, time := s.now, count := 0 } } who.core who.domain

/-- The events of a part of a destination, in order; `pos` gives the position field of an element. -/
def State.nanEvents (s : State) (who : NanBy) (pos : Nat → Nat → Nat) (measured : Bool) (w : Written) : State :=
  let s := w.bad.foldl (fun s b => s.nanEvent who (nanKind b) (nanValue b.value) (pos b.row b.col)) s
  if measured then w.unwritten.foldl (fun s b => s.nanEvent who (nanKind b) (nanValue b.value) (pos b.row b.col)) s else s

/-! ### Decisions (R159 to R163) -/

/-- FP32: shadow_max > 2^−n. -/
def above2 (code n : Nat) : Bool := Num.lt (.fin false 1 (-(n : Int))) (Fmt.fp32.decode code)

/-- R159: a breach: some trigger fires. -/
def RoleWord.breach (f : RoleWord) (r : StatRec) : Bool :=
  let scaled := match Fmt.ofCode (f.fmtAt f.rung) with | some x => x.blockScaled | none => false
  (f.crushExp != 0 && decide (r.nonzero < r.crushed * 2 ^ f.crushExp)) ||
  (f.clipExp != 0 && (if scaled then decide (r.blocks < r.clippedBlocks * 2 ^ f.clipExp)
    else decide (r.elements < r.saturated * 2 ^ f.clipExp))) ||
  (f.shadowExp != 0 && above2 r.shadowMax (f.shadowExp + f.tighten * f.rung)) || r.shadowMismatch != 0

/-- R160: widen_to. -/
def RoleWord.widenTo (f : RoleWord) (n : Nat) : RoleWord :=
  { f with holdExp := if f.lastNarrow then min (f.holdExp + 1) 15 else f.holdExp, rung := n, clean := 0, lastNarrow := false,
           pinned := false }

/-- R160: narrow. -/
def RoleWord.narrow (f : RoleWord) : RoleWord :=
  { f with holdExp := if f.lastNarrow then max (f.holdExp - 1) f.cleanExp else f.holdExp, rung := f.rung - 1, clean := 0,
           lastNarrow := true }

/-- R160: the part of decide that may change rung, clean, hold_exp and pinned. -/
def RoleWord.decideRung (f : RoleWord) (r : StatRec) : RoleWord :=
  if r.shadowMismatch ≠ 0 ∧ f.rung < f.top then f.widenTo f.top
  else if f.breach r ∧ f.rung < f.top then f.widenTo (f.rung + 1)
  else if f.breach r then { f with pinned := true, clean := 0 }
  else if r.nonFinite ≠ 0 then { f with clean := 0 }
  else
    let f := { f with pinned := false, clean := min (f.clean + 1) 65535 }
    if 2 ^ f.holdExp ≤ f.clean ∧ 0 < f.rung ∧ f.coldLeft = 0 then f.narrow else f

/-- R160, R152, COL_FIT_CTL: decide for one role. `push` is the history with the record's amax. -/
def RoleWord.decide (f : RoleWord) (r : StatRec) (steerEnable : Bool) : RoleWord :=
  if !r.touched then f
  else
    let f := if f.coldLeft ≠ 0 then { f with coldLeft := f.coldLeft - 1 } else f
    if f.steer && steerEnable then f.decideRung r else f

/-- R160, R164: the history after a touched step. -/
def pushHistory (h : List Nat) (amax : Nat) : List Nat :=
  let h := (amax :: (h ++ List.replicate (16 - h.length) 0)).take 16
  if h.all (· == 0) then [] else h

/-- R163: the t field set from the history and the rung in force. -/
def RoleWord.rescale (f : RoleWord) (h : List Nat) : RoleWord :=
  match Fmt.ofCode (f.fmtAt f.rung) with
  | some x => { f with t := if x.carriesT then tFor (h.foldl max 0) x f.margin else 0 }
  | none => f

/-- R168: a steered tag. -/
def FitEntry.steered (e : FitEntry) : Bool := e.valid && (e.w.steer || e.a.steer || e.g.steer)

/-- R166: a role in COLD. -/
def RoleWord.cold (f : RoleWord) : Bool := f.mode == 0 && f.coldLeft != 0

/-- COL_FIT_STATUS: steered tags of the bank in force. -/
def State.steeredTags (s : State) : Nat :=
  ((if s.tailor.bank then s.tailor.bank1 else s.tailor.bank0).filter (fun e => e.2.steered)).length

end Sys2Proof.Machine
end

