-- ==== Sys2Proof/Machine/Command.lean ====
section
/-! DEFINITION. What wide commands share at dispatch and check: the descriptors they name (R208, R216), ADAPT resolution (R135, R138), the
stream operand (R217, R184), memory domains (R312), reach (R293) and reserved capacities (R169). -/

namespace Sys2Proof.Machine

/-- The outcome of a command's check (R206): it passes with what the check settled, fails with a status, or traps (R251). -/
inductive Verdict where
  | pass (w : Wide)
  | fail (status : Nat)
  | trap (cause : Nat)
deriving DecidableEq, Repr

/-- A descriptor operand of a command: its place among the operands, the address register that names it (R216), and the format, tag
and role where the command's own fields give them (R219). A plain one has no format, tag or role: the channel scales and the wide
copies of an MM, which are FP32, the records of a COLL NORM, and a descriptor that the command names and does not use; of a bare one the
layout is not used either (R571). [DESIGN CHOICE, log 85] -/
structure Slot where
  ix : Nat
  reg : Nat
  own : Option (Nat × Nat × Nat) := none
  plain : Bool := false
  bare : Bool := false
deriving DecidableEq, Repr

/-! ### Fields of the commands -/

/-- R228: the PRESS operations that read a second source, and a third. -/
def pressReadsB (op : Nat) : Bool := op == 1 || op == 2 || op == 3 || op == 4 || op == 7 || op == 8 || op == 0x23
def pressReadsC (op : Nat) : Bool := op == 4

/-- R227: the op of a PRESS. -/
def Wide.pressOp (w : Wide) : Nat := fld w.n0 7 0

/-- R220 to R235: the descriptors a command names. -/
def Wide.slots (w : Wide) : List Slot :=
  let a := w.n0
  if w.opcode = 1 then
    [Slot.mk 0 (fld a 27 24) (some (fld w.n1 63 60, fld w.n1 59 48, fld w.n1 47 46)) false false,
     Slot.mk 1 (fld a 23 20) (some (fld w.n1 45 42, fld w.n1 41 30, fld w.n1 29 28)) false false,
     Slot.mk 2 (fld a 19 16) (some (fld w.n1 27 24, fld w.n1 23 12, fld w.n1 11 10)) false false] ++
    (if bit a 11 then [Slot.mk 3 (fld a 15 12) none true false] else []) ++
    (if bit a 6 then [Slot.mk 4 (fld a 10 7) none true false] else []) ++
    (if bit a 1 then [Slot.mk 5 (fld a 5 2) none true true] else [])
  else if w.opcode = 2 then [Slot.mk 0 (fld a 27 24) (some (fld w.n1 63 60, fld w.n1 59 48, fld w.n1 47 46)) false false]
  else if w.opcode = 4 then [Slot.mk 0 (fld a 31 28) none false false, Slot.mk 1 (fld a 27 24) none false false]
  else if w.opcode = 5 then
    [Slot.mk 0 (fld a 31 28) none false false] ++ 
    (if bit a 23 then [Slot.mk 2 (fld a 27 24) none (!pressReadsB w.pressOp) (!pressReadsB w.pressOp)] else []) ++
    (if bit a 18 then [Slot.mk 3 (fld a 22 19) none (!pressReadsC w.pressOp) (!pressReadsC w.pressOp)] else []) ++
    (if w.pressOp = 0x40 then [] else [Slot.mk 1 (fld a 17 14) none false false])
  else if w.opcode = 6 then (if w.op = 3 then [] else [Slot.mk 0 (fld a 31 28) none false false]) ++ [Slot.mk 1 (fld a 27 24) none false false]
  else if w.opcode = 8 ∧ w.op = 5 then
    [Slot.mk 1 (fld a 11 8) none true true] ++ (if bit a 3 then [Slot.mk 2 (fld a 7 4) none true true] else [])
  else if w.opcode = 8 then
    [Slot.mk 0 (fld a 15 12) none false false] ++ [Slot.mk 1 (fld a 11 8) none false false] ++
    (if bit a 3 then [Slot.mk 2 (fld a 7 4) none true true] else [])
  else []

/-- An operand of a dispatched command. -/
def Wide.operand (w : Wide) (ix : Nat) : Operand := SMap.get {} w.ops ix

/-- The format of an operand; FP4 stands for a code that names none, which the checks refuse. -/
def Operand.f (x : Operand) : Fmt := (Fmt.ofCode x.fmt).getD .fp4

/-- Whether an operand's resolved format code names a format of R55. -/
def Operand.fmtOk (x : Operand) : Bool := (Fmt.ofCode x.fmt).isSome

/-! ### Descriptors (R208) -/

/-- R208: the trap of a descriptor's address: not 64-byte aligned, or not wholly in core store or slow-tier memory that the queue
reaches. [DEDUCED, log 22] -/
def State.descTrap (s : State) (qi dom a n : Nat) : Option Nat :=
  let windowed := match s.area a with | some (.window _) => true | _ => false
  if a % 64 ≠ 0 then some trMisaligned
  else if windowed || !s.accessOk (s.sequencerOf qi) dom a n then some trAddress
  else none

/-- R135, R138: an operand with its ADAPT field resolved against the bank in force; none where the tag's entry is not valid. The
tensor scale of a tagged operand is that of the fit state (R66). [DEDUCED, log 30] -/
def State.resolve (s : State) (d : Desc) (own : Option (Nat × Nat × Nat)) : Option Operand :=
  let (code, tag, role, tagged) := match own with
    | some (f, t, r) => (f, t, r, true)
    | none => (d.fmt, d.tag, d.role, d.tagged)
  let e := s.entry tag
  let f := e.role role
  let held := if f.mode = 2 then f.fixedT else f.t
  if code = 0xF then
    if e.valid && tagged && role != 3 then
      some { desc := d, fmt := f.fmtAt f.rung, t := held, tag := tag, role := role, tagged := true, adapt := true }
    else none
  else some { desc := d, fmt := code, t := if tagged && e.valid then held else 0, tag := tag, role := role, tagged := tagged }

/-- The operand of a plain slot. -/
def Operand.ofPlain (d : Desc) : Operand := { desc := d, fmt := Fmt.fp32.code, t := 0 }

/-- The command has an ADAPT field (R151). -/
def Wide.adaptive (w : Wide) : Bool := w.ops.any (fun e => e.2.adapt)

/-- Whether some format field that the command names reads ADAPT, before it resolves. -/
def Wide.namesAdapt (w : Wide) : Bool :=
  w.slots.any (fun x => !x.plain && match x.own with
    | some (f, _, _) => f == 0xF
    | none => (w.operand x.ix).desc.fmt == 0xF) ||
  (match w.upd with | some d => bit d.flags 0 && fld d.copyFmt 3 0 == 0xF | none => false)

/-- R149, R151: ADAPT resolution is held, up to step 8 of a boundary or while a LOAD_FIT is in progress. -/
def State.adaptHeld (s : State) : Bool := match s.tailor.boundary with | some b => !b.ended | none => false

/-- R149: boundary_busy: up to step 9, the retirement of the STEP_END. -/
def State.boundaryBusy (s : State) : Bool :=
  match s.tailor.boundary with
  | some b => !b.ended || (match s.wide b.queue b.cseq with | some w => w.opcode == 0xA && w.op == 0 && w.stage == .complete | none => false)
  | none => false

/-- R208: the first descriptor that traps. -/
def State.descFault (s : State) (qi : Nat) (w : Wide) : Option Nat :=
  (w.slots.filterMap (fun x => s.descTrap qi w.domain (SMap.get 0 w.ck.a x.reg).toNat 64)).head?

/-- R208: the descriptors of a command, read once at its dispatch. -/
def State.readOps (s : State) (w : Wide) : SMap Operand :=
  w.slots.foldl (fun m x => SMap.set {} m x.ix { desc := s.readDesc (SMap.get 0 w.ck.a x.reg).toNat }) []

/-- The operands of a command with their ADAPT fields resolved; none where one names a tag that is not valid (R138). -/
def State.resolveOps (s : State) (w : Wide) : Option (SMap Operand) :=
  w.slots.foldl (fun acc x => match acc with
    | none => none
    | some m => match if x.plain then some (Operand.ofPlain (w.operand x.ix).desc) else s.resolve (w.operand x.ix).desc x.own with
      | some o => some (SMap.set {} m x.ix o)
      | none => none) (some [])

/-- A descriptor that the command reads is poisoned (R309). [DEDUCED, log 23] -/
def State.descPoisoned (s : State) (w : Wide) : Bool := w.slots.any (fun x => s.poisoned (SMap.get 0 w.ck.a x.reg).toNat 64)

/-- R312, R571: every descriptor names the queue's domain and holds no reserved value; fmt and tag_role count
only where the command takes them from the descriptor (R219). -/
def Wide.descsOk (w : Wide) : Bool :=
  w.slots.all (fun x => let d := (w.operand x.ix).desc; d.domain == w.domain && !d.reserved (x.own.isNone && !x.plain) !x.bare)

/-- R201: the formats heritage mode accepts. -/
def heritageFmt (f : Fmt) : Bool :=
  f == .e4m3 || f == .e5m2 || f == .int8 || f == .bf16 || f == .fp16 || f == .int16 || f == .fp32

/-- R201: a heritage command names no other format, no ADAPT field and no stochastic rnd. -/
def Wide.heritageOk (w : Wide) (rnd : Bool) : Bool := !w.heritage || (!rnd && w.ops.all (fun e => !e.2.adapt && heritageFmt e.2.f))

/-! ### Streams (R184, R217) -/

/-- The fabric ID that completes a command's stream key (R217): for a COLL that of its communicator's rank 0. -/
def State.streamFabric (s : State) (w : Wide) : Nat := if w.opcode = 8 then s.member (fld w.n0 23 16) 0 else s.fabricId

/-- The key word of the stream a command names. -/
def State.streamKey (s : State) (w : Wide) : Nat := streamK0 w.n3 (s.streamFabric w)

/-- R184, R217: the command's stream is as it must be: active where it names one, and named where it rounds stochastically. -/
def State.streamOk (s : State) (w : Wide) (stoch : Bool) : Bool :=
  if streamEn w.n3 then (s.seedOf (s.streamKey w)).isSome else !stoch

/-- How a command rounds: with its stream where the conversion is stochastic. -/
def State.rounding (s : State) (w : Wide) (stoch : Bool) : Rounding :=
  if stoch then
    match s.seedOf (s.streamKey w) with
    | some k1 => .stoch (s.streamKey w) k1 (streamSite w.n3) w.fitStep
    | none => .near
  else .near

/-- R76, R139: the conversion of `x` from format `src` rounds stochastically. -/
def Operand.stoch (x : Operand) (src : Fmt) (rnd heritage : Bool) : Bool :=
  !heritage && Fmt.rounds src x.f && (rnd || (x.tagged && x.role == 2))

/-! ### Capacities (R169) -/

/-- The bytes a view takes at `data` in a format. -/
def Desc.bytes (d : Desc) (f : Fmt) : Nat :=
  if d.isRing then d.ringLen f (d.wideRing f)
  else if d.lines = 0 then 0
  else (d.lines - 1) * d.pitch f.width + packed d.lineLen f.width

/-- R169: an ADAPT destination's reserved capacities suffice at the top rung of its ladder, and for the staging of the `n` elements that the
command writes to it. -/
def State.capacityOk (s : State) (x : Operand) (n : Nat) : Bool :=
  if x.adapt then
    let f := (s.entry x.tag).role x.role
    let top := (Fmt.ofCode (f.fmtAt f.top)).getD .fp32
    decide (x.desc.bytes top ≤ x.desc.capacity) &&
    (f.mode == 2 || (x.desc.jit != 0 && decide (4 * n ≤ x.desc.jitCapacity)))
  else true

/-- R32, R34, R35, R165, R169: the staging buffer that an ADAPT destination of a DELAYED or JIT role names lies where one of its writers
may write the `n` FP32 values. [DEDUCED, log 30] -/
def State.stagingOk (s : State) (who : List Agent) (dom : Nat) (x : Operand) (n : Nat) : Bool :=
  !x.adapt || ((s.entry x.tag).role x.role).mode == 2 || who.any (fun a => s.accessOk a dom x.desc.jit (4 * n))

/-- R162: the destination of a fit-controlled conversion with the tensor scale it uses: `toJit` where the amax of the tensor gives it. -/
def State.destScale (s : State) (x : Operand) : Operand :=
  if x.adapt then
    match ((s.entry x.tag).role x.role).scale with
    | some t => { x with t := if x.f.carriesT then t else 0 }
    | none => { x with t := 0, toJit := true }
  else { x with t := 0 }

/-- R66: the tensor scale of an operand lies in its range. -/
def Operand.scaleOk (x : Operand) : Bool := !x.f.carriesT || tOk x.t

/-! ### Work on behalf of a command -/

/-- The record's format field (R247). [DESIGN CHOICE, log 15] -/
def fmtsOf (a b c passes : Nat) : Nat := put a 3 0 + put b 7 4 + put c 11 8 + put passes 13 12

/-- R471: an address in a bobbin that is withdrawn with its core. -/
def State.bobbinGone (s : State) (a : Nat) : Bool :=
  match s.area a with | some (.bobbin g) => (s.core (g / 4)).fence != .inService | _ => false

/-- The engine whose bobbin holds an address, if one does. -/
def State.bobbinOf (s : State) (a : Nat) : Option Nat := match s.area a with | some (.bobbin g) => some g | _ => none

/-- Where a part's non-finite events and figures go: unit and command (R198, R140). -/
def State.nanBy (s : State) (qi : Nat) (w : Wide) (unit : Nat) (x : Operand) : NanBy :=
  { unit := unit, core := s.serving qi, queue := qi % 8, opcode := w.opcode, tag := x.tag, role := x.role,
    tagged := x.tagged, cseq := w.cseq, domain := w.domain }

/-- R187, R198: the position field of an element of a command other than an MM: its element index. -/
def elemPos (d : Desc) (r c : Nat) : Nat := d.index r c % 2 ^ 64

/-- R140: a conversion into `x` by `w` is measured. -/
def Wide.measures (w : Wide) (x : Operand) : Bool := x.adapt || (w.measBit && x.tagged)

/-- Bytes read by a command, counted (R526, R527). -/
def State.countReads (s : State) (dom : Nat) (rs : List (Nat × Nat)) : State :=
  rs.foldl (fun s x => s.countBytes (some dom) true x.1 x.2) s

/-- R309, R459: a command of a queue read a poisoned unit; source 0x010A is raised once for a command. [DEDUCED, log 23] -/
def State.markPoisoned (s : State) (qi cseq : Nat) (bad : Bool) : State :=
  match s.wide qi cseq with
  | some w => if bad && !w.poisoned then (s.modWide qi cseq (fun w => { w with poisoned := true })).logQueue 0x010A qi w.domain cseq else s
  | none => s

/-- R240, R309: a command's work is finished: ST_CONTAINED where a source was poisoned. -/
def State.finish (s : State) (qi cseq : Nat) : State :=
  match s.wide qi cseq with
  | some w => s.complete qi cseq (if w.poisoned then stContained else stOk)
  | none => s

/-- R286, R529: a run of a command-scoped counter begins: the live value of the last run becomes the snapshot. -/
def State.scopeBegin (s : State) (ctr seq : Nat) : State :=
  let x := s.scope ctr
  if x.liveSeq = seq then s
  else s.setScope ctr { x with live := 0, liveSeq := seq, snap := x.live, snapSeq := x.liveSeq }

/-- R286: the live value counts. -/
def State.scopeAdd (s : State) (ctr n : Nat) : State :=
  let x := s.scope ctr
  s.setScope ctr { x with live := (x.live + n) % 2 ^ 64 }

end Sys2Proof.Machine
end

