-- ==== Sys2Proof/Machine/Tailor.lean ====
section
/-! DEFINITION. The tailor unit and the stream registry: MEASURE (R237), step boundaries (R149 to R153, R160), the fit-state image (R166,
R167), storms (R168, R171) and streams (R181 to R184). -/

namespace Sys2Proof.Machine

/-! ### Fields -/

/-- R237: the address that a_img names. -/
def Wide.imgAddr (w : Wide) : Nat := (SMap.get 0 w.ck.a (fld w.n0 27 24)).toNat
def Wide.msComm (w : Wide) : Nat := fld w.n0 23 16
def Wide.msK0 (w : Wide) : Nat := fld w.n1 31 0
def Wide.msSeed (w : Wide) : Nat := fld w.n1 63 32

/-! ### Fit entries -/

/-- R158: a ladder: distinct codes below 0xB whose seam modes do not fall. -/
def roleLadderOk (f : RoleWord) : Bool :=
  let codes := (upto (f.top + 1)).map f.fmtAt
  let rank : Seam → Nat := fun m => match m with | .s1 => 0 | .s4 => 1 | .s16 => 2 | .off => 3
  let seams := codes.filterMap (fun c => (Fmt.ofCode c).map (fun x => rank x.seam))
  codes.all (fun c => decide (c ≤ 10)) && decide codes.Nodup &&
  (upto f.top).all (fun i => decide (seams.getD i 0 ≤ seams.getD (i + 1) 0))

/-- R158: a role word of a valid entry. -/
def roleOk (f : RoleWord) : Bool :=
  roleLadderOk f && decide (f.rung ≤ f.top) && decide (f.cleanExp ≤ f.holdExp) && decide (f.mode ≤ 2) && tOk f.t && tOk f.fixedT &&
  decide (f.coldLeft ≤ 16)

/-- R158: the bytes of an entry, and the entry they spell: reserved bits are zero where it is valid. -/
def entryOk (bs : List Byte) : Bool :=
  let e := FitEntry.ofBytes bs
  !e.valid || (e.bytes == bs && decide (1 ≤ e.fp32Passes) && (e.shadowLog2n == 0 || (decide (6 ≤ e.shadowLog2n) && decide (e.shadowLog2n ≤ 16))) &&
    roleOk e.w && roleOk e.a && roleOk e.g)

/-- R158: an entry as it loads: an invalid one has every other field zero. -/
def loadEntry (bs : List Byte) : FitEntry := let e := FitEntry.ofBytes bs; if e.valid then e else {}

/-- R166: a DELAYED role enters COLD. -/
def RoleWord.enterCold (f : RoleWord) : RoleWord :=
  { f with coldLeft := 16, rung := 0, clean := 0, lastNarrow := false, holdExp := f.cleanExp, histValid := true }

/-! ### The fit-state image (R167) -/

/-- R167: the length of an image, from its header. -/
def imageLen (hd : List Byte) : Nat := 64 + 64 * leAt hd 0x12 2 + (if leAt hd 6 1 = 0 then 0 else 192 * leAt hd 0x12 2)

/-- R167: magic, version and range. -/
def imageHeadOk (hd : List Byte) : Bool :=
  leAt hd 0 4 == 0x46475446 && leAt hd 4 2 == 2 && decide (1 ≤ leAt hd 0x12 2) && decide (leAt hd 0x10 2 + leAt hd 0x12 2 ≤ 4096)

/-- R167: the CRC-32C of the image with its crc field taken as zero. -/
def imageCrcOk (bs : List Byte) : Bool := crc32c (bs.take 0x14 ++ leBytes 4 0 ++ bs.drop 0x18) == leAt bs 0x14 4

/-- The i-th entry of an image. -/
def imageEntry (bs : List Byte) (i : Nat) : List Byte := (bs.drop (64 + 64 * i)).take 64

/-- R167: the history of a role of the i-th tag of an image, where it is read. -/
def imageHistory (bs : List Byte) (i role : Nat) : List Nat :=
  let off := 64 + 64 * leAt bs 0x12 2 + 192 * i + 64 * role
  let h := (upto 16).map (fun j => leAt bs (off + 4 * j) 4)
  if h.all (· == 0) then [] else h

/-- R166: one role of a loaded tag: its word and its history. [DEDUCED, log 37] -/
def loadRole (bs : List Byte) (i role : Nat) (valid : Bool) (f : RoleWord) : RoleWord × List Nat :=
  let h := if leAt bs 6 1 = 2 then imageHistory bs i role else []
  if valid && f.mode == 0 && (leAt bs 6 1 != 2 || !f.histValid) then (f.enterCold, []) else (f, h)

/-- R167: one tag of the image put into a bank. -/
def State.loadTag (s : State) (bank : Bool) (bs : List Byte) (i : Nat) : State :=
  let tag := leAt bs 0x10 2 + i
  let e := loadEntry (imageEntry bs i)
  let rw := loadRole bs i 0 e.valid e.w
  let ra := loadRole bs i 1 e.valid e.a
  let rg := loadRole bs i 2 e.valid e.g
  let s := s.setFit bank tag { e with w := rw.1, a := ra.1, g := rg.1 }
  ((s.setHistory bank (tagRole tag 0) rw.2).setHistory bank (tagRole tag 1) ra.2).setHistory bank (tagRole tag 2) rg.2

/-- The idle bank made a copy of the bank in force. -/
def State.copyBank (s : State) : State :=
  let t := s.tailor
  if t.bank then { s with tailor := { t with bank0 := t.bank1, hist0 := t.hist1 } }
  else { s with tailor := { t with bank1 := t.bank0, hist1 := t.hist0 } }

/-- R167: the records that a LOAD_FIT clears. -/
def State.clearStats (s : State) (first n : Nat) : State :=
  let keep := fun key => decide (key / 4 < first) || decide (first + n ≤ key / 4)
  let t := s.tailor
  { s with tailor := { t with table := t.table.filter (fun e => keep e.1),
                              slots := SMap.mapVals [] (fun _ xs => xs.filter (fun x => keep x.1)) t.slots } }

/-- R167: an image loaded into the idle bank, which then comes into force. -/
def State.loadImage (s : State) (bs : List Byte) : State :=
  let n := leAt bs 0x12 2
  let first := leAt bs 0x10 2
  let s := s.copyBank
  let idle := !s.tailor.bank
  let s := (upto n).foldl (fun s i => s.loadTag idle bs i) s
  let s := s.clearStats first n
  { s with tailor := { s.tailor with bank := idle, step := if first = 0 ∧ n = 4096 then leAt bs 8 8 else s.tailor.step } }

/-- R167: the whole image is right. -/
def imageOk (bs : List Byte) : Bool :=
  imageHeadOk bs && imageCrcOk bs && (upto (leAt bs 0x12 2)).all (fun i => entryOk (imageEntry bs i))

/-- R167: the full image of the bank in force. -/
def State.fitImage (s : State) : List Byte :=
  let body := (upto 4096).flatMap (fun tag => (s.entry tag).bytes) ++
    (upto 4096).flatMap (fun tag => (upto 3).flatMap (fun role =>
      let h := s.history s.tailor.bank (tagRole tag role)
      (upto 16).flatMap (fun j => leBytes 4 (h.getD j 0))))
  let head := fun crc => leBytes 4 0x46475446 ++ leBytes 2 2 ++ leBytes 1 2 ++ [0] ++ leBytes 8 s.tailor.step ++ leBytes 2 0 ++
    leBytes 2 4096 ++ leBytes 4 crc ++ List.replicate 40 (0 : Byte)
  head (crc32c (head 0 ++ body)) ++ body

/-- R237: the reduced table in tag-then-role order. -/
def State.statsImage (s : State) : List Byte :=
  (upto 4096).flatMap (fun tag => (upto 3).flatMap (fun role =>
    (SMap.get {} s.tailor.reduced (tagRole tag role)).bytes (tagRole tag role)))

/-! ### Checks (R206, R237) -/

/-- The bytes of memory that a MEASURE reads or writes at a_img. -/
def State.imgLen (s : State) (w : Wide) : Nat :=
  if w.op = 1 then imageLen (s.readBytes w.imgAddr 64) else if w.op = 2 then 1048640 else 12288 * 256

/-- R293: the image is reached by the tailor unit, which lies in the link block. -/
def State.imgReach (s : State) (w : Wide) : Bool :=
  if 1 ≤ w.op ∧ w.op ≤ 3 then
    (w.op != 1 || s.accessOk .collective w.domain w.imgAddr 64) && s.accessOk .collective w.domain w.imgAddr (s.imgLen w)
  else true

/-- R177, R182, R237: the stream of a STREAM_OPEN: its unit is not reserved, and a foreign fabric ID is that of rank 0. -/
def State.streamKeyOk (s : State) (w : Wide) : Bool :=
  decide (fld w.msK0 17 11 ≤ 104) &&
  (fld w.msK0 31 18 == s.fabricId || (s.commValid w.msComm && fld w.msK0 31 18 == s.member w.msComm 0))

/-- R237: the check of MEASURE. [DEDUCED, log 37] -/
def State.checkMeasure (s : State) (w : Wide) : Verdict :=
  if 5 < w.op then .fail stConflict
  else if w.op = 0 ∧ (!w.retEn || !s.commValid w.msComm) then .fail stConflict
  else if w.op = 4 ∧ !s.streamKeyOk w then .fail stConflict
  else if w.op = 5 ∧ (s.seedOf w.msK0).isNone then .fail stConflict
  else if !s.imgReach w then .trap trAddress
  else .pass w

/-! ### Conversions in flight (R149 step 2) -/

/-- R140: a measured conversion of fit step `step` is in flight. -/
def Wide.measuredIn (w : Wide) (step : Nat) : Bool := w.measured && w.stage != .complete && !w.unchecked && w.fitStep == step

def State.measuredInFlight (s : State) (step : Nat) : Bool := s.allWide.any (fun x => x.2.measuredIn step)

/-- R149, R167: some measured conversion of any step is in flight. -/
def State.anyMeasured (s : State) : Bool := s.allWide.any (fun x => x.2.measuredIn x.2.fitStep)

/-! ### LOAD_FIT, SAVE_FIT and SAVE_STATS -/

/-- R167: a LOAD_FIT in progress ends once no measured conversion is in flight. [DEDUCED, log 37] -/
def State.settleLoad (s : State) : State :=
  match s.tailor.boundary with
  | some b =>
    if b.load && !s.anyMeasured then
      let s := { s with tailor := { s.tailor with boundary := none } }
      match s.wide b.queue b.cseq with
      | some w =>
        let n := s.imgLen w
        let bs := s.readBytes w.imgAddr n
        if s.poisoned w.imgAddr n then (s.markPoisoned b.queue b.cseq true).complete b.queue b.cseq stContained
        else if imageOk bs then ((s.loadImage bs).countBytes (some w.domain) true w.imgAddr n).complete b.queue b.cseq stOk
        else s.complete b.queue b.cseq stConflict
      | none => s
    else s
  | none => s

/-- R150, R167: LOAD_FIT issues when no boundary and no other LOAD_FIT is in progress. -/
def State.issueLoadFit (s : State) (qi : Nat) (w : Wide) : State :=
  State.settleLoad { s with tailor := { s.tailor with boundary := some { queue := qi, cseq := w.cseq, comm := 0, step := s.tailor.step, load := true } } }

/-- An image written to memory. -/
def State.saveImage (s : State) (qi : Nat) (w : Wide) (bs : List Byte) : State :=
  ((s.writeBytes w.imgAddr bs).countBytes (some w.domain) false w.imgAddr bs.length).complete qi w.cseq stOk

/-! ### The stream registry (R181 to R184) -/

/-- A STREAM_OPEN that has succeeded and has not retired: its key is not active yet, and no other may take it (R182). -/
def Wide.opening (w : Wide) (k0 : Option Nat) : Bool :=
  w.opcode == 0xA && w.op == 4 && w.stage == .complete && w.status == stOk && !w.failedCheck &&
  (match k0 with | some k => w.msK0 == k | none => true)

/-- R182: how a STREAM_OPEN ends. -/
def State.openStream (s : State) (qi : Nat) (w : Wide) : State :=
  let opening := s.allWide.filter (fun x => x.2.opening none)
  if (s.seedOf w.msK0).isSome || opening.any (fun x => x.2.msK0 == w.msK0) then
    State.complete { s with registry := { s.registry with dupRejects := sat 8 (s.registry.dupRejects + 1) } } qi w.cseq stDupStream
  else if 2048 ≤ s.registry.keys.length + opening.length then s.complete qi w.cseq stConflict
  else s.complete qi w.cseq stOk

/-- R184: a command names the stream k0. -/
def State.namesStream (s : State) (w : Wide) (k0 : Nat) : Bool :=
  (w.opcode == 1 || w.opcode == 4 || w.opcode == 5 || w.opcode == 6 || w.opcode == 8 || w.opcode == 9) && streamEn w.n3 &&
  s.streamKey w == k0

/-- R184: the stream that a command names, if it names one, is active. -/
def State.streamLives (s : State) (w : Wide) : Bool := !s.namesStream w (s.streamKey w) || (s.seedOf (s.streamKey w)).isSome

/-- R184: a STREAM_CLOSE of the stream k0 that has issued and not retired. -/
def Wide.closes (w : Wide) (k0 : Nat) : Bool :=
  w.opcode == 0xA && w.op == 5 && w.stage != .dispatched && !w.failedCheck && w.status == stOk && w.msK0 == k0

/-- R184: STREAM_CLOSE waits for every issued command that names the stream. -/
def State.closeStream (s : State) (qi : Nat) (w : Wide) : State :=
  let ws := (s.allWide.filter (fun x => x.2.stage != .dispatched && !x.2.failedCheck && s.namesStream x.2 w.msK0)).map (fun x => (x.1, x.2.cseq))
  if ws.isEmpty then s.complete qi w.cseq stOk else s.modWide qi w.cseq (fun w => { w with waits := ws })

/-- R181: what the retirement of a STREAM_OPEN or STREAM_CLOSE does to the registry. -/
def State.retireStream (s : State) (w : Wide) : State :=
  let r := s.registry
  if w.opcode = 0xA ∧ w.op = 4 ∧ w.status = stOk then
    let keys := r.keys ++ [(w.msK0, w.msSeed)]
    { s with registry := { r with keys := keys, highWater := max r.highWater keys.length } }
  else if w.opcode = 0xA ∧ w.op = 5 ∧ w.status = stOk then
    { s with registry := { r with keys := r.keys.filter (fun k => k.1 != w.msK0) } }
  else s

/-! ### Issue -/

/-- The running state of a communicator (R382). -/
def State.comm (s : State) (c : Nat) : CommState := SMap.get {} s.link.comms c
def State.setComm (s : State) (c : Nat) (x : CommState) : State := { s with link := { s.link with comms := SMap.set {} s.link.comms c x } }

/-- R282, R383: the next collective number of a communicator taken. -/
def State.takeK (s : State) (c : Nat) : State := s.setComm c { s.comm c with nextK := ((s.comm c).nextK + 1) % 2 ^ 24 }

/-- R390: the collectives in progress. -/
def State.collsRunning (s : State) : Nat := (s.link.colls.filter (fun c => c.endedAs.isNone)).length

/-- R390, R476: the collectives that may be in progress. -/
def State.collLimit (s : State) : Nat := if s.link.sliceFaults = [] then 32 else 24

/-- R394, R479: a communicator that has lost a member, or that JOB-FATAL has ended, ends later COLLs at once. -/
def State.commDead (s : State) (comm : Nat) : Option Nat :=
  let x := s.comm comm
  if x.fatal then some stContained else if x.lost.isSome then some stPeerLost else none

/-- R282: a collective takes its place behind those that its communicator has issued. [DEDUCED, log 37] -/
def State.placeColl (s : State) (c : Coll) : State := { s with link := { s.link with colls := s.link.colls ++ [c] } }

/-- R383: the signature. -/
def signature (op rop src dst rnd e mask : Nat) : Nat :=
  crc32c ([op, rop, src, dst, rnd, 0, 0, 0].map (BitVec.ofNat 8) ++ leBytes 8 e ++ leBytes 8 mask)

/-- R282, R383: the collective of a boundary, which has its place from the STEP_END's issue on. -/
def State.boundaryColl (s : State) (b : Boundary) : Coll :=
  { kind := .stepEnd, comm := b.comm, k := b.k, queue := b.queue, cseq := b.cseq, sig := signature 8 0 0xFF 0xFF 0 12288 0, elems := 12288,
    n := s.commSize b.comm, rank := s.commRank b.comm, step := b.step, startedAt := s.now, unbegun := true }

/-- R150: the core queues whose next command waits for the tailor unit. -/
def State.tailorAsks (s : State) : List Nat :=
  (s.queues.filter (fun e => match e.2.unissued with | some w => w.opcode == 0xA && decide (w.op < 4) && !w.unchecked | none => false)).map (·.1)

/-- R150: the tailor unit's arbiter: whether the unit is free and its grant is the queue's. A grant stands until its command issues.
[DESIGN CHOICE, log 86] -/
def State.tailorRound (s : State) (qi : Nat) : Bool × State :=
  if s.boundaryBusy then (false, s)
  else
    let asks := s.tailorAsks.foldl setIns [qi]
    match s.tailor.grant.bind (fun g => asks.find? (· == g)) with
    | some g => if g = qi then (true, { s with tailor := { s.tailor with grant := none } }) else (false, s)
    | none =>
      let (g, s) := s.arbRound .tailor (fun _ => 0) (fun _ => false) asks
      if g = some qi then (true, s) else (false, { s with tailor := { s.tailor with grant := g } })

/-- R184: a command that issues while a STREAM_CLOSE of the stream that it names has not retired: the STREAM_CLOSE waits for it too. -/
def State.joinClose (s : State) (qi : Nat) (w : Wide) : State :=
  if s.allWide.any (fun x => x.2.closes (s.streamKey w)) && s.namesStream w (s.streamKey w) then
    { s with queues := SMap.mapVals {} (fun _ q => { q with inflight := q.inflight.map (fun u =>
        if u.closes (s.streamKey w) then { u with stage := .issued, waits := u.waits ++ [(qi, w.cseq)] } else u) }) s.queues }
  else s

/-- R149 step 1, R150, R390: MEASURE issues; all but the stream operations wait while a boundary or LOAD_FIT is in progress, and a STEP_END
waits while 32 collectives are. -/
def State.issueMeasure (s : State) (qi : Nat) (w : Wide) : Option State :=
  if w.op = 4 then some (s.openStream qi w)
  else if w.op = 5 then some (s.closeStream qi w)
  else if s.boundaryBusy then none
  else if w.op = 0 && (s.commDead w.msComm).isNone && decide (s.collLimit ≤ s.collsRunning) then none
  else if w.op = 0 then
    let b : Boundary := { queue := qi, cseq := w.cseq, comm := w.msComm, step := s.tailor.step, k := (s.comm w.msComm).nextK }
    some ((State.takeK { s with tailor := { s.tailor with boundary := some b, reduction := none } } w.msComm).placeColl (s.boundaryColl b))
  else if w.op = 1 then some (s.issueLoadFit qi w)
  else if w.op = 2 then some (s.saveImage qi w s.fitImage)
  else some (s.saveImage qi w s.statsImage)

/-! ### The boundary (R149) -/

/-- R143, R149 step 3: every record slot merged into the module stat table. [DEDUCED, log 38] -/
def State.mergeSlots (s : State) : State :=
  let all := s.tailor.slots.flatMap (fun e => e.2)
  let s := { s with tailor := { s.tailor with slots := [] } }
  all.foldl (fun s x => s.mergeTable x.1 x.2) s

/-- R141, R149 step 4: the record of a tag and role that this member contributes; an untouched one names the rung, step and digest in
force. -/
def State.contribution (s : State) (key : Nat) : StatRec :=
  let r := SMap.get ({} : StatRec) s.tailor.table key
  if r.touched then r else { (s.freshRec key s.tailor.step) with touched := false }

/-- The keys of the 12,288 records in tag-then-role order. -/
def statKeys : List Nat := (upto 12288).map (fun i => tagRole (i / 3) (i % 3))

/-- What decide did to a role, for the counts of R168 and R171. -/
structure Decided where
  word : RoleWord
  hist : List Nat
  widened : Bool := false
  jumped : Bool := false
  narrowed : Bool := false
  repaired : Bool := false
deriving DecidableEq, Repr

/-- R152, R160, R163: one role of a valid tag at a boundary. -/
def decideRole (f : RoleWord) (h : List Nat) (r : StatRec) (steerEnable : Bool) : Decided :=
  if !bit r.agree 0 then
    { word := RoleWord.rescale { f with rung := r.rung, clean := 0 } h, hist := h, repaired := true }
  else
    let g := f.decide r steerEnable
    let h := if r.touched then pushHistory h r.amax else h
    { word := g.rescale h, hist := h, widened := decide (f.rung < g.rung), narrowed := decide (g.rung < f.rung),
      jumped := decide (f.rung < g.rung) && r.shadowMismatch != 0 }

/-- What a boundary does to one tag. -/
structure TagDecided where
  widened : Bool := false
  jumped : Bool := false
  narrowed : Bool := false
  repaired : Nat := 0
  pinned : Bool := false
  cold : Bool := false
deriving DecidableEq, Repr

/-- R149 step 6: the decisions of one tag, written to a bank. -/
def State.decideTag (s : State) (bank : Bool) (tag : Nat) : State × TagDecided :=
  let e := s.fit bank tag
  if !e.valid then (s, {})
  else
    let en := bit (s.reg 0x03780000) 31
    let one := fun role => decideRole (e.role role) (s.history bank (tagRole tag role)) (SMap.get {} s.tailor.reduced (tagRole tag role)) en
    let w := one 0
    let a := one 1
    let g := one 2
    let s := s.setFit bank tag { e with w := w.word, a := a.word, g := g.word }
    let s := ((s.setHistory bank (tagRole tag 0) w.hist).setHistory bank (tagRole tag 1) a.hist).setHistory bank (tagRole tag 2) g.hist
    (s, { widened := w.widened || a.widened || g.widened, jumped := w.jumped || a.jumped || g.jumped,
          narrowed := w.narrowed || a.narrowed || g.narrowed, repaired := b2n w.repaired + b2n a.repaired + b2n g.repaired,
          pinned := w.word.pinned || a.word.pinned || g.word.pinned, cold := w.word.cold || a.word.cold || g.word.cold })

/-- R149 step 6: every tag. -/
def State.decideAll (s : State) (bank : Bool) : List Nat → State × List (Nat × TagDecided)
  | [] => (s, [])
  | tag :: tags =>
    let (s, d) := s.decideTag bank tag
    let (s, ds) := s.decideAll bank tags
    (s, (tag, d) :: ds)

/-- R168, R171: the storm event. -/
def State.stormEvent (s : State) (step steered : Nat) (ds : List (Nat × TagDecided)) : State :=
  let wide := ds.filter (fun x => x.2.widened)
  let frac := fld (s.reg 0x03780000) 23 16
  if frac ≠ 0 ∧ frac * steered < wide.length * 256 then
    s.raiseEvent 0x0210 (put (ds.filter (fun x => x.2.jumped)).length 114 102 + put steered 101 89 + put wide.length 88 76 +
      put ((wide.head?.map (·.1)).getD 0) 75 64 + put step 63 0)
  else s

/-- R149 steps 6 to 8: decisions, storm, swap. [DEDUCED, log 37] -/
def State.applyDecisions (s : State) (b : Boundary) : State :=
  let steered := s.steeredTags
  let s := s.copyBank
  let idle := !s.tailor.bank
  let (s, ds) := s.decideAll idle (upto 4096)
  let repaired := (ds.map (fun x => x.2.repaired)).sum
  let s := if repaired = 0 then s else s.logQueue 0x010C b.queue (s.queueDomain b.queue) b.cseq
  let s := s.stormEvent b.step steered ds
  { s with tailor := { s.tailor with bank := idle, step := (s.tailor.step + 1) % 2 ^ 64, table := [], lastResult := 0,
                                     boundary := some { b with ended := true }, reduction := none, diverged := decide (repaired ≠ 0),
                                     widenedTags := (ds.filter (fun x => x.2.widened)).length,
                                     narrowedTags := (ds.filter (fun x => x.2.narrowed)).length,
                                     pinnedTags := (ds.filter (fun x => x.2.pinned)).length,
                                     coldTags := (ds.filter (fun x => x.2.cold)).length } }

/-- R149 step 5, R152: some record disagrees on its step or digest. -/
def State.statsDisagree (s : State) : Bool :=
  statKeys.any (fun k => !(bit (SMap.get ({} : StatRec) s.tailor.reduced k).agree 1 && bit (SMap.get ({} : StatRec) s.tailor.reduced k).agree 2))

/-- R149, R153, COL_FIT_STATUS: a boundary ends with a status other than ST_OK: no entry changes and the local table is kept.
[DEDUCED, log 37] -/
def State.failBoundary (s : State) (b : Boundary) (status : Nat) : State :=
  let code := if status = stPeerLost then 1 else if status = stConflict then 2 else 3
  State.complete { s with tailor := { s.tailor with boundary := some { b with ended := true }, reduction := none, lastResult := code, diverged := false } }
    b.queue b.cseq status

/-- R149 steps 5 to 8: what follows the reduction. -/
def State.endBoundary (s : State) (b : Boundary) (status : Nat) : State :=
  if status ≠ stOk then s.failBoundary b status
  else if s.statsDisagree then s.failBoundary b stConflict
  else (s.applyDecisions b).complete b.queue b.cseq stOk

/-- R149: STEP_END_DECIDE. [DEDUCED, log 37] -/
def doStepEndDecide (s : State) : State :=
  if !s.alive then s
  else match s.tailor.boundary, s.tailor.reduction with
    | some b, some status => if b.merged && !b.load && !b.ended then s.endBoundary b status else s
    | _, _ => s

def execStepEndDecide (s : State) : Host.Outcome State Fault Refusal := .next (doStepEndDecide s)

end Sys2Proof.Machine
end

