-- ==== Sys2Proof/Machine/Num64.lean ====
section
/-! DEFINITION. FP64 division, square root and powers (R192, R337), each rounded once to nearest, ties to even. -/

namespace Sys2Proof.Machine

/-- The FP64 code of a value. -/
def Num.toFp64 (x : Num) : Nat := x.toIeee .fp64 .near

/-- The exact value (n / d) × 2^e rounded once to FP64. -/
def fp64Ratio (neg : Bool) (n d : Nat) (e : Int) : Num :=
  let mq := roundMag .near 52 (qminOf 52 1023) n d e
  if Fmt.fp64.above mq then .inf neg else .fin neg mq.1 mq.2

/-- The FP64 quotient, rounded once (IEEE 754). -/
def Num.div64 : Num → Num → Num
  | .nan, _ => .nan
  | _, .nan => .nan
  | .inf _, .inf _ => .nan
  | .inf a, .fin t _ _ => .inf (a != t)
  | .fin s _ _, .inf b => .fin (s != b) 0 0
  | .fin s m e, .fin t n f =>
    if n = 0 then (if m = 0 then .nan else .inf (s != t))
    else if m = 0 then .fin (s != t) 0 0
    else fp64Ratio (s != t) m n (e - f)

/-- The FP64 square root, rounded once: the root is taken to more bits than FP64 holds, with a sticky bit below them. -/
def Num.sqrt64 : Num → Num
  | .nan => .nan
  | .inf s => if s then .nan else .inf false
  | .fin s m e =>
    if m = 0 then .fin s 0 0
    else if s then .nan
    else
      let e' := if e % 2 = 0 then e else e - 1
      let m' := if e % 2 = 0 then m else 2 * m
      let n := m' <<< 192
      let r := isqrt n
      let sticky := if r * r = n then 0 else 1
      (Num.fin false (2 * r + sticky) (e' / 2 - 97)).fp64

/-- R337: beta^t by binary exponentiation over the bits of t below its most significant one, bit `k` − 1 first. -/
def powBits (beta : Num) (t : Nat) : Nat → Num → Num
  | 0, r => r
  | k + 1, r =>
    let r := (r.mul r).fp64
    powBits beta t k (if bit t k then (r.mul beta).fp64 else r)

def powFp64 (beta : Num) (t : Nat) : Num := if t = 0 then Num.one else powBits beta t (Nat.log2 t) beta

/-- R337: 1 / (1 − beta^t), rounded to FP32. -/
def biasTerm (beta : Num) (t : Nat) : Num := (Num.one.div64 ((Num.one.sub (powFp64 beta t)).fp64)).fp32

end Sys2Proof.Machine
end

