-- ==== Sys2Proof/Machine/Functions.lean ====
section
/-! DEFINITION. The functions EXP to GELU of the press units (R228): the exact value in fixed point, and the free choice that the bound of
2 ulp leaves. Special operands follow IEEE 754-2019 (R80). -/

namespace Sys2Proof.Machine

/-- The fraction bits of the fixed point that an exact value is computed in. -/
def fxBits : Nat := 512

def fxOne : Nat := 2 ^ fxBits

/-- atanh(1/k) or, with alternating signs, atan(1/k): the sum of ±k^-(2n+1)/(2n+1). -/
def fxArc (alternate : Bool) (k : Nat) : Nat → Nat → Nat → Int
  | 0, _, _ => 0
  | fuel + 1, n, p =>
    if p = 0 then 0
    else
      let t : Int := ((p / (2 * n + 1) : Nat) : Int)
      (if alternate && n % 2 == 1 then -t else t) + fxArc alternate k fuel (n + 1) (p / (k * k))

/-- ln 2 = 2 atanh(1/3). -/
def fxLn2 : Int := 2 * fxArc false 3 400 0 (fxOne / 3)

/-- π = 16 atan(1/5) − 4 atan(1/239). -/
def fxPi : Int := 16 * fxArc true 5 400 0 (fxOne / 5) - 4 * fxArc true 239 200 0 (fxOne / 239)

/-- The sum of r^n / n! from the term `t` on. -/
def fxExpSum (r : Nat) : Nat → Nat → Nat → Nat
  | 0, _, _ => 0
  | fuel + 1, n, t => if t = 0 then 0 else t + fxExpSum r fuel (n + 1) (t * r / fxOne / (n + 1))

/-- e^x for a fixed-point x; at least 2^-512 is told apart. -/
def fxExp (x : Int) : Nat :=
  let k := x / fxLn2
  let t := fxExpSum (x - k * fxLn2).toNat 300 0 fxOne
  if k < 0 then t >>> (-k).toNat else t <<< k.toNat

/-- Σ z^(2n+1)/(2n+1), for 0 ≤ z ≤ 1/3. -/
def fxAtanhSum (zz : Nat) : Nat → Nat → Nat → Nat
  | 0, _, _ => 0
  | fuel + 1, n, p => if p = 0 then 0 else p / (2 * n + 1) + fxAtanhSum zz fuel (n + 1) (p * zz / fxOne)

/-- ln(m × 2^e) for m > 0. -/
def fxLn (m : Nat) (e : Int) : Int :=
  let l := Nat.log2 m
  let z := (m - 2 ^ l) * fxOne / (m + 2 ^ l)
  2 * ((fxAtanhSum (z * z / fxOne) 400 0 z : Nat) : Int) + (e + l) * fxLn2

/-- The sum of x^(2n+1) / (1·3···(2n+1)). -/
def fxPhiSum (xx : Nat) : Nat → Nat → Nat → Nat
  | 0, _, _ => 0
  | fuel + 1, n, t => if t = 0 then 0 else t + fxPhiSum xx fuel (n + 1) (t * xx / fxOne / (2 * n + 3))

/-- Φ(x) − ½ of the normal distribution for 0 ≤ x < 15. -/
def fxPhi (x : Nat) : Nat :=
  let d := fxExp (-((x * x / fxOne / 2 : Nat) : Int)) * fxOne / isqrt (2 * fxPi.toNat * fxOne)
  d * fxPhiSum (x * x / fxOne) 2000 0 x / fxOne

/-- The code of the FP32 magnitude next at or below n × 2^-q. -/
def fp32Below (n : Nat) (q : Int) : Nat :=
  if n = 0 then 0
  else
    let l : Int := ((Nat.log2 n : Nat) : Int) - q
    let shifted (k : Int) : Nat := if k < 0 then n >>> (-k).toNat else n <<< k.toNat
    if 128 ≤ l then 0x7F800000
    else if l < -126 then shifted (149 - q)
    else ((l + 126) * 2 ^ 23).toNat + shifted (23 - ((Nat.log2 n : Nat) : Int))

/-- An exact value's sign, and its magnitude n × 2^-q. -/
structure ExactValue where
  neg : Bool := false
  n : Nat := 0
  q : Int := 512
deriving DecidableEq, Repr

def ExactValue.ofInt (x : Int) : ExactValue := { neg := decide (x < 0), n := x.natAbs }

/-- A finite operand in fixed point; its magnitude is limited to 2^9. -/
def fxOf (neg : Bool) (m : Nat) (e : Int) : Int := finAt neg m (min e (9 - ((Nat.log2 m : Nat) : Int)) + fxBits) 0

/-- R228: the exact value of a function of a finite operand; RSQRT and LOG are taken of positive ones. [DESIGN CHOICE, log 29] -/
def exactPress (op : Nat) (neg : Bool) (m : Nat) (e : Int) : ExactValue :=
  let x := fxOf neg m e
  let x1 := x.natAbs
  if op = 0x0C then { n := fxExp x }
  else if op = 0x0D then .ofInt (fxLn m e)
  else if op = 0x0E then
    let m2 := if e % 2 = 0 then m else 2 * m
    { n := isqrt (2 ^ (2 * fxBits) / m2), q := fxBits + (e - (if e % 2 = 0 then 0 else 1)) / 2 }
  else if op = 0x0F then
    let u := fxExp (-2 * ((min x1 (20 * fxOne) : Nat) : Int))
    { neg := neg, n := (fxOne - u) * fxOne / (fxOne + u) }
  else if op = 0x10 then
    let u := fxExp (-((if neg then x1 else min x1 (20 * fxOne) : Nat) : Int))
    { n := (if neg then u else fxOne) * fxOne / (fxOne + u) }
  else if 15 * fxOne ≤ x1 then (if neg then { neg := true } else { n := m * 2 ^ fxBits - 1, q := fxBits - e })
  else { neg := neg, n := x1 * (if neg then fxOne / 2 - fxPhi x1 else fxOne / 2 + fxPhi x1) / fxOne }

/-- R228: a code within 2 ulp of an exact value: of the four from one below the magnitude at or under it to two above, choice `k`. -/
def ulpCode (x : ExactValue) (k : Nat) : Nat :=
  let b := fp32Below x.n x.q
  if b = 0 ∧ k % 4 = 0 then put (b2n (!x.neg)) 31 31 + 1
  else put (b2n x.neg) 31 31 + min (b + k % 4 - 1) 0x7F800000

/-- R80, R228: EXP, LOG, RSQRT, TANH, SIGMOID and GELU: what IEEE 754 gives for special operands, otherwise a value within 2 ulp of
the exact one, the same for the same operand. GELU of −Inf is not stated. -/
def pressFunction (op : Nat) (a : Num) : Num :=
  let free := Config.pressFunction op a.toFp32
  match a with
  | .nan => .nan
  | .inf neg =>
    if op = 0x0C then (if neg then .zero else .inf false)
    else if op = 0x0D then (if neg then .nan else .inf false)
    else if op = 0x0E then (if neg then .nan else .zero)
    else if op = 0x0F then .fin neg 1 0
    else if op = 0x10 then (if neg then .zero else .one)
    else if neg then Fmt.fp32.decode (free % 2 ^ 32) else .inf false
  | .fin neg m e =>
    if m = 0 then
      if op = 0x0C then .one
      else if op = 0x0D then .inf true
      else if op = 0x0E then .inf neg
      else if op = 0x10 then .fin false 1 (-1)
      else a
    else if (op = 0x0D ∨ op = 0x0E) ∧ neg = true then .nan
    else Fmt.fp32.decode (ulpCode (exactPress op neg m e) free)

end Sys2Proof.Machine
end

