-- ==== Sys2Proof/Machine/Shuttle.lean ====
section
/-! DEFINITION. The shuttles (R34, R229): COPY, CONVERT, FILL and DECRYPT (R506), their checks, their reads of host memory (R402, R407),
and the filling of weft rings (R98, R100). -/

namespace Sys2Proof.Machine

def Wide.shSrc (w : Wide) : Operand := w.operand 0
def Wide.shDst (w : Wide) : Operand := w.operand 1
def Wide.shRnd (w : Wide) : Bool := bit w.n0 19

/-! ### The counts of weft rings (R98, R100) -/

/-- R98: the counts of the ring at a base address. They begin at 0 and run on. [DESIGN CHOICE, log 90] -/
def Engine.ring (e : Engine) (base : Nat) : RingCount := SMap.get {} e.rings base
def Engine.setRing (e : Engine) (base : Nat) (x : RingCount) : Engine := { e with rings := SMap.set {} e.rings base x }

/-- A command is issued and not complete. -/
def State.writing (s : State) (qi cseq : Nat) : Bool := match s.wide qi cseq with | some w => w.stage == .issued | none => false

/-- R98, R100: a command of queue `qi` begins to write a ring, behind those that began before it. [DESIGN CHOICE, log 90] -/
def State.joinRing (s : State) (g base qi cseq : Nat) : State :=
  s.modEngine g (fun e =>
    let rc := e.ring base
    if (qi, cseq) ∈ rc.writers then e
    else e.setRing base { rc with writers := rc.writers.filter (fun x => s.writing x.1 x.2) ++ [(qi, cseq)] })

/-- R98, R100: of the commands that write a ring, the one whose rows are next. -/
def State.ringTurn (s : State) (g base qi cseq : Nat) : Bool :=
  match ((s.engine g).ring base).writers.find? (fun x => s.writing x.1 x.2) with
  | some x => x == (qi, cseq)
  | none => true

/-- R100: a row of a ring has been written. -/
def Engine.ringFilled (e : Engine) (base row : Nat) : Engine := e.setRing base { e.ring base with fill := max (e.ring base).fill (row + 1) }

/-- R100: row `gRow` of a ring may be written: every word it takes has been consumed. -/
def RingCount.room (rc : RingCount) (d : Desc) (gRow : Nat) : Bool := decide (gRow + d.cols ≤ rc.consume + d.rows)

/-- R100, R472: a command may write row `gRow` of a ring: it is its turn and the row has room; in a bobbin withdrawn with its core, whose
writes are dropped, at once. -/
def State.ringFree (s : State) (g qi : Nat) (w : Wide) (d : Desc) (gRow : Nat) : Bool :=
  s.bobbinGone d.data || (s.ringTurn g d.data qi w.cseq && ((s.engine g).ring d.data).room d gRow)

/-! ### Checks -/

/-- The conversion of a CONVERT (R81). [DESIGN CHOICE, log 82] -/
def Wide.shConv (w : Wide) : Conv := { src := w.shSrc.f, dst := w.shDst.f, t := w.shDst.t, heritage := w.heritage }

/-- R76: a CONVERT that rounds stochastically. -/
def Wide.shStoch (w : Wide) : Bool := w.op == 1 && w.shDst.stoch w.shSrc.f w.shRnd w.heritage

/-- The shapes a shuttle moves between: equal rows and columns, or, into a weft ring, rows of the ring's lanes. [DESIGN CHOICE, log 82] -/
def Wide.shShapes (w : Wide) : Bool :=
  let a := w.shSrc.desc
  let b := w.shDst.desc
  if a.isRing then false
  else if b.isRing then a.cols == b.cols && decide (2 * b.cols ≤ b.rows)
  else a.count == b.count && (w.op == 1 || !w.shSrc.f.blockScaled || w.heritage ||
    (a.rows == b.rows && a.cols == b.cols && a.blockDim == b.blockDim))

/-- R229: which operations are known, and what each asks of its formats: R81 gives the integer results of INT32 to the hem and the press unit
alone. -/
def Wide.shFormats (w : Wide) : Bool :=
  if w.op = 0 then w.shSrc.fmtOk && w.shDst.fmtOk && w.shSrc.desc.fmt == w.shDst.desc.fmt
  else if w.op = 1 then w.shSrc.fmtOk && w.shDst.fmtOk && convAllowed w.shSrc.f w.shDst.f && (w.shSrc.f != .int32 || w.shDst.f == .fp32)
  else w.shDst.fmtOk

/-- R506: the key slot of a DECRYPT holds a key bound to the queue's domain. -/
def State.slotKey (s : State) (slot dom : Nat) : Option (List Byte) :=
  match SMap.get none s.sec.keySlots slot with
  | some k => if k.domain = dom then some k.key else none
  | none => none

/-- R506: the chunks of a sealed view: header, ciphertext and tag of each; none where the bytes do not divide into whole chunks. -/
def chunksOf : Nat → List Byte → Option (List (List Byte × List Byte × List Byte))
  | 0, bs => if bs.isEmpty then some [] else none
  | k + 1, bs =>
    if bs.isEmpty then some []
    else
      let plen := leAt bs 20 4
      if plen < 16 ∨ 65536 < plen ∨ bs.length < 48 + plen then none
      else match chunksOf k (bs.drop (48 + plen)) with
        | some cs => some ((bs.take 32, (bs.drop 32).take plen, (bs.drop (32 + plen)).take 16) :: cs)
        | none => none

/-- The bytes of a view's element data in storage order. -/
def State.viewBytes (s : State) (d : Desc) (f : Fmt) : List Byte :=
  (upto d.lines).flatMap (fun l => s.readBytes (d.lineAt f.width l) (packed d.lineLen f.width))

/-- The length of those bytes. -/
def Desc.viewLen (d : Desc) (f : Fmt) : Nat := d.lines * packed d.lineLen f.width

/-- The chunks of a DECRYPT's source. -/
def State.sealedChunks (s : State) (w : Wide) : Option (List (List Byte × List Byte × List Byte)) :=
  let bs := s.viewBytes w.shSrc.desc w.shSrc.f
  chunksOf (bs.length / 64 + 1) bs

/-- The source lies in host memory. -/
def State.hostSource (s : State) (w : Wide) : Option HostPort :=
  if w.op = 3 then none
  else match s.area w.shSrc.desc.data with
    | some (.host p) => some (portOf p)
    | _ => none

/-- R506: a DECRYPT's plaintext fits its destination. -/
def State.sealedOk (s : State) (w : Wide) : Bool :=
  match s.sealedChunks w with
  | some cs => (cs.map (fun c => c.2.1.length)).sum == w.shDst.desc.viewLen w.shDst.f
  | none => false

/-- R34, R293: a shuttle of the core reaches both views. -/
def State.shReach (s : State) (core : Nat) (w : Wide) : Bool :=
  (w.op != 1 || s.stagingOk [.shuttle core w.home] w.domain w.shDst w.shSrc.desc.count) &&
  (w.op == 3 || s.rangesOk (.shuttle core w.home) w.domain (w.shSrc.desc.ranges w.shSrc.f w.heritage)) &&
  s.rangesOk (.shuttle core w.home) w.domain (w.shDst.desc.ranges w.shDst.f w.heritage)

/-- R206: the check of SHUTTLE. -/
def State.checkShuttle (s : State) (core : Nat) (w : Wide) : Verdict :=
  if 3 < w.op ∨ !w.descsOk ∨ !w.heritageOk (w.op == 1 && w.shRnd) then .fail stConflict
  else
    let w := { w with ops := SMap.set {} w.ops 1 (if w.op = 1 then s.destScale w.shDst else w.shDst) }
    if !w.shFormats || (if w.op = 0 ∨ w.op = 1 then !w.shShapes else w.shDst.desc.isRing && !decide (2 * w.shDst.desc.cols ≤ w.shDst.desc.rows)) || !(w.op != 1 || w.shDst.scaleOk) then .fail stConflict
    else if !s.streamOk w w.shStoch || !(w.op != 1 || s.capacityOk w.shDst w.shSrc.desc.count) then .fail stConflict
    else if w.op = 2 ∧ (s.slotKey w.shSrc.desc.keySlot w.domain).isNone then .fail stConflict
    else if !s.shReach core w then .trap trAddress
    else if w.op = 2 ∧ !s.sealedOk w then .fail stConflict
    else .pass { w with fmts := fmtsOf w.shSrc.fmt 0 w.shDst.fmt 0 }

/-! ### The work -/

/-- R198: the non-finite elements that a view holds, in element order. -/
def State.badElems (s : State) (d : Desc) (f : Fmt) (heritage : Bool) : List BadElem :=
  if f.isInt && !f.blockScaled then []
  else (d.span 0 d.count).filterMap (fun e =>
    let v := if f = .fp32p8 then Fmt.fp32.decode (s.readCode d f e.1 e.2 / 256) else s.readNum d f 0 heritage e.1 e.2
    if v.isFin then none else some (BadElem.mk e.1 e.2 v v.lineage))

/-- The unit number of a shuttle in the first-NaN trap (R198). -/
def shuttleUnit (i : Nat) : Nat := 105 + i

/-- R229: COPY: every element's code, and the scale and lining planes with them. -/
def State.copyView (s : State) (w : Wide) : State :=
  let a := w.shSrc.desc
  let b := w.shDst.desc
  let f := w.shDst.f
  let dom := some w.domain
  let es := (b.span 0 b.count).map (fun e =>
    let i := a.elem (b.index e.1 e.2)
    (e.1, e.2, s.readCode a w.shSrc.f i.1 i.2))
  let s := s.writeElems b f dom es
  if f.blockScaled && !w.heritage then
    (upto b.scaleBytes).foldl (fun s i => s.writeScale b dom i (s.readLe (a.scale + i) 1)) s
  else s

/-- R165, R179: the values that a CONVERT reads, with its draws: tile T is the element offset divided by 8,192, and i its remainder. -/
def State.shSource (s : State) (w : Wide) : Source :=
  let a := w.shSrc.desc
  let rounding := s.rounding w w.shStoch
  let val := fun r c => s.readNum a w.shSrc.f w.shSrc.t w.heritage r c
  { val := val, inputs := fun r c => (val r c).lineage, rnd := fun r c => rounding.at (a.index r c / 8192) (a.index r c % 8192) }

/-- R81, R229: CONVERT: tile T is the element offset divided by 8,192, and i its remainder (R179). -/
def State.convertView (s : State) (qi : Nat) (w : Wide) (unit : Nat) : State :=
  let a := w.shSrc.desc
  let x := w.shDst
  let all := (a.span 0 a.count).map (fun e => (s.shSource w).val e.1 e.2)
  let t := if x.toJit then tFor ((all.filter Num.isFin).foldl (fun m v => max m (fp32Up v)) 0) x.f ((s.entry x.tag).role x.role).margin
    else x.t
  let s := if x.toJit then s.writeBytes x.desc.jit (all.flatMap (fun v => leBytes 4 v.toFp32)) else s
  let rounding := s.rounding w w.shStoch
  let val := fun r c => all.getD (x.desc.index r c) .zero
  let src : Source := { val := val, inputs := fun r c => (val r c).lineage,
                        rnd := fun r c => rounding.at (x.desc.index r c / 8192) (x.desc.index r c % 8192) }
  let (s, wr) := s.writeSpan x.desc { w.shConv with t := t } (some w.domain) 0 x.desc.count src
  let s := if w.measures x then s.measure tableUnit x.tag x.role w.fitStep all x.f wr else s
  s.nanEvents (s.nanBy qi w unit x) (elemPos x.desc) (w.measures x) wr

/-- R229: FILL: the bytes of the view, in storage order, take the pattern's bytes in turn. -/
def State.fillView (s : State) (w : Wide) : State :=
  let d := w.shDst.desc
  let f := w.shDst.f
  let n := packed d.lineLen f.width
  (upto d.lines).foldl (fun s l =>
    let bs := (upto n).map (fun j => BitVec.ofNat 8 (w.n1 / 256 ^ ((l * n + j) % 8)))
    (s.writeBytes (d.lineAt f.width l) bs).countBytes (some w.domain) false (d.lineAt f.width l) n) s

/-- Bytes spread over a view in storage order. -/
def State.spread (s : State) (d : Desc) (f : Fmt) (off : Nat) (bs : List Byte) : State :=
  let n := max (packed d.lineLen f.width) 1
  (upto (cdiv (off % n + bs.length) n)).foldl (fun s i =>
    let l := off / n + i
    let lo := if i = 0 then off % n else 0
    let skip := if i = 0 then 0 else i * n - off % n
    s.writeBytes (d.lineAt f.width l + lo) ((bs.drop skip).take (n - lo))) s

/-- R506: the chunks opened in order; the first that fails its tag or index ends the command. Answered with it: the bytes written so far,
and whether one failed. -/
def State.openChunks (s : State) (w : Wide) (key : List Byte) (n off : Nat) :
    List (List Byte × List Byte × List Byte) → State × Nat × Bool
  | [] => (s, off, false)
  | (hd, ct, tag) :: cs =>
    if leAt hd 12 8 = (w.n1 + n) % 2 ^ 64 then
      match gcmOpen key (hd.take 12) hd ct tag with
      | some pt => (s.spread w.shDst.desc w.shDst.f off pt).openChunks w key (n + 1) (off + ct.length) cs
      | none => (s, off, true)
    else (s, off, true)

/-- R407: bytes of host memory overlap those that arrived with EP set. -/
def Wide.epHits (w : Wide) (a n : Nat) : Bool := w.ep.any (fun r => decide (a < r.1 + r.2) && decide (r.1 < a + n))

/-- R407: the data units where the elements of poisoned bytes land are poisoned; all of a DECRYPT's. -/
def State.poisonLanded (s : State) (w : Wide) : State :=
  if w.ep.isEmpty then s
  else
    let a := w.shSrc.desc
    let b := w.shDst.desc
    if w.op = 2 then (b.ranges w.shDst.f w.heritage).foldl (fun s r => s.poisonUnits r.1 r.2) s
    else (b.span 0 b.count).foldl (fun s e =>
      let i := a.elem (b.index e.1 e.2)
      if w.epHits (a.byteOf w.shSrc.f.width i.1 i.2) (cdiv w.shSrc.f.width 8) then
        s.poisonUnits (b.byteOf w.shDst.f.width e.1 e.2) (cdiv w.shDst.f.width 8)
      else s) s

/-- R407: a ring takes a row whose bytes arrived poisoned. -/
def State.poisonRow (s : State) (w : Wide) (row : Nat) : State :=
  let a := w.shSrc.desc
  if (upto a.cols).any (fun c => w.epHits (a.byteOf w.shSrc.f.width row c) (cdiv w.shSrc.f.width 8)) then
    (w.shDst.desc.ranges w.shDst.f w.heritage).foldl (fun s r => s.poisonUnits r.1 r.2) s
  else s

/-- The core's shuttle `i`, and its command. -/
def Core.shuttle (c : Core) (i : Nat) : Option (Nat × Nat) := if i = 0 then c.shuttle0 else c.shuttle1
def Core.setShuttle (c : Core) (i : Nat) (x : Option (Nat × Nat)) : Core := if i = 0 then { c with shuttle0 := x } else { c with shuttle1 := x }

/-- The counter of shuttle `i` of a core (R529). -/
def shuttleCtr (core i : Nat) : Nat := 2 * core + i

/-- R229: row `row` of a COPY put in its ring as it is, scale bytes included, and the events of the non-finite values it writes (R198). -/
def State.copyRingRow (s : State) (qi unit : Nat) (w : Wide) (gRow row : Nat) : State :=
  let a := w.shSrc.desc
  let d := w.shDst.desc
  let f := w.shSrc.f
  let bad := (upto a.cols).filterMap (fun c => let v := s.readNum a f 0 w.heritage row c; if v.isFin then none else some (c, v))
  let scales := if f.blockScaled && !w.heritage then (upto (cdiv a.cols 32)).map (fun b => s.readScale a false row (32 * b)) else []
  let s := s.writeRingRow d w.shDst.f gRow 0 ((upto a.cols).map (fun c => s.readCode a f row c))
  let s := (upto scales.length).foldl (fun s b => s.writeLe (ringScaleAt d.scale d.rows d.cols gRow b) 1 (scales.getD b 0)) s
  bad.foldl (fun s x => s.nanEvent (s.nanBy qi w unit w.shDst) (x.2.lineage.kind x.2) (nanValue x.2) (elemPos a row x.1)) s

/-- R140, R198: row `row` of a CONVERT put in its ring, measured, with its events. -/
def State.convertRingRow (s : State) (qi unit : Nat) (w : Wide) (gRow row : Nat) : State :=
  let x := w.shDst
  let src := s.shSource w
  let (s', wr) := s.writeRingLine x.desc { w.shConv with t := w.jitT.getD x.t } src gRow row
  let s' := if w.measures x then
      s'.measure tableUnit x.tag x.role w.fitStep ((upto w.shSrc.desc.cols).map (src.val row)) x.f wr else s'
  s'.nanEvents (s.nanBy qi w unit x) (elemPos w.shSrc.desc) (w.measures x) wr

/-- R529: the bytes that one row of a ring takes. -/
def ringRowBytes (w : Wide) : Nat :=
  let d := w.shDst.desc
  ((d.ringRanges w.shDst.f (d.wideRing w.shDst.f) w.heritage).map (·.2)).sum / max d.rows 1

/-- R98, R100, R101: rows of the source written into the destination ring while it has room. [DESIGN CHOICE, log 32] -/
def State.fillRingN (s : State) (g qi unit ctr : Nat) (w : Wide) : Nat → Nat → State × Nat
  | 0, row => (s, row)
  | k + 1, row =>
    let d := w.shDst.desc
    let rc := (s.engine g).ring d.data
    if row < w.shSrc.desc.rows ∧ s.ringFree g qi w d rc.fill then
      let s := if w.op = 0 then s.copyRingRow qi unit w rc.fill row else s.convertRingRow qi unit w rc.fill row
      let s := (s.poisonRow w row).modEngine g (fun e => e.ringFilled d.data rc.fill)
      (s.scopeAdd ctr (ringRowBytes w)).fillRingN g qi unit ctr w k (row + 1)
    else (s, row)

/-- R165: a CONVERT into a ring under JIT or COLD: the wide values staged once, and the t of their amax. -/
def State.stageRing (s : State) (w : Wide) : State × Wide :=
  if w.op = 1 ∧ w.shDst.toJit ∧ w.jitT.isNone then
    let a := w.shSrc.desc
    let all := (a.span 0 a.count).map (fun e => (s.shSource w).val e.1 e.2)
    let t := tFor ((all.filter Num.isFin).foldl (fun m v => max m (fp32Up v)) 0) w.shDst.f ((s.entry w.shDst.tag).role w.shDst.role).margin
    (s.writeBytes w.shDst.desc.jit (all.flatMap (fun v => leBytes 4 v.toFp32)), { w with jitT := some t })
  else (s, w)

/-- R285, R529: the bytes that a command writes of a destination view that is no ring: FILL writes its element data alone. -/
def Wide.shBytes (w : Wide) : Nat :=
  if w.op = 3 then w.shDst.desc.viewLen w.shDst.f else ((w.shDst.desc.ranges w.shDst.f w.heritage).map (·.2)).sum

/-- The command's work is done: its shuttle is free again (R229, R240); `bytes` of its destination were written and not yet counted (R285,
R529). -/
def State.shuttleDone (s : State) (core i qi : Nat) (w : Wide) (bytes status : Nat) : State :=
  let s := s.scopeAdd (shuttleCtr core i) bytes
  let s := s.modCore core (fun c => c.setShuttle i none)
  if status = stOk then s.finish qi w.cseq else s.complete qi w.cseq status

/-- A shuttle runs its command; one that fills a ring stops where the ring has no room and goes on later (R100). [DESIGN CHOICE, log 32] -/
def State.runShuttle (s : State) (core i qi : Nat) (w : Wide) : State :=
  let srcRanges := if w.op = 3 then [] else w.shSrc.desc.ranges w.shSrc.f w.heritage
  let s := s.markPoisoned qi w.cseq (s.rangesPoisoned srcRanges || !w.ep.isEmpty)
  let unit := shuttleUnit i
  if w.shDst.desc.isRing && (w.op == 0 || w.op == 1) then
    match s.bobbinOf w.shDst.desc.data with
    | some g =>
      let (s, w) := (s.joinRing g w.shDst.desc.data qi w.cseq).stageRing w
      let (s, row) := s.fillRingN g qi unit (shuttleCtr core i) w (w.shSrc.desc.rows - w.done) w.done
      let s := s.modWide qi w.cseq (fun u => { u with done := row, jitT := w.jitT })
      if row = w.shSrc.desc.rows then (s.countReads w.domain srcRanges).shuttleDone core i qi w 0 stOk else s
    | none => s.shuttleDone core i qi w 0 stConflict
  else
    let s := s.countReads w.domain srcRanges
    if w.op = 1 then ((s.convertView qi w unit).poisonLanded w).shuttleDone core i qi w w.shBytes stOk
    else if w.op = 2 then
      match s.slotKey w.shSrc.desc.keySlot w.domain, s.sealedChunks w with
      | some key, some cs =>
        if !s.sealedOk w then s.shuttleDone core i qi w 0 stConflict
        else
          let (s, n, bad) := s.openChunks w key 0 0 cs
          let s := s.poisonLanded w
          let s := (s.badElems w.shDst.desc w.shDst.f w.heritage).foldl (fun s b =>
            s.nanEvent (s.nanBy qi w unit w.shDst) (nanKind b) (nanValue b.value) (elemPos w.shDst.desc b.row b.col)) s
          if bad then (s.logQueue 0x010C qi w.domain w.cseq).shuttleDone core i qi w n stBadSignature
          else s.shuttleDone core i qi w n stOk
      | _, _ => s.shuttleDone core i qi w 0 stConflict
    else
      let s := if w.op = 0 then (s.copyView w).poisonLanded w else s.fillView w
      let s := (s.badElems w.shDst.desc w.shDst.f w.heritage).foldl (fun s b =>
        s.nanEvent (s.nanBy qi w unit w.shDst) (nanKind b) (nanValue b.value) (elemPos w.shDst.desc b.row b.col)) s
      s.shuttleDone core i qi w w.shBytes stOk

/-- R229: the free shuttle, the lower-numbered one first. -/
def Core.freeShuttle (c : Core) : Option Nat := if c.shuttle0.isNone then some 0 else if c.shuttle1.isNone then some 1 else none

/-- R403: the reads of host memory for a command, cut to the size that the host has programmed. [DESIGN CHOICE, log 32] -/
def State.requestHost (s : State) (p : HostPort) (qi cseq : Nat) (ranges : List (Nat × Nat)) : State :=
  s.modPort p (fun x =>
    let rs := ranges.flatMap (fun r => readPieces x.readSize r.1 r.2)
    Port.sendReads { x with asks := x.asks ++ rs.map (fun r => HostRead.mk 0 qi cseq 0 r.1 r.2) } s.now)

/-- R422: an operand lies in the memory of a host whose link is down. [DEDUCED, log 55] -/
def State.hostGone (s : State) (w : Wide) : Bool :=
  [w.shSrc, w.shDst].any (fun x => match s.area x.desc.data with
    | some (.host n) => !(s.port (portOf n)).linkUp
    | _ => false)

/-- R229: SHUTTLE issues when one of its core's shuttles is free; a source in host memory is asked for first. -/
def State.issueShuttle (s : State) (core qi : Nat) (w : Wide) : Option State :=
  match (s.core core).freeShuttle with
  | none => none
  | some i =>
    let s := (s.modCore core (fun c => c.setShuttle i (some (qi, w.cseq)))).scopeBegin (shuttleCtr core i) (seqWord qi w.cseq)
    if s.hostGone w then some (s.shuttleDone core i qi w 0 stContained)
    else match s.hostSource w with
    | some p =>
      let rs := w.shSrc.desc.ranges w.shSrc.f w.heritage
      let n := (rs.map (·.2)).sum
      if n = 0 then some (s.runShuttle core i qi w)
      else some ((s.modWide qi w.cseq (fun w => { w with hostWait := n })).requestHost p qi w.cseq rs)
    | none => some (s.runShuttle core i qi w)

/-- The shuttle of a core that works for a command. -/
def Core.shuttleOf (c : Core) (qi cseq : Nat) : Option Nat :=
  if c.shuttle0 = some (qi, cseq) then some 0 else if c.shuttle1 = some (qi, cseq) then some 1 else none

/-- Shuttles that fill a ring go on as its words are consumed (R100). -/
def State.pumpShuttles (s : State) (core : Nat) : State :=
  (upto 2).foldl (fun s i =>
    match (s.core core).shuttle i with
    | some (qi, cseq) => match s.wide qi cseq with
      | some w => if w.shDst.desc.isRing && w.hostWait == 0 && w.stage == .issued then s.runShuttle core i qi w else s
      | none => s
    | none => s) s

/-- R407: bytes of host memory as a completion delivers them. [DESIGN CHOICE, log 32] -/
def State.deliver (s : State) (a n : Nat) (bs : List Byte) : State :=
  (s.setBytes a (bs.take n)).clearPoison (a / 256 * 256) ((n / 256 + 2) * 256)

/-- R403: the port still awaits reads for a command. -/
def Port.awaitsFor (x : Port) (qi cseq : Nat) : Bool :=
  x.reads.any (fun r => r.queue == qi && r.cseq == cseq) || x.asks.any (fun r => r.queue == qi && r.cseq == cseq)

/-- R407: a completion for one of a command's reads of host memory, its bytes noted where EP is set; with the last of them the shuttle runs. -/
def State.hostData (s : State) (p : HostPort) (r : HostRead) (bs : List Byte) (ep : Bool) : State :=
  match s.wide r.queue r.cseq with
  | none => s
  | some _ =>
    let s := s.deliver r.addr r.len bs
    let s := if ep then s.modWide r.queue r.cseq (fun w => { w with ep := w.ep ++ [(r.addr, r.len)] }) else s
    if (s.port p).awaitsFor r.queue r.cseq then s
    else
      let s := s.modWide r.queue r.cseq (fun w => { w with hostWait := 0 })
      let core := s.serving r.queue
      match (s.core core).shuttleOf r.queue r.cseq, s.wide r.queue r.cseq with
      | some i, some w => s.runShuttle core i r.queue w
      | _, _ => s

/-- R413, R422: what a port still reads for a command that has failed goes to no command. -/
def Port.dropReads (x : Port) (qi cseq : Nat) : Port :=
  { x with asks := x.asks.filter (fun r => !(r.queue == qi && r.cseq == cseq)),
           reads := x.reads.map (fun r => if r.queue == qi && r.cseq == cseq then { r with queue := 192 } else r) }

/-- R413, R422: a read of host memory has failed: the command completes with a status, ST_TIMEOUT or ST_CONTAINED. -/
def State.hostFail (s : State) (qi cseq status : Nat) : State :=
  let s := { s with ha := s.ha.dropReads qi cseq, hb := s.hb.dropReads qi cseq }
  match s.wide qi cseq with
  | none => s
  | some w =>
    let core := s.serving qi
    match (s.core core).shuttleOf qi cseq with
    | some i => s.shuttleDone core i qi w 0 status
    | none => s.complete qi cseq status

end Sys2Proof.Machine
end

