-- ==== Sys2Proof/Machine/Stitch.lean ====
section
/-! DEFINITION. The stitch array (chapter 3): pleats, MM, LOADW and SEAM: their checks and issue, the taking of output tiles (R242), warp
loads (R115, R116), waves (R37, R94 to R109), the hem (R118 to R122), drains (R125 to R127) and the shadow check (R145 to R148). -/

namespace Sys2Proof.Machine

/-! ### Geometry (R86, R87, R110, R111) -/

/-- R87: the cell edge of a mode. -/
def Seam.edge : Seam → Nat
  | .s1 => 1 | .s4 => 2 | .s16 => 4 | .off => 1

/-- R110: the code of a mode. -/
def Seam.code : Seam → Nat
  | .s1 => 0 | .s4 => 1 | .s16 => 2 | .off => 3

def Seam.ofCode (n : Nat) : Seam := if n = 0 then .s1 else if n = 1 then .s4 else if n = 2 then .s16 else .off

/-- R88: the wider of two modes. -/
def Seam.wider (a b : Seam) : Seam := if a.code < b.code then b else a

/-- R118: the depth of an output column. -/
def Seam.depth (m : Seam) : Nat := 2048 * m.edge

/-- R110: the pleat of panel (pr, pc). -/
def panelPleat (map pr pc : Nat) : Nat := fld map (16 * pr + 4 * pc + 3) (16 * pr + 4 * pc)

/-- R110: the mode of a pleat. -/
def pleatMode (modes p : Nat) : Seam := Seam.ofCode (fld modes (2 * p + 1) (2 * p))

/-- A rectangle of panels: rows [top, bottom), columns [left, right). -/
structure Rect where
  top : Nat
  left : Nat
  bottom : Nat
  right : Nat
deriving DecidableEq, Repr

/-- The panels of a pleat. -/
def panelsOf (map p : Nat) : List (Nat × Nat) := ((upto 16).map (fun i => (i / 4, i % 4))).filter (fun x => panelPleat map x.1 x.2 == p)

/-- The rectangle that spans a pleat's panels. -/
def rectOf (map p : Nat) : Rect :=
  let ps := panelsOf map p
  { top := (ps.map (·.1)).foldl min 4, left := (ps.map (·.2)).foldl min 4,
    bottom := (ps.map (·.1 + 1)).foldl max 0, right := (ps.map (·.2 + 1)).foldl max 0 }

def Rect.h (r : Rect) : Nat := 64 * (r.bottom - r.top)
def Rect.w (r : Rect) : Nat := 64 * (r.right - r.left)

/-- R111: a valid pleat configuration. -/
def validPleats (map modes : Nat) : Bool :=
  let live := (upto 16).filter (fun p => pleatMode modes p != .off)
  live.all (fun p =>
    let r := rectOf map p
    let n := (panelsOf map p).length
    n != 0 && n == (r.bottom - r.top) * (r.right - r.left)) &&
  live.all (fun p => live.all (fun q =>
    let a := rectOf map p
    let b := rectOf map q
    b.bottom ≤ a.top || a.bottom ≤ b.top || (a.top == b.top && a.bottom == b.bottom)))

def Engine.pleat (e : Engine) (p : Nat) : Pleat := SMap.get {} e.pleats p
def Engine.setPleat (e : Engine) (p : Nat) (x : Pleat) : Engine := { e with pleats := SMap.set {} e.pleats p x }
def Engine.rect (e : Engine) (p : Nat) : Rect := rectOf e.map p
def Engine.modeOf (e : Engine) (p : Nat) : Seam := pleatMode e.mode p

/-! ### The fields of MM (R220, R221) -/

def Wide.mmPleat (w : Wide) : Nat := fld w.n0 31 28
def Wide.mmRes (w : Wide) : Bool := bit w.n0 0
def Wide.mmWrap (w : Wide) : Bool := bit w.n1 7
def Wide.mmRnd (w : Wide) : Bool := bit w.n1 6
def Wide.mmEmask (w : Wide) : Nat := fld w.n1 3 0
def Wide.mmTileBase (w : Wide) : Nat := fld w.n2 63 32
def Wide.mmTileRows (w : Wide) : Nat := fld w.n2 13 0
def Wide.mmWarp (w : Wide) : Operand := w.operand 0
def Wide.mmWeft (w : Wide) : Operand := w.operand 1
def Wide.mmOut (w : Wide) : Operand := w.operand 2

/-- R88: the seam mode. -/
def Wide.mmMode (w : Wide) : Seam := Seam.wider w.mmWarp.f.seam w.mmWeft.f.seam

/-- R89: INT32 accumulation. -/
def Wide.mmInt (w : Wide) : Bool := bit w.n1 5 && w.mmWarp.f.isInt && w.mmWeft.f.isInt

def Wide.mmK (w : Wide) : Nat := w.mmWarp.desc.rows
def Wide.mmN (w : Wide) : Nat := w.mmWarp.desc.cols
/-- The rows of the product: those of the weft, or of the output where the weft is a ring; where both are rings, one row block. -/
def Wide.mmM (w : Wide) : Nat :=
  if !w.mmWeft.desc.isRing then w.mmWeft.desc.rows
  else if !w.mmOut.desc.isRing then w.mmOut.desc.rows else w.mmTileRows

/-- The cells of a pleat's rectangle in the command's mode. -/
def Wide.mmHc (w : Wide) (r : Rect) : Nat := r.h / w.mmMode.edge
def Wide.mmWc (w : Wide) (r : Rect) : Nat := r.w / w.mmMode.edge
def Wide.mmColBlocks (w : Wide) (r : Rect) : Nat := cdiv w.mmN (max (w.mmWc r) 1)
def Wide.mmRowBlocks (w : Wide) : Nat := cdiv w.mmM (max w.mmTileRows 1)
/-- R221: the tiles of an output tile. -/
def Wide.mmTiles (w : Wide) (r : Rect) : Nat := max 1 (cdiv w.mmK (max (w.mmHc r) 1))

/-- R201, R202: the waves that one weft row holds the lanes: P, or 8 × P in heritage mode. -/
def Wide.mmP (w : Wide) : Nat := max w.passes 1 * (if w.heritage then 8 else 1)

/-- R76, R109: the output conversion: of the FP32 value, or of the INT32 sum. -/
def Wide.mmConv (w : Wide) : Conv :=
  { src := if w.mmInt then .int32 else .fp32, dst := w.mmOut.f, t := w.mmOut.t, wrap := w.mmWrap, heritage := w.heritage, flush := w.heritage }

/-- R76: the output rounds stochastically. -/
def Wide.mmStoch (w : Wide) : Bool := !w.mmInt && w.mmOut.stoch .fp32 w.mmRnd w.heritage

/-! ### Checks (R206, R222) -/

/-- The engines of emask on a core. -/
def emaskEngines (core emask : Nat) : List Nat := (upto 4).filterMap (fun e => if bit emask e then some (4 * core + e) else none)

/-- R137: the passes of the fit entry of the tag whose operand is FP32, within R90 where the entry names none. [DESIGN CHOICE, log 90] -/
def State.entryPasses (s : State) (tag : Nat) : Nat :=
  let p := (s.entry tag).fp32Passes
  if p = 0 then 1 + Config.openPasses tag % 3 else p

/-- R90, R137: the passes used; none where the field breaks R90. [DEDUCED, log 30] -/
def State.mmPasses (s : State) (w : Wide) : Option Nat :=
  let fp32 := w.mmWarp.f == .fp32 || w.mmWeft.f == .fp32
  let p := fld w.n1 9 8
  if w.mmWarp.adapt || w.mmWeft.adapt then
    if !fp32 then some 0
    else if p != 0 then some p
    else some (s.entryPasses (if w.mmWarp.f = .fp32 then w.mmWarp.tag else w.mmWeft.tag))
  else if fp32 == (p != 0) then some p else none

/-- R222: the shapes agree. -/
def Wide.mmShapes (w : Wide) (r : Rect) : Bool :=
  let weft := w.mmWeft.desc
  let out := w.mmOut.desc
  (if weft.isRing then weft.cols == w.mmHc r && 2 * w.mmHc r ≤ weft.rows else weft.cols == w.mmK) &&
  (if out.isRing then out.cols == w.mmN && 2 * out.cols ≤ out.rows else out.rows == w.mmM && out.cols == w.mmN)

/-- The formats an MM may name: operands of codes 0x0 to 0xA (R88), an output that R81 or R109 gives. -/
def Wide.mmFormats (w : Wide) : Bool :=
  w.mmWarp.fmt ≤ 10 && w.mmWeft.fmt ≤ 10 && w.mmOut.fmtOk &&
  (if w.mmInt then w.mmOut.f == .int4 || w.mmOut.f == .int8 || w.mmOut.f == .int16 || w.mmOut.f == .int32
    else w.mmOut.f != .int32 && convAllowed .fp32 w.mmOut.f)

/-- R102: the MM streams a wide weft. -/
def Wide.mmWide (w : Wide) : Bool := wideWeft w.mmWeft.f w.mmMode

/-- R290, R292: an engine's warp bobbin and its weft bobbin: the first half MiB of its bobbins, and the rest. -/
def bobbinBase (g : Nat) : Nat := 0x0D1000000000 + 0x400000 * g
def inWarpBobbin (g : Nat) (x : Nat × Nat) : Bool := decide (bobbinBase g ≤ x.1) && decide (x.1 + x.2 ≤ bobbinBase g + 0x80000)
def inWeftBobbin (g : Nat) (x : Nat × Nat) : Bool :=
  decide (bobbinBase g + 0x80000 ≤ x.1) && decide (x.1 + x.2 ≤ bobbinBase g + 0x200000)

/-- R121, R222, R568: the output's place and the blocks of the operands: a ring lies in the weft bobbin of the one engine of emask, or of
the engine in its place where a sibling serves the queue (R472). -/
def Wide.mmPlaces (core : Nat) (w : Wide) : Bool :=
  let out := w.mmOut.desc
  (if out.isRing then
      (match emaskEngines core w.mmEmask with
        | [g] => [g, homeEngine g w.home].any (fun e => inWeftBobbin e (out.data, out.ringLen w.mmOut.f (out.wideRing w.mmOut.f)))
        | _ => false)
    else out.layout == 0 && !(w.mmOut.f.blockScaled && out.blockDim == 1)) &&
  !(w.mmWarp.f.blockScaled && w.mmWarp.desc.blockDim != 1) &&
  !(w.mmWeft.f.blockScaled && !w.mmWeft.desc.isRing && w.mmWeft.desc.blockDim != 0)

/-- R33, R98, R102: a ring that engine `g` streams or writes lies in its own weft bobbin, its extension ring in its warp bobbin, and its
scale ring in either. -/
def State.ringReach (s : State) (g home dom : Nat) (d : Desc) (f : Fmt) (wide noScale : Bool) : Bool :=
  s.rangesOk (.array g home) dom (d.ringRanges f wide noScale) &&
  [g, homeEngine g home].any (fun e => inWeftBobbin e (d.data, d.ringLen f wide) && (!wide || inWarpBobbin e (d.aux, d.ringLen f wide)))

/-- R33, R34, R121, R293: where each operand of an MM may lie: the shuttles fill the bobbins with the warp and a weft that is no ring
(R93); a ring is in the bobbins of the engine that streams it; the epilogue writes core store, or a ring of its own engine, and a staging
buffer in either. [DEDUCED, log 30] -/
def State.mmReach (s : State) (core : Nat) (w : Wide) : Bool :=
  let noScale := w.heritage || w.mmInt
  let engines := emaskEngines core w.mmEmask
  s.rangesOk (.fill core w.home) w.domain (w.mmWarp.desc.ranges w.mmWarp.f noScale) &&
  (if w.mmWeft.desc.isRing then engines.all (fun g => s.ringReach g w.home w.domain w.mmWeft.desc w.mmWeft.f w.mmWide noScale)
    else s.rangesOk (.fill core w.home) w.domain (w.mmWeft.desc.ranges w.mmWeft.f noScale)) &&
  (if w.mmOut.desc.isRing then
      engines.all (fun g => s.ringReach g w.home w.domain w.mmOut.desc w.mmOut.f (w.mmOut.desc.wideRing w.mmOut.f) w.heritage)
    else s.rangesOk (.epilogue core w.home) w.domain (w.mmOut.desc.ranges w.mmOut.f w.heritage)) &&
  engines.all (fun g => s.stagingOk [.epilogue core w.home, .array g w.home] w.domain w.mmOut (w.mmM * w.mmN)) &&
  (!(bit w.n0 1) || s.accessOk (.fill core w.home) w.domain (w.operand 5).desc.data (4 * w.mmN)) &&
  (!(bit w.n0 11) || s.rangesOk (.fill core w.home) w.domain ((w.operand 3).desc.ranges (w.operand 3).f false)) &&
  (!(bit w.n0 6) || s.rangesOk (.fill core w.home) w.domain ((w.operand 4).desc.ranges (w.operand 4).f false))

/-- R206, R222: the check of MM. [DEDUCED, log 30] -/
def State.checkMm (s : State) (core : Nat) (w : Wide) : Verdict :=
  match s.mmPasses w with
  | none => .fail stConflict
  | some p =>
    let w := { w with passes := p }
    let engines := emaskEngines core w.mmEmask
    let rects := engines.map (fun e => (s.engine e).rect w.mmPleat)
    match rects with
    | [] => .fail stConflict
    | r :: _ =>
      if !w.descsOk || !w.mmFormats || !w.heritageOk w.mmRnd then .fail stConflict
      else if engines.any (fun e => (s.engine e).modeOf w.mmPleat == .off) || rects.any (fun x => x != r) then .fail stConflict
      else if !w.mmShapes r || !w.mmPlaces core then .fail stConflict
      else if w.mmTileRows = 0 ∨ 8192 < w.mmTileRows ∨ (w.mmHc r < w.mmK ∧ w.mmMode.depth < w.mmTileRows) then .fail stConflict
      else if !s.capacityOk w.mmOut (w.mmM * w.mmN) || !s.streamOk w w.mmStoch then .fail stConflict
      else if !s.mmReach core w then .trap trAddress
      else
        .pass { w with ops := SMap.set {} w.ops 2 (s.destScale w.mmOut), tiles := w.mmRowBlocks * w.mmColBlocks r,
                       fmts := fmtsOf w.mmWarp.fmt w.mmWeft.fmt w.mmOut.fmt p }

/-- The pleat number of a LOADW and its engine. -/
def Wide.lwPleat (w : Wide) : Nat := fld w.n0 31 28
def Wide.lwEngine (core : Nat) (w : Wide) : Nat := 4 * core + fld w.n0 23 22

/-- R224, R206: the check of LOADW. -/
def State.checkLoadw (s : State) (core : Nat) (w : Wide) : Verdict :=
  let x := w.operand 0
  let e := s.engine (w.lwEngine core)
  if !w.descsOk || 10 < x.fmt || !w.heritageOk false then .fail stConflict
  else if e.modeOf w.lwPleat = .off ∨ (x.f.blockScaled ∧ x.desc.blockDim ≠ 1) then .fail stConflict
  else if !s.rangesOk (.fill core w.home) w.domain (x.desc.ranges x.f w.heritage) then .trap trAddress
  else .pass { w with fmts := fmtsOf x.fmt 0 0 0 }

/-- R111, R225: the check of SEAM. -/
def State.checkSeam (_s : State) (_core : Nat) (w : Wide) : Verdict :=
  if validPleats w.n1 (w.n2 % 2 ^ 32) then .pass w else .fail stConflict

/-! ### Issue -/

/-- R241: the command placed in its core's tile queue; none while the queue is full. -/
def State.enqueueTiles (s : State) (core qi cseq : Nat) : Option State :=
  if 32 ≤ (s.core core).tileQ.length then none
  else some (s.modCore core (fun x => { x with tileQ := x.tileQ ++ [(qi, cseq)] }))

/-- R241: an MM issues into the tile queue; one with no output tile is complete. -/
def State.issueMm (s : State) (core qi : Nat) (w : Wide) : Option State :=
  if w.tiles = 0 then some (s.complete qi w.cseq stOk) else s.enqueueTiles core qi w.cseq

/-- Some output tile of another command is unfinished on a pleat, of at least a priority. -/
def State.pleatHeld (s : State) (e : Engine) (p prio : Nat) : Bool :=
  e.regions.any (fun r => r.pleat == p && decide (r.nextTile < r.tiles) && decide (prio ≤ s.queuePrio r.queue))

/-- R127: a SEAM changes the panels of a pleat. -/
def Engine.moves (e : Engine) (x : SeamWait) (p : Nat) : Bool := panelsOf e.map p != panelsOf x.map p

/-- R126: a SEAM changes a pleat: its panels or its mode. -/
def Engine.changes (e : Engine) (x : SeamWait) (p : Nat) : Bool := e.moves x p || pleatMode e.mode p != pleatMode x.modes p

/-- R127: the open regions that a SEAM waits for have closed. -/
def Engine.regionsLeft (e : Engine) (x : SeamWait) : Bool := e.regions.any (fun r => e.moves x r.pleat)

/-- A SEAM waits on the engine and the open regions it waits for have closed, so that the pleats it changes are held (R125, R127). -/
def Engine.seamHolds (e : Engine) (p : Nat) : Bool :=
  match e.seam with
  | none => false
  | some x => e.changes x p && !e.regionsLeft x

/-- R242: a pleat is idle for a command of priority `prio`: no tile runs on it, none of as high a priority waits to go on, and no
configuration change holds it. -/
def State.pleatIdle (s : State) (e : Engine) (p prio : Nat) : Bool :=
  (e.pleat p).run.isNone && !(e.pleat p).draining && !s.pleatHeld e p prio && !e.seamHolds p

/-- R124, R203: the configuration that a run needs: its mode and heritage. -/
def Wide.needs (w : Wide) (loadw : Bool) (e : Engine) (p : Nat) : Seam × Nat :=
  (if loadw then (if (w.operand 0).f.seam.code < (e.modeOf p).code then e.modeOf p else (w.operand 0).f.seam) else w.mmMode,
   b2n w.heritage)

/-- R125: the pleat's configuration in force is the one a run of command `w` needs. -/
def Engine.configured (e : Engine) (p : Nat) (w : Wide) (loadw : Bool) : Bool :=
  let n := w.needs loadw e p
  e.modeOf p == n.1 && (e.pleat p).lastHeritage == n.2

/-- R116, R125: a tile put on a pleat. Its warp load is requested at once where its configuration is in force, and otherwise when that is
put in force after a drain. -/
def Engine.place (e : Engine) (p : Nat) (w : Wide) (run : TileRun) : Engine :=
  let e := e.setPleat p { e.pleat p with run := some run }
  if run.loadAt.isNone && e.configured p w run.loadw then { e with loadQ := e.loadQ ++ [p] } else e

/-- R224: LOADW issues when its pleat is idle, or when its priority takes the pleat at a tile boundary (R128, R210); its load waits for
the warp bobbin port (R116). -/
def State.issueLoadw (s : State) (core qi : Nat) (w : Wide) : Option State :=
  let g := w.lwEngine core
  let e := s.engine g
  if s.pleatIdle e w.lwPleat (s.queuePrio qi) then
    let run : TileRun := { queue := qi, cseq := w.cseq, otile := 0, tile := 0, rows := 0, loadw := true }
    some (s.setEngine g (e.place w.lwPleat w run))
  else none

/-- R225: SEAM issues when no other SEAM waits on its engines. -/
def State.issueSeam (s : State) (core qi : Nat) (w : Wide) : Option State :=
  let engines := emaskEngines core (fld w.n0 31 28)
  if engines.any (fun g => (s.engine g).seam.isSome) then none
  else if engines.isEmpty then some (s.complete qi w.cseq stOk)
  else
    let x : SeamWait := { queue := qi, cseq := w.cseq, map := w.n1, modes := w.n2 % 2 ^ 32 }
    let s := s.modWide qi w.cseq (fun w => { w with tiles := engines.length })
    some (engines.foldl (fun s g => s.modEngine g (fun e => { e with seam := some x })) s)

/-! ### Non-finite operands (R79, R104, R140) -/

/-- R117, R568: the scale byte of cell (k, n) of the warp in a pleat. -/
def Pleat.scale (pl : Pleat) (wc k n : Nat) : Nat := pl.scales.getD ((pl.off + k) / 32 * wc + n) 0x80

/-- R65, R79, R104: what an element is: NaN under a NaN block scale, finite under that of a zero block, otherwise as its code decodes. An
element that is not finite counts as non-finite. -/
def elemLineage (f : Fmt) (code scale : Nat) : Lineage :=
  if f.blockScaled ∧ scale = 255 then .nan
  else if f.blockScaled ∧ scale = 0 then .finite
  else match f.stitch code with | .fin .. => .finite | .inf _ => .inf | .nan => .nan

/-- R79, R104: the elements of the warp in a pleat that are not finite. -/
def Pleat.badCells (pl : Pleat) (f : Fmt) (hc wc : Nat) : Nat :=
  ((upto (hc * wc)).filter (fun i => elemLineage f (pl.codes.getD i 0) (pl.scale wc (i / wc) (i % wc)) != .finite)).length

/-- R140, R104: the non-finite elements of a measured operand, counted once for each element. -/
def State.countBadOperand (s : State) (g : Nat) (w : Wide) (x : Operand) (n : Nat) : State :=
  if n ≠ 0 ∧ w.measures x then
    s.modRec g (tagRole x.tag x.role) w.fitStep (fun r => { r with touched := true, nonFinite := sat 64 (r.nonFinite + n) })
  else s

/-! ### Taking output tiles (R119, R242) -/

/-- R118: the accumulators per stitch column that a region of an engine holds. -/
def Region.accs (r : Region) : Nat := cdiv r.depth r.mode.edge

/-- R119: the accumulators in use in a panel column. -/
def Engine.hemUsed (e : Engine) (pc : Nat) : Nat :=
  ((e.regions.filter (fun r => decide (r.left ≤ pc) && decide (pc < r.right))).map (·.accs)).sum

/-- R119: a region can be allocated: each of its columns has the accumulators free, wherever they lie. [DEDUCED, log 30] -/
def Engine.hemRoom (e : Engine) (r : Region) : Bool :=
  (upto 4).all (fun pc => decide (pc < r.left) || decide (r.right ≤ pc) || decide (e.hemUsed pc + r.accs ≤ 2048))

/-- The rows of row block `rb`. -/
def Wide.mmBlockRows (w : Wide) (rb : Nat) : Nat := min w.mmTileRows (w.mmM - rb * w.mmTileRows)

/-- R119: the region of output tile `o` on an engine. -/
def Wide.mmRegion (w : Wide) (qi o : Nat) (e : Engine) : Region :=
  let r := e.rect w.mmPleat
  let rows := w.mmBlockRows (o / max (w.mmColBlocks r) 1)
  let n := w.mmTiles r
  { queue := qi, cseq := w.cseq, otile := o, pleat := w.mmPleat, top := r.top, left := r.left, bottom := r.bottom, right := r.right,
    mode := w.mmMode, depth := if n = 1 then 512 else rows, through := decide (n = 1), rows := rows, tiles := n }

/-- R242: an MM of the tile queue qualifies on global engine `g`. -/
def State.mmQualifies (s : State) (g : Nat) (qi : Nat) (w : Wide) : Bool :=
  let e := s.engine g
  w.opcode == 1 && bit w.mmEmask (g % 4) && decide (e.samples.length < 4) && s.pleatIdle e w.mmPleat (s.queuePrio qi) &&
  e.hemRoom (w.mmRegion qi w.taken e)

/-- The queued commands of a core's tile queue that qualify, in the order of issue. -/
def State.qualified (s : State) (core : Nat) (ok : Nat → Wide → Bool) : List (Nat × Wide) :=
  (s.core core).tileQ.filterMap (fun x => match s.wide x.1 x.2 with
    | some w => if ok x.1 w then some (x.1, w) else none
    | none => none)

/-- R242: the command of the highest priority, the earliest issued among those. -/
def State.pick (s : State) (cs : List (Nat × Wide)) : Option (Nat × Wide) :=
  let top := cs.foldl (fun m x => max m (s.queuePrio x.1)) 0
  cs.find? (fun x => s.queuePrio x.1 == top)

/-- R243: the lowest untaken tile taken; a command leaves the queue with its last tile. -/
def State.takeTile (s : State) (core qi : Nat) (w : Wide) : State :=
  let s := s.modWide qi w.cseq (fun w => { w with taken := w.taken + 1 })
  if w.taken + 1 = w.tiles then s.modCore core (fun x => { x with tileQ := x.tileQ.filter (fun y => y != (qi, w.cseq)) }) else s

/-- R145: output tile `o` of the command is sampled: its sub-tile's first row and column, and its size. [DEDUCED, log 30] -/
def State.sampleOf (s : State) (w : Wide) (o rows wc : Nat) : Option (Nat × Nat × Nat) :=
  let e := s.entry w.mmWarp.tag
  let lo := w.fitStep % 2 ^ 32
  if e.valid && e.shadowLog2n != 0 && (bit w.n0 11 || bit w.n0 6) && (o + lo + w.mmWarp.tag) % 2 ^ e.shadowLog2n == 0 then
    let n := 2 ^ e.shadowLog2n
    let rb := (lo + o / n) % max 1 (rows / 16)
    let cb := (3 * lo + o / n) % max 1 (wc / 16)
    some (16 * rb, 16 * cb, min 16 rows)
  else none

/-- R223, R224: the warp left resident in the pleat serves the command. -/
def State.mmResident (s : State) (g : Nat) (w : Wide) : Bool :=
  let e := s.engine g
  let r := e.rect w.mmPleat
  match (e.pleat w.mmPleat).resident with
  | some x => w.mmRes && w.mmEmask == 2 ^ (g % 4) && x.dAddr == (SMap.get 0 w.ck.a (fld w.n0 27 24)).toNat &&
      x.fmt == w.mmWarp.fmt && decide (w.mmK ≤ w.mmHc r) && decide (w.mmN ≤ w.mmWc r) && e.modeOf w.mmPleat == w.mmMode
  | none => false

/-! ### The filling of the bobbins (R93, R117) -/

/-- R117: the warp of tile `j` of output tile `o`: the code of each cell, zero beyond the tensor (R221). -/
def State.warpCodes (s : State) (x : Operand) (hc wc k0 n0 : Nat) : List Nat :=
  (upto (hc * wc)).map (fun i =>
    let k := k0 + i / wc
    let n := n0 + i % wc
    if k < x.desc.rows ∧ n < x.desc.cols then s.readCode x.desc x.f k n else 0)

/-- R117, R568: the scale byte of each block and column of a warp tile, from the block that holds its first row on. -/
def State.warpScales (s : State) (w : Wide) (x : Operand) (hc wc k0 n0 : Nat) : List Nat :=
  if x.f.blockScaled && !w.mmInt then
    (upto (cdiv (k0 % 32 + hc) 32 * wc)).map (fun i =>
      let k := max k0 (k0 / 32 * 32 + 32 * (i / wc))
      let n := n0 + i % wc
      if k < x.desc.rows ∧ n < x.desc.cols then s.readScale x.desc w.heritage k n else 0)
  else []

/-- The bytes of a warp tile, for poison and traffic. -/
def Operand.warpSegs (x : Operand) (hc wc k0 n0 : Nat) : List (Nat × Nat) :=
  let ks := min hc (x.desc.rows - k0)
  let ns := min wc (x.desc.cols - n0)
  if x.desc.layout = 1 then (upto ns).map (fun n => x.desc.seg x.f.width (n0 + n) k0 ks)
  else (upto ks).map (fun k => x.desc.seg x.f.width (k0 + k) n0 ns)

/-- R62: the codes that packed bytes hold, eight at a time. -/
def unpackCodes : Nat → Nat → List Byte → List Nat
  | 0, _, _ => []
  | k + 1, w, bs =>
    if bs.isEmpty then []
    else
      let v := ofLe (bs.take w)
      (upto 8).map (fun i => v >>> (w * i) % 2 ^ w) ++ unpackCodes k w (bs.drop w)

/-- The command of a tile run or row. -/
def State.mmOf (s : State) (qi cseq : Nat) : Wide := (s.wide qi cseq).getD {}

/-- The weft row of row `m` of the product for tile `j`, out of a view that is no ring (R94, R221). -/
def State.viewRow (s : State) (w : Wide) (hc j m : Nat) : WeftRow :=
  let x := w.mmWeft
  { codes := (upto hc).map (fun k => if j * hc + k < w.mmK then s.readCode x.desc x.f m (j * hc + k) else 0),
    scales := if x.f.blockScaled && !w.mmInt then (upto (cdiv (j * hc % 32 + hc) 32)).map (fun b =>
      let k := max (j * hc) (j * hc / 32 * 32 + 32 * b)
      if k < w.mmK then s.readScale x.desc w.heritage m k else 0x80) else [],
    off := j * hc % 32 }

/-- R98, R99, R102: lane `k` of row `g` of the ring that the MM streams, for tile `j`; a bubble outside the tile. -/
def State.ringLane (s : State) (w : Wide) (hc j g k : Nat) : Nat :=
  if j * hc + k < w.mmK then s.ringCode w.mmWeft.desc w.mmWeft.f w.mmWide g k else 0

/-- R101: the block scale that enters with lane `k` of row `g`. -/
def State.ringScale (s : State) (w : Wide) (hc g k : Nat) : Nat :=
  if w.heritage then 0x80 else s.readLe (ringScaleAt w.mmWeft.desc.scale w.mmWeft.desc.rows hc g (k / 32)) 1

/-- The bytes of a weft row of a view that is no ring, for poison and traffic. -/
def Wide.weftSegs (w : Wide) (hc j m : Nat) : List (Nat × Nat) :=
  let x := w.mmWeft
  let n := min hc (w.mmK - j * hc)
  if x.desc.layout = 1 then (upto n).map (fun k => x.desc.seg x.f.width (j * hc + k) m 1)
  else [x.desc.seg x.f.width m (j * hc) n]

/-- The bytes of a ring that an MM reads, for poison. -/
def Wide.ringSegs (w : Wide) : List (Nat × Nat) := w.mmWeft.desc.ringRanges w.mmWeft.f w.mmWide (w.heritage || w.mmInt)

/-- R117: a warp tile as its bobbin holds it, from row `k0` and column `n0` of an operand's view. -/
def State.warpFill (s : State) (w : Wide) (x : Operand) (hc wc k0 n0 : Nat) : Fill :=
  { warp := packCodes (hc * wc / 8 + 1) x.f.width (s.warpCodes x hc wc k0 n0),
    scales := (s.warpScales w x hc wc k0 n0).map (BitVec.ofNat 8) }

/-- The first row of the product that output tile `o` holds, and its column block. -/
def Wide.mmRow0 (w : Wide) (r : Rect) (o : Nat) : Nat := o / max (w.mmColBlocks r) 1 * w.mmTileRows
def Wide.mmCol (w : Wide) (r : Rect) (o : Nat) : Nat := o % max (w.mmColBlocks r) 1

/-- R33, R93: the core's shuttles fill engine `g`'s bobbins for a tile of an MM: the warp, unless it is resident in the pleat, and the
weft, unless a ring holds it. Where in the bobbins they put them is not stated. [DESIGN CHOICE, log 81] -/
def State.fillTile (s : State) (g : Nat) (w : Wide) (run : TileRun) : State × TileRun :=
  let r := (s.engine g).rect w.mmPleat
  let hc := w.mmHc r
  let wc := w.mmWc r
  let (k0, n0, m0) := (run.tile * hc, w.mmCol r run.otile * wc, w.mmRow0 r run.otile)
  let ring := w.mmWeft.desc.isRing
  let warp : Fill := if run.loadAt.isSome then {} else s.warpFill w w.mmWarp hc wc k0 n0
  let segs := (if run.loadAt.isSome then [] else w.mmWarp.warpSegs hc wc k0 n0) ++
    (if ring then [] else (upto run.rows).flatMap (fun i => w.weftSegs hc run.tile (m0 + i)))
  let fill := { warp with weft := if ring then [] else (upto run.rows).map (fun i => s.viewRow w hc run.tile (m0 + i)) }
  let s := (s.markPoisoned run.queue run.cseq (s.rangesPoisoned segs)).countReads w.domain segs
  (s.addGctr (240 + g / 4) (segs.map (·.2)).sum, { run with fill := fill })

/-- R119, R242: the engine takes the MM's next output tile: region, first tile with its operands, and the shadow sample of R145. -/
def State.takeMm (s : State) (g qi : Nat) (w : Wide) : State :=
  let e := s.engine g
  let o := w.taken
  let r := w.mmRegion qi o e
  let resident := s.mmResident g w
  let (s, run) := s.fillTile g w { queue := qi, cseq := w.cseq, otile := o, tile := 0, rows := r.rows,
                                   loadAt := if resident then some e.wave else none, opens := e.wave }
  let smp := s.sampleOf w o r.rows (w.mmWc (e.rect w.mmPleat))
  let samples := match smp with
    | some (r0, c0, n) => e.samples ++ [{ queue := qi, cseq := w.cseq, row0 := r0 + o * 2 ^ 16, col0 := c0, rows := n, cols := 16, narrow := [] }]
    | none => e.samples
  let e := { e.place w.mmPleat w run with regions := e.regions ++ [{ r with nextTile := 1 }], samples := samples }
  let s := (s.setEngine g e).takeTile (g / 4) qi w
  let s := if w.mmOut.desc.isRing then s.joinRing g w.mmOut.desc.data qi w.cseq else s
  -- R79, R140: a warp that LOADW brought is an operand of this command, counted once
  let s := if resident && o == 0 then s.countBadOperand g w w.mmWarp ((e.pleat w.mmPleat).badCells w.mmWarp.f (w.mmHc (e.rect w.mmPleat)) (w.mmWc (e.rect w.mmPleat))) else s
  s.modWide qi w.cseq (fun w => { w with shadowLeft := w.shadowLeft + b2n smp.isSome, takers := SMap.set 0 w.takers o (g + 1) })

/-! ### The array (R91, R103 to R107) -/

/-- R91: a product term's high and low parts of a stitch operand of a format. -/
def stitchHalves (f : Fmt) (x : StitchOp) : Nat × Nat :=
  match x with
  | .fin _ sig _ => if f = .fp32 then (sig / 256, sig % 256) else (sig, 0)
  | _ => (0, 0)

/-- R91: the exponent offset k′. -/
def Fmt.k' (f : Fmt) : Nat := if f = .fp32 then 149 else f.k + 8

/-- R73, R91: the product of a warp and a weft operand under a passes field. -/
def passProduct (p : Nat) (fw fa : Fmt) (w a : StitchOp) : Num :=
  match w, a with
  | .fin s1 _ e1, .fin s2 _ e2 =>
    if p = 0 then stitchMul fw fa w a
    else
      let (ha, la) := stitchHalves fw w
      let (hb, lb) := stitchHalves fa a
      let t := ha * hb * 2 ^ 16 + (if 2 ≤ p then (ha * lb + la * hb) * 2 ^ 8 else 0) + (if 3 ≤ p then la * lb else 0)
      .fin (s1 != s2) t ((e1 : Int) + e2 - Fmt.k' fw - Fmt.k' fa)
  | _, _ => stitchMul fw fa w a

/-- R91, R92: the terms of a product that pass `q` carries. -/
def passTerm (q p : Nat) (fw fa : Fmt) (w a : StitchOp) : Num :=
  match w, a with
  | .fin s1 _ e1, .fin s2 _ e2 =>
    if p = 0 then stitchMul fw fa w a
    else
      let (ha, la) := stitchHalves fw w
      let (hb, lb) := stitchHalves fa a
      let t := if q = 0 then ha * hb * 2 ^ 16 else if q = 1 then (ha * lb + la * hb) * 2 ^ 8 else la * lb
      .fin (s1 != s2) t ((e1 : Int) + e2 - Fmt.k' fw - Fmt.k' fa)
  | _, _ => stitchMul fw fa w a

/-- R92: the product of a warp element with a weft element as each pass read it; one code where all read the same. -/
def passSum (p : Nat) (fw fa : Fmt) (w : StitchOp) : List StitchOp → Num
  | [a] => passProduct p fw fa w a
  | as => (upto as.length).foldl (fun c q => c.add (passTerm q p fw fa w (as.getD q (.fin false 0 0)))) .zero

/-- R104: an element under its block scale as the non-finite rule sees it: every element of a zero block is +0. -/
def underScale (f : Fmt) (code scale : Nat) : StitchOp := if scale = 0 then .fin false 0 0 else f.stitch code

/-- R103, R104: the contribution of one band: elements with their codes, the weft's by pass, under a warp and a weft block scale. -/
def bandValue (p : Nat) (fw fa : Fmt) (sw sa : Nat) (els : List (Nat × List Nat)) : Num :=
  if sw = 255 ∨ sa = 255 then .nan
  else
    let prods := els.map (fun x => passSum p fw fa (underScale fw x.1 sw) (x.2.map (fun a => underScale fa a sa)))
    let b := prods.foldl Num.add .zero
    if !b.isFin then b
    else if sw = 0 ∨ sa = 0 then .zero
    else
      let b := if fw.blockScaled then b.mul (scaleNum sw) else b
      if fa.blockScaled then b.mul (scaleNum sa) else b

/-- R101, R568: the scale byte of element `k` of a weft row. -/
def WeftRow.scale (row : WeftRow) (k : Nat) : Nat := row.scales.getD ((row.off + k) / 32) 0x80

/-- The codes of element `k` of a weft row, by pass. -/
def WeftRow.byPass (row : WeftRow) (k : Nat) : List Nat := row.codes.getD k 0 :: row.later.map (fun c => c.getD k 0)

/-- R105, R107, R201: the column sum of a weft row against a warp column: exact in each band, rounded once at each band joint. -/
def columnSum (w : Wide) (hc wc bandRows : Nat) (pl : Pleat) (row : WeftRow) (n : Nat) : Num :=
  let fw := w.mmWarp.f
  let fa := w.mmWeft.f
  (upto (hc / max bandRows 1)).foldl (fun c b =>
    let k0 := b * bandRows
    let els := (upto bandRows).map (fun i => (pl.codes.getD ((k0 + i) * wc + n) 0, row.byPass (k0 + i)))
    if w.mmInt then
      c.add (els.foldl (fun a x => a.add (Num.ofInt (sext fw.width x.1 * sext fa.width (x.2.headD 0)))) .zero)
    else
      let sw := if fw.blockScaled then pl.scale wc k0 n else 0x80
      let sa := if fa.blockScaled then row.scale k0 else 0x80
      (c.add (bandValue w.passes fw fa sw sa els)).fp32) .zero

/-- R87, R201: cell rows per rounding: a band, or 16 reduction elements in heritage mode. -/
def Wide.bandRows (w : Wide) (hc : Nat) : Nat := min hc (if w.heritage then 16 else 32 / w.mmMode.edge)

/-! ### One wave (R37, R94 to R109) -/

/-- R68, R109, R146: an element of an operand as the product takes it: under INT32 accumulation its integer, else with its block scale and
its tensor scale. -/
def productNum (w : Wide) (f : Fmt) (t : Int) (code scale : Nat) : Num :=
  if w.mmInt then Num.ofInt (sext f.width code)
  else if f.blockScaled then decodeScaled f code scale t
  else if f.carriesT then (f.decode code).scale2 t else f.decode code

/-- R68, R146: the values of a weft row as decoded. -/
def WeftRow.nums (row : WeftRow) (w : Wide) : List Num :=
  (upto row.codes.length).map (fun k => productNum w w.mmWeft.f w.mmWeft.t (row.codes.getD k 0) (row.scale k))

/-- R146: the samples that a row of a ring belongs to keep its values, since the ring will be overwritten. -/
def ShadowSample.keepRow (x : ShadowSample) (f : RowFlight) (vs : List Num) : ShadowSample :=
  let r0 := x.row0 % 2 ^ 16
  if x.queue = f.queue ∧ x.cseq = f.cseq ∧ x.row0 / 2 ^ 16 = f.otile ∧ r0 ≤ f.row ∧ f.row < r0 + x.rows then
    { x with weft := SMap.set [] x.weft (f.row * 2 ^ 16 + f.tile) vs }
  else x

/-- R94, R199: the sums of a weft row against the warp in the stitches, what they took in, and the weft elements that are not finite. -/
def Wide.rowSums (w : Wide) (hc wc cols : Nat) (pl : Pleat) (row : WeftRow) : List Num × List Lineage × Nat :=
  let weftIn := (upto hc).map (fun k => elemLineage w.mmWeft.f (row.codes.getD k 0) (row.scale k))
  ((upto cols).map (fun n => columnSum w hc wc (w.bandRows hc) pl row n),
   (upto cols).map (fun n => lineages (weftIn ++ (upto hc).map (fun k => elemLineage w.mmWarp.f (pl.codes.getD (k * wc + n) 0) (pl.scale wc k n)))),
   (weftIn.filter (· != .finite)).length)

/-- R94, R113: a row of the running tile enters the pleat. Its sums are fixed by what the array then holds, and, of a row of a ring, by what
its lanes hold as they are read (R99). [DESIGN CHOICE, log 31] -/
def State.enterRow (s : State) (g p : Nat) (run : TileRun) : State :=
  let e := s.engine g
  let pl := e.pleat p
  let w := s.mmOf run.queue run.cseq
  let r := e.rect p
  let hc := w.mmHc r
  let wc := w.mmWc r
  let cb := w.mmCol r run.otile
  let ring := w.mmWeft.desc.isRing
  let rc := e.ring w.mmWeft.desc.data
  let cols := min wc (w.mmN - cb * wc)
  let (sums, inputs, bad) := if ring then ([], [], 0) else w.rowSums hc wc cols pl (run.fill.weft.headD {})
  let fl : RowFlight := { queue := run.queue, cseq := run.cseq, otile := run.otile, tile := run.tile, row := run.nextRow,
                          entered := e.wave, passes := w.mmP, hc := hc, wc := wc, sums := sums, inputs := inputs,
                          reading := if ring then some { place := rc.consume, codes := pl.codes, scales := pl.scales, off := pl.off, cols := cols, first := cb == 0 } else none }
  let last := run.nextRow + 1 = run.rows
  let next := { run with nextRow := run.nextRow + 1, fill := { run.fill with weft := run.fill.weft.drop 1 } }
  let pl := { pl with lastEntry := e.wave + w.mmP - 1, lastLatch := e.wave + w.mmP - 1 + hc + wc, run := if last then none else some next }
  let e := e.setPleat p pl
  let e := if ring then e.setRing w.mmWeft.desc.data { rc with consume := rc.consume + 1 } else e
  let e := { e with flight := e.flight ++ [fl], lastServed := SMap.set 0 e.lastServed r.top (p + 1),
                    laneBusy := SMap.set 0 e.laneBusy r.top (e.wave + w.mmP) }
  let s := (s.setEngine g e).markPoisoned run.queue run.cseq (ring && s.rangesPoisoned w.ringSegs)
  let s := if cb = 0 then s.countBadOperand g w w.mmWeft bad else s
  s.addCtx w.domain 1 (hc * wc * w.mmP)

/-- R99, R101: what the edge reads of a row in one wave: lane `wave − E_g − q` for pass `q`, and with the first lane of a block its scale. In
heritage mode the first P entries of a row carry its terms (R202). [DESIGN CHOICE, log 31] -/
def State.readLanes (s : State) (w : Wide) (f : RowFlight) (x : RowReading) (wave : Nat) : RowReading :=
  let k := wave - f.entered
  { x with
    lanes := (upto (max w.passes 1)).map (fun q =>
      let read := x.lanes.getD q []
      if q ≤ k ∧ k - q < f.hc then read ++ [s.ringLane w f.hc f.tile x.place (k - q)] else read),
    weftScales := if w.mmWeft.f.blockScaled && !w.mmInt && k % 32 == 0 && decide (k < f.hc) then x.weftScales ++ [s.ringScale w f.hc x.place k]
      else x.weftScales }

/-- R99: the last lane of a row has been read for its last pass: its sums, its non-finite elements and the samples that keep it. -/
def State.rowRead (s : State) (g : Nat) (w : Wide) (f : RowFlight) (x : RowReading) : State × RowFlight :=
  let row : WeftRow := { codes := x.lanes.headD [], later := x.lanes.drop 1, scales := x.weftScales }
  let (sums, inputs, bad) := w.rowSums f.hc f.wc x.cols { codes := x.codes, scales := x.scales, off := x.off } row
  let s := s.modEngine g (fun e => { e with samples := e.samples.map (fun y => y.keepRow f (row.nums w)) })
  (if x.first then s.countBadOperand g w w.mmWeft bad else s, { f with sums := sums, inputs := inputs, reading := none })

/-- R99: the edge reads the rows of rings in flight in this wave. -/
def State.readRows (s : State) (g : Nat) : State :=
  let wave := (s.engine g).wave
  let step := fun (acc : State × List RowFlight) (f : RowFlight) => match f.reading with
    | some x =>
      let w := s.mmOf f.queue f.cseq
      let x := s.readLanes w f x wave
      if f.entered + (max w.passes 1 - 1) + (f.hc - 1) ≤ wave then
        let (s, f) := acc.1.rowRead g w f x
        (s, acc.2 ++ [f])
      else (acc.1, acc.2 ++ [{ f with reading := some x }])
    | none => (acc.1, acc.2 ++ [f])
  let (s, fs) := (s.engine g).flight.foldl step (s, [])
  s.modEngine g (fun e => { e with flight := fs })

/-- R99, R100, R102, R113, R115: the next row of a pleat can enter in this wave. -/
def State.rowReady (s : State) (e : Engine) (p : Nat) : Bool :=
  match (e.pleat p).run with
  | some run =>
    let w := s.mmOf run.queue run.cseq
    let rc := e.ring w.mmWeft.desc.data
    !run.loadw && run.loadAt.isSome && decide (run.opens ≤ e.wave) && decide (run.nextRow < run.rows) &&
    (!w.mmWeft.desc.isRing || s.bobbinGone w.mmWeft.desc.data || decide (rc.consume < rc.fill)) && (!w.mmWide || decide (e.portFree ≤ e.wave))
  | none => false

/-- The pleats that are not OFF, by the top of their row group (R113). -/
def Engine.group (e : Engine) (top : Nat) : List Nat := (upto 16).filter (fun p => e.modeOf p != .off && (e.rect p).top == top)

/-- R113: the pleat of a row group that its lanes serve in this wave. -/
def State.laneGrant (s : State) (e : Engine) (top : Nat) : Option Nat :=
  if e.wave < SMap.get 0 e.laneBusy top then none
  else
    let ready := (e.group top).filter (fun p => s.rowReady e p)
    match ready.find? (fun p => decide (SMap.get 0 e.lastServed top ≤ p)) with
    | some p => some p
    | none => ready.head?

/-- R93, R113: rows enter, one for each row group whose lanes are free. [DESIGN CHOICE, log 31] -/
def State.enterRows (s : State) (g : Nat) : State :=
  (upto 4).foldl (fun s top =>
    let e := s.engine g
    match s.laneGrant e top with
    | some p => match (e.pleat p).run with
      | some run => s.enterRow g p run
      | none => s
    | none => s) s

/-- R82: an exact integer as a 32-bit one by ovf. The Bool says that it left its range. -/
def narrow32 (wrap : Bool) (x : Num) : Num × Bool :=
  match x with
  | .fin s m e =>
    let (v, out) := narrowInt 32 wrap (roundToInt .near s m e)
    (Num.ofInt (sext 32 v), out)
  | x => (x, false)

/-- R107, R108, R201: a column sum combined with an accumulator: under INT32 accumulation ovf applies as the sum enters the hem and at the
addition; a subnormal FP32 sum is flushed in heritage mode. The Bool says that an INT32 result left its range (R82). -/
def hemAdd (w : Wide) (old : Option Num) (c : Num) : Num × Bool :=
  if w.mmInt then
    let (c, out) := narrow32 w.mmWrap c
    match old with
    | some a => let (v, out') := narrow32 w.mmWrap (c.add a); (v, out || out')
    | none => (c, out)
  else
    let x := match old with | some a => c.add a | none => c
    (Fmt.fp32.decode (flushFp32 w.heritage x.toFp32), false)

/-- The column that a row in flight latches in this wave (R95): one for each wave after its sums leave the foot. -/
def RowFlight.column (f : RowFlight) (wave : Nat) : Option Nat :=
  let first := f.entered + f.passes - 1 + f.hc
  if first ≤ wave ∧ wave < first + f.wc then some (wave - first) else none

/-- R108: column `n` of a row latched into its region. -/
def Region.latch (r : Region) (w : Wide) (f : RowFlight) (n : Nat) : Region :=
  let key := f.row * 256 + n
  let r := match f.sums[n]? with
    | some c =>
      let old := if f.tile = 0 then none else SMap.get none r.acc key
      let (v, out) := hemAdd w old c
      { r with acc := SMap.set none r.acc key (some v), leftRange := if out then setIns r.leftRange key else r.leftRange,
               inputs := SMap.set .finite r.inputs key ((SMap.get .finite r.inputs key).join (f.inputs.getD n .finite)) }
    | none => r
  if f.tile + 1 = r.tiles ∧ n + 1 = f.wc then { r with ready := f.row + 1 } else r

/-- R95, R114: every row in flight latches its column. -/
def State.latchAll (s : State) (g : Nat) : State :=
  let e := s.engine g
  let e' := e.flight.foldl (fun (e' : Engine) f =>
    match f.column e.wave with
    | some n =>
      let w := s.mmOf f.queue f.cseq
      { e' with regions := e'.regions.map (fun r =>
          if r.queue == f.queue && r.cseq == f.cseq && r.otile == f.otile then r.latch w f n else r) }
    | none => e') e
  s.setEngine g { e' with flight := e.flight.filter (fun f => decide (e.wave + 1 < f.entered + f.passes - 1 + f.hc + f.wc)) }

/-- R122: a through window is full: a sum that must latch in this wave has no row in its window. -/
def Engine.hemFull (e : Engine) : Bool :=
  e.flight.any (fun f => (f.column e.wave).isSome &&
    e.regions.any (fun r => r.queue == f.queue && r.cseq == f.cseq && r.otile == f.otile && r.through && decide (r.taken + 512 ≤ f.row)))

/-- A warp load holds the port, or a LOADW is still to land. -/
def Engine.loading (e : Engine) : Bool :=
  decide (e.wave < e.portFree) || e.pleats.any (fun x => match x.2.run with | some r => r.loadAt.isSome && decide (e.wave < r.opens) | none => false)

/-- R97: some pleat takes a row in this wave. -/
def State.anyRow (s : State) (e : Engine) : Bool := (upto 4).any (fun top => (s.laneGrant e top).isSome)

/-- R97: partial sums, warp loads or pass combinations are in flight. -/
def Engine.busy (e : Engine) : Bool :=
  e.flight != [] || e.loading || e.pleats.any (fun x => decide (e.wave ≤ x.2.lastEntry && x.2.lastEntry != 0))

/-- R224, R240: a LOADW completes when its warp is in the pleat. -/
def State.landLoadw (s : State) (g : Nat) : State :=
  (upto 16).foldl (fun s p =>
    let e := s.engine g
    let pl := e.pleat p
    match pl.run with
    | some run =>
      if run.loadw && run.loadAt.isSome && decide (run.opens ≤ e.wave) then
        let w := s.mmOf run.queue run.cseq
        let res : Resident := { dAddr := (SMap.get 0 w.ck.a (fld w.n0 27 24)).toNat, fmt := (w.operand 0).fmt }
        (s.setEngine g (e.setPleat p { pl with run := none, resident := some res })).finish run.queue run.cseq
      else s
    | none => s) s

/-! ### The epilogue (R109, R121) -/

/-- R67, R89: the MM applies channel scales; under INT32 accumulation none is applied, and none is read. -/
def Wide.mmChan (w : Wide) : Bool := bit w.n0 1 && !w.mmInt

/-- R67: the channel scale of an output column: zero, negative and non-finite ones count as 1.0. The Bool says it was one of those. -/
def State.chanScale (s : State) (w : Wide) (n : Nat) : Num × Bool :=
  if w.mmChan then
    let x := Fmt.fp32.decode (s.readLe ((w.operand 5).desc.data + 4 * n) 4)
    if x.isFin && !x.isZero && !x.signBit then (x, false) else (.one, true)
  else (.one, false)

/-- The value of an accumulator before the channel scale (R109 step 1). -/
def Wide.mmScaled (w : Wide) (a : Num) : Num :=
  let t := (if w.mmWarp.f.carriesT then w.mmWarp.t else 0) + (if w.mmWeft.f.carriesT then w.mmWeft.t else 0)
  if w.mmInt then a else Fmt.fp32.decode (flushFp32 w.heritage (a.scale2 t).toFp32)

/-- R67: the first bad channel scale that an MM reads is logged once. -/
def State.logChan (s : State) (qi : Nat) (w : Wide) (bad : Bool) : State :=
  if bad && !w.chanLogged then
    (s.modWide qi w.cseq (fun w => { w with chanLogged := true })).logQueue 0x010C qi w.domain w.cseq
  else s

/-- R146: the sub-tile columns of a taken row, for the samples of its output tile. -/
def ShadowSample.takeRow (x : ShadowSample) (qi cseq otile row : Nat) (vs : List Num) : ShadowSample :=
  let r0 := x.row0 % 2 ^ 16
  if x.queue = qi ∧ x.cseq = cseq ∧ x.row0 / 2 ^ 16 = otile ∧ r0 ≤ row ∧ row < r0 + x.rows then
    { x with narrow := x.narrow ++ (upto x.cols).map (fun c => vs.getD (x.col0 + c) .zero) }
  else x

/-- A value the epilogue has ready: its column of the view, and what its inputs held. -/
structure ReadyVal where
  col : Nat
  val : Num
  inputs : Lineage
deriving DecidableEq, Repr

/-- The values of a block, by their columns. -/
def readySource (b : List ReadyVal) : Source :=
  { val := fun _ c => ((b.find? (·.col == c)).map (·.val)).getD .zero, rnd := fun _ _ => .near,
    inputs := fun _ c => ((b.find? (·.col == c)).map (·.inputs)).getD .finite }

/-- R568: the values of row `m` kept until their blocks are whole, and the blocks that then are: all of them where output tiles hold whole
blocks. [DEDUCED, log 30] -/
def Wide.takeBlocks (w : Wide) (m wc : Nat) (vs : List ReadyVal) : Wide × List (List ReadyVal) :=
  if wc % 32 = 0 then (w, (upto (cdiv vs.length 32)).map (fun b => (vs.drop (32 * b)).take 32))
  else
    let held := vs.foldl (fun h v => SMap.set none h (m * w.mmN + v.col) (some (v.val, v.inputs))) w.split
    let blocks := ((vs.map (fun v => v.col / 32)).eraseDups).filterMap (fun b =>
      let cols := (upto (min 32 (w.mmN - 32 * b))).map (32 * b + ·)
      let xs := cols.filterMap (fun c => (SMap.get none held (m * w.mmN + c)).map (fun x => ReadyVal.mk c x.1 x.2))
      if xs.length = cols.length then some xs else none)
    ({ w with split := blocks.foldl (fun h b => b.foldl (fun h v => SMap.set none h (m * w.mmN + v.col) none) h) held }, blocks)

/-- R98, R100: where row `m` of the product goes in the ring that the MM writes, by R98's count: its rows follow those that the ring held as
its turn came. -/
def State.ringPlace (s : State) (g : Nat) (w : Wide) (m : Nat) : Nat :=
  w.ringBase.getD ((s.engine g).ring w.mmOut.desc.data).fill + m

/-- R165, R199: what staged values came from, from place `i` of their buffer on. -/
def Wide.stageInputs (w : Wide) (i : Nat) (xs : List Lineage) : Wide :=
  { w with stagedIn := (upto xs.length).foldl (fun h c => SMap.set .finite h (i + c) (xs.getD c .finite)) w.stagedIn }

/-- R121, R109: where the epilogue writes the values of row `m`, columns from `n0`, of the product. -/
def State.writeRow (s : State) (g qi : Nat) (w : Wide) (o row m n0 wc : Nat) (vs : List Num) (inputs : List Lineage) : State :=
  let x := w.mmOut
  let k := w.mmConv
  let rounding := s.rounding w w.mmStoch
  let tileOf : Nat → Nat := fun c => o - n0 / max wc 1 + c / max wc 1
  let rnd : Nat → Rnd := fun c => rounding.at (w.mmTileBase + tileOf c) (row * wc + c % max wc 1)
  let who := s.nanBy qi w g x
  let pos := fun (_r c : Nat) => put (tileOf c) 63 32 + put row 31 16 + put (c % max wc 1) 15 0
  let dom := some w.domain
  if x.toJit then
    -- R165: the wide value goes to the staging buffer
    let s := s.modWide qi w.cseq (fun u => u.stageInputs (m * w.mmN + n0) inputs)
    s.writeBytes (x.desc.jit + 4 * (m * w.mmN + n0)) (vs.flatMap (fun v => leBytes 4 v.toFp32))
  else
    let meas := w.measures x
    let ready := (upto vs.length).map (fun c => ReadyVal.mk (n0 + c) (vs.getD c .zero) (inputs.getD c .finite))
    let (s, wr, runs, scales, vs) :=
      if k.dst.blockScaled then
        let (w', blocks) := w.takeBlocks m wc ready
        let s := if wc % 32 = 0 then s else s.modWide qi w.cseq (fun _ => w')
        let parts := blocks.map (fun b => (b, convBlock k (b.map (fun v => (v.val, rnd v.col)))))
        let marks := parts.map (fun p => k.blockMarks (readySource p.1) p.2.2.1 (p.1.map (fun v => (m, v.col))))
        (s, ({ q := parts.foldl (fun q p => q.add p.2.2.2) {}, blocks := parts.length, bad := marks.flatMap (·.1),
               unwritten := marks.flatMap (·.2) } : Written),
         parts.map (fun p => ((p.1.map (·.col)).headD 0, p.2.1)), parts.map (fun p => ((p.1.map (·.col)).headD 0, p.2.2.1)),
         blocks.flatMap (fun b => b.map (·.val)))
      else
        let es := ready.map (fun v => (v, convElem k (rnd v.col) v.val))
        let badEls := es.filterMap (fun e =>
          let v := k.readBack e.2.1
          if !k.dst.isInt && !v.isFin then some (BadElem.mk m e.1.col v e.1.inputs) else none)
        let un := es.filterMap (fun e => if k.dst.isInt && e.2.2.nonFinite != 0 then some (BadElem.mk m e.1.col e.1.val e.1.inputs) else none)
        (s, ({ q := es.foldl (fun q e => q.add e.2.2) {}, bad := badEls, unwritten := un } : Written), [(n0, es.map (·.2.1))], [], vs)
    let s := if x.desc.isRing then
        let gRow := s.ringPlace g w m
        let s := runs.foldl (fun s r => s.writeRingRow x.desc k.dst gRow r.1 r.2) s
        let s := if w.heritage then s else scales.foldl (fun s c =>
          s.writeLe (ringScaleAt x.desc.scale x.desc.rows x.desc.cols gRow (c.1 / 32)) 1 c.2) s
        let s := if w.ringBase.isNone then s.modWide qi w.cseq (fun u => { u with ringBase := some (gRow - m) }) else s
        if w.mmN ≤ n0 + wc then s.modEngine g (fun e => e.ringFilled x.desc.data gRow) else s
      else
        let s := if k.dst = .fp32p8 then
            s.writeElems x.desc k.dst dom (runs.flatMap (fun r => (upto r.2.length).map (fun i => (m, r.1 + i, r.2.getD i 0))))
          else s.writeRuns x.desc k.dst.width dom (runs.map (fun r => (m, r.1, r.2)))
        if w.heritage then s else scales.foldl (fun s c => s.writeScale x.desc dom (x.desc.scaleIx m c.1) c.2) s
    let s := if meas then s.measure g x.tag x.role w.fitStep vs k.dst wr else s
    s.nanEvents who pos meas wr

/-- R121: a ready row may be taken: a ring has the room of R100. -/
def State.rowRoom (s : State) (g : Nat) (w : Wide) (r : Region) : Bool :=
  let x := w.mmOut
  if x.desc.isRing && !x.toJit then
    let m := w.mmRow0 (Rect.mk r.top r.left r.bottom r.right) r.otile + r.taken
    s.ringFree g r.queue w x.desc (s.ringPlace g w m) && decide (r.taken < r.rows)
  else true

/-- R82: the narrowing of an integer leaves the range of the destination. -/
def Conv.narrows (k : Conv) (x : Num) : Bool :=
  match x with
  | .fin s m e => k.src.isInt && (narrowInt k.dst.width k.wrap (roundToInt .near s m e)).2
  | _ => false

/-- R109, R121: the epilogue takes the next ready row of a region. -/
def State.takeRow (s : State) (g : Nat) (r : Region) : State :=
  let e := s.engine g
  let w := s.mmOf r.queue r.cseq
  let rect := Rect.mk r.top r.left r.bottom r.right
  let wc := w.mmWc rect
  let n0 := w.mmCol rect r.otile * wc
  let cols := min wc (w.mmN - n0)
  let row := r.taken
  let m := w.mmRow0 rect r.otile + row
  let base := (upto cols).map (fun n => w.mmScaled ((SMap.get none r.acc (row * 256 + n)).getD .zero))
  let chans := (upto cols).map (fun n => s.chanScale w (n0 + n))
  let vs := if w.mmInt then base else (upto cols).map (fun n =>
    Fmt.fp32.decode (flushFp32 w.heritage ((base.getD n .zero).mul (chans.getD n (.one, false)).1).toFp32))
  let inputs := (upto cols).map (fun n => SMap.get .finite r.inputs (row * 256 + n))
  let chanBytes := [((w.operand 5).desc.data + 4 * n0, 4 * cols)]
  let s := if w.mmChan then s.markPoisoned r.queue r.cseq (s.rangesPoisoned chanBytes) else s
  let s := s.logChan r.queue w (chans.any (·.2))
  let r' := { r with taken := row + 1, acc := SMap.clear r.acc (row * 256) (row * 256 + 256),
                     inputs := SMap.clear r.inputs (row * 256) (row * 256 + 256),
                     leftRange := r.leftRange.filter (fun k => decide (k / 256 ≠ row)) }
  let e := { e with regions := e.regions.map (fun x => if x.queue == r.queue && x.cseq == r.cseq && x.otile == r.otile then r' else x),
                    samples := e.samples.map (fun x => x.takeRow r.queue r.cseq r.otile row base) }
  let s := s.setEngine g e
  -- R82: an element that left its range counts once: here where it did so in the hem only, below where its narrowing does so too
  let left := (upto cols).filter (fun n => decide (row * 256 + n ∈ r.leftRange) && !(w.mmConv.narrows (base.getD n .zero)))
  let s := if left ≠ [] ∧ w.measures w.mmOut then
      s.modRec g (tagRole w.mmOut.tag w.mmOut.role) w.fitStep (fun x => { x with saturated := sat 64 (x.saturated + left.length) })
    else s
  s.writeRow g r.queue w r.otile row m n0 wc vs inputs

/-- R165, R179: the wide values of an MM's output in their staging buffer, with the draws that the unexpanded conversion would have. -/
def State.mmStaged (s : State) (w : Wide) (wc : Nat) : Source :=
  let val := fun r c => Fmt.fp32.decode (s.readLe (w.mmOut.desc.jit + 4 * (r * w.mmN + c)) 4)
  let rounding := s.rounding w w.mmStoch
  let cbs := max (cdiv w.mmN (max wc 1)) 1
  { val := val, inputs := fun r c => SMap.get .finite w.stagedIn (r * w.mmN + c),
    rnd := fun r c => rounding.at (w.mmTileBase + r / max w.mmTileRows 1 * cbs + c / max wc 1) (r % max w.mmTileRows 1 * wc + c % max wc 1) }

/-- R187: the position of an output element of an MM; its output tile is bits [63:32]. -/
def Wide.mmPos (w : Wide) (wc r c : Nat) : Nat :=
  put (r / max w.mmTileRows 1 * max (cdiv w.mmN (max wc 1)) 1 + c / max wc 1) 63 32 + put (r % max w.mmTileRows 1) 31 16 + put (c % max wc 1) 15 0

/-- R165: the t of an expansion: from the amax of the wide values of `rows` rows of `cols`. -/
def State.stagedT (s : State) (x : Operand) (src : Source) (rows cols : Nat) : Int :=
  let all := (upto (rows * cols)).map (fun i => src.val (i / cols) (i % cols))
  tFor ((all.filter Num.isFin).foldl (fun m v => max m (fp32Up v)) 0) x.f ((s.entry x.tag).role x.role).margin

/-- R198: the events of an MM's expansion, each charged to the engine that took the element's output tile. -/
def State.mmEvents (s : State) (qi : Nat) (w : Wide) (wc : Nat) (wr : Written) : State :=
  let of := fun g (bs : List BadElem) => bs.filter (fun b => SMap.get 0 w.takers (w.mmPos wc b.row b.col / 2 ^ 32) == g + 1)
  (emaskEngines (s.serving qi) w.mmEmask).foldl (fun s g =>
    s.nanEvents (s.nanBy qi w g w.mmOut) (w.mmPos wc) true { wr with bad := of g wr.bad, unwritten := of g wr.unwritten }) s

/-- R165: the QUANT that ends a JIT expansion: the staging buffer converted with t from its amax. Its figures go to the measure unit of
engine `g`, which took the last row. -/
def State.mmExpand (s : State) (g qi : Nat) (w : Wide) : State :=
  let x := w.mmOut
  let wc := w.mmWc ((s.engine g).rect w.mmPleat)
  let src := s.mmStaged w wc
  let k := { w.mmConv with t := s.stagedT x src w.mmM w.mmN }
  let all := (x.desc.span 0 x.desc.count).map (fun e => src.val e.1 e.2)
  let (s', wr) := s.writeSpan x.desc k (some w.domain) 0 x.desc.count src
  let s' := s'.measure g x.tag x.role w.fitStep all k.dst wr
  s'.mmEvents qi w wc wr

/-- R98, R100, R165: the same into a weft ring: rows from `row` on while the ring has room; the rows written. -/
def State.mmExpandRing (s : State) (g qi : Nat) (w : Wide) (wc : Nat) (t : Int) (src : Source) : Nat → Nat → State × Nat
  | 0, row => (s, row)
  | fuel + 1, row =>
    let x := w.mmOut
    let gRow := s.ringPlace g w row
    if row < w.mmM ∧ s.ringFree g qi w x.desc gRow then
      let k := { w.mmConv with t := t }
      let (s', wr) := s.writeRingLine x.desc k src gRow row
      let s' := s'.modEngine g (fun e => e.ringFilled x.desc.data gRow)
      let s' := s'.measure g x.tag x.role w.fitStep ((upto w.mmN).map (src.val row)) k.dst wr
      (s'.mmEvents qi w wc wr).mmExpandRing g qi { w with ringBase := some (gRow - row) } wc t src fuel (row + 1)
    else (s, row)

/-- R165, R240: an MM whose output tiles are all done ends: at once, or after its expansion, which into a ring goes on as the ring has
room. -/
def State.mmEnd (s : State) (g qi : Nat) (w : Wide) : State :=
  if !w.mmOut.toJit then s.finish qi w.cseq
  else if !w.mmOut.desc.isRing then (s.mmExpand g qi w).finish qi w.cseq
  else
    let wc := w.mmWc ((s.engine g).rect w.mmPleat)
    let src := s.mmStaged w wc
    let t := w.jitT.getD (s.stagedT w.mmOut src w.mmM w.mmN)
    let base := ((s.engine g).ring w.mmOut.desc.data).fill
    let (s, row) := s.mmExpandRing g qi w wc t src (w.mmM - w.expanded) w.expanded
    let first := if w.expanded < row then some (w.ringBase.getD base) else w.ringBase
    let s := s.modWide qi w.cseq (fun u => { u with jitT := some t, expanded := row, ringBase := first })
    if row = w.mmM then s.finish qi w.cseq else s

/-- R240: every output tile of an MM is done and every shadow sample charged, and it has not completed. -/
def Wide.mmEnding (w : Wide) : Bool := w.opcode == 1 && w.done == w.tiles && w.shadowLeft == 0 && w.stage == .issued

/-- R120, R240: a region whose last row is taken closes; the MM completes with its last output tile and shadow sample. -/
def State.mmMaybeDone (s : State) (g qi cseq : Nat) : State :=
  match s.wide qi cseq with
  | some w => if w.mmEnding then s.mmEnd g qi w else s
  | none => s

/-- R100, R165: the expansions into rings of engine `g` that waited for room go on. -/
def State.pumpExpand (s : State) (g : Nat) : State :=
  (upto 192).foldl (fun s qi => (s.queue qi).inflight.foldl (fun s w =>
    if w.mmEnding && w.jitT.isSome && w.mmOut.desc.isRing && s.bobbinOf w.mmOut.desc.data == some g then s.mmMaybeDone g qi w.cseq else s) s) s

def State.closeRegions (s : State) (g : Nat) : State :=
  let e := s.engine g
  let closed := e.regions.filter (fun r => decide (r.rows ≤ r.taken))
  let s := s.setEngine g { e with regions := e.regions.filter (fun r => decide (r.taken < r.rows)) }
  closed.foldl (fun s r => (s.modWide r.queue r.cseq (fun w => { w with done := w.done + 1 })).mmMaybeDone g r.queue r.cseq) s

/-- The regions with a row the epilogue can take, in ascending pleat number. -/
def State.readyRegions (s : State) (g : Nat) : List Region :=
  (upto 16).filterMap (fun p => ((s.engine g).regions.filter (fun r => r.pleat == p && decide (r.taken < r.ready) &&
    s.rowRoom g (s.mmOf r.queue r.cseq) r)).head?)

/-- R121: the values and the bytes that an output row writes: those inside the product (R221), each of 4 bytes where the row goes to a
staging buffer (R165). [DESIGN CHOICE, log 31] -/
def State.rowCost (s : State) (r : Region) : Nat × Nat :=
  let w := s.mmOf r.queue r.cseq
  let rect := Rect.mk r.top r.left r.bottom r.right
  let wc := w.mmWc rect
  let n := min wc (w.mmN - w.mmCol rect r.otile * wc)
  (n, cdiv (n * (if w.mmOut.toJit then 32 else w.mmOut.f.width)) 8)

/-- R121: whole rows taken in turn, from the pleat after the one served last, while the wave's totals of values and bytes stay within both
limits; a row alone always fits. -/
def State.epilogueN (s : State) (g : Nat) : Nat → Nat → Nat → State
  | 0, _, _ => s
  | fuel + 1, vals, bytes =>
    let rs := s.readyRegions g
    match (match rs.find? (fun r => decide ((s.engine g).epilogueNext ≤ r.pleat)) with | some r => some r | none => rs.head?) with
    | some r =>
      let (v, b) := s.rowCost r
      if vals = 0 ∨ (vals + v ≤ 1024 ∧ bytes + b ≤ 1024) then
        ((s.takeRow g r).modEngine g (fun e => { e with epilogueNext := (r.pleat + 1) % 16 })).epilogueN g fuel (vals + v) (bytes + b)
      else s
    | none => s

/-- R120, R121: the hem epilogue in one wave's time: its rows, then the regions that they end. [DESIGN CHOICE, log 31] -/
def State.epilogue (s : State) (g : Nat) : State := (s.epilogueN g 1024 0 0).closeRegions g

/-! ### Commands of the array -/

/-- R454: the wave controllers withhold waves in this interval of the thermal hold. [DESIGN CHOICE, log 62] -/
def State.thermalWithheld (s : State) : Bool := s.power.hold && s.power.holdPhase

/-- R37, R38, R97, R122: one wave of global engine `g`. The hem epilogue works in every wave's time; the wave itself is withheld where
every pleat would receive a bubble with nothing in flight, or the hem signals no space. [DESIGN CHOICE, log 31] -/
def doWave (g : Nat) (s : State) : State :=
  if !s.alive || s.thermalWithheld || (s.core (g / 4)).fence != .inService then s
  else
    let s := (s.epilogue g).pumpExpand g
    let e := s.engine g
    if e.hemFull || !(s.anyRow e || e.busy) then s.pumpShuttles (g / 4)
    else
      let s := ((s.latchAll g).enterRows g).readRows g
      let s := s.modEngine g (fun e => { e with wave := e.wave + 1 })
      ((s.landLoadw g).addGctr g 1).pumpShuttles (g / 4)

def execWave (e : Nat) (s : State) : Host.Outcome State Fault Refusal :=
  if e < 96 then .next (doWave e s) else .fault .noSuchUnit

/-- R46: the monitor of engine `g` runs: its engine is powered, from step 4 of bring-up on (R432), in every power state and in a freeze, and
its core is in service. [DESIGN CHOICE, log 79] -/
def State.monitorRuns (s : State) (g : Nat) : Bool := s.power.pwrGood && decide (4 ≤ s.bring.stage) && (s.core (g / 4)).fence == .inService

/-- R46: the end of a 16 µs window: the count of replica cycles divided by 16 is written with the window number, and the next window
begins. -/
def doRateWindow (g count : Nat) (s : State) : State :=
  if s.monitorRuns g then
    let t := (s.engine g).rateFrom + 16000
    State.modEngine { s with now := max s.now t } g (fun e =>
      { e with rateValid := true, rateSeq := (e.rateSeq + 1) % 2 ^ 14, rate := count / 16 % 2 ^ 16, rateFrom := t })
  else s

def execWaveRateWindowEnd (e count : Nat) (s : State) : Host.Outcome State Fault Refusal :=
  if e < 96 then .next (doRateWindow e count s) else .fault .noSuchUnit

/-- R115: the tile that a pleat runs next: an open region of the highest priority with tiles left. -/
def State.nextTileOf (s : State) (e : Engine) (p : Nat) : Option Region :=
  let cand := e.regions.filter (fun r => r.pleat == p && decide (r.nextTile < r.tiles))
  let top := cand.foldl (fun m r => max m (s.queuePrio r.queue)) 0
  cand.find? (fun r => s.queuePrio r.queue == top)

/-- R128, R210: a LOADW whose check has passed and that waits to issue to pleat `p` of engine `g` from a queue that core `c` serves with a priority above `prio`. -/
def State.loadwWaits (s : State) (g p prio : Nat) : Bool :=
  (upto 192).any (fun qi => decide (s.serving qi = g / 4) && decide (prio < s.queuePrio qi) &&
    !(s.queue qi).stopped && (match (s.queue qi).unissued with
      | some w => w.opcode == 2 && !w.unchecked && w.lwPleat == p && w.lwEngine (g / 4) == g
      | none => false))

/-- R128, R210: a queued MM, or a LOADW that waits to issue, of higher priority takes the pleat at the tile boundary. -/
def State.preempted (s : State) (g p prio : Nat) : Bool :=
  (s.qualified (g / 4) (fun qi w => s.mmQualifies g qi w)).any (fun x => x.2.mmPleat == p && decide (prio < s.queuePrio x.1)) ||
  s.loadwWaits g p prio

/-- The next tile of an open region put on its pleat, its operands filled and its load requested. -/
def State.resumeTile (s : State) (g p : Nat) : State :=
  let e := s.engine g
  match (e.pleat p).run, s.nextTileOf e p with
  | none, some r =>
    if (e.pleat p).draining || e.seamHolds p || s.preempted g p (s.queuePrio r.queue) then s
    else
      let w := s.mmOf r.queue r.cseq
      let (s, run) := s.fillTile g w { queue := r.queue, cseq := r.cseq, otile := r.otile, tile := r.nextTile, rows := r.rows }
      let e := e.place p w run
      s.setEngine g { e with regions := e.regions.map (fun x =>
        if x.queue == r.queue && x.cseq == r.cseq && x.otile == r.otile then { x with nextTile := x.nextTile + 1 } else x) }
  | _, _ => s

/-- R125: the pleat's configuration in force is the one the run needs. -/
def State.configured (s : State) (e : Engine) (p : Nat) (run : TileRun) : Bool := e.configured p (s.mmOf run.queue run.cseq) run.loadw

/-- R115, R116: the warp load of pleat `p` begins: the port is free, loads go in the order requested, and the previous tile's last
entry has passed. -/
def doWarpLoad (g p : Nat) (s : State) : State :=
  if !s.alive || (s.core (g / 4)).fence != .inService then s
  else
    let s := s.resumeTile g p
    let e := s.engine g
    let pl := e.pleat p
    match pl.run with
    | some run =>
      if run.loadAt.isNone && e.loadQ.head? == some p && decide (e.portFree ≤ e.wave) &&
          (decide (pl.lastEntry < e.wave) || pl.lastEntry == 0) && !pl.draining && s.configured e p run then
        let w := s.mmOf run.queue run.cseq
        let r := e.rect p
        let mode := e.modeOf p
        let hc := r.h / mode.edge
        let wc := r.w / mode.edge
        let x := w.operand 0
        let (k0, n0) := (fld w.n2 63 32, w.n2 % 2 ^ 32)
        -- a LOADW's tile is filled as its load begins
        let fill := if run.loadw then s.warpFill w x hc wc k0 n0 else run.fill
        let segs := if run.loadw then x.warpSegs hc wc k0 n0 else []
        let pl := { pl with codes := unpackCodes (hc * wc / 8 + 1) x.f.width fill.warp, scales := fill.scales.map BitVec.toNat, resident := none,
                             off := if run.loadw then k0 % 32 else run.tile * hc % 32 }
        let hold := r.h + r.w - 1
        let opens := e.wave + (if !run.loadw && w.mmWide then hold else r.h)
        let next := { run with loadAt := some e.wave, opens := opens, fill := { run.fill with warp := [], scales := [] } }
        let s := s.setEngine g { e.setPleat p { pl with run := some next } with portFree := e.wave + hold, loadQ := e.loadQ.drop 1 }
        let s := (s.markPoisoned run.queue run.cseq (s.rangesPoisoned segs)).countReads w.domain segs
        let s := s.addGctr (240 + g / 4) (segs.map (·.2)).sum
        if !run.loadw && w.mmRow0 r run.otile == 0 then s.countBadOperand g w x (pl.badCells x.f hc wc) else s
      else s
    | none => s

def execWarpLoadStart (e pl : Nat) (s : State) : Host.Outcome State Fault Refusal :=
  if e < 96 ∧ pl < 16 then .next (doWarpLoad e pl s) else .fault .noSuchUnit

/-- R96, R125: the wave after the one in which the hem latches the last sum of a pleat's last tile, wave X + h_c + w_c − 1. -/
def Engine.drainsAt (e : Engine) (p : Nat) : Nat := max e.wave (e.pleat p).lastLatch

/-- R125, R126: the pleat must drain: its next tile, or a SEAM, needs another configuration. -/
def State.needsDrain (s : State) (e : Engine) (p : Nat) : Bool :=
  e.seamHolds p || (match (e.pleat p).run with
    | some run => run.loadAt.isNone && !s.configured e p run
    | none => false)

/-- R125 steps 1 to 3: the drain begins once the old tile's last entry has passed. -/
def doDrainStart (g p : Nat) (s : State) : State :=
  if !s.alive || (s.core (g / 4)).fence != .inService then s
  else
    let s := s.resumeTile g p
    let e := s.engine g
    let pl := e.pleat p
    let streaming := match pl.run with | some run => run.loadAt.isSome | none => false
    if !pl.draining && !streaming && s.needsDrain e p && (decide (pl.lastEntry < e.wave) || pl.lastEntry == 0) then
      s.setEngine g (e.setPleat p { pl with draining := true, drainEnd := e.drainsAt p })
    else s

def execDrainStart (e pl : Nat) (s : State) : Host.Outcome State Fault Refusal :=
  if e < 96 ∧ pl < 16 then .next (doDrainStart e pl s) else .fault .noSuchUnit

/-- R125 step 4: the pleat has drained. -/
def Engine.drained (e : Engine) (p : Nat) : Bool := (e.pleat p).draining && decide ((e.pleat p).drainEnd ≤ e.wave)

/-- R225, R127: a SEAM's configuration put in force: every pleat it changes has drained, and no region is open on a pleat whose
rectangle changes. A tile that waited on such a pleat asks for its warp load where its configuration is now in force (R116, R125). -/
def State.seamApply (s : State) (g : Nat) (x : SeamWait) : State :=
  let e := s.engine g
  let changed := (upto 16).filter (fun p => e.changes x p)
  let e' := changed.foldl (fun (e : Engine) p => e.setPleat p { e.pleat p with draining := false, resident := none }) e
  let e' := { e' with map := x.map, mode := x.modes, seam := none }
  let asks := changed.filter (fun p => match (e.pleat p).run with
    | some run => run.loadAt.isNone && s.configured e' p run
    | none => false)
  let s := s.setEngine g { e' with loadQ := e.loadQ.filter (fun p => decide (p ∉ changed)) ++ asks }
  let s := s.modWide x.queue x.cseq (fun w => { w with done := w.done + 1 })
  match s.wide x.queue x.cseq with
  | some w => if w.done = w.tiles then s.complete x.queue x.cseq stOk else s
  | none => s

/-- R127: the open regions of the pleats whose rectangle changes have closed, and every changed pleat has drained. -/
def Engine.seamReady (e : Engine) (x : SeamWait) : Bool :=
  !e.regionsLeft x && (upto 16).all (fun p => !e.changes x p || e.drained p || e.modeOf p == .off)

/-- R125 step 5, R126: the mode that the tile on pleat `p` needs put in force, with its heritage setting; the rectangle is kept, and its
warp load is requested. -/
def State.modeApply (s : State) (g p : Nat) : State :=
  let e := s.engine g
  match (e.pleat p).run with
  | some run =>
    if e.drained p && !e.seamHolds p then
      let n := (s.mmOf run.queue run.cseq).needs run.loadw e p
      s.setEngine g { e.setPleat p { e.pleat p with draining := false, lastHeritage := n.2, resident := none } with
                      mode := setFld e.mode (2 * p + 1) (2 * p) n.1.code, loadQ := e.loadQ ++ [p] }
    else s
  | none => s

/-- R125 step 5: the new mode and rectangle in force. A SEAM that still waits for regions, or for another pleat's drain, holds no pleat
that it does not change (R126, R127). -/
def doNewConfiguration (g p : Nat) (s : State) : State :=
  if !s.alive || (s.core (g / 4)).fence != .inService then s
  else
    match (s.engine g).seam with
    | some x => if (s.engine g).seamReady x then s.seamApply g x else s.modeApply g p
    | none => s.modeApply g p

def execNewConfigurationInForce (e pl : Nat) (s : State) : Host.Outcome State Fault Refusal :=
  if e < 96 ∧ pl < 16 then .next (doNewConfiguration e pl s) else .fault .noSuchUnit

/-! ### The shadow check (R146, R147) -/

/-- R173: a reduction of products in FP32: lanes by element index modulo 256, then a tree of eight levels. -/
def treeLevel (f : Num → Num → Num) : List Num → List Num
  | a :: b :: xs => f a b :: treeLevel f xs
  | xs => xs

def treeLevels (f : Num → Num → Num) : Nat → List Num → List Num
  | 0, xs => xs
  | k + 1, xs => treeLevels f k (treeLevel f xs)

/-- R173: the lanes: element i goes to lane i mod 256, which adds its elements in ascending order from +0. -/
def laneSums (step : Num → Num → Num) (xs : List Num) : List Num :=
  (upto 256).map (fun l => ((upto (cdiv (xs.length - l) 256)).map (fun j => xs.getD (256 * j + l) .zero)).foldl step .zero)

/-- R173: the sum of a vector: `step` rounds each lane addition, `join` each tree addition. -/
def pressSum (step join : Num → Num → Num) (xs : List Num) : Num := ((treeLevels join 8 (laneSums step xs)).head?).getD .zero

def add32n (a b : Num) : Num := (a.add b).fp32
def add64n (a b : Num) : Num := (a.add b).fp64

/-- R147: the shadow error of a sub-tile against a reference. -/
def shadowError (nr ref : List Num) : Num :=
  let d2 := (nr.zip ref).map (fun x => let d := (x.1.sub x.2).fp32; (d.mul d).fp32)
  let r2 := ref.map (fun x => (x.mul x).fp32)
  let num := (pressSum add32n add32n d2).sqrt32
  let sr := pressSum add32n add32n r2
  if sr.isZero then (if nr.all Num.isZero then .zero else .one) else num.div32 sr.sqrt32

/-- R147: the charge of one reference to the operand it tests. -/
def State.chargeShadow (s : State) (g : Nat) (w : Wide) (x : Operand) (nr ref : List Num) : State :=
  let e := shadowError nr ref
  let bad := nr.any (fun v => !v.isFin) && ref.all Num.isFin
  s.modRec g (tagRole x.tag x.role) w.fitStep (fun r =>
    { r with touched := true, shadowSamples := sat 64 (r.shadowSamples + 1),
             shadowErr := add64 r.shadowErr (e.toIeee .fp64 .near),
             shadowMax := if (Fmt.fp32.decode r.shadowMax).lt e then e.toFp32 else r.shadowMax,
             shadowMismatch := sat 64 (r.shadowMismatch + b2n bad) })

/-- R146: one reference: for each output of the sub-tile, the dot product over the whole reduction dimension in FP32. Cells beyond the
product are zero (R221). `warp` gives the warp at element `k` of a column, `weft` the weft of row `i` of the sub-tile at element `k`. -/
def shadowRef (w : Wide) (warp weft : Nat → Nat → Num) (rows n0 cols : Nat) : List Num :=
  (upto (rows * cols)).map (fun i =>
    let n := n0 + i % cols
    let prods := (upto w.mmK).map (fun k =>
      (if n < w.mmN then warp k n else .zero).mul (weft (i / cols) k))
    pressSum (fun a p => (a.add p).fp32) add32n prods)

/-- R146: an element of a narrow operand as decoded. -/
def State.narrowNum (s : State) (w : Wide) (x : Operand) (r c : Nat) : Num :=
  productNum w x.f x.t (s.readCode x.desc x.f r c) (if x.f.blockScaled && !w.mmInt then s.readScale x.desc w.heritage r c else 0x80)

/-- R146: an element of the wide copy of operand `x`, in the unit of Nr: under INT32 accumulation, which applies no 2^t, without the 2^t of
`x`. [DEDUCED, log 30] -/
def State.wideNum (s : State) (w : Wide) (v x : Operand) (r c : Nat) : Num :=
  let a := s.readNum v.desc v.f v.t w.heritage r c
  let a := if v.f = .int16 then a.scale2 v.t else a
  if w.mmInt && x.f.carriesT then a.scale2 (-x.t) else a

/-- R146: the weft of a sub-tile as decoded: from its view, or as the edge took it from its ring. -/
def State.shadowWeft (s : State) (w : Wide) (x : ShadowSample) (m0 hc i k : Nat) : Num :=
  if w.mmWeft.desc.isRing then
    (SMap.get [] x.weft ((x.row0 % 2 ^ 16 + i) * 2 ^ 16 + k / max hc 1)).getD (k % max hc 1) .zero
  else s.narrowNum w w.mmWeft (m0 + i) k

/-- R148: PRESS or QUANT tiles wait that the press unit of engine `g` may take. -/
def State.pressWaits (s : State) (g : Nat) : Bool :=
  (s.core (g / 4)).tileQ.any (fun x => match s.wide x.1 x.2 with
    | some w => (w.opcode == 4 && bit (fld w.n0 23 20) (g % 4)) || (w.opcode == 5 && bit (fld w.n0 13 10) (g % 4))
    | none => false)

/-- R147, R148: the press unit charges the engine's oldest sample whose rows are all taken, behind the engine's PRESS commands. -/
def doShadowCharge (g : Nat) (s : State) : State :=
  if !s.alive || (s.core (g / 4)).fence != .inService then s
  else
    let e := s.engine g
    match e.samples with
    | x :: rest =>
      if x.narrow.length < x.rows * x.cols || s.pressWaits g then s
      else
        let w := s.mmOf x.queue x.cseq
        let r := e.rect w.mmPleat
        let o := x.row0 / 2 ^ 16
        let m0 := w.mmRow0 r o + x.row0 % 2 ^ 16
        let n0 := w.mmCol r o * w.mmWc r + x.col0
        let s := s.setEngine g { e with samples := rest }
        let own := s.shadowWeft w x m0 (w.mmHc r)
        let rw := shadowRef w (s.wideNum w (w.operand 3) w.mmWarp) own x.rows n0 x.cols
        let rv := shadowRef w (s.narrowNum w w.mmWarp) (fun i k => s.wideNum w (w.operand 4) w.mmWeft (m0 + i) k) x.rows n0 x.cols
        let s := if bit w.n0 11 then s.chargeShadow g w w.mmWarp x.narrow rw else s
        let s := if bit w.n0 6 then s.chargeShadow g w w.mmWeft x.narrow rv else s
        (s.modWide x.queue x.cseq (fun w => { w with shadowLeft := w.shadowLeft - 1 })).mmMaybeDone g x.queue x.cseq
    | [] => s

def execShadowSampleCharge (e : Nat) (s : State) : Host.Outcome State Fault Refusal :=
  if e < 96 then .next (doShadowCharge e s) else .fault .noSuchUnit

end Sys2Proof.Machine
end

