-- ==== Sys2Proof/Machine/Press.lean ====
section
/-! DEFINITION. The press units (R226 to R228, R173, R189, R190): the checks of QUANT and PRESS, and the taking of press tiles (R241 to
R243). -/

namespace Sys2Proof.Machine

/-! ### Norm slots (R189 to R191) -/

/-- The key of a slot of a clip group. -/
def slotKeyOf (group slot : Nat) : Nat := 256 * group + slot

/-- R190: the blocks that hold a non-finite element, among elements with their blocks. -/
def badBlocks (xs : List (Num × Nat)) : List Nat := ((xs.filter (fun x => !x.1.isFin)).map (·.2)).eraseDups

/-- R173, R189: the sum of squares of a vector in FP64. -/
def sumSquares (xs : List Num) : Num := pressSum (fun a x => (a.add (x.mul x)).fp64) add64n xs

/-- R189, R190: one piece added to what earlier pieces gave; an element of a block in `bad` adds nothing to the squares. -/
def NormRec.addPiece (r : NormRec) (bad : List Nat) (xs : List (Num × Nat)) : NormRec :=
  let ys := xs.map (fun x => if decide (x.2 ∈ bad) then Num.zero else x.1)
  { r with sumsq := ((Fmt.fp64.decode r.sumsq).add (sumSquares ys)).toIeee .fp64 .near,
           nonFinite := r.nonFinite + (xs.filter (fun x => !x.1.isFin)).length, elements := r.elements + xs.length }

/-- R189: a shard of elements with their blocks, in its pieces. -/
def normShard (pieces : List (List (Num × Nat))) : NormRec :=
  let bad := badBlocks pieces.flatten
  pieces.foldl (fun r p => r.addPiece bad p) { nfBlocks := bad.length }

/-- Elements in pieces of 8,192, the last possibly short. -/
def piecesOf : Nat → List (Num × Nat) → List (List (Num × Nat))
  | 0, _ => []
  | k + 1, xs => if xs.isEmpty then [] else xs.take 8192 :: piecesOf k (xs.drop 8192)

/-- R190, R568: the block of element `i` of a view: its own where the format has block scales, otherwise 32 consecutive elements. -/
def Operand.blockOf (x : Operand) (heritage : Bool) (i : Nat) : Nat :=
  let e := x.desc.elem i
  if x.f.blockScaled && !heritage then x.desc.scaleIx e.1 e.2 else i / 32

/-- R191: a slot is filled. -/
def State.slotFilled (s : State) (group slot : Nat) : Bool := (SMap.get none s.normSlots (slotKeyOf group slot)).isSome

/-- R189: the slot that a command fills, if it fills one. -/
def Wide.normKey (w : Wide) : Option Nat :=
  if w.opcode = 5 ∧ fld w.n0 7 0 = 0x40 then some (slotKeyOf (fld w.n1 31 26) (fld w.n1 25 18))
  else if w.opcode = 8 ∧ (w.op = 0 ∨ w.op = 1 ∨ w.op = 4) ∧ bit w.n2 49 then some (slotKeyOf (fld w.n2 63 58) (fld w.n2 57 50))
  else none

/-- R191: a slot is filled, or an issued command that has not completed will fill it. -/
def State.slotTaken (s : State) (group slot : Nat) : Bool :=
  s.slotFilled group slot || s.queues.any (fun e => e.2.inflight.any (fun w =>
    w.stage == .issued && w.normKey == some (slotKeyOf group slot)))

/-- R189: a slot filled. -/
def State.fillSlot (s : State) (group slot : Nat) (r : NormRec) : State :=
  { s with normSlots := SMap.set none s.normSlots (slotKeyOf group slot) (some r) }

/-! ### Fields -/

def Wide.qSrc (w : Wide) : Operand := w.operand 0
def Wide.qDst (w : Wide) : Operand := w.operand 1
def Wide.qEmask (w : Wide) : Nat := fld w.n0 23 20
def Wide.pEmask (w : Wide) : Nat := fld w.n0 13 10
def Wide.pGroup (w : Wide) : Nat := fld w.n1 31 26
def Wide.pSlot (w : Wide) : Nat := fld w.n1 25 18
def Wide.pImm (w : Wide) : Nat := fld w.n1 63 32
/-- R226, R227: rnd and ovf. -/
def Wide.prRnd (w : Wide) : Bool := if w.opcode = 4 then bit w.n0 19 else bit w.n0 9
def Wide.prWrap (w : Wide) : Bool := if w.opcode = 4 then bit w.n0 18 else bit w.n0 8
def Wide.prBase (w : Wide) : Nat := fld w.n2 63 32
def Wide.prEmask (w : Wide) : Nat := if w.opcode = 4 then w.qEmask else w.pEmask

/-- R228: the reductions. -/
def isReduction (op : Nat) : Bool := decide (0x20 ≤ op) && decide (op ≤ 0x23)

/-- R228: the operations of PRESS. -/
def pressKnown (op : Nat) : Bool := decide (op ≤ 0x11) || isReduction op || op == 0x40

/-- The sources that a PRESS reads. -/
def Wide.pSources (w : Wide) : List Operand :=
  [w.operand 0] ++ (if pressReadsB w.pressOp then [w.operand 2] else []) ++ (if pressReadsC w.pressOp then [w.operand 3] else [])

/-- R228: the command computes on integers. -/
def Wide.pInt (w : Wide) : Bool :=
  w.pSources.all (fun x => x.f.isInt) && (isReduction w.pressOp || (decide (w.pressOp ≤ 0x0B) && w.qDst.f.isInt))

/-- The format whose conversion into the destination R81 must give. -/
def Wide.prFrom (w : Wide) : Fmt :=
  if w.opcode = 4 then w.qSrc.f
  else if w.pInt then .int32
  else if w.pressOp = 0x21 then .fp64 else .fp32

def Wide.prConv (w : Wide) (t : Int) : Conv := { src := w.prFrom, dst := w.qDst.f, t := t, wrap := w.prWrap, heritage := w.heritage, flush := w.heritage }

/-- R76: the command's conversion rounds stochastically. -/
def Wide.prStoch (w : Wide) : Bool := !(w.opcode == 5 && w.pressOp == 0x40) && w.qDst.stoch w.prFrom w.prRnd w.heritage

/-! ### Checks -/

/-- R226: the tensor scale of a QUANT's destination; none where t_cmd is set for a fit-controlled one. -/
def State.quantScale (s : State) (w : Wide) : Option Operand :=
  let x := w.qDst
  let cmd := bit w.n0 17
  if x.adapt then (if cmd then none else some (s.destScale x))
  else if cmd then some { x with t := sext 8 (fld w.n0 16 9) }
  else some { x with t := if x.tagged then ((s.entry x.tag).role x.role).t else 0 }

/-- R241: the press tiles of a destination of `n` elements. -/
def pressTiles (n : Nat) : Nat := cdiv n 8192

/-- R34, R293: every press unit of the command's emask reaches its views. -/
def State.pressReach (s : State) (core : Nat) (w : Wide) (xs : List Operand) : Bool :=
  (emaskEngines core w.prEmask).all (fun g => xs.all (fun x => s.rangesOk (.press g w.home) w.domain (x.desc.ranges x.f w.heritage)))

/-- R34, R165: the same of the staging buffer. -/
def State.pressStaging (s : State) (core : Nat) (w : Wide) : Bool :=
  (emaskEngines core w.prEmask).all (fun g => s.stagingOk [.press g w.home] w.domain w.qDst w.qDst.desc.count)

/-- R206, R226: the check of QUANT. [DEDUCED, log 30] -/
def State.checkQuant (s : State) (core : Nat) (w : Wide) : Verdict :=
  match s.quantScale w with
  | none => .fail stConflict
  | some x =>
    let w := { w with ops := SMap.set {} w.ops 1 x }
    let a := w.qSrc
    if w.qEmask = 0 ∨ !w.descsOk ∨ !w.heritageOk w.prRnd then .fail stConflict
    else if !a.fmtOk || !x.fmtOk || !convAllowed a.f x.f || a.desc.count != x.desc.count || a.desc.isRing || x.desc.isRing then
      .fail stConflict
    else if (bit w.n0 17 && !tOk (sext 8 (fld w.n0 16 9))) || !x.scaleOk || !s.streamOk w w.prStoch || !s.capacityOk x x.desc.count then
      .fail stConflict
    else if !s.pressReach core w [a, x] || !s.pressStaging core w then .trap trAddress
    else .pass { w with tiles := pressTiles x.desc.count, fmts := fmtsOf a.fmt 0 x.fmt 0 }

/-- The sources of a PRESS agree in their elements, and in their rows for a reduction. -/
def Wide.pShapes (w : Wide) : Bool :=
  let a := w.operand 0
  w.pSources.all (fun x => x.desc.count == a.desc.count && !x.desc.isRing && (!(isReduction w.pressOp) || x.desc.rows == a.desc.rows)) &&
  (w.pressOp == 0x40 || (!w.qDst.desc.isRing &&
    w.qDst.desc.count == (if isReduction w.pressOp then a.desc.rows else a.desc.count)))

/-- R206, R227, R228: the check of PRESS. [DEDUCED, log 30] -/
def State.checkPress (s : State) (core : Nat) (w : Wide) : Verdict :=
  let op := w.pressOp
  if !pressKnown op || w.pEmask == 0 || !w.descsOk || !w.heritageOk w.prRnd then .fail stConflict
  else if (pressReadsB op && !bit w.n0 23) || (pressReadsC op && !bit w.n0 18) then .fail stConflict
  else
    let w := { w with ops := if op = 0x40 then w.ops else SMap.set {} w.ops 1 (s.destScale w.qDst) }
    if !w.pSources.all (fun x => x.fmtOk) || !w.pShapes then .fail stConflict
    else if op = 0x40 then
      if !s.streamOk w false then .fail stConflict
      else if !s.pressReach core w w.pSources then .trap trAddress
      else .pass { w with tiles := 1, fmts := fmtsOf (w.operand 0).fmt 0 0 0 }
    else if !w.qDst.fmtOk || !convAllowed w.prFrom w.qDst.f || !s.streamOk w w.prStoch || !s.capacityOk w.qDst w.qDst.desc.count then .fail stConflict
    else if !s.pressReach core w (w.pSources ++ [w.qDst]) || !s.pressStaging core w then .trap trAddress
    else .pass { w with tiles := if isReduction op then (w.operand 0).desc.rows else pressTiles w.qDst.desc.count,
                        fmts := fmtsOf (w.operand 0).fmt 0 w.qDst.fmt 0 }

/-- R241: QUANT and PRESS issue into the tile queue; one with no tile is complete. -/
def State.issuePress (s : State) (core qi : Nat) (w : Wide) : Option State :=
  if w.tiles = 0 then some (s.complete qi w.cseq stOk) else s.enqueueTiles core qi w.cseq

/-! ### Sources -/

/-- R176, R228, R569: element `i` of a source as a PRESS operation in FP32 takes it: an integer source enters as its integer value, FP32+8
with its lining byte where the descriptor names a lining plane. -/
def State.pressVal (s : State) (w : Wide) (x : Operand) (i : Nat) : Num :=
  let (r, c) := x.desc.elem i
  if x.f.isInt then (Num.ofInt (s.readInt x.desc x.f w.heritage r c).1).fp32
  else if x.f = .fp64 ∧ !isReduction w.pressOp ∧ w.pressOp ≠ 0x40 then (s.readNum x.desc x.f x.t w.heritage r c).fp32
  else s.readNum x.desc x.f x.t w.heritage r c

/-- R569: element `i` of a source as an integer, and whether its block is a NaN block. -/
def State.pressInt (s : State) (w : Wide) (x : Operand) (i : Nat) : Int × Bool :=
  let (r, c) := x.desc.elem i
  s.readInt x.desc x.f w.heritage r c

/-- R226: element `i` of a QUANT's source. [DESIGN CHOICE, log 82] -/
def State.quantVal (s : State) (w : Wide) (i : Nat) : Num :=
  let x := w.qSrc
  let (r, c) := x.desc.elem i
  if x.f = .int32 ∨ x.f = .int16 then Num.ofInt (s.readInt x.desc x.f w.heritage r c).1
  else s.readNum x.desc x.f x.t w.heritage r c

/-! ### Operations (R228) -/

/-- R228: an elementwise operation in FP32; EXP to GELU are in Functions.lean. -/
def pressFp (op : Nat) (a b c imm : Num) : Num :=
  if op = 0 then a
  else if op = 1 then (a.add b).fp32
  else if op = 2 then (a.sub b).fp32
  else if op = 3 then (a.mul b).fp32
  else if op = 4 then ((a.mul b).add c).fp32
  else if op = 5 then (a.mul imm).fp32
  else if op = 6 then (a.add imm).fp32
  else if op = 7 then a.max b
  else if op = 8 then a.min b
  else if op = 9 then a.abs
  else if op = 10 then a.neg
  else if op = 11 then (if a = .nan then .nan else if a.signBit || a.isZero then .zero else a)
  else pressFunction op a

/-- R228: an elementwise operation on integers, exact; R82 applies when it is written. -/
def pressI (op : Nat) (a b c imm : Int) : Int :=
  if op = 0 then a
  else if op = 1 then a + b
  else if op = 2 then a - b
  else if op = 3 then a * b
  else if op = 4 then a * b + c
  else if op = 5 then a * imm
  else if op = 6 then a + imm
  else if op = 7 then max a b
  else if op = 8 then min a b
  else if op = 9 then (a.natAbs : Int)
  else if op = 10 then -a
  else max a 0

/-- R201: an addition of the press unit in FP32; a subnormal result is flushed in heritage mode. -/
def pressAdd (heritage : Bool) (a b : Num) : Num := Fmt.fp32.decode (flushFp32 heritage (a.add b).toFp32)

/-- R173, R201, R228: a reduction of a row in floating point. -/
def reduceFp (heritage : Bool) (op : Nat) (xs ys : List Num) : Num :=
  if op = 0x20 then pressSum (pressAdd heritage) (pressAdd heritage) xs
  else if op = 0x21 then sumSquares xs
  else if op = 0x22 then xs.foldl (fun m x => m.max x.abs) .zero
  else
    let ps := (xs.zip ys).map (fun x => x.1.mul x.2)
    pressSum (pressAdd heritage) (pressAdd heritage) ps

/-- R228: a reduction of integers, exact. -/
def reduceI (op : Nat) (xs ys : List Int) : Int :=
  if op = 0x20 then xs.foldl (· + ·) 0
  else if op = 0x21 then xs.foldl (fun a x => a + x * x) 0
  else if op = 0x22 then xs.foldl (fun m x => max m (x.natAbs : Int)) 0
  else (xs.zip ys).foldl (fun a x => a + x.1 * x.2) 0

/-- The value an elementwise command gives destination element `i`, and what its inputs held (R199). -/
def State.pressElem (s : State) (w : Wide) (i : Nat) : Num × Lineage :=
  if w.opcode = 4 then
    let v := s.quantVal w i
    (v, v.lineage)
  else if w.pInt then
    let g := fun ix => (s.pressInt w (w.operand ix) i).1
    (Num.ofInt (pressI w.pressOp (g 0) (g 2) (g 3) (sext 32 w.pImm)), .finite)
  else
    let g := fun ix rd => if rd then s.pressVal w (w.operand ix) i else Num.zero
    let a := g 0 true
    let b := g 2 (pressReadsB w.pressOp)
    let c := g 3 (pressReadsC w.pressOp)
    let imm := Fmt.fp32.decode w.pImm
    let usesImm := w.pressOp == 5 || w.pressOp == 6
    let v := pressFp w.pressOp a b c imm
    (Fmt.fp32.decode (flushFp32 w.heritage v.toFp32), lineages [a.lineage, b.lineage, c.lineage, if usesImm then imm.lineage else .finite])

/-- The value a reduction gives row `r`. -/
def State.pressRow (s : State) (w : Wide) (r : Nat) : Num × Lineage :=
  let a := w.operand 0
  let idx := (upto a.desc.cols).map (fun c => a.desc.index r c)
  if w.pInt then
    (Num.ofInt (reduceI w.pressOp (idx.map (fun i => (s.pressInt w a i).1))
      (if pressReadsB w.pressOp then idx.map (fun i => (s.pressInt w (w.operand 2) i).1) else [])), .finite)
  else
    let xs := idx.map (fun i => s.pressVal w a i)
    let ys := if pressReadsB w.pressOp then idx.map (fun i => s.pressVal w (w.operand 2) i) else []
    let v := reduceFp w.heritage w.pressOp xs ys
    (if w.pressOp = 0x21 then v else Fmt.fp32.decode (flushFp32 w.heritage v.toFp32), lineages ((xs ++ ys).map Num.lineage))

/-- R228, R569: the elements of NaN blocks among the integer sources of elements [lo, hi), which read as 0 and which a measured command
counts. -/
def State.nanBlockElems (s : State) (w : Wide) (lo hi : Nat) : List Nat :=
  if w.opcode = 5 then
    (w.pSources.filter (fun x => x.f.isInt)).flatMap (fun x => ((upto (hi - lo)).map (· + lo)).filter (fun i => (s.pressInt w x i).2))
  else []

/-! ### Press tiles (R241 to R243) -/

/-- R241: a reduction, whose press tiles are rows. -/
def Wide.pRed (w : Wide) : Bool := w.opcode == 5 && isReduction w.pressOp

/-- R165: the command's conversion is expanded: its wide values are staged, and t comes from their amax. An integer result, to which no t
applies (R81), is not. [DEDUCED, log 30] -/
def Wide.prStages (w : Wide) : Bool := w.qDst.toJit && !w.prFrom.isInt

/-- R165: a wide value as its staging buffer holds it, in FP32: of an FP32+8 value its word alone (R81). -/
def Wide.staged (w : Wide) (v : Num) : Nat :=
  if w.prFrom = .fp32p8 then (convElem { src := .fp32p8, dst := .fp32 } .near v).1 else v.toFp32

/-- R179: the draw of destination element `i`. -/
def State.prDraw (s : State) (w : Wide) (i : Nat) : Rnd :=
  let per := if w.pRed then 1 else 8192
  (s.rounding w w.prStoch).at (w.prBase + i / per) (i % per)

/-- The bytes of the sources that a tile of elements [lo, hi) reads, line by line. -/
def Operand.spanSegs (x : Operand) (lo hi : Nat) : List (Nat × Nat) :=
  if x.desc.layout = 1 then (x.desc.span lo hi).map (fun e => x.desc.seg x.f.width e.2 e.1 1)
  else
    let c := max x.desc.cols 1
    (upto (cdiv hi c - lo / c)).map (fun i =>
      let r := lo / c + i
      let a := max lo (r * c)
      let b := min hi (r * c + c)
      x.desc.seg x.f.width r (a - r * c) (b - a))

/-- Press tile `k` of a command carried out by global engine `g`'s press unit. [DESIGN CHOICE, log 81] -/
def State.pressTile (s : State) (g qi : Nat) (w : Wide) (k : Nat) : State :=
  let red := w.pRed
  let srcs := if w.opcode = 4 then [w.qSrc] else w.pSources
  let cols := (w.operand 0).desc.cols
  let lo := if red then k else 8192 * k
  let hi := if red then k + 1 else min (8192 * k + 8192) w.qDst.desc.count
  let segs := srcs.flatMap (fun x => if red then x.spanSegs (k * cols) (k * cols + cols) else x.spanSegs lo hi)
  let s := (s.markPoisoned qi w.cseq (segs.any (fun y => s.poisoned y.1 y.2))).countReads w.domain segs
  let x := w.qDst
  let get := fun i => if red then s.pressRow w i else s.pressElem w i
  let vals := (upto (hi - lo)).map (fun j => get (lo + j))
  let at_ := fun r c => let i := x.desc.index r c; if lo ≤ i ∧ i < hi then vals.getD (i - lo) (.zero, .finite) else get i
  let src : Source := { val := fun r c => (at_ r c).1, inputs := fun r c => (at_ r c).2, rnd := fun r c => s.prDraw w (x.desc.index r c) }
  let nb := if w.measures x then s.nanBlockElems w (if red then k * cols else lo) (if red then k * cols + cols else hi) else []
  let who := s.nanBy qi w g x
  let s := if w.prStages then
      let s := s.writeBytes (x.desc.jit + 4 * lo) (vals.flatMap (fun v => leBytes 4 (w.staged v.1)))
      (s.modWide qi w.cseq (fun u => u.stageInputs lo (vals.map (·.2)))).countBadOperand g w x nb.length
    else
      let (s, wr) := s.writeSpan x.desc (w.prConv x.t) (some w.domain) lo hi src
      let wr := { wr with q := { wr.q with nonFinite := wr.q.nonFinite + nb.length } }
      let s := if w.measures x then s.measure g x.tag x.role w.fitStep (vals.map (·.1)) x.f wr else s
      s.nanEvents who (elemPos x.desc) (w.measures x) wr
  let s := nb.foldl (fun s i => s.nanEvent who 2 0 (i % 2 ^ 64)) s
  ((s.scopeBegin (64 + g) (seqWord qi w.cseq)).scopeAdd (64 + g) (hi - lo)).addCtx w.domain 8 (hi - lo)

/-- R165: the staging buffer of a command converted into its destination, with t from its amax, by the press unit of engine `g`, which
carried out the last tile. -/
def State.pressExpand (s : State) (g qi : Nat) (w : Wide) : State :=
  let x := w.qDst
  let n := if w.pRed then (w.operand 0).desc.rows else x.desc.count
  let val := fun i => Fmt.fp32.decode (s.readLe (x.desc.jit + 4 * i) 4)
  let src : Source := { val := fun r c => val (x.desc.index r c), rnd := fun r c => s.prDraw w (x.desc.index r c),
                        inputs := fun r c => SMap.get .finite w.stagedIn (x.desc.index r c) }
  let all := (upto n).map val
  let t := tFor ((all.filter Num.isFin).foldl (fun m v => max m (fp32Up v)) 0) x.f ((s.entry x.tag).role x.role).margin
  let (s, wr) := s.writeSpan x.desc { w.prConv t with src := .fp32 } (some w.domain) 0 n src
  (s.measure g x.tag x.role w.fitStep all x.f wr).nanEvents (s.nanBy qi w g x) (elemPos x.desc) true wr

/-- R189: NORM_ACC, over the whole source. -/
def State.normAcc (s : State) (g qi : Nat) (w : Wide) : State :=
  let a := w.operand 0
  let n := a.desc.count
  let segs := a.spanSegs 0 n
  let s := (s.markPoisoned qi w.cseq (segs.any (fun y => s.poisoned y.1 y.2))).countReads w.domain segs
  let s := s.scopeBegin (64 + g) (seqWord qi w.cseq)
  s.fillSlot w.pGroup w.pSlot
    (normShard (piecesOf (n / 8192 + 1) ((upto n).map (fun i => (s.pressVal w a i, a.blockOf w.heritage i)))))

/-- R240, R165: a tile done; the command completes with its last one, after its expansion. -/
def State.pressTileDone (s : State) (g qi cseq : Nat) : State :=
  let s := s.modWide qi cseq (fun w => { w with done := w.done + 1 })
  match s.wide qi cseq with
  | some w => if w.done = w.tiles then (if w.prStages then s.pressExpand g qi w else s).finish qi cseq else s
  | none => s

/-- R242: a QUANT or PRESS of the tile queue qualifies for the press unit of global engine `g`. -/
def pressQualifies (g : Nat) (w : Wide) : Bool := (w.opcode == 4 || w.opcode == 5) && bit w.prEmask (g % 4)

/-- R242: global engine `g`, or its press unit, takes the lowest untaken tile of the command that qualifies. A press tile is carried out
as it is taken. -/
def doTakeTile (g : Nat) (press : Bool) (s : State) : State :=
  let core := g / 4
  if !s.alive || (s.core core).fence != .inService then s
  else if press then
    match s.pick (s.qualified core (fun _ w => pressQualifies g w)) with
    | some (qi, w) =>
      let k := w.taken
      let s := s.takeTile core qi w
      (if w.opcode = 5 ∧ w.pressOp = 0x40 then s.normAcc g qi w else s.pressTile g qi w k).pressTileDone g qi w.cseq
    | none => s
  else
    match s.pick (s.qualified core (fun qi w => s.mmQualifies g qi w)) with
    | some (qi, w) => s.takeMm g qi w
    | none => s

def execEngineTakeTile (e : Nat) (press : Bool) (s : State) : Host.Outcome State Fault Refusal :=
  if e < 96 then .next (doTakeTile e press s) else .fault .noSuchUnit

end Sys2Proof.Machine
end

