-- ==== Sys2Proof/Machine/Update.lean ====
section
/-! DEFINITION. The parameter update (R328 to R349): the update descriptor and its checks, recipes, block groups on either path, the
shard state block, and what follows an update engine that leaves ACTIVE. -/

namespace Sys2Proof.Machine

/-! ### Fields and the descriptor (R235, R333) -/

def Wide.updAddr (w : Wide) : Nat := (SMap.get 0 w.ck.a (fld w.n0 31 28)).toNat
def Wide.updHub (w : Wide) : Nat := fld w.n0 27 25
def Wide.updPath (w : Wide) : Bool := bit w.n0 24
def Wide.updClip (w : Wide) : Nat := fld w.n0 23 18
def Wide.updRecipe (w : Wide) : Nat := fld w.n0 17 10
def Wide.updCompiled (w : Wide) : Bool := bit w.n0 9
def Wide.updGroup (w : Wide) : Nat := fld w.n1 31 26

/-- R333: the update descriptor as its 128 bytes spell it. -/
def updDescOf (bs : List Byte) : UpdDesc :=
  { grad := leAt bs 0 8, gradScale := leAt bs 8 8, master := leAt bs 0x10 8, lining := leAt bs 0x18 8, mom1 := leAt bs 0x20 8,
    mom2 := leAt bs 0x28 8, train := leAt bs 0x30 8, trainScale := leAt bs 0x38 8, gen := leAt bs 0x40 8, genScale := leAt bs 0x48 8,
    state := leAt bs 0x50 8, elements := leAt bs 0x58 8, beta1 := leAt bs 0x60 4, beta2 := leAt bs 0x64 4, eps := leAt bs 0x68 4,
    wd := leAt bs 0x6C 4, trainCapacity := leAt bs 0x70 8, gradFmt := leAt bs 0x78 1, momFmt := leAt bs 0x79 1, copyFmt := leAt bs 0x7A 1,
    flags := leAt bs 0x7B 1, tagRole := leAt bs 0x7C 2, domain := leAt bs 0x7E 1, gradT := leAt bs 0x7F 1 }

def UpdDesc.trainEn (d : UpdDesc) : Bool := bit d.flags 0
def UpdDesc.genEn (d : UpdDesc) : Bool := bit d.flags 1
def UpdDesc.gradTEn (d : UpdDesc) : Bool := bit d.flags 2
def UpdDesc.tag (d : UpdDesc) : Nat := fld d.tagRole 11 0
def UpdDesc.role (d : UpdDesc) : Nat := fld d.tagRole 13 12
def UpdDesc.tagged (d : UpdDesc) : Bool := bit d.tagRole 14
def UpdDesc.fGrad (d : UpdDesc) : Fmt := (Fmt.ofCode d.gradFmt).getD .fp32
def UpdDesc.trainCode (d : UpdDesc) : Nat := fld d.copyFmt 3 0
def UpdDesc.genCode (d : UpdDesc) : Nat := fld d.copyFmt 7 4
/-- The format of a moment, 0 the first. -/
def UpdDesc.momCode (d : UpdDesc) (i : Nat) : Nat := if i = 0 then fld d.momFmt 3 0 else fld d.momFmt 7 4
def UpdDesc.momF (d : UpdDesc) (i : Nat) : Fmt := (Fmt.ofCode (d.momCode i)).getD .fp32
def UpdDesc.momAddr (d : UpdDesc) (i : Nat) : Nat := if i = 0 then d.mom1 else d.mom2

/-- A plane of the shard as a view of one row (R328). -/
def UpdDesc.plane (d : UpdDesc) (data scale : Nat) : Desc := { data := data, scale := scale, rows := 1, cols := d.elements }

/-- R328: the block groups of a shard. -/
def UpdDesc.groups (d : UpdDesc) : Nat := cdiv d.elements 8192

/-- R176, R201: the shard keeps FP32+8 master weights. -/
def UpdDesc.lined (d : UpdDesc) (heritage : Bool) : Bool := d.lining != 0 && !heritage

/-! ### Recipes (R336 to R339) -/

def opOf (w : Nat) : Nat := fld w 31 26
def dOf (w : Nat) : Nat := fld w 25 22
def aOf (w : Nat) : Nat := fld w 21 18
def bOf (w : Nat) : Nat := fld w 17 14
def cOf (w : Nat) : Nat := fld w 13 10

/-- The operations before END. -/
def recipeOps (ws : List Nat) : List Nat := (ws.take 16).takeWhile (fun w => opOf w != 0)

/-- R338: the fields an operation does not use are zero. -/
def unusedZero (w : Nat) : Bool :=
  let op := opOf w
  fld w 9 0 == 0 &&
  (if op = 4 then true
   else if op = 11 then dOf w == 0 && cOf w == 0
   else if op = 6 ∨ op = 7 ∨ op = 8 then bOf w == 0 && cOf w == 0
   else cOf w == 0)

/-- R339: a recipe is valid. -/
def recipeValid (ws : List Nat) : Bool :=
  let ops := recipeOps ws
  decide (ops.length < 16) && ops.all (fun w => decide (opOf w ≤ 11) && unusedZero w && (opOf w == 11 || (decide (2 ≤ dOf w) && decide (dOf w ≤ 7)))) &&
  decide ((ops.filter (fun w => opOf w == 11)).length ≤ 1)

/-- The words of a recipe slot in force. -/
def State.recipeWords (s : State) (slot : Nat) : List Nat := (upto 16).map (fun i => s.reg (0x02800800 + 0x40 * slot + 4 * i))

/-- R337: a recipe reads operand `k` of 8 to 15. -/
def readsOperand (ws : List Nat) (k : Nat) : Bool := (recipeOps ws).any (fun w => [aOf w, bOf w, cOf w].contains k)

/-- R337: a recipe names moment `i`. -/
def namesMoment (ws : List Nat) (i : Nat) : Bool := (recipeOps ws).any (fun w => [dOf w, aOf w, bOf w, cOf w].contains (2 + i))

/-- The recipe writes moment `i`. -/
def writesMoment (ws : List Nat) (i : Nat) : Bool := (recipeOps ws).any (fun w => opOf w != 11 && dOf w == 2 + i)

/-- R338: the recipe sets the master. -/
def hasStep (ws : List Nat) : Bool := (recipeOps ws).any (fun w => opOf w == 11)

/-- R337: the operands of one element: 16 FP32 values by number, the full master value, and the new master once STEP has run. -/
structure RecipeRun where
  regs : List Num
  full : Num
  next : Option Num := none
deriving DecidableEq, Repr

/-- R338: SIGN. -/
def signNum : Num → Num
  | .nan => .nan
  | .inf s => .fin s 1 0
  | .fin s m _ => if m = 0 then .zero else .fin s 1 0

/-- R338: one micro-operation; `lined` chooses the rounding of STEP, which writes operand W too (R337). -/
def microOp (lined : Bool) (r : RecipeRun) (w : Nat) : RecipeRun :=
  let g := fun i => r.regs.getD i .zero
  let a := g (aOf w)
  let b := g (bOf w)
  let c := g (cOf w)
  let op := opOf w
  if op = 11 then
    let x := r.full.sub (a.mul b)
    let y := if lined then (let p := toFp32p8 x; ofFp32p8 p.1 p.2) else x.fp32
    { r with next := some y, regs := r.regs.set 1 y.fp32 }
  else
    let v := if op = 1 then (a.add b).fp32 else if op = 2 then (a.sub b).fp32 else if op = 3 then (a.mul b).fp32
      else if op = 4 then ((a.mul b).add c).fp32 else if op = 5 then a.div32 b else if op = 6 then a.sqrt32
      else if op = 7 then signNum a else if op = 8 then a.abs else if op = 9 then a.max b else a.min b
    { r with regs := r.regs.set (dOf w) v }

/-! ### Checks (R334) -/

/-- R572: t_g, none where the gradient's G role has no such t. -/
def State.tGrad (s : State) (d : UpdDesc) : Option Int :=
  if !d.fGrad.blockScaled then some 0
  else if d.gradTEn then some (sext 8 d.gradT)
  else if d.tagged && (s.entry d.tag).valid then
    let f := (s.entry d.tag).g
    if f.mode = 2 then some f.fixedT else if f.mode = 1 ∨ f.coldLeft ≠ 0 then none else some f.t
  else some 0

/-- R331: the W role of the descriptor's tag controls the copies' scales. -/
def State.updFit (s : State) (d : UpdDesc) : Bool := d.tagged && (s.entry d.tag).valid

/-- R331, R165: t comes from the amax of the new master values. -/
def State.updJit (s : State) (d : UpdDesc) : Bool := s.updFit d && ((s.entry d.tag).w.scale).isNone

/-- R331, R135: the training copy as an operand; none where ADAPT names a tag that is not valid. -/
def State.trainOperand (s : State) (d : UpdDesc) : Option Operand :=
  let f := (s.entry d.tag).w
  let view := d.plane d.train d.trainScale
  if d.trainCode = 0xF then
    if s.updFit d then some { desc := view, fmt := f.fmtAt f.rung, t := (f.scale).getD 0, tag := d.tag, role := 0, tagged := true, adapt := true, toJit := s.updJit d }
    else none
  else some { desc := view, fmt := d.trainCode, t := if s.updFit d then (f.scale).getD 0 else 0, tag := d.tag, role := 0, tagged := d.tagged, toJit := s.updJit d }

/-- R331: the generation copy as an operand. -/
def State.genOperand (s : State) (d : UpdDesc) : Operand :=
  let h := (s.history s.tailor.bank (tagRole d.tag 0)).foldl max 0
  let t := if s.updFit d then tFor h ((Fmt.ofCode d.genCode).getD .fp4) (s.entry d.tag).w.margin else 0
  { desc := d.plane d.gen d.genScale, fmt := d.genCode, t := t, tag := d.tag, role := 0, tagged := false, toJit := s.updJit d }

/-- R333: the gradient formats. -/
def gradFmtOk (code : Nat) : Bool := match Fmt.ofCode code with | some f => f == .fp32 || f == .bf16 || f == .e4m3 || f == .e5m2 | none => false
def momFmtOk (code : Nat) : Bool := match Fmt.ofCode code with | some f => f == .fp32 || f == .bf16 | none => false
/-- R331, R201: the copy formats. -/
def trainFmtOk (x : Operand) (heritage : Bool) : Bool := x.fmtOk && (x.adapt || x.f == .bf16 || x.f.blockScaled) && (!heritage || (heritageFmt x.f && !x.adapt))
def genFmtOk (x : Operand) (heritage : Bool) : Bool := x.fmtOk && x.f.blockScaled && (!heritage || heritageFmt x.f)

/-- R333: a nibble that names a training copy's format, enabled or not: a format of R55, or ADAPT. [DEDUCED, log 39] -/
def copyNamed (code : Nat) : Bool := code == 0xF || (Fmt.ofCode code).isSome

/-- R333, R334: the fields and addresses of a descriptor. -/
def updFieldsOk (d : UpdDesc) (ws : List Nat) (w : Wide) : Bool :=
  let tr := w.operand 1
  let ge := w.operand 2
  gradFmtOk d.gradFmt && decide (d.elements ≠ 0) && d.elements % 32 == 0 && decide (d.elements < 2 ^ 40) && fld d.flags 7 3 == 0 &&
  d.role == 0 && !bit d.tagRole 15 && d.domain == w.domain &&
  (upto 2).all (fun i => !namesMoment ws i || (momFmtOk (d.momCode i) && d.momAddr i != 0)) &&
  copyNamed d.trainCode && (Fmt.ofCode d.genCode).isSome &&
  d.grad != 0 && d.master != 0 && d.state != 0 && (!d.fGrad.blockScaled || d.gradScale != 0) &&
  (!d.trainEn || (d.train != 0 && trainFmtOk tr w.heritage && (!tr.f.blockScaled || d.trainScale != 0))) &&
  (!d.genEn || (d.gen != 0 && genFmtOk ge w.heritage && d.genScale != 0)) &&
  (d.trainCode != 0xF || d.tagged) && (!d.gradTEn || tOk (sext 8 d.gradT))

/-- The planes that a UPD reads and writes. -/
def updRanges (d : UpdDesc) (ws : List Nat) (w : Wide) : List (Nat × Nat) :=
  let n := d.elements
  let tr := w.operand 1
  let ge := w.operand 2
  let scale := fun (f : Fmt) a => if f.blockScaled && !w.heritage then [(a, n / 32)] else []
  [(d.grad, packed n d.fGrad.width), (d.master, 4 * n), (d.state, 64)] ++ scale d.fGrad d.gradScale ++
  (if d.lined w.heritage then [(d.lining, n)] else []) ++
  ((upto 2).filter (namesMoment ws)).map (fun i => (d.momAddr i, packed n (d.momF i).width)) ++
  (if d.trainEn then (d.train, packed n tr.f.width) :: scale tr.f d.trainScale else []) ++
  (if d.genEn then (d.gen, packed n ge.f.width) :: scale ge.f d.genScale else [])

/-- R334: every non-zero address of the descriptor, used or not. -/
def updAddrs (d : UpdDesc) : List Nat :=
  [d.grad, d.gradScale, d.master, d.lining, d.mom1, d.mom2, d.train, d.trainScale, d.gen, d.genScale, d.state].filter (· != 0)

/-- R294, R313, R334: the addresses are reached: on path 0 they lie in the local region of the named hub. -/
def State.updReach (s : State) (d : UpdDesc) (ws : List Nat) (w : Wide) : Bool :=
  let who : Agent := if w.updPath then .collective else .hub w.updHub
  s.rangesOk who w.domain (updRanges d ws w) && s.rangesOk who w.domain ((updAddrs d).map (fun a => (a, 1)))

/-- R332, R217: a stochastic moment is written, so a stream is needed. -/
def updStoch (d : UpdDesc) (ws : List Nat) : Bool := (upto 2).any (fun i => writesMoment ws i && d.momF i == .bf16)

/-- R169: the reserved capacity of an ADAPT training copy, at the top rung. -/
def State.trainCapacityOk (s : State) (d : UpdDesc) : Bool :=
  let f := (s.entry d.tag).w
  !(d.trainEn && d.trainCode == 0xF) || decide (packed d.elements (((Fmt.ofCode (f.fmtAt f.top)).getD .fp32).width) ≤ d.trainCapacity)

/-- R206, R334: the check of UPD. [DEDUCED, log 39] -/
def State.checkUpd (s : State) (w : Wide) : Verdict :=
  match w.upd with
  | none => .fail stConflict
  | some d =>
    let ops := recipeOps w.recipe
    if 32 ≤ w.updRecipe ∨ ops.isEmpty ∨ w.normOf.isNone then .fail stConflict
    else match s.tGrad d with
      | none => .fail stConflict
      | some t =>
        if !updFieldsOk d w.recipe w || !s.trainCapacityOk d || !s.streamOk w (updStoch d w.recipe) then .fail stConflict
        else if !s.updReach d w.recipe w then .trap trAddress
        else .pass { w with tG := t, tiles := d.groups, fmts := fmtsOf d.gradFmt 0 (if d.trainEn then (w.operand 1).fmt else 0) 0 }

/-! ### Norm records (R188, R195, R236) -/

/-- R236: the UPD is bound at dispatch to the last COLL NORM of its clip group to issue. [DEDUCED, log 39] -/
def State.bindNorm (s : State) (w : Wide) : Wide :=
  let l := SMap.get ({} : LastNorm) s.lastNorm w.updClip
  if l.issued then { w with normOf := some (l.queue, l.cseq), normRec := l.result } else w

/-- Fields of a reduced record. [DEDUCED, log 39] -/
def normStatus (r : List Byte) : Nat := leAt r 0x2E 1
def normNonFinite (r : List Byte) : Nat := leAt r 8 8
def normPolicy (r : List Byte) : Nat := leAt r 0x2C 1
def normScale (r : List Byte) : Num := Fmt.fp32.decode (leAt r 0x30 4)

/-- R195: what the reduced record decides: an update, or none, its status, and the outcome byte of R247. -/
def updOutcome (r : List Byte) : Bool × Nat × Nat :=
  if normStatus r ≠ stOk then (false, normStatus r, 0)
  else if normNonFinite r = 0 then (true, stOk, 0)
  else if normPolicy r = 0 then (false, stOk, 0x80)
  else if normPolicy r = 1 then (true, stOk, 0x81)
  else (true, stOk, 0x82)

/-! ### Issue (R236, R341, R344, R347) -/

/-- R346: hub `h`'s update engine is ACTIVE. -/
def State.updActive (s : State) (h : Nat) : Bool := !decide (h ∈ s.upd.notActive)

/-- The UPDs that hub `h`'s engine holds. -/
def State.accepted (s : State) (h : Nat) : List (Nat × Nat) := SMap.get [] s.upd.accepted h

/-- R341: UPD_LR of the group latched. -/
def State.latchLr (s : State) (g : Nat) : Nat × State :=
  let v := s.reg (0x02800100 + 8 * g)
  let seen := SMap.get 0 s.upd.seen g
  (fld v 31 0, { s with upd := { s.upd with seen := SMap.set 0 s.upd.seen g (put (fld v 63 32) 63 32 + (seen % 2 ^ 32 + 1) % 2 ^ 32) } })

/-- R236, R344, R347: UPD issues once its norm record is latched and an engine takes it. -/
def State.issueUpd (s : State) (qi : Nat) (w : Wide) : Option State :=
  if w.normRec.isNone then none
  else
    let h := w.updHub
    let fall := w.updPath || !s.updActive h
    if !fall && decide (16 ≤ (s.accepted h).length) then none
    else
      let (lr, s) := if w.updCompiled then (fld w.n1 63 32, s) else s.latchLr w.updGroup
      let s := s.modWide qi w.cseq (fun w => { w with lr := lr, fallback := fall })
      if fall then
        let s := if w.updPath then s else { s with upd := { s.upd with redirected := sat 32 (s.upd.redirected + 1) } }
        some { s with upd := { s.upd with fallback := s.upd.fallback ++ [(qi, w.cseq)] } }
      else some { s with upd := { s.upd with accepted := SMap.set [] s.upd.accepted h (s.accepted h ++ [(qi, w.cseq)]) } }

/-- R346: a hub's update engine leaves ACTIVE: what it had accepted goes on on the fall-back path, in order. -/
def State.updLeaves (s : State) (h : Nat) : State :=
  if !s.updActive h then s
  else
    let xs := s.accepted h
    let s := { s with upd := { s.upd with notActive := setIns s.upd.notActive h, accepted := SMap.set [] s.upd.accepted h [],
                                          fallback := s.upd.fallback ++ xs, resumed := sat 32 (s.upd.resumed + xs.length) } }
    (xs.foldl (fun s x => s.modWide x.1 x.2 (fun w => { w with fallback := true })) s).maskArb (.hubIngress h)

/-! ### Block groups (R329 to R332) -/

/-- The unit that runs a UPD (R198): its hub's engine, or the collective engine. -/
def Wide.updUnit (w : Wide) : Nat := if w.fallback then 104 else 96 + w.updHub

/-- R143: where its measured figures go. -/
def Wide.updMeasureUnit (w : Wide) : Nat := if w.fallback then tableUnit else 96 + w.updHub

/-- The full master value of element `i` (R83, R176). -/
def State.masterAt (s : State) (d : UpdDesc) (heritage : Bool) (i : Nat) : Num :=
  let v := s.readLe (d.master + 4 * i) 4
  if d.lined heritage then ofFp32p8 v (s.readLe (d.lining + i) 1) else Fmt.fp32.decode v

/-- The new master written, word and lining byte together (R85). -/
def State.writeMaster (s : State) (d : UpdDesc) (heritage : Bool) (i : Nat) (x : Num) : State :=
  if d.lined heritage then
    let p := toFp32p8 x
    (s.writeLe (d.master + 4 * i) 4 p.1).writeLe (d.lining + i) 1 p.2
  else s.writeLe (d.master + 4 * i) 4 x.toFp32

/-- R329 step 2: the operands G of elements [lo, hi), with m, and zeroed blocks under ZERO_BLOCKS; beside each what the element and m
held. -/
def State.gradients (s : State) (d : UpdDesc) (w : Wide) (m : Num) (zero : Bool) (lo hi : Nat) : List (Num × Lineage) :=
  let xs := (upto (hi - lo)).map (fun j => s.readNum (d.plane d.grad d.gradScale) d.fGrad w.tG w.heritage 0 (lo + j))
  (upto xs.length).map (fun j =>
    let blk := (xs.drop (j / 32 * 32)).take 32
    if zero && blk.any (fun x => !x.isFin) then (Num.zero, .finite) else
      let g := xs.getD j .zero
      ((g.mul m).fp32, g.lineage.join m.lineage))

/-- What the recipe gives for one element: the new master where it has a STEP, the new moments, and what the inputs held (R199). -/
structure ElemOut where
  full : Num
  next : Option Num
  m1 : Num
  m2 : Num
  inputs : Lineage
deriving DecidableEq, Repr

/-- R199, R337: the constant operands that are inputs of the recipe: beta1, beta2, eps, wd and the step size, where it names them; the bias
terms stand for the beta that they come from. -/
def constInputs (recipe : List Nat) (consts : List Num) : List Lineage :=
  ([(8, [8, 13]), (9, [9, 14]), (10, [10]), (11, [11]), (12, [12])].filter (fun x => x.2.any (readsOperand recipe))).map
    (fun x => (consts.getD (x.1 - 8) .zero).lineage)

/-- R329 step 3: the recipe on one element: its gradient operand `g`, and what the gradient element held. -/
def State.updElem (s : State) (d : UpdDesc) (w : Wide) (consts : List Num) (i : Nat) (g : Num) (gin : Lineage) : ElemOut :=
  let mom := fun k => if namesMoment w.recipe k then s.readNum (d.plane (d.momAddr k) 0) (d.momF k) 0 w.heritage 0 i else Num.zero
  let full := s.masterAt d w.heritage i
  let m1 := mom 0
  let m2 := mom 1
  let regs := [g, full.fp32, m1, m2, .zero, .zero, .zero, .zero] ++ consts
  let r := (recipeOps w.recipe).foldl (microOp (d.lined w.heritage)) { regs := regs, full := full }
  { full := full, next := r.next, m1 := r.regs.getD 2 .zero, m2 := r.regs.getD 3 .zero,
    inputs := lineages ([gin, full.lineage, m1.lineage, m2.lineage] ++ constInputs w.recipe consts) }

/-- R337: operands 8 to 15. -/
def updConsts (d : UpdDesc) (lr optStep : Nat) : List Num :=
  let b1 := Fmt.fp32.decode d.beta1
  let b2 := Fmt.fp32.decode d.beta2
  [b1, b2, Fmt.fp32.decode d.eps, Fmt.fp32.decode d.wd, Fmt.fp32.decode lr, biasTerm b1 (optStep + 1), biasTerm b2 (optStep + 1), Num.one]

/-- R332: the rounding of moment `k`, element `i` of the shard. -/
def State.momRounding (s : State) (w : Wide) (k i : Nat) : Rnd :=
  match s.seedOf (s.streamKey w) with
  | some k1 => (Rounding.stoch (s.streamKey w) k1 ((streamSite w.n3 + k) % 65536) w.fitStep).at (i / 8192) (i % 8192)
  | none => .near

/-- Non-finite master values and moments written: one event for each (R198). -/
def State.updEvents (s : State) (qi : Nat) (w : Wide) (i : Nat) (l : Lineage) (v : Num) : State :=
  if v.isFin then s
  else s.nanEvent (s.nanBy qi w w.updUnit { (w.operand 1) with role := 0 }) (l.kind v) (nanValue v) i

/-- R329 step 4: the moments of one element that the recipe wrote. -/
def State.writeMoments (s : State) (qi : Nat) (d : UpdDesc) (w : Wide) (i : Nat) (o : ElemOut) : State :=
  (upto 2).foldl (fun s k =>
    if writesMoment w.recipe k then
      let v := if k = 0 then o.m1 else o.m2
      let f := d.momF k
      let code := if f = .bf16 then (convElem { src := .fp32, dst := .bf16 } (s.momRounding w k i) v).1 else v.toFp32
      let s := s.writeElems (d.plane (d.momAddr k) 0) f (some w.domain) [(0, i, code)]
      s.updEvents qi w i o.inputs (f.decode code)
    else s) s

/-- R331: one narrow copy of elements [lo, lo + n), from their new master values, measured where it is the training copy's. -/
def State.writeCopy (s : State) (qi : Nat) (d : UpdDesc) (w : Wide) (x : Operand) (measured : Bool) (lo : Nat) (vals : List Num) (t : Int) : State :=
  let hi := lo + vals.length
  let at_ := fun c => vals.getD (c - lo) .zero
  let k : Conv := { src := if d.lined w.heritage then .fp32p8 else .fp32, dst := x.f, t := if x.f.carriesT then t else 0, heritage := w.heritage }
  let src : Source := { val := fun _ c => at_ c, rnd := fun _ _ => .near, inputs := fun _ c => (at_ c).lineage }
  let (s, wr) := s.writeSpan x.desc k (some w.domain) lo hi src
  let s := if measured then s.measure w.updMeasureUnit x.tag 0 w.fitStep vals x.f wr else s
  s.nanEvents (s.nanBy qi w w.updUnit { (w.operand 1) with role := 0 }) (elemPos x.desc) measured wr

/-- R140, R331: the training copy's conversion is measured. -/
def Wide.updMeasured (w : Wide) : Bool := (w.operand 1).adapt || (w.measBit && (w.operand 1).tagged)

/-- R329 step 5: the copies of the elements from `lo` on with these master values, with the tensor scales of their operands, or of an
amax. -/
def State.writeCopies (s : State) (qi : Nat) (d : UpdDesc) (w : Wide) (lo : Nat) (vals : List Num) (amax : Option Nat) : State :=
  let tOf := fun (x : Operand) => match amax with | some h => tFor h x.f (s.entry d.tag).w.margin | none => x.t
  let s := if d.trainEn then s.writeCopy qi d w (w.operand 1) w.updMeasured lo vals (tOf (w.operand 1)) else s
  if d.genEn then s.writeCopy qi d w (w.operand 2) false lo vals (tOf (w.operand 2)) else s

/-- The bytes of a block group that are read: gradient, master, lining, moments (R329 step 1). -/
def updReads (d : UpdDesc) (w : Wide) (lo hi : Nat) : List (Nat × Nat) :=
  let seg := fun a f => Desc.seg (d.plane a 0) f 0 lo (hi - lo)
  [seg d.grad d.fGrad.width, (d.master + 4 * lo, 4 * (hi - lo))] ++
  (if d.fGrad.blockScaled && !w.heritage then [(d.gradScale + lo / 32, (hi - lo) / 32)] else []) ++
  (if d.lined w.heritage then [(d.lining + lo, hi - lo)] else []) ++
  ((upto 2).filter (namesMoment w.recipe)).map (fun k => seg (d.momAddr k) (d.momF k).width)

/-- Elements updated, counted (R526, R527). -/
def State.countUpd (s : State) (w : Wide) (n : Nat) : State :=
  (s.addGctr (if w.fallback then 872 else 864 + w.updHub) n).addCtx w.domain 9 n

/-- R329: block group `g` of a shard: its copies are made from the new master values as they leave the recipe, whatever the memory behind
them holds. In a split pass (R165) the copies follow after the last one. -/
def State.blockGroup (s : State) (qi : Nat) (d : UpdDesc) (w : Wide) (m : Num) (zero split : Bool) (g : Nat) : State :=
  let lo := 8192 * g
  let hi := min (lo + 8192) d.elements
  let reads := updReads d w lo hi
  let s := (s.markPoisoned qi w.cseq (s.rangesPoisoned reads)).countReads w.domain reads
  let consts := updConsts d w.lr (s.readLe d.state 8)
  let gs := s.gradients d w m zero lo hi
  let outs := (upto (hi - lo)).map (fun j => (lo + j, let g := gs.getD j (.zero, .finite); s.updElem d w consts (lo + j) g.1 g.2))
  let s := outs.foldl (fun s x =>
    let s := match x.2.next with
      | some v => (s.writeMaster d w.heritage x.1 v).updEvents qi w x.1 x.2.inputs v
      | none => s
    s.writeMoments qi d w x.1 x.2) s
  let s := if hasStep w.recipe then
      let s := s.countBytes (some w.domain) false (d.master + 4 * lo) (4 * (hi - lo))
      if d.lined w.heritage then s.countBytes (some w.domain) false (d.lining + lo) (hi - lo) else s
    else s
  let vals := outs.map (fun x => x.2.next.getD x.2.full)
  let amax := (vals.filter Num.isFin).foldl (fun m v => max m (fp32Up v)) 0
  let s := s.modWide qi w.cseq (fun w => { w with amax := max w.amax amax })
  let s := if split then s.modWide qi w.cseq (fun w => { w with
      split := (upto vals.length).foldl (fun m j => SMap.set none m (lo + j) (some (vals.getD j .zero, .finite))) w.split })
    else s.writeCopies qi d w lo vals none
  (s.countUpd w (hi - lo)).writeLe (d.state + 8) 8 (g + 1)

/-! ### The end of an update (R330) -/

/-- R330, R335: the shard state block after a UPD; `applied` where the update was made. -/
def State.writeShard (s : State) (d : UpdDesc) (w : Wide) (applied : Bool) (status outcome amax : Nat) : State :=
  let s := if applied then
      ((s.writeLe d.state 8 ((s.readLe d.state 8 + 1) % 2 ^ 64)).writeLe (d.state + 8) 8 0).writeLe (d.state + 0x18) 4 amax
    else s
  ((s.writeLe (d.state + 0x10) 8 (w.fitStep % 2 ^ 64)).writeLe (d.state + 0x1C) 1 status).writeLe (d.state + 0x1D) 1 outcome

/-- R347: a UPD that has ended leaves its engine. -/
def State.updGone (s : State) (qi cseq : Nat) : State :=
  let u := s.upd
  { s with upd := { u with fallback := u.fallback.filter (· != (qi, cseq)),
                           accepted := SMap.mapVals [] (fun _ xs => xs.filter (· != (qi, cseq))) u.accepted } }

/-- A UPD ends. -/
def State.updEnd (s : State) (qi cseq status outcome : Nat) : State :=
  ((s.modWide qi cseq (fun w => { w with outcome := outcome })).complete qi cseq status).updGone qi cseq

/-- R341: a step size that is negative or not finite. -/
def badLr (code : Nat) : Bool := match Fmt.fp32.decode code with | .fin s m _ => s && m != 0 | _ => true

/-- R347: the UPDs of one engine complete in the order it accepted them: this one is the oldest it holds. [DEDUCED, log 39] -/
def State.updFirst (s : State) (qi : Nat) (w : Wide) : Bool :=
  (if w.fallback then s.upd.fallback else s.accepted w.updHub).head? == some (qi, w.cseq)

/-- R329, R330, R195: the next block group of a UPD, or its end where no update is made. [DEDUCED, log 39] -/
def State.updStep (s : State) (qi : Nat) (w : Wide) (d : UpdDesc) (r : List Byte) : State :=
  let (applied, status, outcome) := updOutcome r
  if w.done = 0 ∧ (s.readLe (d.state + 8) 8 ≠ 0 ∨ s.poisoned d.state 64) then
    (s.markPoisoned qi w.cseq (s.poisoned d.state 64)).updEnd qi w.cseq stContained 0
  else if !applied || badLr w.lr then
    let status := if applied then stConflict else status
    let outcome := if applied then 0 else outcome
    (s.writeShard d w false status outcome 0).updEnd qi w.cseq status outcome
  else
    let split := (w.operand 1).toJit && (d.trainEn || d.genEn)
    let s := s.blockGroup qi d w (normScale r) (outcome == 0x81) split w.done
    let s := s.modWide qi w.cseq (fun w => { w with done := w.done + 1 })
    if w.done + 1 < d.groups then s
    else
      let w := (s.wide qi w.cseq).getD w
      let amax := w.amax
      let s := if split then (upto d.groups).foldl (fun s g =>
          let lo := 8192 * g
          s.writeCopies qi d w lo ((upto (min 8192 (d.elements - lo))).map (fun j => ((SMap.get none w.split (lo + j)).map (·.1)).getD .zero))
            (some amax)) s else s
      let bad := match s.wide qi w.cseq with | some w => w.poisoned | none => false
      let status := if bad then stContained else stOk
      (s.writeShard d w true status outcome amax).updEnd qi w.cseq status outcome

/-- R329: UPD_BLOCK_GROUP of the UPD with sequence number cseq of core queue q of core c. -/
def doUpdBlockGroup (qi cseq : Nat) (s : State) : State :=
  if !s.alive then s
  else match s.wide qi cseq with
    | some w => match w.upd, w.normRec with
      | some d, some r => if w.opcode == 9 && w.stage == .issued && s.updFirst qi w then s.updStep qi w d r else s
      | _, _ => s
    | none => s

def execUpdBlockGroup (c q cseq : Nat) (s : State) : Host.Outcome State Fault Refusal :=
  if c < 24 ∧ q < 8 then .next (doUpdBlockGroup (8 * c + q) cseq s) else .fault .noSuchUnit

end Sys2Proof.Machine
end

