-- ==== Sys2Proof/Machine/Collective.lean ====
section
/-! DEFINITION. The collective engine (R382 to R390): signatures, trees and homes, partials, results, and norm records (R188 to R193). -/

namespace Sys2Proof.Machine

/-! ### Fields of COLL (R232) -/

def Wide.coRop (w : Wide) : Nat := fld w.n0 27 24
def Wide.coComm (w : Wide) : Nat := fld w.n0 23 16
def Wide.coAux (w : Wide) : Bool := bit w.n0 3
def Wide.coRnd (w : Wide) : Bool := bit w.n0 2
def Wide.coGroup (w : Wide) : Nat := fld w.n2 63 58
def Wide.coSlot (w : Wide) : Nat := fld w.n2 57 50
def Wide.coNorm (w : Wide) : Bool := bit w.n2 49
def Wide.coSrc (w : Wide) : Operand := w.operand 0
def Wide.coDst (w : Wide) : Operand := w.operand 1

def collKind (op : Nat) : CollKind :=
  if op = 0 then .allreduce else if op = 1 then .reduceScatter else if op = 2 then .allgather else if op = 3 then .broadcast
  else if op = 4 then .reduce else .norm

/-- A reducing collective, a copying one, and one of records. -/
def CollKind.reduces : CollKind → Bool | .allreduce | .reduceScatter | .reduce => true | _ => false
def CollKind.copies : CollKind → Bool | .allgather | .broadcast => true | _ => false
def CollKind.records : CollKind → Bool | .norm | .stepEnd => true | _ => false

/-- The clip groups of a mask, rising. -/
def maskGroups (mask : Nat) : List Nat := (upto 64).filter (bit mask)

/-! ### The tree and its homes (R384) -/

/-- R384: the home of the node at level ℓ, index i, of chunk x. -/
def homeOf (n x : Nat) : Nat → Nat → Nat
  | 0, i => i
  | l + 1, i => if (2 * i + 1) * 2 ^ l < n ∧ bit x l then homeOf n x l (2 * i + 1) else homeOf n x l (2 * i)

/-- R384, R201: the home of a node; under linear order level 1 index i is the sum of ranks 0 to i, at rank 0. -/
def Coll.home (c : Coll) (x l i : Nat) : Nat := if c.linear then (if l = 0 then i else 0) else homeOf c.n x l i

/-- The levels of the tree. -/
def treeDepth (n : Nat) : Nat := if n ≤ 1 then 0 else Nat.log2 (n - 1) + 1

/-- The root. -/
def Coll.root (c : Coll) : Nat × Nat := if c.linear then (if c.n ≤ 1 then (0, 0) else (1, c.n - 1)) else (treeDepth c.n, 0)

/-- The parent of a node, none for the root. -/
def Coll.parent (c : Coll) (l i : Nat) : Option (Nat × Nat) :=
  if (l, i) = c.root then none
  else if c.linear then some (if l = 0 then (1, max i 1) else (1, i + 1))
  else some (l + 1, i / 2)

/-- The two children of a node, none where it has one or is a leaf. -/
def Coll.kids (c : Coll) (l i : Nat) : Option ((Nat × Nat) × (Nat × Nat)) :=
  if l = 0 then none
  else if c.linear then some (if i = 1 then (0, 0) else (1, i - 1), (0, i))
  else if (2 * i + 1) * 2 ^ (l - 1) < c.n then some ((l - 1, 2 * i), (l - 1, 2 * i + 1))
  else none

/-- The key of a node of a chunk. -/
def nodeKey (x l i : Nat) : Nat := (x * 32 + l) * 16384 + i

def Coll.node (c : Coll) (x l i : Nat) : CollNode := SMap.get {} c.nodes (nodeKey x l i)
def Coll.setNode (c : Coll) (x l i : Nat) (v : CollNode) : Coll := { c with nodes := SMap.set {} c.nodes (nodeKey x l i) v }

/-! ### Chunks and wire forms (R233, R373, R384) -/

def Coll.per (c : Coll) : Nat := if c.kind.records then 32 else 8192
def Coll.chunkCount (c : Coll) : Nat := cdiv c.elems c.per
def Coll.chunkLen (c : Coll) (x : Nat) : Nat := min c.per (c.elems - c.per * x)

/-- R387: the segment of a rank: its first element and the one after its last. -/
def Coll.segment (c : Coll) (r : Nat) : Nat × Nat :=
  let z := 32 * cdiv c.elems (32 * max c.n 1)
  (min (r * z) c.elems, min ((r + 1) * z) c.elems)

/-- The codes of a chunk as they travel: elements packed, then block scales in block order; the lining bytes of FP32+8 take the place
of scales. -/
def wireOf (f : Fmt) (codes scales : List Nat) : List Byte :=
  if f = .fp32p8 then codes.flatMap (fun v => leBytes 4 (v / 256)) ++ codes.flatMap (fun v => leBytes 1 (v % 256))
  else (packCodes (codes.length + 1) f.width codes).take (packed codes.length f.width) ++ scales.flatMap (leBytes 1)

/-- Code `j` of `n` in a wire form. -/
def wireCode (f : Fmt) (bs : List Byte) (n j : Nat) : Nat :=
  if f = .fp32p8 then leAt bs (4 * j) 4 * 256 + leAt bs (4 * n + j) 1
  else leAt bs (j * f.width / 8) (cdiv (j * f.width % 8 + f.width) 8) >>> (j * f.width % 8) % 2 ^ f.width

/-- The scale byte of element `j` of `n` in a wire form. -/
def wireScale (f : Fmt) (bs : List Byte) (n j : Nat) : Nat := leAt bs (packed n f.width + j / 32) 1

/-- The bytes of a wire form of `n` elements. -/
def wireLen (f : Fmt) (heritage : Bool) (n : Nat) : Nat :=
  if f = .fp32p8 then 5 * n else packed n f.width + (if f.blockScaled && !heritage then cdiv n 32 else 0)

/-- Elements [lo, hi) of a view in wire form, with blocks of 32 consecutive element indices (R386, R568). -/
def State.viewWire (s : State) (x : Operand) (heritage : Bool) (lo hi : Nat) : List Byte :=
  wireOf x.f ((x.desc.span lo hi).map (fun e => s.readCode x.desc x.f e.1 e.2))
    (if x.f.blockScaled && !heritage then (upto (cdiv (hi - lo) 32)).map (fun b => s.readLe (x.desc.scale + lo / 32 + b) 1) else [])

/-- The values of a wire form (R68). -/
def wireNums (f : Fmt) (t : Int) (heritage : Bool) (n : Nat) (bs : List Byte) : List Num :=
  (upto n).map (fun j =>
    let v := wireCode f bs n j
    if f.blockScaled then decodeScaled f v (if heritage then 0x80 else wireScale f bs n j) t
    else if f = .fp32p8 then ofFp32p8 (v / 256) (v % 256)
    else f.decode v)

/-! ### Records on the wire (R141, R188, R389) -/

/-- R141: a stat record from its bytes. -/
def StatRec.ofBytes (bs : List Byte) : StatRec :=
  { rung := leAt bs 2 1, touched := leAt bs 3 1 != 0, stepLo := leAt bs 4 4, digest := leAt bs 8 4, amax := leAt bs 0xC 4,
    shadowMax := leAt bs 0x10 4, agree := leAt bs 0x14 1, elements := leAt bs 0x18 8, nonzero := leAt bs 0x20 8,
    blocks := leAt bs 0x28 8, zeroBlocks := leAt bs 0x30 8, clippedBlocks := leAt bs 0x38 8, crushed := leAt bs 0x40 8,
    saturated := leAt bs 0x48 8, nonFinite := leAt bs 0x50 8, shadowSamples := leAt bs 0x58 8, shadowMismatch := leAt bs 0x60 8,
    shadowErr := leAt bs 0x68 8, hist := (upto 16).foldl (fun h i => SMap.set 0 h i (leAt bs (0x80 + 8 * i) 8)) [] }

/-- R188: a norm record's bytes; `status` also carries the agreement flag of a partial result. -/
def NormRec.bytes (r : NormRec) (group status scale factor norm : Nat) : List Byte :=
  leBytes 8 r.sumsq ++ leBytes 8 r.nonFinite ++ leBytes 8 r.nfBlocks ++ leBytes 8 r.elements ++ leBytes 8 r.tokens ++
  leBytes 4 r.clip ++ leBytes 1 r.policy ++ leBytes 1 group ++ leBytes 1 status ++ [0] ++ leBytes 4 scale ++ leBytes 4 factor ++
  leBytes 8 norm

def NormRec.ofBytes (bs : List Byte) : NormRec :=
  { sumsq := leAt bs 0 8, nonFinite := leAt bs 8 8, nfBlocks := leAt bs 0x10 8, elements := leAt bs 0x18 8, tokens := leAt bs 0x20 8,
    clip := leAt bs 0x28 4, policy := leAt bs 0x2C 1, agree := leAt bs 0x2E 1 != stConflict }

/-- R389: two norm records combined. -/
def NormRec.join (a b : NormRec) : NormRec :=
  { sumsq := add64 a.sumsq b.sumsq, nonFinite := (a.nonFinite + b.nonFinite) % 2 ^ 64, nfBlocks := (a.nfBlocks + b.nfBlocks) % 2 ^ 64,
    elements := (a.elements + b.elements) % 2 ^ 64, tokens := (a.tokens + b.tokens) % 2 ^ 64,
    clip := if Num.lt (Fmt.fp32.decode a.clip) (Fmt.fp32.decode b.clip) then b.clip else a.clip, policy := max a.policy b.policy,
    agree := a.agree && b.agree && a.clip == b.clip && a.policy == b.policy }

/-- R191: the local record of a clip group: the filled slots in ascending order, then tokens, clip and policy. -/
def State.localNorm (s : State) (g clip tokens : Nat) : NormRec :=
  let slots := (upto 256).filterMap (fun i => SMap.get none s.normSlots (slotKeyOf g i))
  let sum := slots.foldl (fun a r => { a with sumsq := add64 a.sumsq r.sumsq, nonFinite := a.nonFinite + r.nonFinite,
                                              nfBlocks := a.nfBlocks + r.nfBlocks, elements := a.elements + r.elements }) ({} : NormRec)
  { sum with tokens := tokens, clip := clip, policy := fld (s.reg 0x02800010) 1 0, agree := true }

/-- R192, R193: the reduced record with its result fields. -/
def NormRec.result (r : NormRec) (group status : Nat) : List Byte :=
  if status ≠ stOk then r.bytes group status 0 0 0
  else
    let gamma := if r.tokens = 0 then Num.one else Num.one.div64 (Num.ofNat r.tokens).fp64
    let norm := ((Fmt.fp64.decode r.sumsq).sqrt64.mul gamma).fp64
    let clip := Fmt.fp32.decode r.clip
    let k := if clip.isZero || norm.le clip then Num.one else clip.div64 norm
    r.bytes group stOk (k.mul gamma).toFp32 k.toFp32 norm.toFp64

/-- The chunks whose root is homed here. -/
def Coll.rootChunks (c : Coll) : List Nat := (upto c.chunkCount).filter (fun x => c.home x c.root.1 c.root.2 == c.rank)

/-- R165: the element of the staging buffer at which chunk `x` is staged: its own in a tensor that this rank holds whole; a REDUCE_SCATTER,
whose tensor here is a segment, has the chunks that this rank converts one after another. [DEDUCED, log 40] -/
def Coll.stageAt (c : Coll) (x : Nat) : Nat :=
  if c.kind = .reduceScatter then ((c.rootChunks.filter (fun y => decide (y < x))).map c.chunkLen).sum else 8192 * x

/-- R169: the elements that the staging buffer of a collective's destination must have room for. [DEDUCED, log 40] -/
def Coll.stageLen (c : Coll) : Nat :=
  if c.kind = .reduceScatter then max c.dst.desc.count (c.rootChunks.map c.chunkLen).sum else c.dst.desc.count

/-! ### Checks (R206, R382, R386, R387) -/

def reduceSrcOk (f : Fmt) : Bool := f == .fp32 || f == .bf16 || f == .fp16 || f == .e4m3 || f == .e5m2
def reduceDstOk (f : Fmt) : Bool := f == .fp32 || f == .bf16 || f == .fp16 || (f.blockScaled && !f.isInt)

/-- R386: formats, and blocks along rows. -/
def Wide.collFormats (w : Wide) : Bool :=
  let k := collKind w.op
  let blk := fun (x : Operand) => !x.f.blockScaled || x.desc.blockDim == 0
  k == .norm ||
  (w.coSrc.fmtOk && w.coDst.fmtOk && !w.coSrc.desc.isRing && !w.coDst.desc.isRing && blk w.coSrc && blk w.coDst &&
    (if k.reduces then reduceSrcOk w.coSrc.f && reduceDstOk w.coDst.f && decide (w.coRop ≤ 2) else w.coSrc.fmt == w.coDst.fmt))

/-- The elements of the full tensor (R233, R387). -/
def Wide.collElems (w : Wide) : Nat :=
  if collKind w.op = .norm then (maskGroups w.n1).length else if collKind w.op = .allgather then w.coDst.desc.count else w.coSrc.desc.count

def Wide.collSig (w : Wide) : Nat :=
  let k := collKind w.op
  signature w.op (if k.reduces then w.coRop else 0) (if k = .norm then 0xFF else w.coSrc.fmt) (if k = .norm then 0xFF else w.coDst.fmt)
    (b2n w.coRnd) w.collElems (if k = .norm then w.n1 else 0)

/-- A COLL as the engine holds it, before it has a number. -/
def State.collOf (s : State) (qi : Nat) (w : Wide) : Coll :=
  let cm := w.coComm
  { kind := collKind w.op, comm := cm, queue := qi, cseq := w.cseq, sig := w.collSig, rop := w.coRop, elems := w.collElems,
    n := s.commSize cm, rank := s.commRank cm, src := w.coSrc, dst := w.coDst, groups := w.n1, step := w.fitStep, linear := w.heritage,
    rnd := w.coDst.stoch .fp32 w.coRnd w.heritage, stream := (s.seedOf (s.streamKey w)).map (fun k1 => (s.streamKey w, k1)),
    site := streamSite w.n3, startedAt := s.now, measured := w.measures w.coDst,
    normSlot := if w.coNorm && (collKind w.op).reduces then some (slotKeyOf w.coGroup w.coSlot) else none }

/-- R387: the views hold what the operation asks of this rank. -/
def State.collShapes (s : State) (w : Wide) : Bool :=
  let c := s.collOf 0 w
  let seg := (c.segment c.rank).2 - (c.segment c.rank).1
  match collKind w.op with
  | .reduceScatter => w.coDst.desc.count == seg
  | .allgather => w.coSrc.desc.count == seg
  | .norm => true
  | _ => w.coSrc.desc.count == w.coDst.desc.count

/-- R293: the ranges a COLL touches. -/
def Wide.collRanges (w : Wide) : List (Nat × Nat) :=
  if collKind w.op = .norm then
    (maskGroups w.n1).flatMap (fun g => [(w.coDst.desc.data + 64 * g, 64), ((w.operand 2).desc.data + 16 * g, 16)])
  else w.coSrc.desc.ranges w.coSrc.f w.heritage ++ w.coDst.desc.ranges w.coDst.f w.heritage

/-- R388: the destination with its tensor scale: that of R162 for ADAPT, the t of the bank in force for another tagged one. -/
def State.collScale (s : State) (x : Operand) : Operand :=
  if x.adapt then s.destScale x
  else if x.tagged && (s.entry x.tag).valid && x.f.carriesT then { x with t := ((s.entry x.tag).role x.role).t }
  else { x with t := 0 }

/-- R206: the check of COLL. [DEDUCED, log 40] -/
def State.checkColl (s : State) (w : Wide) : Verdict :=
  let k := collKind w.op
  if 5 < w.op ∨ !s.commValid w.coComm then .fail stConflict
  else
    let w := if k.reduces then { w with ops := SMap.set {} w.ops 1 (s.collScale w.coDst) } else w
    if !w.descsOk || w.domain != s.commDomain w.coComm || !w.heritageOk w.coRnd || !w.collFormats then .fail stConflict
    else if k == .norm && !w.coAux then .fail stConflict
    else if !s.collShapes w then .fail stConflict
    else if k.reduces && (!s.streamOk w (w.coDst.stoch .fp32 w.coRnd w.heritage) || !s.capacityOk w.coDst (s.collOf 0 w).stageLen || !w.coDst.scaleOk) then .fail stConflict
    else if !k.reduces && streamEn w.n3 && !s.streamOk w false then .fail stConflict
    else if k.reduces && w.coNorm && s.slotTaken w.coGroup w.coSlot then .fail stConflict
    else if !s.rangesOk .collective w.domain w.collRanges || (k.reduces && !s.stagingOk [.collective] w.domain w.coDst (s.collOf 0 w).stageLen) then
      .trap trAddress
    else .pass { w with fmts := if k = .norm then 0 else fmtsOf w.coSrc.fmt 0 w.coDst.fmt 0 }

/-! ### Messages (R371 to R373, R383) -/

def State.coll (s : State) (comm k : Nat) : Option Coll := s.link.colls.find? (fun c => c.comm == comm && c.k == k)
def State.setColl (s : State) (c : Coll) : State :=
  { s with link := { s.link with colls := s.link.colls.map (fun d => if d.comm == c.comm && d.k == c.k then c else d) } }
def State.modColl (s : State) (comm k : Nat) (f : Coll → Coll) : State := match s.coll comm k with | some c => s.setColl (f c) | none => s

/-- A collective message to a rank of the communicator, counted for its domain (R527). -/
def State.sendColl (s : State) (comm k sig rank mkind x l i part : Nat) (data : List Byte) : State :=
  let dst := s.member comm rank
  let dom := s.commDomain comm
  let m : Msg := { t0 := msgT0 dst s.fabricId mkind dom (max data.length 1), t1 := 0, t2 := put comm 63 56 + put k 55 32 + put x 31 0,
                   t3 := if mkind = 0x0C then sig % 256 else put l 63 59 + put i 58 45 + put part 44 32 + put sig 31 0, data := data }
  (s.sendStream dst (192 + comm) m).addCtx dom 5 (256 * m.flits)

/-- R373: the parts of a wire form sent. -/
def State.sendParts (s : State) (c : Coll) (rank mkind x l i : Nat) (bs : List Byte) : State :=
  let ps := chunks 16384 (bs.length / 16384 + 1) bs
  (upto ps.length).foldl (fun s q => s.sendColl c.comm c.k c.sig rank mkind x l i q (ps.getD q [])) s

/-- R383, R394: COLL_ABORT with a status to every other member. -/
def State.sendAborts (s : State) (comm k status : Nat) : State :=
  ((upto (s.commSize comm)).filter (· != s.commRank comm)).foldl (fun s r => s.sendColl comm k status r 0x0C 0 0 0 0 []) s

/-! ### The end of a collective -/

/-- R197: EV_NONFINITE of one group. -/
def State.normEvent (s : State) (step g : Nat) (r : NormRec) : State :=
  if r.nonFinite = 0 then s
  else s.raiseEvent 0x0220 (put r.policy 113 112 + put (b2n (bit s.nanTrap.info 63)) 111 111 + put g 101 96 + put (step % 2 ^ 32) 95 64 +
    put r.nonFinite 63 0)

/-- R191 step 5: the slots of a group cleared. -/
def State.clearSlots (s : State) (g : Nat) : State := { s with normSlots := SMap.clear s.normSlots (slotKeyOf g 0) (slotKeyOf (g + 1) 0) }

/-- The sums of a record where no reduction gave them: free values. [DEDUCED, log 39] -/
def State.freeNorm (s : State) : NormRec × State :=
  let (a, s) := s.draw
  let (b, s) := s.draw
  let (c, s) := s.draw
  let (d, s) := s.draw
  let (e, s) := s.draw
  let (f, s) := s.draw
  ({ sumsq := a.toNat, nonFinite := b.toNat, nfBlocks := c.toNat, elements := d.toNat, tokens := e.toNat, clip := f.toNat % 2 ^ 32,
     policy := f.toNat / 2 ^ 32 % 3 }, s)

/-- R188, R193, R234: one group's reduced record written and handed on; the records gathered so far. -/
def State.normGroup (s : State) (c : Coll) (status : Nat) (acc : List Byte) (g : Nat) : State × List Byte × Nat :=
  match if status = stOk then c.norms.find? (fun x => x.1 == g) else none with
  | some (_, r) =>
    let st := if r.agree then stOk else stConflict
    let bs := r.result g st
    let s := (s.writeBytes (c.dst.desc.data + 64 * g) bs).countBytes (some (s.commDomain c.comm)) false (c.dst.desc.data + 64 * g) 64
    (s.clearSlots g, acc ++ List.replicate (64 * g - acc.length) 0 ++ bs, st)
  | none =>
    let (r, s) := s.freeNorm
    let bs := r.result g status
    let s := (s.writeBytes (c.dst.desc.data + 64 * g) bs).countBytes (some (s.commDomain c.comm)) false (c.dst.desc.data + 64 * g) 64
    (s.clearSlots g, acc ++ List.replicate (64 * g - acc.length) 0 ++ bs, status)

/-- Every group of a COLL NORM: the records by group, and the status it completes with (R193). -/
def State.normGroups (s : State) (c : Coll) (status : Nat) : List Nat → List Byte → State × List Byte × Nat
  | [], acc => (s, acc, status)
  | g :: gs, acc =>
    let (s, acc, st) := s.normGroup c status acc g
    let (s, acc, st') := s.normGroups c status gs acc
    (s, acc, if st' = stOk then st else st')

/-- R192, R193, R197: a COLL NORM ends. -/
def State.endNorm (s : State) (c : Coll) (status : Nat) : State :=
  let (s, recs, st) := s.normGroups c status (maskGroups c.groups) []
  let bad := match s.wide c.queue c.cseq with | some w => w.poisoned | none => false
  -- R197: the events come with an end in ST_OK
  let s := if st = stOk ∧ bad = false then c.norms.foldl (fun s x => s.normEvent c.step x.1 x.2) s else s
  (s.modWide c.queue c.cseq (fun w => { w with normRec := some recs })).complete c.queue c.cseq (if st == stOk && bad then stContained else st)

/-- R165, R189: the tensor scale that decodes chunk `x` of this member's output. A JIT or COLD output that another home converted was
converted with that home's t, which no message carries: a free value in t's range. [DESIGN CHOICE, log 88] -/
def State.chunkT (s : State) (c : Coll) (x : Nat) : Int :=
  if !c.dst.toJit then c.dst.t
  else if c.home x c.root.1 c.root.2 = c.rank then c.jitT.getD c.dst.t
  else ((Config.freeValue (s.freeCtr + x)).toNat % 129 : Nat) - 64

/-- R189: the squares of this member's output fill a slot, a piece for each chunk. [DESIGN CHOICE, log 88] -/
def State.fillFromColl (s : State) (c : Coll) (key : Nat) : State :=
  let seg := if c.kind = .reduceScatter then c.segment c.rank else (0, if c.kind = .reduce ∧ c.rank ≠ 0 then 0 else c.elems)
  let r := normShard ((upto c.chunkCount).map (fun x =>
    let lo := max (8192 * x) seg.1
    let hi := min (8192 * x + c.chunkLen x) seg.2
    let base := lo - seg.1
    let vs := wireNums c.dst.f (s.chunkT c x) c.linear (hi - lo) (s.viewWire c.dst c.linear base (base + (hi - lo)))
    (upto (hi - lo)).map (fun j => (vs.getD j .zero, (base + j) / 32))))
  { s with normSlots := SMap.set none s.normSlots key (some r), freeCtr := s.freeCtr + if c.dst.toJit then c.chunkCount else 0 }

/-- R149 step 4: the reduction of the boundary in progress has ended. -/
def State.reductionEnds (s : State) (c : Coll) (status : Nat) : State :=
  match s.tailor.boundary with
  | some b => if (b.comm, b.k) = (c.comm, c.k) ∧ !b.ended then { s with tailor := { s.tailor with reduction := some status } } else s
  | none => s

/-- A collective leaves the engine with a status (R390). -/
def State.leaveColl (s : State) (c : Coll) (status : Nat) : State :=
  let s := { s with link := { s.link with colls := s.link.colls.filter (fun d => !(d.comm == c.comm && d.k == c.k)),
                                          conflicts := if status = stConflict then sat 17 (s.link.conflicts + 1) else s.link.conflicts } }
  match c.kind with
  | .stepEnd => s.reductionEnds c status
  | .norm => s.endNorm c status
  | _ =>
    let s := match c.normSlot, status with
      | some key, 0 => s.fillFromColl c key
      | _, _ => s
    if status = stOk then s.finish c.queue c.cseq else s.complete c.queue c.cseq status

/-- The chunk results and duties that this member must meet before the collective is complete in it (R387). -/
def Coll.duties (c : Coll) : List Nat :=
  if c.kind = .allgather then
    (upto c.chunkCount).flatMap (fun x => (upto c.n).filterMap (fun o =>
      if max (8192 * x) (c.segment o).1 < min (8192 * x + c.chunkLen x) (c.segment o).2 then some (x * 16384 + o) else none))
  else (upto c.chunkCount).map (· * 16384)

def Coll.finished (c : Coll) : Bool := c.duties.all (fun d => decide (d ∈ c.doneChunks))

/-- R282: the status with which a collective may leave, once it is the oldest of its communicator. -/
def Coll.outcome (c : Coll) : Option Nat := if c.endedAs.isSome then c.endedAs else if c.finished then some stOk else none

/-- R282: the ended and finished collectives of a communicator complete in order. [DEDUCED, log 40] -/
def State.settleCommN (s : State) (comm : Nat) : Nat → State
  | 0 => s
  | j + 1 =>
    match s.link.colls.find? (fun c => c.comm == comm) with
    | some c =>
      match c.outcome with
      | some st => (s.leaveColl c st).settleCommN comm j
      | none => s
    | none => s

def State.settleComm (s : State) (comm : Nat) : State := s.settleCommN comm s.link.colls.length

/-- R282, R390, R394: a collective ends with a status: its staging is freed, and it completes once those before it on its communicator have. -/
def State.endColl (s : State) (c : Coll) (status : Nat) : State :=
  (s.setColl { c with endedAs := some (c.endedAs.getD status), nodes := [], results := [] }).settleComm c.comm

/-- R383: a conflict is found: every member is told and the collective ends here. -/
def State.collConflict (s : State) (c : Coll) : State := (s.sendAborts c.comm c.k stConflict).endColl c stConflict

/-! ### Results (R387, R388) -/

/-- A result held by rank r: whether it takes part in the result of a chunk. -/
def Coll.takes (c : Coll) (r x : Nat) : Bool :=
  match c.kind with
  | .reduce => r == 0
  | .reduceScatter => decide (max (8192 * x) (c.segment r).1 < min (8192 * x + c.chunkLen x) (c.segment r).2)
  | _ => true

/-- A duty met. -/
def State.dutyDone (s : State) (c : Coll) (key : Nat) : State :=
  s.modColl c.comm c.k (fun c => { c with doneChunks := setIns c.doneChunks key })

/-- The elements [lo, hi) of the full tensor, from the wire form of [wlo, wlo + n), written to this member's output, whose first element
is `base`; non-finite values are events of the collective engine (R198). -/
def State.writeWire (s : State) (c : Coll) (bs : List Byte) (wlo n lo hi base : Nat) (inputs : Nat → Lineage) : State :=
  let f := c.dst.f
  let dom := some (s.commDomain c.comm)
  let d := c.dst.desc
  let es := (upto (hi - lo)).map (fun j => let e := d.elem (lo + j - base); (e.1, e.2, wireCode f bs n (lo + j - wlo)))
  let s := s.writeElems d f dom es
  let s := if f.blockScaled && !c.linear then
      (upto (cdiv (hi - lo) 32)).foldl (fun s b => s.writeScale d dom ((lo - base) / 32 + b) (wireScale f bs n (lo - wlo + 32 * b))) s
    else s
  let vals := wireNums f c.dst.t c.linear n bs
  let w : Wide := (s.wide c.queue c.cseq).getD {}
  (upto (hi - lo)).foldl (fun s j =>
    let v := vals.getD (lo + j - wlo) .zero
    if v.isFin then s
    else s.nanEvent (s.nanBy c.queue w 104 c.dst) ((inputs (lo + j - wlo)).kind v) (nanValue v)
      ((lo + j - base) % 2 ^ 64)) s

/-- A chunk's result taken by this member. -/
def State.takeResult (s : State) (c : Coll) (x owner : Nat) (bs : List Byte) (inputs : Nat → Lineage) : State :=
  let n := c.chunkLen x
  let s : State := match c.kind with
    | .stepEnd => (upto n).foldl (fun (s : State) j =>
        let key := statKeys.getD (32 * x + j) 0
        let r := StatRec.ofBytes ((bs.drop (256 * j)).take 256)
        { s with tailor := { s.tailor with reduced := SMap.set {} s.tailor.reduced key r } }) s
    | .norm => s.modColl c.comm c.k (fun c => { c with norms := c.norms ++ (upto n).map (fun j =>
        ((maskGroups c.groups).getD (32 * x + j) 0, NormRec.ofBytes ((bs.drop (64 * j)).take 64))) })
    | .reduceScatter =>
      let (a, b) := c.segment c.rank
      s.writeWire c bs (8192 * x) n (max (8192 * x) a) (min (8192 * x + n) b) a inputs
    | .allgather =>
      let (a, b) := c.segment owner
      let lo := max (8192 * x) a
      let hi := min (8192 * x + n) b
      s.writeWire c bs lo (hi - lo) lo hi 0 inputs
    | _ => s.writeWire c bs (8192 * x) n (8192 * x) (8192 * x + n) 0 inputs
  s.dutyDone c (x * 16384 + (if c.kind = CollKind.allgather then owner else 0))

/-- R388: the nodes below (l, i) of other homes to which this home pushes a result. -/
def Coll.pushTargets (c : Coll) (x : Nat) : Nat → Nat → Nat → List (Nat × Nat)
  | 0, _, _ => []
  | f + 1, l, i =>
    if l = 0 then []
    else match c.kids l i with
      | some (a, b) =>
        (if c.home x a.1 a.2 = c.rank then c.pushTargets x f a.1 a.2 else [a]) ++
        (if c.home x b.1 b.2 = c.rank then c.pushTargets x f b.1 b.2 else [b])
      | none => c.pushTargets x f (l - 1) (2 * i)

/-- R388: the same for a copy, whose tree is relabelled so that its owner is label 0: the right children below (l, i). -/
def copyTargets (n : Nat) : Nat → Nat → List (Nat × Nat)
  | 0, _ => []
  | l + 1, i => (if (2 * i + 1) * 2 ^ l < n then [(l, 2 * i + 1)] else []) ++ copyTargets n l (2 * i)

/-- A copied piece pushed on below a node. -/
def State.pushCopy (s : State) (c : Coll) (x owner l i : Nat) (bs : List Byte) : State :=
  (copyTargets c.n l i).foldl (fun s t => s.sendParts c ((t.2 * 2 ^ t.1 + owner) % max c.n 1) 0x0B x t.1 t.2 bs) s

/-- R387, R388: the root's home hands out a chunk's result. -/
def State.distribute (s : State) (c : Coll) (x : Nat) (bs : List Byte) (inputs : Nat → Lineage) : State :=
  if c.kind = .reduce ∨ c.kind = .reduceScatter then
    let owners := (upto c.n).filter (fun r => c.takes r x)
    let s := owners.foldl (fun s r => if r = c.rank then s.takeResult c x 0 bs inputs else s.sendParts c r 0x0B x 0 r bs) s
    if c.takes c.rank x then s else s.dutyDone c (x * 16384)
  else
    let s := (c.pushTargets x (c.n + 32) c.root.1 c.root.2).foldl (fun s t => s.sendParts c (c.home x t.1 t.2) 0x0B x t.1 t.2 bs) s
    s.takeResult c x 0 bs inputs

/-! ### Conversion at the root (R388, R165) -/

/-- Values in blocks of 32, each with its first index. -/
def blocks32 (xs : List Num) : List (Nat × List Num) := (upto (cdiv xs.length 32)).map (fun b => (32 * b, (xs.drop (32 * b)).take 32))

/-- A chunk converted to the destination format: its wire form and its counts. -/
def convertChunk (c : Coll) (x : Nat) (t : Int) (xs : List Num) : List Byte × Written :=
  let k : Conv := { src := .fp32, dst := c.dst.f, t := t, heritage := c.linear }
  let r := match c.stream with
    | some (k0, k1) => if c.rnd then Rounding.stoch k0 k1 c.site c.step else .near
    | none => .near
  if c.dst.f.blockScaled then
    let ps := (blocks32 xs).map (fun b => convBlock k ((upto b.2.length).map (fun j => (b.2.getD j .zero, r.at x (b.1 + j)))))
    (wireOf c.dst.f (ps.flatMap (·.1)) (if c.linear then [] else ps.map (·.2.1)),
     { q := ps.foldl (fun q p => q.add p.2.2) {}, blocks := ps.length })
  else
    let ps := (upto xs.length).map (fun j => convElem k (r.at x j) (xs.getD j .zero))
    (wireOf c.dst.f (ps.map (·.1)) [], { q := ps.foldl (fun q p => q.add p.2) {} })

/-- The values of a partial result. -/
def Coll.nums (c : Coll) (x : Nat) (p : Partial) : List Num :=
  match p with
  | .nums xs => xs
  | .bytes bs => wireNums c.src.f c.src.t c.linear (c.chunkLen x) bs
  | _ => []

/-- R199: the inputs of each element of the root partial: its children's elements, or the element itself where it has one child. -/
def Coll.rootBad (c : Coll) (x : Nat) (xs : List Num) (j : Nat) : Lineage :=
  let v := c.node x c.root.1 c.root.2
  if v.inputs.isEmpty then (xs.getD j .zero).lineage else v.inputs.getD j .finite

/-- R199: what the elements of a sum were combined from. -/
def Coll.combined (c : Coll) (x : Nat) (a b : Partial) : List Lineage :=
  ((c.nums x a).zip (c.nums x b)).map (fun z => z.1.lineage.join z.2.lineage)

/-- R388: one chunk converted, measured and handed out. -/
def State.convertRoot (s : State) (c : Coll) (x : Nat) (t : Int) (xs : List Num) : State :=
  let (bs, wr) := convertChunk c x t xs
  let s := if c.measured then s.measure tableUnit c.dst.tag c.dst.role c.step xs c.dst.f wr else s
  s.distribute c x bs (c.rootBad x xs)

/-- R165: under JIT or COLD the wide values of the chunks converted here wait in the staging buffer for their amax. [DEDUCED, log 40] -/
def State.jitRoot (s : State) (c : Coll) (x : Nat) (xs : List Num) : State :=
  let s := (upto xs.length).foldl (fun s j => s.writeLe (c.dst.desc.jit + 4 * (c.stageAt x + j)) 4 (xs.getD j .zero).toFp32) s
  let mine := c.rootChunks
  if mine.all (fun y => (c.node y c.root.1 c.root.2).value.isSome) then
    let parts := mine.map (fun y => (y, match (c.node y c.root.1 c.root.2).value with | some p => c.nums y p | none => []))
    let all := parts.flatMap (·.2)
    let t := tFor ((all.filter Num.isFin).foldl (fun m v => max m (fp32Up v)) 0) c.dst.f ((s.entry c.dst.tag).role c.dst.role).margin
    let c := { c with jitT := some t }
    parts.foldl (fun s y => s.convertRoot c y.1 t y.2) (s.setColl c)
  else s

/-- The records of a partial as bytes. -/
def Partial.recBytes : Partial → List Byte
  | .stats rs => rs.flatMap (fun x => x.2.bytes x.1)
  | .norms rs => rs.flatMap (fun x => x.2.bytes x.1 (if x.2.agree then stOk else stConflict) 0 0 0)
  | .bytes bs => bs
  | .nums xs => xs.flatMap (fun v => leBytes 4 v.toFp32)

/-- The root partial of a chunk is complete at its home. -/
def State.rootDone (s : State) (c : Coll) (x : Nat) (p : Partial) : State :=
  if c.kind.records then s.distribute c x p.recBytes (fun _ => Lineage.finite)
  else
    let xs := c.nums x p
    if c.dst.toJit then s.jitRoot c x xs else s.convertRoot c x c.dst.t xs

/-! ### Partials (R385) -/

/-- R386: one element combined. -/
def combineNum (rop : Nat) (a b : Num) : Num := if rop = 0 then (a.add b).fp32 else if rop = 1 then a.max b else a.min b

/-- R174, R389: left + right. -/
def Coll.combine (c : Coll) (x : Nat) (a b : Partial) : Partial :=
  match a, b with
  | .stats xs, .stats ys => .stats ((xs.zip ys).map (fun z => (z.1.1, z.1.2.reduce z.2.2)))
  | .norms xs, .norms ys => .norms ((xs.zip ys).map (fun z => (z.1.1, z.1.2.join z.2.2)))
  | p, q => .nums (((c.nums x p).zip (c.nums x q)).map (fun z => combineNum c.rop z.1 z.2))

/-- The bytes of the partial of a node as it travels (R373). -/
def Coll.partialLen (c : Coll) (x l : Nat) : Nat :=
  let n := c.chunkLen x
  match c.kind with
  | .stepEnd => 256 * n
  | .norm => 64 * n
  | _ => if l = 0 then wireLen c.src.f c.linear n else 4 * n

/-- The chunk, level and index of a node's key. -/
def ofNodeKey (key : Nat) : Nat × Nat × Nat := (key / 16384 / 32, key / 16384 % 32, key % 16384)

/-- R385: the child of a node that another home holds. -/
def Coll.other (c : Coll) (x l i : Nat) : Option (Nat × Nat) :=
  (c.kids l i).map (fun k => if c.home x k.1.1 k.1.2 = c.rank then k.2 else k.1)

/-- A node whose partial is a sum, not the source of one rank. -/
def Coll.sums (c : Coll) (l i : Nat) : Bool := l != 0 && (c.linear || decide (i * 2 ^ l + 1 < c.n))

/-- R385 step 2: what a COLL_GET of a node reserves: the other child's partial, and the sum that step 4 adds into staging. -/
def Coll.reserves (c : Coll) (x l i : Nat) : Nat := ((c.other x l i).map (fun o => c.partialLen x o.1)).getD 0 + c.partialLen x l

/-- R385, R390: the staging of a collective in use: what COLL_GETs have reserved, the sums that this home holds until their parent has added
or fetched them, and the parts of results not yet whole. A leaf's partial is the source itself, and the root's is handed out as it is formed.
[DEDUCED, log 40] -/
def Coll.staged (c : Coll) : Nat :=
  (c.nodes.map (fun e =>
    let (x, l, i) := ofNodeKey e.1
    if e.2.getSent && e.2.value.isNone then c.reserves x l i
    else if e.2.value.isSome && c.sums l i && (l, i) != c.root then c.partialLen x l else 0)).sum +
  (c.results.map (fun e => (e.2.map (fun p => (p.2.getD []).length)).sum)).sum

/-- R390: the staging of a collective. -/
def collStaging : Nat := 512 * 1024

/-- R385 step 2: COLL_GET for the other child, once its readiness and this home's own partial are there and its staging is reserved. -/
def State.tryGet (s : State) (c : Coll) (x l i : Nat) : State :=
  let v := c.node x l i
  match c.kids l i, c.other x l i with
  | some (a, _), some o =>
    let own := if c.home x a.1 a.2 = c.rank then v.left else v.right
    if v.ready && !v.getSent && v.value.isNone && own.isSome && decide (c.staged + c.reserves x l i ≤ collStaging) then
      (s.setColl (c.setNode x l i { v with getSent := true, askedAt := s.now })).sendColl c.comm c.k c.sig (c.home x o.1 o.2) 0x09 x o.1 o.2 0 []
    else s
  | _, _ => s

/-- R390: nodes that waited for staging ask for their partials, in the order of chunk, level and index. [DESIGN CHOICE, log 84] -/
def State.retryGets (s : State) (comm k : Nat) : State :=
  match s.coll comm k with
  | some c => (c.nodes.filter (fun e => e.2.ready && !e.2.getSent)).foldl (fun s e =>
      match s.coll comm k with
      | some c => let (x, l, i) := ofNodeKey e.1; s.tryGet c x l i
      | none => s) s
  | none => s

/-- R385 step 3: a partial that goes above level 1 is in FP32. -/
def Coll.lift (c : Coll) (x : Nat) (p : Partial) : Partial :=
  match p with
  | .bytes _ => .nums ((c.nums x p).map Num.fp32)
  | p => p

/-- R385 steps 4 and 5: a node whose children's partials are both there: their staging is freed. -/
def CollNode.added (v : CollNode) (inputs : List Lineage) : CollNode := 
  { v with left := none, right := none, parts := [], ready := false, getSent := false, askedAt := 0, summed := true, inputs := inputs }

/-- R385 step 5: a child's own partial is freed. -/
def Coll.freeNode (c : Coll) (x : Nat) (n : Nat × Nat) : Coll := c.setNode x n.1 n.2 { c.node x n.1 n.2 with value := none }

/-- R385 steps 4 and 5: the children of a node are added: the collective without their partials, and the sum. -/
def Coll.addKids (c : Coll) (x l i : Nat) (pa pb : Partial) : Coll × Partial :=
  let ins := if (l, i) = c.root ∧ !c.kind.records then c.combined x pa pb else []
  let d := c.setNode x l i ((c.node x l i).added ins)
  (match c.kids l i with
    | some (a, b) => (d.freeNode x a).freeNode x b
    | none => d, c.combine x pa pb)

/-- R385: the partial of a node is complete at this home: it passes up the tree as far as it can. -/
def State.supplyN (s : State) (comm k x : Nat) : Nat → Nat → Nat → Partial → State
  | 0, _, _, _ => s
  | f + 1, l, i, p =>
    match s.coll comm k with
    | none => s
    | some c =>
      let c := c.setNode x l i { c.node x l i with value := some p }
      let s := s.setColl c
      match c.parent l i with
      | none => s.rootDone c x p
      | some (pl, pi) =>
        match c.kids pl pi with
        | none => (s.setColl (c.freeNode x (l, i))).supplyN comm k x f pl pi (c.lift x p)
        | some (a, b) =>
          let h := c.home x pl pi
          if h = c.rank then
            let v := c.node x pl pi
            let v := if a = (l, i) then { v with left := some p } else { v with right := some p }
            let c := c.setNode x pl pi v
            let s := s.setColl c
            match v.left, v.right with
            | some pa, some pb =>
              let (c, p) := c.addKids x pl pi pa pb
              (s.setColl c).supplyN comm k x f pl pi p
            | _, _ => if c.home x a.1 a.2 = c.rank ∧ c.home x b.1 b.2 = c.rank then s else s.tryGet c x pl pi
          else s.sendColl comm k c.sig h 0x08 x l i 0 []

def State.supply (s : State) (c : Coll) (x l i : Nat) (p : Partial) : State := s.supplyN c.comm c.k x (2 * c.n + 64) l i p

/-- R385: COLL_READY names a child whose parent is homed here. -/
def State.collReady (s : State) (c : Coll) (m : Msg) : State :=
  match c.parent m.level m.node with
  | some (l, i) =>
    if c.home m.chunk l i = c.rank then
      let c := c.setNode m.chunk l i { c.node m.chunk l i with ready := true }
      (s.setColl c).tryGet c m.chunk l i
    else s
  | none => s

/-- R385 step 3: COLL_GET is answered with the partial; a member that owes the chunk no more is done with it. -/
def State.collGet (s : State) (c : Coll) (m : Msg) : State :=
  match (c.node m.chunk m.level m.node).value, c.parent m.level m.node with
  | some p, some (l, i) =>
    let c := c.freeNode m.chunk (m.level, m.node)
    let s := s.setColl c
    let s := s.sendParts c (c.home m.chunk l i) 0x0A m.chunk m.level m.node p.recBytes
    let s := s.retryGets c.comm c.k
    if (c.kind = .reduce ∨ c.kind = .reduceScatter) ∧ !c.takes c.rank m.chunk then (s.dutyDone c (m.chunk * 16384)).settleComm c.comm else s
  | _, _ => s

/-- R373: the parts of a wire form of `len` bytes joined; none while some are missing. -/
def joinParts (len : Nat) (ps : SMap (Option (List Byte))) : Option (List Byte) :=
  (upto (cdiv len 16384)).foldl (fun acc q => match acc, SMap.get none ps q with
    | some bs, some p => some (bs ++ p)
    | _, _ => none) (some [])

/-- A partial read from its wire form. -/
def Coll.ofWire (c : Coll) (x l : Nat) (bs : List Byte) : Partial :=
  let n := c.chunkLen x
  match c.kind with
  | .stepEnd => .stats ((upto n).map (fun j => (statKeys.getD (32 * x + j) 0, StatRec.ofBytes ((bs.drop (256 * j)).take 256))))
  | .norm => .norms ((upto n).map (fun j => ((maskGroups c.groups).getD (32 * x + j) 0, NormRec.ofBytes ((bs.drop (64 * j)).take 64))))
  | _ => if l = 0 then .bytes bs else .nums ((upto n).map (fun j => Fmt.fp32.decode (leAt bs (4 * j) 4)))

/-- R385 steps 3 and 4: a part of the other child's partial arrives; with all parts and its own child's the node's sum is formed. -/
def State.collData (s : State) (c : Coll) (m : Msg) : State :=
  match c.parent m.level m.node with
  | none => s
  | some (l, i) =>
    match c.kids l i with
    | none => s
    | some (a, _) =>
      if c.home m.chunk l i ≠ c.rank then s
      else
        let v := c.node m.chunk l i
        let v := { v with parts := SMap.set none v.parts m.part (some m.data) }
        match joinParts (c.partialLen m.chunk m.level) v.parts with
        | none => s.setColl (c.setNode m.chunk l i v)
        | some bs =>
          let p := c.ofWire m.chunk m.level bs
          let v := if a = (m.level, m.node) then { v with left := some p, parts := [] } else { v with right := some p, parts := [] }
          let c := c.setNode m.chunk l i v
          let s := s.setColl c
          match v.left, v.right with
          | some pa, some pb =>
            let (c, p) := c.addKids m.chunk l i pa pb
            (((s.setColl c).supply c m.chunk l i p).retryGets c.comm c.k).settleComm c.comm
          | _, _ => s

/-- The owner of a copied piece that names node (l, i) at this rank (R388). -/
def Coll.ownerOf (c : Coll) (l i : Nat) : Nat := if c.kind = .allgather then (c.rank + c.n - i * 2 ^ l % max c.n 1) % max c.n 1 else 0

/-- The bytes of a result as it travels. -/
def Coll.resultLen (c : Coll) (x owner : Nat) : Nat :=
  let n := c.chunkLen x
  match c.kind with
  | .stepEnd => 256 * n
  | .norm => 64 * n
  | .allgather => wireLen c.dst.f c.linear (min (8192 * x + n) (c.segment owner).2 - max (8192 * x) (c.segment owner).1)
  | _ => wireLen c.dst.f c.linear n

/-- R388: a part of a result arrives; the whole result is written and pushed on. -/
def State.collPut (s : State) (c : Coll) (m : Msg) : State :=
  let x := m.chunk
  let owner := c.ownerOf m.level m.node
  let key := x * 16384 + owner
  let ps := SMap.set none (SMap.get [] c.results key) m.part (some m.data)
  match joinParts (c.resultLen x owner) ps with
  | none => s.setColl { c with results := SMap.set [] c.results key ps }
  | some bs =>
    let c := { c with results := SMap.set [] c.results key [] }
    let s := s.setColl c
    let s := if c.kind.copies then s.pushCopy c x owner m.level m.node bs
      else if c.kind = .reduce ∨ c.kind = .reduceScatter then s
      else (c.pushTargets x (c.n + 32) m.level m.node).foldl (fun s t => s.sendParts c (c.home x t.1 t.2) 0x0B x t.1 t.2 bs) s
    let vals := if c.kind.records then [] else wireNums c.dst.f c.dst.t c.linear (c.chunkLen x) bs
    (s.takeResult c x owner bs (fun j => (vals.getD j .zero).lineage)).settleComm c.comm

/-! ### Loss (R393, R394) and the end of a domain's collectives (R479) -/

/-- The collectives that satisfy `p` end with a status, in order; every other member is told. -/
def State.endColls (s : State) (p : Coll → Bool) (status : Nat) : State :=
  (s.link.colls.filter (fun c => p c && c.endedAs.isNone)).foldl (fun s c => (s.sendAborts c.comm c.k status).endColl c status) s

/-- The communicators that include a module. -/
def State.commsWith (s : State) (id : Nat) : List Nat := (upto 256).filter (fun c => s.commValid c && (s.members c).contains id)

/-- R393, R394: a module is declared lost. -/
def State.declareLost (s : State) (id : Nat) : State :=
  if s.isLost id || id == s.fabricId then s
  else
    let cs := s.commsWith id
    let s := { s with link := { s.link with lost := setIns s.link.lost id,
                                            streams := SMap.mapVals {} (fun k st => if k / 512 = id then { st with unacked := [], waiting := [] } else st) s.link.streams } }
    let s := s.loseSources id
    let s := s.endColls (fun c => cs.contains c.comm) stPeerLost
    cs.foldl (fun s c => if (s.comm c).lost.isNone then s.setComm c { s.comm c with lost := some id } else s) s

/-- R393: the members that a COLL_ABORT with ST_PEER_LOST may stand for: not this module, and not its sender. [DEDUCED, log 40] -/
def State.mayBeLost (s : State) (comm src : Nat) : List Nat := (s.members comm).filter (fun id => id != s.fabricId && id != src)

/-- R393: a COLL_ABORT with ST_PEER_LOST, for a collective of any number: a member of its communicator is declared lost, and the message does
not name which. [DEDUCED, log 40] -/
def State.abortLoss (s : State) (comm src status : Nat) : State :=
  if status = stPeerLost ∧ (s.comm comm).lost.isNone then
    let (v, s) := s.draw
    let ids := s.mayBeLost comm src
    s.declareLost (ids.getD (v.toNat % max ids.length 1) (v.toNat % 2 ^ 14))
  else s

/-- R383, R393, R394, R479: COLL_ABORT from `src` ends the collective with the status it carries. [DEDUCED, log 40] -/
def State.collAbort (s : State) (c : Coll) (src status : Nat) : State :=
  let s := s.abortLoss c.comm src status
  let s := if status = stContained then s.setComm c.comm { s.comm c.comm with fatal := true } else s
  match s.coll c.comm c.k with
  | some c => if c.endedAs.isSome then s else s.endColl c status
  | none => s

/-! ### Collectives begin (R385, R390) -/

/-- R383: this member has not yet issued collective `k` of a communicator. -/
def State.notReached (s : State) (comm k : Nat) : Bool := decide ((k + 2 ^ 24 - (s.comm comm).nextK) % 2 ^ 24 < 2 ^ 23)

/-- R383, R385: a message ahead of this member's own COLL is held; COLL_DATA, which nobody may send so early, is a conflict. -/
def State.holdColl (s : State) (p : Nat) (m : Msg) : State :=
  let m' := if m.mkind = 0xA then { m with t0 := setFld m.t0 35 31 0x0C, t3 := stConflict, data := [] } else m
  let s := if m.mkind = 0xA then s.sendAborts m.comm m.k stConflict else s
  { s with link := { s.link with held := s.link.held ++ [(p, m')] } }

/-- R383, R385: a collective message for a member of its communicator. [DEDUCED, log 40] -/
def State.collMsg (s : State) (p : Nat) (m : Msg) : State :=
  match s.coll m.comm m.k with
  | some c =>
    if c.endedAs.isSome then s
    else if c.unbegun && !(m.mkind == 0x0C && m.t3 % 256 == stPeerLost) then s.holdColl p m
    else if m.mkind = 0x0C then s.collAbort c m.src (m.t3 % 256)
    else if m.sig ≠ c.sig then s.collConflict c
    else if m.mkind = 8 then s.collReady c m
    else if m.mkind = 9 then s.collGet c m
    else if m.mkind = 0xA then s.collData c m
    else s.collPut c m
  | none =>
    let s := if m.mkind = 0x0C then s.abortLoss m.comm m.src (m.t3 % 256) else s
    if s.notReached m.comm m.k && (s.comm m.comm).lost.isNone then s.holdColl p m else s

/-- R385: the requests held for a collective are taken up as it issues. [DEDUCED, log 40] -/
def State.takeHeld (s : State) (comm k : Nat) : State :=
  let mine := s.link.held.filter (fun x => x.2.comm == comm && x.2.k == k)
  let s := { s with link := { s.link with held := s.link.held.filter (fun x => !(x.2.comm == comm && x.2.k == k)) } }
  mine.foldl (fun s x => s.collMsg x.1 x.2) s

/-- What this member contributes to chunk `x` at its leaf: source bytes, or its records. -/
def State.leafPartial (s : State) (c : Coll) (aux x : Nat) : Partial :=
  let n := c.chunkLen x
  match c.kind with
  | .stepEnd => .stats ((upto n).map (fun j => let key := statKeys.getD (32 * x + j) 0; (key, s.contribution key)))
  | .norm => .norms ((upto n).map (fun j =>
      let g := (maskGroups c.groups).getD (32 * x + j) 0
      (g, s.localNorm g (s.readLe (aux + 16 * g) 4) (s.readLe (aux + 16 * g + 8) 8))))
  | _ => .bytes (s.viewWire c.src c.linear (8192 * x) (8192 * x + n))

/-- R388: the pieces of which this member is the owner start down the tree. -/
def State.startCopies (s : State) (c : Coll) : State :=
  (upto c.chunkCount).foldl (fun s x =>
    let n := c.chunkLen x
    let seg := if c.kind = .allgather then c.segment c.rank else if c.rank = 0 then (0, c.elems) else (0, 0)
    let lo := max (8192 * x) seg.1
    let hi := min (8192 * x + n) seg.2
    if hi ≤ lo then s
    else
      let bs := s.viewWire c.src c.linear (lo - seg.1) (hi - seg.1)
      let owner := if c.kind = .allgather then c.rank else 0
      let vals := wireNums c.dst.f c.dst.t c.linear (hi - lo) bs
      (s.pushCopy c x owner (treeDepth c.n) 0 bs).takeResult c x owner bs (fun j => (vals.getD j .zero).lineage)) s

/-- A collective that has its place begins in this member. -/
def State.beginColl (s : State) (c : Coll) (aux : Nat) : State :=
  let s := s.setColl c
  let s := if c.kind.copies then s.startCopies c
    else (upto c.chunkCount).foldl (fun s x => match s.coll c.comm c.k with
      | some d => s.supply d x 0 c.rank (s.leafPartial c aux x)
      | none => s) s
  (s.takeHeld c.comm c.k).settleComm c.comm

/-- A collective begins in this member as it issues. -/
def State.startColl (s : State) (c : Coll) (aux : Nat) : State := (s.placeColl c).beginColl c aux

/-- R236: the COLL NORM is the last of its clip groups to issue. -/
def State.noteNorm (s : State) (qi : Nat) (w : Wide) : State :=
  if collKind w.op = .norm ∧ w.op = 5 then
    { s with lastNorm := (maskGroups w.n1).foldl (fun m g => SMap.set {} m g { queue := qi, cseq := w.cseq, issued := true }) s.lastNorm }
  else s

/-- R206, R390: COLL issues: it waits while 32 collectives are in progress. -/
def State.issueColl (s : State) (qi : Nat) (w : Wide) : Option State :=
  match s.commDead w.coComm with
  | some st =>
    let s := s.noteNorm qi w
    some (if w.op = 5 then s.endNorm (s.collOf qi w) st else s.complete qi w.cseq st)
  | none =>
    if s.collLimit ≤ s.collsRunning then none
    else
      let k := (s.comm w.coComm).nextK
      let c : Coll := { s.collOf qi w with k := k }
      let s := (s.takeK w.coComm).noteNorm qi w
      let s := s.modWide qi w.cseq (fun w => { w with coll := some (c.comm, k) })
      let rs := if w.op = 5 then (maskGroups w.n1).map (fun g => ((w.operand 2).desc.data + 16 * g, 16))
        else if c.kind = .broadcast ∧ c.rank ≠ 0 then [] else w.coSrc.desc.ranges w.coSrc.f w.heritage
      let s := (s.markPoisoned qi w.cseq (s.rangesPoisoned rs)).countReads w.domain rs
      some (s.startColl c (w.operand 2).desc.data)

/-- R236: at its retirement a COLL NORM hands its reduced records to the UPDs bound to it. -/
def State.releaseNorm (s : State) (qi : Nat) (w : Wide) : State :=
  match w.normRec with
  | some recs =>
    if w.opcode = 8 ∧ w.op = 5 then
      let part := fun g => (recs.drop (64 * g)).take 64
      let s := { s with lastNorm := SMap.mapVals {} (fun g l => if l.issued && l.queue == qi && l.cseq == w.cseq then { l with result := some (part g) } else l) s.lastNorm }
      { s with queues := SMap.mapVals {} (fun _ q => { q with inflight := q.inflight.map (fun u =>
          if u.opcode == 9 && u.normOf == some (qi, w.cseq) && u.normRec.isNone then { u with normRec := some (part u.updClip) } else u) }) s.queues }
    else s
  | none => s

/-- The waits of a collective begin later by `d`: time that a freeze took (R44). -/
def Coll.delayed (c : Coll) (d : Nat) : Coll :=
  { c with startedAt := c.startedAt + d,
           nodes := SMap.mapVals {} (fun _ v => if v.getSent then { v with askedAt := v.askedAt + d } else v) c.nodes }

/-! ### Ports without their link (R392, R393) -/

/-- R356: a port whose link is there: it carries traffic, is held, or resynchronises. -/
def FabPort.linked (x : FabPort) : Bool := x.state == .up || x.state == .held || x.state == .recovery

/-- R393: in a mesh, a module is lost once every port cabled to it is DOWN. -/
def State.meshLoss (s : State) (id : Nat) : State :=
  if bit (s.reg 0x03100008) 31 || (upto 48).any (fun p => (s.fport p).linked && !(s.fport p).partnerSwitch && (s.fport p).partnerId == id) then s
  else s.declareLost id

/-- R365, R392: a port without its link: its replay buffer, its queued flits and what it was receiving are gone. -/
def FabPort.dropped (x : FabPort) (st : PortState) (cause now : Nat) : FabPort :=
  { x with state := st, cause := cause, step := 0, since := now, ownReady := false, sentReady := false, partnerReady := false,
           replay := [], nackOpen := false, unacked := 0, nackCount := 0, outq := [], ctrlq := [], assembling := [], inq := [] }

/-- R392, R393: a port goes DOWN with a cause; while frozen the link block declares no loss (R42). -/
def State.portDown (s : State) (p cause : Nat) : State :=
  let x := s.fport p
  let s := s.setFport p (x.dropped .down cause s.now)
  if x.linked && !x.partnerSwitch && !s.freeze.frozen then s.meshLoss x.partnerId else s

/-! ### STEP_END's reduction (R149 steps 2 to 4) -/

/-- R149: STEP_END_MERGE: the reduction begins. [DEDUCED, log 37] -/
def doStepEndMerge (s : State) : State :=
  if !s.alive then s
  else match s.tailor.boundary with
    | some b =>
      if b.load || b.merged || s.measuredInFlight b.step then s
      else
        let next := fun (s : State) => { s.tailor with boundary := some { b with merged := true }, reduced := [] }
        match s.commDead b.comm with
        | some st =>
          let s := s.mergeSlots
          let s := { s with tailor := next s }
          match s.coll b.comm b.k with
          | some c => s.endColl { c with unbegun := false } st
          | none => { s with tailor := { s.tailor with reduction := some st } }
        | none =>
          let s := s.mergeSlots
          let s := { s with tailor := next s }
          match s.coll b.comm b.k with
          | some c => s.beginColl { c with unbegun := false, startedAt := s.now } 0
          | none => s
    | none => s

def execStepEndMerge (s : State) : Host.Outcome State Fault Refusal := .next (doStepEndMerge s)

end Sys2Proof.Machine
end

