-- ==== Sys2Proof/Machine/Host.lean ====
section
/-! DEFINITION. How a host's access reaches the module (R417, R414, R429, R434, R435, R546), and what a host reads back. -/

namespace Sys2Proof.Machine

/-- What becomes of a host's access as it arrives. -/
inductive Gate where
  /-- it does not arrive: no power, no link, or a function in D3hot (R417, R428) -/
  | absent
  /-- answered before ready, or in RECOVERY (R434, R435) -/
  | early
  /-- answered as an Unsupported Request: past BAR0 (R404, R413), or outside a Secure stream (R414) -/
  | unsupported
  /-- it waits: the module is frozen (R429), or an earlier access of the port waits -/
  | waits
  | served
deriving DecidableEq, Repr

/-- R546: the BAR0 offsets that respond to a read while the module is frozen. [DEDUCED, log 52] -/
def frozenRead (off : Nat) : Bool := decide (off < 0x100000) || (decide (0x03800000 ≤ off) && decide (off < 0x03C00000))

/-- R546: the offsets that a write is accepted to while the module is frozen: OBS_FREEZE_CTL, OBS_RO_SEL, OBS_ERRQ_POP and the chalk
registers. [DEDUCED, log 52] -/
def frozenWrite (off : Nat) : Bool :=
  off / 8 == 0x03800010 / 8 || off / 8 == 0x03800020 / 8 || off / 8 == 0x03B00028 / 8 ||
  (decide (0x03840000 ≤ off) && decide (off < 0x03840400))

/-- R434: the identity and status page. -/
def identityPage (off : Nat) : Bool := decide (off < 0x1000)

/-- R414: in IDE-required mode a TLP that no Secure stream carries. [PRESUMED, log 53] -/
def Port.barred (x : Port) : Bool := x.ideRequired && x.ideSecure.isEmpty

/-- R443, R461: the registers whose accesses the management controller serves: those of the configuration transactions.
[DEDUCED, log 68] -/
def managed (off : Nat) : Bool := decide (0x00100000 ≤ off) && decide (off < 0x01000000)

/-- What becomes of a BAR0 access of port `p` at `off`. [DEDUCED, log 52] -/
def State.bar0Gate (s : State) (p : HostPort) (off : Nat) (write : Bool) : Gate :=
  let x := s.port p
  if !s.power.pwrGood || !x.linkUp || x.d3hot then .absent
  else if !s.ready then
    if identityPage off then (if write then .absent else .served)
    else if off / 8 == 0x03800000 / 8 && !write then .served
    else if s.recovery && decide (0x03C00000 ≤ off) then .served
    else .early
  else if decide (0x04000000 ≤ off) || (x.barred && !identityPage off) then .unsupported
  else if s.activating 1 && managed off then .waits
  else if s.freeze.frozen then (if (if write then frozenWrite off else frozenRead off) then .served else .waits)
  else if x.waiting != [] && !x.draining then .waits
  else .served

/-- R434: the fields of MOD_EARLY_ACCESS. -/
def BringUp.early (b : BringUp) (bar2 write : Bool) : BringUp :=
  if bar2 then (if write then { b with earlyW2 := sat 16 (b.earlyW2 + 1) } else { b with earlyR2 := sat 16 (b.earlyR2 + 1) })
  else if write then { b with earlyW0 := sat 16 (b.earlyW0 + 1) } else { b with earlyR0 := sat 16 (b.earlyR0 + 1) }

/-- An access kept until it can be served; the mark of an access taken up again is dropped. [DEDUCED, log 52] -/
def State.keepAccess (s : State) (p : HostPort) (c : Instr) : State := s.modPort p (fun x => { x with waiting := x.waiting ++ [c] })

/-- The model's mark of the access being served, taken off. -/
def State.undrain (s : State) (p : HostPort) : State := s.modPort p (fun x => { x with draining := false })

/-- A host write of port `p` at BAR0 offset `off`, the command `c`, with its effect `f` where the write is served. -/
def State.hostWrite (s : State) (p : HostPort) (off : Nat) (c : Instr) (f : State → State) : State :=
  let t := s.undrain p
  match s.bar0Gate p off true with
  | .absent => t
  | .early => { t with bring := t.bring.early false true }
  | .unsupported => t.logPort p 20
  | .waits => t.keepAccess p c
  | .served => f t

/-- All ones, of a read of `n` bytes (R22, R434). -/
def onesOf (n : Nat) : Nat := 2 ^ (8 * n) - 1

/-- The data a read returns to the host of a port. -/
def State.answer (s : State) (p : HostPort) (v : Nat) : State := s.modPort p (fun x => { x with lastRead := v, lastAbort := false })

/-- A host read of `n` bytes at BAR0 offset `off`; `f` gives the value it returns and the state after it. -/
def State.hostRead (s : State) (p : HostPort) (off n : Nat) (c : Instr) (f : State → Nat × State) : State :=
  let t := s.undrain p
  match s.bar0Gate p off false with
  | .absent => t
  | .early => State.answer { t with bring := t.bring.early false false } p (onesOf n)
  | .unsupported => (t.logPort p 20).modPort p (fun x => { x with lastAbort := true })
  | .waits => t.keepAccess p c
  | .served => let (v, u) := f t; u.answer p v

/-- R416: the port holds stewardship. -/
def State.isSteward (s : State) (p : HostPort) : Bool := s.roles.steward == some p

/-- R416, R449, R528: a write that only the steward may make; a peer's is dropped and logged. -/
def State.byStewardOnly (s : State) (p : HostPort) (f : State → State) : State := if s.isSteward p then f s else s.misuse p

/-- R449: a doorbell or a BAR2 access in REST, or on the way into it, starts the exit: the rail rises to what ACTIVE asks of it.
[DESIGN CHOICE, log 61] -/
def State.wake (s : State) : State :=
  if s.power.state = .rest ∨ s.power.state = .entering then (s.powerState .exiting).slewTo s.power.wanted else s

/-- R449: the module is in REST, or on its way into or out of it. -/
def State.resting (s : State) : Bool := s.power.state != .active

end Sys2Proof.Machine
end

