-- ==== Sys2Proof/Machine/Observe.lean ====
section
/-! DEFINITION. What commands and hosts do to a chalk buffer (R534 to R536): START, STOP, MARK and TRIGGER. -/

namespace Sys2Proof.Machine

/-- The configuration fields of OBS_CHALK_CFG. -/
def Chalk.enabled (c : Chalk) : Bool := bit c.cfg 63

/-- OBS_CHALK_CFG: the buffer lies wholly in granules of its domain. -/
def State.chalkPlaced (s : State) (c : Chalk) : Bool :=
  (pieces c.base (32 * c.size)).all (fun p =>
    match s.area p.1 with
    | some r => s.area p.2 == some r && r.granular && s.domainOf p.1 == some c.domain
    | none => false)

/-- R534: START puts the buffer in RECORDING. -/
def Chalk.start (c : Chalk) : Chalk :=
  { c with next := 0, wrapped := false, triggered := false, state := .recording, trigPos := 0, count := 0, post := 0 }

/-- R534: START on buffer `b`; the Bool says that it failed for want of storage. -/
def State.chalkStart (s : State) (b : Nat) : State × Bool :=
  let c := s.buffer b
  if !c.enabled then (s, false)
  else if !s.chalkPlaced c then (s.setBuffer b { c with state := .stopped }, true)
  else (s.setBuffer b c.start, false)

/-- R534: STOP. -/
def State.chalkStop (s : State) (b : Nat) : State := s.modBuffer b (fun c => { c with state := .stopped })

/-- R533: a MARK of a command. -/
def State.chalkMark (s : State) (b core domain seq value : Nat) : State :=
  let c := s.buffer b
  if c.state != .stopped && s.chalkTakes c core domain && bit c.cfg 39 then s.chalkPut b (chalkBytes s.now 3 0xB core domain seq value) else s

end Sys2Proof.Machine
end

