-- ==== Sys2Proof/Machine/Scalar.lean ====
section
/-! DEFINITION. The scalar instructions (R211 to R213, R245): fetch of a stream word, the sequencer's turn, and one meaning for each. -/

namespace Sys2Proof.Machine

/-! ### Registers of a core queue (R205) -/

/-- g0 reads as zero. -/
def CoreQ.getG (q : CoreQ) (r : Nat) : Word := if r % 32 = 0 then 0 else SMap.get 0 q.g (r % 32)

/-- g0 ignores writes. -/
def CoreQ.setG (q : CoreQ) (r : Nat) (v : Word) : CoreQ := if r % 32 = 0 then q else { q with g := SMap.set 0 q.g (r % 32) v }

/-- R211: an address register is named by the low four bits. -/
def CoreQ.getA (q : CoreQ) (r : Nat) : Word := SMap.get 0 q.a (r % 16)
def CoreQ.setA (q : CoreQ) (r : Nat) (v : Word) : CoreQ := { q with a := SMap.set 0 q.a (r % 16) v }

/-- R211: the immediate, sign-extended to 64 bits. -/
def immWord (imm : Imm) : Word := imm.signExtend 64

/-! ### Fetch (R245) -/

/-- R245: a stream word lies in a core store or slow-tier memory, in the queue's domain. -/
def State.fetchable (s : State) (dom a : Nat) : Bool :=
  (match s.area a with
    | some (.coreStore _) => true
    | some .interleaved => true
    | some (.hubLocal _) => true
    | _ => false) && s.area (a + 7) == s.area a && s.domainOf a == some dom

/-- R245: the trap of a stream word at `a` when it is fetched: ADDRESS outside core store and slow-tier memory or outside the queue's
domain, CONTAINED when poisoned. A stream at a bus address is not checked so. -/
def State.fetchTrap (s : State) (qi : Nat) (a : Nat) : Option Nat :=
  match (s.queue qi).sub with
  | some x =>
    if x.onHost then none
    else
      if !s.fetchable (s.queueDomain qi) a then some trAddress
      else if s.poisoned a 8 then some trContained
      else none
  | none => none

/-- The first of `n` stream words from pc on that fails its check, with its trap. -/
def State.fetchFault (s : State) (qi n : Nat) : Option (Nat × Word) :=
  let pc := (s.queue qi).pc
  ((upto n).filterMap (fun i => (s.fetchTrap qi (pc.toNat + 8 * i)).map (fun t => (t, pc + BitVec.ofNat 64 (8 * i))))).head?

/-- R245: `n` words from pc on lie within the submission's word count. [DESIGN CHOICE, log 20] -/
def State.wordsLeft (s : State) (qi n : Nat) : Bool :=
  let q := s.queue qi
  match q.sub with
  | some x => decide (x.base ≤ q.pc.toNat) && decide (q.pc.toNat + 8 * n ≤ x.base + 8 * x.words)
  | none => false

/-- R245: the submission ends where pc has left its words. [DESIGN CHOICE, log 20] -/
def State.checkExhausted (s : State) (qi : Nat) : State :=
  if s.wordsLeft qi 1 then s
  else (s.modQueue qi (fun q => { q with sub := q.sub.map (fun x => { x with ended := true }) })).checkEnd qi

/-! ### One scalar instruction -/

/-- What executing a scalar instruction gives: the queue with its new registers and pc, and the memory it wrote; or a trap. -/
inductive ScalarOut where
  | done (s : State)
  | trap (cause code : Nat)

/-- A scalar instruction of core queue `qi`: it runs when it is the queue's turn (R209) and its word passes its fetch check (R245). A
trapping instruction is not executed (R251). [DESIGN CHOICE, log 18] -/
def doScalar (qi : Nat) (f : State → ScalarOut) (s : State) : State :=
  if s.turn qi then
    let s := s.took qi
    match s.fetchFault qi 1 with
    | some (cause, pc) => s.trapQueue qi cause 0 pc
    | none =>
      match f s with
      | .done t => t.checkExhausted qi
      | .trap cause code => s.trapQueue qi cause code (s.queue qi).pc
  else s

/-- A row of the scalar instructions. -/
def scalarRow (c q : Nat) (f : State → ScalarOut) (s : State) : Host.Outcome State Fault Refusal :=
  if c < 24 ∧ q < 8 then .next (doScalar (8 * c + q) f s) else .fault .noSuchUnit

/-- The queue changed by an instruction, with pc past its word. -/
def advance (qi : Nat) (f : CoreQ → CoreQ) (s : State) : ScalarOut :=
  .done (s.modQueue qi (fun q => { f q with pc := q.pc + 8 }))

end Sys2Proof.Machine

namespace Sys2Proof

/-! ### Operations (R212) -/

/-- R212: the low 64 bits of the exact result; shift amounts modulo 64. -/
def AluOp.apply (op : AluOp) (x y : Word) : Word :=
  match op with
  | .add => x + y
  | .sub => x - y
  | .and => x &&& y
  | .or => x ||| y
  | .xor => x ^^^ y
  | .sll => x <<< (y.toNat % 64)
  | .srl => x >>> (y.toNat % 64)
  | .sra => x.sshiftRight (y.toNat % 64)
  | .mul => x * y
  | .mulhu => BitVec.ofNat 64 (x.toNat * y.toNat / 2 ^ 64)
  | .min => if x.slt y then x else y
  | .max => if x.slt y then y else x
  | .minu => if x.ult y then x else y
  | .maxu => if x.ult y then y else x
  | .slt => if x.slt y then 1 else 0
  | .sltu => if x.ult y then 1 else 0

/-- R212: the branch comparisons. -/
def BranchOp.apply (op : BranchOp) (x y : Word) : Bool :=
  match op with
  | .beq => x == y
  | .bne => x != y
  | .blt => x.slt y
  | .bge => !x.slt y
  | .bltu => x.ult y
  | .bgeu => !x.ult y

/-- R212: the bytes of a load, and whether it sign-extends. -/
def LoadOp.bytes : LoadOp → Nat
  | .ld8u | .ld8s => 1
  | .ld16u | .ld16s => 2
  | .ld32u | .ld32s => 4
  | .ld64 => 8

def LoadOp.signed : LoadOp → Bool
  | .ld8s | .ld16s | .ld32s => true
  | _ => false

/-- R212: the bytes of a store. -/
def StoreOp.bytes : StoreOp → Nat
  | .st8 => 1 | .st16 => 2 | .st32 => 4 | .st64 => 8

end Sys2Proof

namespace Sys2Proof.Machine

def execAluRegister (c q : Nat) (op : AluOp) (rd rs1 rs2 : Nat) (s : State) : Host.Outcome State Fault Refusal :=
  scalarRow c q (advance (8 * c + q) (fun x => x.setG rd (op.apply (x.getG rs1) (x.getG rs2)))) s

def execAluImmediate (c q : Nat) (op : AluOp) (rd rs1 : Nat) (imm : Imm) (s : State) : Host.Outcome State Fault Refusal :=
  scalarRow c q (advance (8 * c + q) (fun x => x.setG rd (op.apply (x.getG rs1) (immWord imm)))) s

def execLi (c q rd : Nat) (imm : Imm) (s : State) : Host.Outcome State Fault Refusal :=
  scalarRow c q (advance (8 * c + q) (fun x => x.setG rd (immWord imm))) s

/-- R212: g[rd][63:32] ← imm, unsigned; the low half is unchanged. -/
def execLih (c q rd : Nat) (imm : Imm) (s : State) : Host.Outcome State Fault Refusal :=
  scalarRow c q (advance (8 * c + q) (fun x => x.setG rd (imm ++ (x.getG rd).truncate 32))) s

def execAmov (c q rd rs1 : Nat) (s : State) : Host.Outcome State Fault Refusal :=
  scalarRow c q (advance (8 * c + q) (fun x => x.setA rd (x.getG rs1))) s

def execGmov (c q rd rs1 : Nat) (s : State) : Host.Outcome State Fault Refusal :=
  scalarRow c q (advance (8 * c + q) (fun x => x.setG rd (x.getA rs1))) s

def execAadd (c q rd rs1 rs2 : Nat) (imm : Imm) (s : State) : Host.Outcome State Fault Refusal :=
  scalarRow c q (advance (8 * c + q) (fun x => x.setA rd (x.getA rs1 + x.getG rs2 + immWord imm))) s

/-! ### Memory (R212, R309) -/

/-- The address of a scalar load or store. -/
def scalarAddr (x : CoreQ) (rs1 : Nat) (imm : Imm) : Nat := (x.getA rs1 + immWord imm).toNat

/-- R212: the trap of a scalar access of `n` bytes at `a`. -/
def State.scalarTrap (s : State) (qi a n : Nat) : Option Nat :=
  if a % n ≠ 0 then some trMisaligned
  else if !s.accessOk (s.sequencerOf qi) (s.queueDomain qi) a n then some trAddress
  else none

/-- The 64-bit value a load gives: zero- or sign-extended. -/
def loadValue (op : LoadOp) (v : Nat) : Word :=
  if op.signed then BitVec.ofInt 64 (sext (8 * op.bytes) v) else BitVec.ofNat 64 v

/-- R212, R309: a load; a poisoned one traps with CONTAINED. -/
def doLoad (qi : Nat) (op : LoadOp) (rd rs1 : Nat) (imm : Imm) (s : State) : ScalarOut :=
  let a := scalarAddr (s.queue qi) rs1 imm
  match s.scalarTrap qi a op.bytes with
  | some t => .trap t 0
  | none =>
    if s.poisoned a op.bytes then .trap trContained 0
    else advance qi (fun x => x.setG rd (loadValue op (s.readLe a op.bytes))) (s.countBytes (some (s.queueDomain qi)) true a op.bytes)

/-- R212: a store of the low bits of g[rs2]. -/
def doStore (qi : Nat) (op : StoreOp) (rs1 rs2 : Nat) (imm : Imm) (s : State) : ScalarOut :=
  let a := scalarAddr (s.queue qi) rs1 imm
  match s.scalarTrap qi a op.bytes with
  | some t => .trap t 0
  | none => advance qi id ((s.writeLe a op.bytes ((s.queue qi).getG rs2).toNat).countBytes (some (s.queueDomain qi)) false a op.bytes)

def execLoad (c q : Nat) (op : LoadOp) (rd rs1 : Nat) (imm : Imm) (s : State) : Host.Outcome State Fault Refusal :=
  scalarRow c q (doLoad (8 * c + q) op rd rs1 imm) s

def execStore (c q : Nat) (op : StoreOp) (rs1 rs2 : Nat) (imm : Imm) (s : State) : Host.Outcome State Fault Refusal :=
  scalarRow c q (doStore (8 * c + q) op rs1 rs2 imm) s

/-! ### Branches (R212) -/

/-- R212: the target pc + 8 × imm. -/
def target (pc : Word) (imm : Imm) : Word := pc + 8 * immWord imm

def execBranch (c q : Nat) (op : BranchOp) (rs1 rs2 : Nat) (imm : Imm) (s : State) : Host.Outcome State Fault Refusal :=
  scalarRow c q (fun s => .done (s.modQueue (8 * c + q) (fun x =>
    { x with pc := if op.apply (x.getG rs1) (x.getG rs2) then target x.pc imm else x.pc + 8 }))) s

def execJmp (c q : Nat) (imm : Imm) (s : State) : Host.Outcome State Fault Refusal :=
  scalarRow c q (fun s => .done (s.modQueue (8 * c + q) (fun x => { x with pc := target x.pc imm }))) s

/-- R212: a CALL with 16 entries on the return stack traps with RSTACK. -/
def execCall (c q : Nat) (imm : Imm) (s : State) : Host.Outcome State Fault Refusal :=
  scalarRow c q (fun s =>
    if 16 ≤ (s.queue (8 * c + q)).rstack.length then .trap trRstack 0
    else .done (s.modQueue (8 * c + q) (fun x => { x with rstack := (x.pc + 8) :: x.rstack, pc := target x.pc imm }))) s

/-- R212: a RET with an empty return stack traps with RSTACK. -/
def execRet (c q : Nat) (s : State) : Host.Outcome State Fault Refusal :=
  scalarRow c q (fun s =>
    match (s.queue (8 * c + q)).rstack with
    | [] => .trap trRstack 0
    | r :: rs => .done (s.modQueue (8 * c + q) (fun x => { x with rstack := rs, pc := r }))) s

/-! ### System (R212, R213) -/

def execNop (c q : Nat) (s : State) : Host.Outcome State Fault Refusal := scalarRow c q (advance (8 * c + q) id) s

/-- R245: END ends the submission; its end record follows its last wide command (R247). -/
def execEndSub (c q : Nat) (s : State) : Host.Outcome State Fault Refusal :=
  scalarRow c q (fun s => .done ((s.modQueue (8 * c + q) (fun x =>
    { x with pc := x.pc + 8, sub := x.sub.map (fun y => { y with ended := true }) })).checkEnd (8 * c + q))) s

/-- R213: the value of a special register. -/
def State.special (s : State) (qi n : Nat) : Option Nat :=
  let q := s.queue qi
  if n = 0 then some (s.serving qi)
  else if n = 1 then some (qi % 8)
  else if n = 2 then some (s.fabricId + 2 ^ 63 * b2n s.fabricValid)
  else if n = 3 then some q.cseq
  else if n = 4 then some q.rseq
  else if n = 5 then some (q.lastStatus + 256 * q.lastOutcome)
  else if n = 6 then some s.tailor.step
  else if n = 7 then some s.now
  else if n = 8 then some (match q.sub with | some x => 64 * portNum x.port + x.hq | none => 0)
  else if n = 9 then some (match q.sub with | some x => x.userTag | none => 0)
  else if n = 0x100 then some (b2n q.trapOnStatus)
  else none

/-- R213: the number of a special register: imm[15:0]. -/
def specialNo (imm : Imm) : Nat := imm.toNat % 65536

def execRdsr (c q rd : Nat) (imm : Imm) (s : State) : Host.Outcome State Fault Refusal :=
  scalarRow c q (fun s =>
    match s.special (8 * c + q) (specialNo imm) with
    | some v => advance (8 * c + q) (fun x => x.setG rd (BitVec.ofNat 64 v)) s
    | none => .trap trIllegal 0) s

/-- R213: TRAP_CTL is the only register that WRSR may write. -/
def execWrsr (c q rs1 : Nat) (imm : Imm) (s : State) : Host.Outcome State Fault Refusal :=
  scalarRow c q (fun s =>
    if specialNo imm = 0x100 then advance (8 * c + q) (fun x => { x with trapOnStatus := bit (x.getG rs1).toNat 0 }) s
    else .trap trIllegal 0) s

/-- R212, R254: the software trap, with code imm[15:0]. -/
def execTrap (c q : Nat) (imm : Imm) (s : State) : Host.Outcome State Fault Refusal :=
  scalarRow c q (fun _ => .trap trSoftware (specialNo imm)) s

end Sys2Proof.Machine
end

