-- ==== Sys2Proof/Machine/Wide.lean ====
section
/-! DEFINITION. The wide commands (R206 to R208, R214, R230 to R240): dispatch, check, issue and retirement, TACK, CHALK and FENCE, and one
meaning for each row that dispatches a command. -/

namespace Sys2Proof.Machine

/-! ### TACK, CHALK and FENCE -/

def Wide.tkTack (w : Wide) : Nat := fld w.n0 27 14
def Wide.tkRemote (w : Wide) : Bool := bit w.n0 13
def Wide.tkFabric (w : Wide) : Nat := fld w.n1 63 50
def Wide.tkTimeout (w : Wide) : Nat := fld w.n1 49 34
def Wide.tkValue (w : Wide) : Nat := fld w.n1 31 0

/-- R230, R261: a reserved op, remote with any op but ADD, or an ARRIVE of a count outside 1–2,047. -/
def checkTack (w : Wide) : Verdict :=
  if 4 < w.op ∨ (w.tkRemote ∧ w.op ≠ 1) ∨ (w.op = 4 ∧ (w.tkValue = 0 ∨ 2047 < w.tkValue)) then .fail stConflict else .pass w

/-- R264: every tack of this module that the command names is in the queue's domain. -/
def State.tacksOk (s : State) (w : Wide) : Bool :=
  (!w.retEn || (s.tack w.retTack).domain == w.domain) &&
  (w.opcode != 7 || w.tkRemote || (s.tack w.tkTack).domain == w.domain)

/-- R230, R262: TACK issues: a WAIT waits, any other is complete at once. [DEDUCED, log 25] -/
def State.issueTack (s : State) (qi : Nat) (w : Wide) : State :=
  if w.op = 2 ∨ w.op = 3 then
    s.tackWait w.tkTack { queue := qi, cseq := w.cseq, eq := w.op == 3, operand := w.tkValue,
                          deadline := if w.tkTimeout = 0 then none else some (s.now + 100000 * w.tkTimeout) }
  else s.complete qi w.cseq stOk

/-- R231: what a TACK does at its retirement. [DEDUCED, log 25] -/
def State.retireTack (s : State) (qi : Nat) (w : Wide) : State :=
  if w.opcode ≠ 7 ∨ w.status ≠ stOk then s
  else if w.op = 0 then s.tackSet w.tkTack w.tkValue
  else if w.op = 1 then (if w.tkRemote then s else s.tackAdd w.tkTack w.tkValue)
  else if w.op = 4 then s.tackArrive w.tkTack w.tkValue qi w.cseq
  else s

/-- R231, R268: a remote ADD is sent at its retirement. -/
def State.retireRemote (s : State) (qi : Nat) (w : Wide) : State :=
  if w.opcode = 7 ∧ w.status = stOk ∧ w.op = 1 ∧ w.tkRemote then s.remoteAdd qi w.tkFabric w.tkTack w.tkValue else s

def Wide.chBuffer (w : Wide) : Nat := fld w.n0 27 24

/-- R238, R533: a reserved op, or a buffer of another domain. -/
def State.checkChalk (s : State) (w : Wide) : Verdict :=
  if 3 < w.op ∨ (s.buffer w.chBuffer).domain ≠ w.domain then .fail stConflict else .pass w

/-- R238, R240: CHALK is complete when the chalk unit accepts it. -/
def State.issueChalk (s : State) (core qi : Nat) (w : Wide) : State :=
  let b := w.chBuffer
  if w.op = 0 then (s.chalkMark b core w.domain (seqWord qi w.cseq) w.n1).complete qi w.cseq stOk
  else if w.op = 1 then (s.chalkTrigger b 0 0).complete qi w.cseq stOk
  else if w.op = 2 then
    let (s, bad) := s.chalkStart b
    if bad then (s.logQueue 0x010C qi w.domain w.cseq).complete qi w.cseq stContained else s.complete qi w.cseq stOk
  else (s.chalkStop b).complete qi w.cseq stOk

/-- R239: what a FENCE that dispatches now waits for. -/
def State.fenceWaits (s : State) (core qi : Nat) (w : Wide) : List (Nat × Nat) :=
  if w.opcode ≠ 0xC then []
  else if w.op = 0 then ((s.queue qi).inflight.filter (fun u => decide (u.cseq < w.cseq))).map (fun u => (qi, u.cseq))
  else if w.op = 1 then
    (s.contexts core).flatMap (fun x => ((s.queue x.2).inflight.filter (fun u => x.2 != qi || u.cseq != w.cseq)).map (fun u => (x.2, u.cseq)))
  else []

def checkFence (w : Wide) : Verdict := if 1 < w.op then .fail stConflict else .pass w

/-- R239: FENCE issues; it is complete when it waits for nothing. -/
def State.issueFence (s : State) (qi : Nat) (w : Wide) : State := if w.waits.isEmpty then s.complete qi w.cseq stOk else s

/-! ### Check and issue by opcode (R215) -/

/-- R206: the check of a command whose formats are resolved, by opcode. [DEDUCED, log 22] -/
def State.checkOp (s : State) (core : Nat) (w : Wide) : Verdict :=
  if w.opcode = 1 then s.checkMm core w
  else if w.opcode = 2 then s.checkLoadw core w
  else if w.opcode = 3 then s.checkSeam core w
  else if w.opcode = 4 then s.checkQuant core w
  else if w.opcode = 5 then s.checkPress core w
  else if w.opcode = 6 then s.checkShuttle core w
  else if w.opcode = 7 then checkTack w
  else if w.opcode = 8 then s.checkColl w
  else if w.opcode = 9 then s.checkUpd w
  else if w.opcode = 0xA then s.checkMeasure w
  else if w.opcode = 0xB then s.checkChalk w
  else if w.opcode = 0xC then checkFence w
  else .trap trIllegal

/-- R206: the executing unit accepts the command; none while it has no room or an ordering condition holds it. -/
def State.issueOp (s : State) (core qi : Nat) (w : Wide) : Option State :=
  if w.opcode = 1 then s.issueMm core qi w
  else if w.opcode = 2 then s.issueLoadw core qi w
  else if w.opcode = 3 then s.issueSeam core qi w
  else if w.opcode = 4 then s.issuePress core qi w
  else if w.opcode = 5 then s.issuePress core qi w
  else if w.opcode = 6 then s.issueShuttle core qi w
  else if w.opcode = 7 then some (s.issueTack qi w)
  else if w.opcode = 8 then s.issueColl qi w
  else if w.opcode = 9 then s.issueUpd qi w
  else if w.opcode = 0xA then s.issueMeasure qi w
  else if w.opcode = 0xB then some (s.issueChalk core qi w)
  else some (s.issueFence qi w)

/-- R532: the emask of a BEGIN record. -/
def Wide.emask (w : Wide) : Nat :=
  if w.opcode = 1 then w.mmEmask else if w.opcode = 3 then fld w.n0 31 28 else if w.opcode = 4 ∨ w.opcode = 5 then w.prEmask else 0

/-- R532: the END record of a command, with the ns from issue to now; made once. -/
def State.endRecord (s : State) (qi : Nat) (w : Wide) (trapped : Bool) : State :=
  if w.endMade then s
  else
    let ns := if w.failedCheck then 0 else sat 32 (s.now - w.issueTime)
    (s.modWide qi w.cseq (fun w => { w with endMade := true })).chalkEnd w.opcode (s.serving qi) w.domain (seqWord qi w.cseq) w.status
      (put w.status 7 0 + put w.outcome 15 8 + put (b2n w.replayed) 16 16 + put (b2n trapped) 17 17 + put ns 63 32)

/-- R206: a command fails its check: it completes with the failing status. One that is to trap makes its END when it retires. -/
def State.failCheck (s : State) (qi : Nat) (w : Wide) (status : Nat) : State :=
  let s := s.modWide qi w.cseq (fun w => { w with stage := .complete, status := status, failedCheck := true, unchecked := false })
  if (s.queue qi).trapOnStatus then s
  else match s.wide qi w.cseq with | some w => s.endRecord qi w false | none => s

/-- R184, R191: a command whose check passed may issue no more: its stream is no longer active, or the norm slot that it fills has been
taken since. [DEDUCED, log 22] -/
def State.lapsed (s : State) (w : Wide) : Bool :=
  !s.streamLives w || (match w.normKey with | some k => s.slotTaken (k / 256) (k % 256) | none => false)

/-- R206, R532: the command issues where its unit takes it, with its BEGIN record; otherwise it waits. -/
def State.tryIssue (s : State) (qi : Nat) (w : Wide) : State :=
  if s.lapsed w then s.failCheck qi w stConflict
  else
    let core := s.serving qi
    let t := s.modWide qi w.cseq (fun w => { w with stage := .issued, issueTime := s.now })
    let t := t.chalkBegin w.opcode core w.domain (seqWord qi w.cseq) (w.fmts + put w.emask 19 16 + put (b2n w.replayed) 20 20)
    if w.opcode = 0xA ∧ w.op < 4 then
      let (mine, s') := s.tailorRound qi
      if mine then
        let t := s'.modWide qi w.cseq (fun w => { w with stage := .issued, issueTime := s.now })
        let t := t.chalkBegin w.opcode core w.domain (seqWord qi w.cseq) (w.fmts + put w.emask 19 16 + put (b2n w.replayed) 20 20)
        (t.issueOp core qi w).getD s
      else s'
    else ((t.issueOp core qi w).map (fun t => t.joinClose qi w)).getD s

/-- R140: a conversion of the command is measured, or an operand that the array reads. -/
def Wide.isMeasured (w : Wide) : Bool :=
  if w.opcode = 1 then [0, 1, 2].any (fun i => w.measures (w.operand i))
  else if w.opcode = 9 then w.updMeasured
  else if w.opcode = 4 ∨ w.opcode = 5 ∨ w.opcode = 6 ∨ w.opcode = 8 then w.measures (w.operand 1)
  else false

/-- R145: shadow samples of an MM are charged to the stat records of its operands. -/
def State.samples (s : State) (w : Wide) : Bool := w.opcode == 1 && (s.entry (w.operand 0).tag).shadowLog2n != 0

/-- The operands of a command as its check sees them: those of R216, or, for a UPD, its two copies (R331). Where the check has settled them
before, they stay as they were (R186, R208). -/
def State.allOps (s : State) (w : Wide) : Option (SMap Operand) :=
  match w.prior, w.upd with
  | some (_, ops), none => some (w.slots.foldl (fun m x => SMap.set {} m x.ix { SMap.get {} ops x.ix with desc := (w.operand x.ix).desc }) [])
  | some (_, ops), some _ => some ops
  | none, some d => match s.trainOperand d with
    | some x => some (SMap.set {} (SMap.set {} [] 1 x) 2 (s.genOperand d))
    | none => if d.trainEn then none else some (SMap.set {} [] 2 (s.genOperand d))
  | none, none => s.resolveOps w

/-- R208: the first descriptor that traps; an update descriptor is 128 bytes. -/
def State.badDesc (s : State) (qi : Nat) (w : Wide) : Option Nat :=
  if w.opcode = 9 then s.descTrap qi w.domain w.updAddr 128 else s.descFault qi w

/-- R309: a descriptor that the command reads is poisoned. [DEDUCED, log 23] -/
def State.poisonedDesc (s : State) (w : Wide) : Bool := if w.opcode = 9 then s.poisoned w.updAddr 128 else s.descPoisoned w

/-- A command as its check takes it up: its fit step is that of its dispatch (R178), of the bank that R151 made it wait for, or, re-run, that
of its first check (R186). [DEDUCED, log 37] -/
def State.taken (s : State) (w : Wide) : Wide :=
  { w with unchecked := false, fitStep := match w.prior with | some (n, _) => n | none => if w.unchecked then s.tailor.step else w.fitStep }

/-- A command whose check has passed, as `u`: what the check settled stands for every later run of it (R186, R208). -/
def State.settled (s : State) (w : Wide) (ops : SMap Operand) (u : Wide) : Wide :=
  let u := if w.prior.isSome then { u with ops := ops } else u
  { u with measured := u.isMeasured || s.samples u, prior := some (u.fitStep, u.ops) }

/-- R206: resolution and check of a dispatched command, then its issue. [DEDUCED, log 22] -/
def State.checkAndIssue (s : State) (qi : Nat) (w : Wide) : State :=
  let core := s.serving qi
  let w := s.taken w
  let held := s.modWide qi w.cseq (fun u => { u with fitStep := w.fitStep })
  match s.allOps w with
  | none => held.failCheck qi w stConflict
  | some ops =>
    let w := { w with ops := ops }
    match (if w.tackBad then .fail stConflict else s.checkOp core w) with
    | .pass u =>
      let w := s.settled w ops u
      (s.modWide qi w.cseq (fun _ => w)).tryIssue qi w
    | .fail st => held.failCheck qi w st
    | .trap cause => held.trapWide qi w.cseq cause 0

/-- R151, R208, R215: what happens to a command just dispatched. -/
def State.afterDispatch (s : State) (qi : Nat) (w : Wide) (short : Bool) : State :=
  if short ∨ w.opcode = 0 ∨ 0xC < w.opcode then s.trapWide qi w.cseq trIllegal 0
  else match s.badDesc qi w with
    | some cause => s.trapWide qi w.cseq cause 0
    | none =>
      if s.poisonedDesc w then (s.markPoisoned qi w.cseq true).failCheck qi w stContained
      else if s.adaptHeld && w.namesAdapt then s.modWide qi w.cseq (fun w => { w with unchecked := true })
      else s.checkAndIssue qi w

/-! ### Dispatch (R206) -/

/-- A command put among the dispatched ones, in cseq order. -/
def insertWide : List Wide → Wide → List Wide
  | [], w => [w]
  | u :: us, w => if w.cseq < u.cseq then w :: u :: us else u :: insertWide us w

/-- R208, R264: what a command reads at its dispatch: its descriptors, where they can be read, and the domains of its tacks. -/
def State.readAtDispatch (s : State) (qi : Nat) (w : Wide) : Wide :=
  let bad := (s.badDesc qi w).isSome
  { w with ops := if bad then [] else s.readOps w, readDone := !bad, tackBad := !s.tacksOk w }

/-- R331, R336: what a UPD reads besides: its descriptor and its recipe. -/
def State.bindUpd (s : State) (w : Wide) : Wide :=
  if w.opcode = 9 then s.bindNorm { w with upd := some (updDescOf (s.readBytes w.updAddr 128)), recipe := s.recipeWords (w.updRecipe % 32) } else w

/-- The command that the words at pc spell, as it dispatches. -/
def State.newWide (s : State) (qi : Nat) (ws : Words) : Wide :=
  let q := s.queue qi
  let cseq := q.cseq + 1
  let w : Wide := { cseq := cseq, w := ws, domain := s.queueDomain qi, pc := q.pc, replayed := decide (cseq ≤ q.replayTo),
                    fitStep := s.tailor.step, heritage := s.queueHeritage qi, home := qi / 8,
                    prior := if cseq ≤ q.replayTo then ((q.reruns.find? (fun u => u.cseq == cseq && u.w == ws)).bind (·.prior)) else none,
                    ck := { g := q.g, a := q.a, pc := q.pc, rstack := q.rstack } }
  let w := s.bindUpd (s.readAtDispatch qi w)
  { w with waits := s.fenceWaits (s.serving qi) qi w }

/-- R206, R255: a wide command dispatches. One that kept running while its queue moved is not issued again. `short` says that it extends
past the word count. [DEDUCED, log 22] -/
def State.dispatchWide (s : State) (qi : Nat) (ws : Words) (short : Bool) : State :=
  let w := s.newWide qi ws
  let kept := (s.wide qi w.cseq).isSome
  let s := s.modQueue qi (fun q => { q with cseq := w.cseq, pc := q.pc + 32, inflight := if kept then q.inflight else insertWide q.inflight w })
  if kept then s else s.afterDispatch qi w short

/-! ### Retirement (R206, R277) -/

/-- R247: the completion record of a retiring command. -/
def State.wideRec (s : State) (qi : Nat) (w : Wide) (tag : Nat) : PendingRec :=
  { bytes := recBytes w.cseq tag w.opcode w.status w.outcome (2 * b2n w.replayed) w.fmts (s.serving qi) (qi % 8) 0 s.now,
    isEnd := false, irq := false }

/-- R247: whether a retiring command writes a record. -/
def Wide.wantsRec (w : Wide) (recAll : Bool) : Bool := w.recBit || recAll || w.status != stOk

/-- R277: a command retires: its effects are released, its tack incremented, a remote ADD sent, its record written. -/
def State.retire (s : State) (qi : Nat) (w : Wide) : State :=
  let core := s.serving qi
  let s := s.endRecord qi w false
  let s := (((s.retireTack qi w).retireStream w).releaseNorm qi w)
  let s := if w.retEn then s.tackAdd w.retTack 1 else s
  let s := s.retireRemote qi w
  let s := ((s.addGctr (312 + core) 1).addCtx w.domain 0 1).unwaitAll qi w.cseq
  let s := s.modQueue qi (fun q => { q with
    inflight := q.inflight.filter (fun u => u.cseq != w.cseq), rseq := w.cseq, lastStatus := w.status, lastOutcome := w.outcome,
    sub := q.sub.map (fun x => { x with lastCseq := some w.cseq, lastCore := some core, status := if x.status = stOk then w.status else x.status }) })
  match (s.queue qi).sub with
  | some x =>
    let s := s.noteLost x.hostq w.cseq w.status
    let s := if w.wantsRec x.recAll then s.pushRec qi x.hostq (s.wideRec qi w x.userTag) else s
    (s.settleTrap qi).checkEnd qi
  | none => s.settleTrap qi

/-- R206, R249, R251: the command at the head of the queue retires where it is complete and its record has room; one that traps on its
status is held there. -/
def State.retireHead (s : State) (qi : Nat) : State :=
  let q := s.queue qi
  match q.inflight.head?, q.sub with
  | some w, some _ =>
    if w.stage != .complete || w.held.isSome || q.stopped || decide (q.cseq < w.cseq) then s
    else if w.status != stOk && q.trapOnStatus && !w.skipped then s.trapWide qi w.cseq trStatus w.status
    else if !s.recRoom qi then s
    else s.retire qi w
  | _, _ => s

/-! ### Rows that dispatch -/

/-- A wide command of core queue `qi`, with the words the stream holds at pc: it dispatches when it is the queue's turn (R209) and its
words pass their fetch checks (R245). The words must be those of the row. [DESIGN CHOICE, log 18] -/
def doWide (qi : Nat) (ok : Wide → Bool) (ws : Words) (s : State) : State :=
  if ok { w := ws } && fld ws.w0.toNat 63 60 == 0xF && s.turn qi then
    let s := s.took qi
    match s.fetchFault qi 1 with
    | some (cause, pc) => s.trapQueue qi cause 0 pc
    | none =>
      if !s.wordsLeft qi 4 then ((s.dispatchWide qi ws true).retireHead qi).checkExhausted qi
      else match s.fetchFault qi 4 with
        | some (cause, pc) => s.trapQueue qi cause 0 pc
        | none => (s.dispatchWide qi ws false).checkExhausted qi
  else s

/-- A row of the wide commands: `ok` says which words are its own. [DESIGN CHOICE, log 18] -/
def wideRow (c q : Nat) (ok : Wide → Bool) (w : Words) (s : State) : Host.Outcome State Fault Refusal :=
  if c < 24 ∧ q < 8 then .next (doWide (8 * c + q) ok w s) else .fault .noSuchUnit

/-- Words with an opcode, and an op that is the row's or that no row has. -/
def hasOp (opcode op reserved : Nat) (w : Wide) : Bool := w.opcode == opcode && (w.op == op || decide (reserved ≤ w.op))

/-- R231: TACK SET, ADD and ARRIVE: the row dispatches the command and, where nothing earlier of the queue is unretired, retires it.
[DEDUCED, log 25] -/
def tackRow (c q op : Nat) (w : Words) (s : State) : Host.Outcome State Fault Refusal :=
  match wideRow c q (hasOp 7 op 5) w s with
  | .next t =>
    let qi := 8 * c + q
    if (t.queue qi).cseq = (s.queue qi).cseq then .next t else .next (t.retireHead qi)
  | o => o

def execMm (c q : Nat) (w : Words) (s : State) : Host.Outcome State Fault Refusal := wideRow c q (fun x => x.opcode == 1) w s
def execLoadw (c q : Nat) (w : Words) (s : State) : Host.Outcome State Fault Refusal := wideRow c q (fun x => x.opcode == 2) w s
def execSeam (c q : Nat) (w : Words) (s : State) : Host.Outcome State Fault Refusal := wideRow c q (fun x => x.opcode == 3) w s
def execQuant (c q : Nat) (w : Words) (s : State) : Host.Outcome State Fault Refusal := wideRow c q (fun x => x.opcode == 4) w s
def execPressElementwise (c q : Nat) (w : Words) (s : State) : Host.Outcome State Fault Refusal :=
  wideRow c q (fun x => x.opcode == 5 && !isReduction x.pressOp && x.pressOp != 0x40) w s
def execPressReduction (c q : Nat) (w : Words) (s : State) : Host.Outcome State Fault Refusal :=
  wideRow c q (fun x => x.opcode == 5 && isReduction x.pressOp) w s
def execNormAcc (c q : Nat) (w : Words) (s : State) : Host.Outcome State Fault Refusal :=
  wideRow c q (fun x => x.opcode == 5 && x.pressOp == 0x40) w s
def execShuttleCopy (c q : Nat) (w : Words) (s : State) : Host.Outcome State Fault Refusal := wideRow c q (hasOp 6 0 4) w s
def execConvert (c q : Nat) (w : Words) (s : State) : Host.Outcome State Fault Refusal := wideRow c q (hasOp 6 1 4) w s
def execDecrypt (c q : Nat) (w : Words) (s : State) : Host.Outcome State Fault Refusal := wideRow c q (hasOp 6 2 4) w s
def execFill (c q : Nat) (w : Words) (s : State) : Host.Outcome State Fault Refusal := wideRow c q (hasOp 6 3 4) w s
def execTackCmdSet (c q : Nat) (w : Words) (s : State) : Host.Outcome State Fault Refusal := tackRow c q 0 w s
def execTackCmdAdd (c q : Nat) (w : Words) (s : State) : Host.Outcome State Fault Refusal := tackRow c q 1 w s
def execTackCmdWaitGe (c q : Nat) (w : Words) (s : State) : Host.Outcome State Fault Refusal := wideRow c q (hasOp 7 2 5) w s
def execTackCmdWaitEq (c q : Nat) (w : Words) (s : State) : Host.Outcome State Fault Refusal := wideRow c q (hasOp 7 3 5) w s
def execTackCmdArrive (c q : Nat) (w : Words) (s : State) : Host.Outcome State Fault Refusal := tackRow c q 4 w s
def execAllreduce (c q : Nat) (w : Words) (s : State) : Host.Outcome State Fault Refusal := wideRow c q (hasOp 8 0 6) w s
def execReduceScatter (c q : Nat) (w : Words) (s : State) : Host.Outcome State Fault Refusal := wideRow c q (hasOp 8 1 6) w s
def execAllgather (c q : Nat) (w : Words) (s : State) : Host.Outcome State Fault Refusal := wideRow c q (hasOp 8 2 6) w s
def execBroadcast (c q : Nat) (w : Words) (s : State) : Host.Outcome State Fault Refusal := wideRow c q (hasOp 8 3 6) w s
def execReduce (c q : Nat) (w : Words) (s : State) : Host.Outcome State Fault Refusal := wideRow c q (hasOp 8 4 6) w s
def execCollNorm (c q : Nat) (w : Words) (s : State) : Host.Outcome State Fault Refusal := wideRow c q (hasOp 8 5 6) w s
def execUpd (c q : Nat) (w : Words) (s : State) : Host.Outcome State Fault Refusal := wideRow c q (fun x => x.opcode == 9) w s
def execStepEnd (c q : Nat) (w : Words) (s : State) : Host.Outcome State Fault Refusal := wideRow c q (hasOp 0xA 0 6) w s
def execLoadFit (c q : Nat) (w : Words) (s : State) : Host.Outcome State Fault Refusal := wideRow c q (hasOp 0xA 1 6) w s
def execSaveFit (c q : Nat) (w : Words) (s : State) : Host.Outcome State Fault Refusal := wideRow c q (hasOp 0xA 2 6) w s
def execSaveStats (c q : Nat) (w : Words) (s : State) : Host.Outcome State Fault Refusal := wideRow c q (hasOp 0xA 3 6) w s
def execStreamOpen (c q : Nat) (w : Words) (s : State) : Host.Outcome State Fault Refusal := wideRow c q (hasOp 0xA 4 6) w s
def execStreamClose (c q : Nat) (w : Words) (s : State) : Host.Outcome State Fault Refusal := wideRow c q (hasOp 0xA 5 6) w s
def execChalkMark (c q : Nat) (w : Words) (s : State) : Host.Outcome State Fault Refusal := wideRow c q (hasOp 0xB 0 4) w s
def execChalkTrigger (c q : Nat) (w : Words) (s : State) : Host.Outcome State Fault Refusal := wideRow c q (hasOp 0xB 1 4) w s
def execChalkStart (c q : Nat) (w : Words) (s : State) : Host.Outcome State Fault Refusal := wideRow c q (hasOp 0xB 2 4) w s
def execChalkStop (c q : Nat) (w : Words) (s : State) : Host.Outcome State Fault Refusal := wideRow c q (hasOp 0xB 3 4) w s
def execFenceQueue (c q : Nat) (w : Words) (s : State) : Host.Outcome State Fault Refusal := wideRow c q (hasOp 0xC 0 2) w s
def execFenceCore (c q : Nat) (w : Words) (s : State) : Host.Outcome State Fault Refusal := wideRow c q (hasOp 0xC 1 2) w s

/-! ### COMMAND_ISSUE and COMMAND_RETIRE -/

/-- R206, R151: a command that waited is issued, or, held by a boundary, resolved, checked and issued. -/
def doCommandIssue (qi : Nat) (s : State) : State :=
  let q := s.queue qi
  if !s.alive || q.stopped || (s.core (s.serving qi)).fence != .inService then s
  else match q.unissued with
    | some w => if w.unchecked then (if s.adaptHeld then s else s.checkAndIssue qi w) else s.tryIssue qi w
    | none => s

def execCommandIssue (c q : Nat) (s : State) : Host.Outcome State Fault Refusal :=
  if c < 24 ∧ q < 8 then .next (doCommandIssue (8 * c + q) s) else .fault .noSuchUnit

/-- R277: the head of the queue retires. A LOAD_FIT that waited for measured conversions ends first (R167). -/
def doCommandRetire (qi : Nat) (s : State) : State := if s.alive then s.settleLoad.retireHead qi else s

def execCommandRetire (c q : Nat) (s : State) : Host.Outcome State Fault Refusal :=
  if c < 24 ∧ q < 8 then .next (doCommandRetire (8 * c + q) s) else .fault .noSuchUnit

/-! ### SUBMISSION_START (R244 to R246) -/

/-- R245, R250, R423: a host queue that has a submission for core queue `qi`. -/
def HostQ.serves (h : HostQ) (qi : Nat) : Bool :=
  h.enable && !h.stopping && 8 * h.core + h.cq == qi && h.shead != h.tail &&
  (match h.lost with | some l => l.settled || (!l.cancel && h.shead != l.tailLimit) | none => true)

/-- R246: the host queue served next: the first after the one last served, in ascending order of port and number. -/
def State.nextHostq (s : State) (qi : Nat) : Option Nat :=
  let cand := (upto 128).filter (fun n => (s.hostq n).serves qi)
  match cand.find? (fun n => decide ((s.queue qi).lastHq ≤ n)) with
  | some n => some n
  | none => cand.head?

/-- R244: the 32 bytes of a submission entry, and the submission that they describe. -/
def entryBytes (e : SubEntry) : List Byte :=
  leBytes 8 e.stream ++ leBytes 4 e.words ++ leBytes 4 e.userTag ++ leBytes 4 e.flags ++ leBytes 12 0

def submissionOf (hq : Nat) (bs : List Byte) : Submission :=
  { port := portOf (hq / 64), hq := hq % 64, userTag := leAt bs 0xC 4, recAll := bit (leAt bs 0x10 4) 0, irq := bit (leAt bs 0x10 4) 1,
    onHost := bit (leAt bs 0 8) 0, base := leAt bs 0 8 / 8 * 8, words := leAt bs 8 4 }

/-- R244, R250: the bus address of the entry that index `x` of a submission ring names. -/
def HostQ.entryAt (h : HostQ) (x : Nat) : Nat := h.sring + 32 * (x % 2 ^ h.sizeLog2)

/-- R245, R246: a core queue with no submission takes the next one, whose entry it reads in the host's ring. `entry` is what the host has
written there, in its own memory, before its doorbell. [DESIGN CHOICE, log 86] -/
def doSubmissionStart (qi : Nat) (entry : SubEntry) (s : State) : State :=
  let q := s.queue qi
  if !s.alive || q.sub.isSome || q.stopped || q.trap.isSome || !q.recs.isEmpty || (s.core (s.serving qi)).fence != .inService then s
  else match s.nextHostq qi with
    | some n =>
      let a := hostAddr (portOf (n / 64)) ((s.hostq n).entryAt (s.hostq n).shead)
      let s := s.setBytes a (entryBytes entry)
      let x := submissionOf n (s.rawBytes a 32)
      let tag := x.userTag
      let s := s.modHostq n (fun h => { h with shead := (h.shead + 1) % 65536, lastTag := tag, lost := h.lost.map (fun l => { l with userTag := tag }) })
      let s := (s.addGctr (848 + 4 * (n / 64) + 2) 32)
      let s := s.setQueue qi { q with g := [], a := [], rstack := [], pc := BitVec.ofNat 64 x.base, sub := some x, replayTo := 0 }
      s.checkExhausted qi
    | none => s

def execSubmissionStart (c q : Nat) (entry : SubEntry) (s : State) : Host.Outcome State Fault Refusal :=
  if c < 24 ∧ q < 8 then .next (doSubmissionStart (8 * c + q) entry s) else .fault .noSuchUnit

/-! ### ILLEGAL_INSTRUCTION (R212, R215, R245) -/

/-- R245, R254: a fetched word that traps. A wide command's word that is reserved, or that extends past the word count, dispatches and is
held; a scalar one is not executed. -/
def doIllegal (c q : Nat) (word : Word) (s : State) : State :=
  let qi := 8 * c + q
  if s.turn qi then
    let s := s.took qi
    match s.fetchFault qi 1 with
    | some (cause, pc) => s.trapQueue qi cause 0 pc
    | none =>
      let v := word.toNat
      if fld v 63 60 = 0xF then
        if fld v 59 52 = 0 ∨ 0xC < fld v 59 52 ∨ !s.wordsLeft qi 4 then (s.dispatchWide qi { w0 := word } true).checkExhausted qi
        else match s.fetchFault qi 4 with
          | some (cause, pc) => s.trapQueue qi cause 0 pc
          | none => s
      else match decodeScalar c q v with
        | none => s.trapQueue qi trIllegal 0 (s.queue qi).pc
        | some _ => s
  else s

def execIllegalInstruction (c q : Nat) (w : Word) (s : State) : Host.Outcome State Fault Refusal :=
  if c < 24 ∧ q < 8 then .next (doIllegal c q w s) else .fault .noSuchUnit

end Sys2Proof.Machine
end

