-- ==== Sys2Proof/Machine/Hostq.lean ====
section
/-! DEFINITION. What hosts do to host queues (R243 to R250), trapped queues (R253, R256), tacks (R258, R272, R281) and command-scoped
counters (R288, R289). -/

namespace Sys2Proof.Machine

/-! ### Host queues (R250) -/

/-- The offsets of the registers of host queue `n`. -/
def offDoorbell (n : Nat) : Nat := 0x1000 + 8 * n
def offQcfg (n : Nat) : Nat := 0x2000 + 0x40 * n

/-- The host queue `n` of a port, among the 128 of the module. -/
def hqOf (p : HostPort) (n : Nat) : Nat := 64 * portNum p + n

/-- R250: HOST_QDOORBELL: the tail of an enabled queue, where it leaves at most 2^size_log2 − 1 entries ahead of shead. -/
def State.doorbell (s : State) (p : HostPort) (n v : Nat) : State :=
  let h := s.hostq (hqOf p n)
  let tail := v % 65536
  if !h.enable || decide (2 ^ h.sizeLog2 - 1 < (tail + 65536 - h.shead) % 65536) then s.misuse p
  else s.setHostq (hqOf p n) { h with tail := tail }

/-- R449: a doorbell in REST waits for the exit that it starts. -/
def doDoorbell (p : HostPort) (n v : Nat) (s : State) : State :=
  s.hostWrite p (offDoorbell n) (.hostQdoorbell p n v) (fun t =>
    if t.resting then t.wake.keepAccess p (.hostQdoorbell p n v) else t.doorbell p n v)

/-- R250: HOST_QDOORBELL. -/
def execHostQdoorbell (p : HostPort) (n v : Nat) (s : State) : Host.Outcome State Fault Refusal :=
  if n < 64 then .next (doDoorbell p n v s) else .fault .noSuchUnit

/-- HOST_QCFG with a policy of 2 or 3 is a write of policy 0 (R20). -/
def qcfgPolicy (v : Nat) : Nat := if 1 < fld v 30 29 then 0 else fld v 30 29

/-- R250: the fields that HOST_QCFG may change in any state. -/
def HostQ.policyOf (h : HostQ) (v : Nat) : HostQ := { h with lostPolicy := qcfgPolicy v, vec := fld v 10 0 }

/-- R20, R250: core and size_log2 with reserved values as their reset values. -/
def qcfgCore (v : Nat) : Nat := if 23 < fld v 28 24 then 0 else fld v 28 24
def qcfgSize (v : Nat) : Nat := if fld v 20 16 < 6 ∨ 16 < fld v 20 16 then 0 else fld v 20 16

/-- R20: a write of core or size_log2 that names a reserved value; 0 is the reset value of size_log2. [DESIGN CHOICE, log 86] -/
def qcfgReserved (v : Nat) : Bool := qcfgCore v != fld v 28 24 || qcfgSize v != fld v 20 16

/-- R250: the fields that HOST_QCFG may change while the queue is DISABLED. -/
def HostQ.bind (h : HostQ) (v : Nat) : HostQ := { h.policyOf v with core := qcfgCore v, cq := fld v 23 21, sizeLog2 := qcfgSize v }

/-- R250, R425: a queue started, its indices and phase reset and its HOST_LOSTQ cleared. -/
def HostQ.start (h : HostQ) : HostQ :=
  { h with enable := true, stopping := false, tail := 0, shead := 0, ctail := 0, head := 0, phase := true, lost := none }

/-- R250: size_log2 is 6–16 and the core exists. -/
def qcfgOk (v : Nat) : Bool := decide (6 ≤ fld v 20 16) && decide (fld v 20 16 ≤ 16) && decide (fld v 28 24 ≤ 23)

/-- R250, R425: HOST_QCFG. -/
def State.qcfg (s : State) (p : HostPort) (n v : Nat) : State :=
  let hq := hqOf p n
  let h := s.hostq hq
  let s := if 1 < fld v 30 29 then s.misuse p else s
  if bit v 31 then
    if h.stopping || h.underHandling then s
    else if h.enable then s.setHostq hq (h.policyOf v)
    else if qcfgOk v then s.setHostq hq (h.bind v).start
    else (s.misuse p).setHostq hq (h.bind v)
  else if h.enable then
    (s.setHostq hq { h.policyOf v with stopping := true }).settleStop hq
  else (if qcfgReserved v then s.misuse p else s).setHostq hq (h.bind v)

def doQcfg (p : HostPort) (n v : Nat) (s : State) : State :=
  s.hostWrite p (offQcfg n) (.hostQcfgWrite p n v) (fun t => t.qcfg p n (v % 2 ^ 32))

/-- R250: HOST_QCFG. -/
def execHostQcfgWrite (p : HostPort) (n v : Nat) (s : State) : Host.Outcome State Fault Refusal :=
  if n < 64 then .next (doQcfg p n v s) else .fault .noSuchUnit

/-- R249: every core queue whose records wait for host queue `hq` writes those that now have room. -/
def State.drainFor (s : State) (hq : Nat) : State :=
  (s.queues.filter (fun e => !e.2.recs.isEmpty &&
    (match e.2.sub with | some x => x.hostq == hq | none => e.2.lastHq == hq + 1))).foldl (fun s e => s.drainRecs e.1 hq) s

/-- R249, R250: HOST_QCHEAD: a head past the records that the ring holds would make it hold more than it may, and is dropped and logged
(R480, R481). -/
def State.qchead (s : State) (p : HostPort) (n v : Nat) : State :=
  let h := s.hostq (hqOf p n)
  if 2 ^ h.sizeLog2 - 1 < (h.ctail + 65536 - v % 65536) % 65536 then s.raiseError 0x0503 contained .hostPort (portNum p) none 4
  else ((s.setHostq (hqOf p n) { h with head := v % 65536 }).drainFor (hqOf p n)).settleStop (hqOf p n)

def doQchead (p : HostPort) (n v : Nat) (s : State) : State :=
  s.hostWrite p (offQcfg n + 0x18) (.hostQcheadWrite p n v) (fun t => t.qchead p n v)

/-- R249: HOST_QCHEAD. -/
def execHostQcheadWrite (p : HostPort) (n v : Nat) (s : State) : Host.Outcome State Fault Refusal :=
  if n < 64 then .next (doQchead p n v s) else .fault .noSuchUnit

/-- R250: HOST_QSRING and HOST_QCRING, written only while the queue is DISABLED. -/
def State.qring (s : State) (p : HostPort) (n : Nat) (completion : Bool) (v : Nat) : State :=
  s.modHostq (hqOf p n) (fun h => if h.enable then h else if completion then { h with cring := v / 64 * 64 } else { h with sring := v / 64 * 64 })

/-- R250: the state that HOST_QSTATUS shows. -/
def State.hqState (s : State) (hq : Nat) : Nat :=
  let h := s.hostq hq
  let q := s.queue (8 * h.core + h.cq)
  let holds := match q.sub with | some x => x.hostq == hq | none => false
  if !h.enable then 0
  else if holds && q.stopped then 3
  else if q.stopped && q.sub.isNone then 3
  else if holds && q.trap.isSome then 2
  else 1

/-! ### RETRY, SKIP and ABORT (R253, R256) -/

/-- The offset of CORE_QCTL. -/
def offQctl (c q : Nat) : Nat := coreReg c (0x1020 + 0x100 * q)

/-- R253, R256: the port may resume the queue: it owns the submission, or it is the steward; a stopped queue with no submission answers
to the host of any queue bound to it. -/
def State.mayResume (s : State) (p : HostPort) (qi : Nat) : Bool :=
  let q := s.queue qi
  s.isSteward p ||
  (match q.sub with
    | some x => x.port == p
    | none => (upto 64).any (fun n => let h := s.hostq (hqOf p n); h.enable && 8 * h.core + h.cq == qi))

/-- R253: TRAPPED: the trapped record has been made. -/
def CoreQ.trapped (q : CoreQ) : Bool := !q.stopped && (match q.trap with | some t => t.recorded | none => false)

/-- R251: the status a held command carries to its retirement. -/
def Wide.heldStatus (w : Wide) : Nat := trapStatus (w.held.getD trContained) w.status

/-- R253, R208: a held command as it is checked again: nothing done yet, with the descriptors it read at its dispatch; one whose descriptor
trapped had read none, and reads them now. [DEDUCED, log 24] -/
def State.freshWide (s : State) (qi : Nat) (w : Wide) : Wide :=
  let u : Wide := { cseq := w.cseq, w := w.w, domain := w.domain, pc := w.pc, replayed := w.replayed, fitStep := w.fitStep,
                    heritage := w.heritage, ck := w.ck, waits := w.waits, normOf := w.normOf, normRec := w.normRec, home := w.home,
                    tackBad := w.tackBad, prior := w.prior, upd := w.upd, recipe := w.recipe, readDone := w.readDone,
                    ops := SMap.mapVals {} (fun _ x => { desc := x.desc }) w.ops }
  if w.readDone || (s.badDesc qi u).isSome then u
  else if u.opcode = 9 then
    { u with upd := some (updDescOf (s.readBytes u.updAddr 128)), recipe := s.recipeWords (u.updRecipe % 32), readDone := true }
  else { u with ops := s.readOps u, readDone := true }

/-- R251: a command that its check has trapped, behind one whose trap is resolved, traps in its turn. -/
def State.rearm (s : State) (qi : Nat) : State :=
  let q := s.queue qi
  match q.trap, q.heldWide with
  | none, some w => State.settleTrap (s.setQueue qi { q with trap := some { cause := w.held.getD 0, code := 0, pc := w.pc } }) qi
  | _, _ => s

/-- R245: the words of a held command extend past the word count. -/
def State.heldShort (s : State) (qi : Nat) (w : Wide) : Bool :=
  match (s.queue qi).sub with
  | some x => decide (x.base + 8 * x.words < w.pc.toNat + 32)
  | none => false

/-- R253: RETRY: the trapping instruction runs again at its next turn; a held command is checked and issued again. [DEDUCED, log 24] -/
def State.retry (s : State) (qi : Nat) : State :=
  let q := s.queue qi
  let s := s.setQueue qi { q with trap := none }
  match q.heldWide with
  | some w =>
    let u := s.freshWide qi w
    ((s.modWide qi w.cseq (fun _ => u)).afterDispatch qi u (s.heldShort qi w)).rearm qi
  | none => s

/-- R253: SKIP: pc passes the trapping instruction, or the held command retires with its status. [DEDUCED, log 21; DEDUCED, log 24] -/
def State.skip (s : State) (qi : Nat) : State :=
  let q := s.queue qi
  match q.heldWide with
  | some w =>
    let u := { w with held := none, stage := .complete, status := w.heldStatus, skipped := true,
                      failedCheck := w.failedCheck || w.stage == .dispatched }
    let s := s.setQueue qi { q with trap := none, inflight := q.inflight.map (fun x => if x.cseq = w.cseq then u else x) }
    ((s.rearm qi).retireHead qi).checkExhausted qi
  | none =>
    (s.setQueue qi { q with trap := none, pc := match q.trap with | some t => t.pc + 8 | none => q.pc }).checkExhausted qi

/-- R253, R532: ABORT: the held command makes an END with its held status; it and every later command of the submission are discarded,
and the submission ends with the held status. [DEDUCED, log 24] -/
def State.abort (s : State) (qi : Nat) : State :=
  let q := s.queue qi
  let status := match q.heldWide, q.trap with
    | some w, _ => w.heldStatus
    | none, some t => trapStatus t.cause (t.code % 256)
    | none, none => stContained
  let s := match q.heldWide with
    | some w => s.endRecord qi { w with status := status } true
    | none => s
  let s := (s.dropWork qi).modQueue qi (fun q => { q with trap := none, stopped := false, inflight := [] })
  s.endSubmission qi status

/-- CORE_QCTL: trap_on_status is written, and the action taken where the queue is in a state for it and the port may resume it. -/
def State.qctl (s : State) (p : HostPort) (qi v : Nat) : State :=
  let q := s.queue qi
  let action := fld v 1 0
  let acts := action != 0 && (q.trapped || (q.stopped && action == 3))
  if acts && !s.mayResume p qi then s.misuse p
  else
    let s := s.setQueue qi { q with trapOnStatus := bit v 31 }
    if !acts then s
    else if action = 1 then s.retry qi
    else if action = 2 then s.skip qi
    else s.abort qi

/-- A write of CORE_QCTL whose action is the row's. -/
def doQctl (action : Nat) (p : HostPort) (c q v : Nat) (i : Instr) (s : State) : State :=
  s.hostWrite p (offQctl c q) i (fun t => t.qctl p (8 * c + q) (setFld (v % 2 ^ 32) 1 0 action))

/-- R253: RETRY. -/
def execRetry (p : HostPort) (c q v : Nat) (s : State) : Host.Outcome State Fault Refusal :=
  if c < 24 ∧ q < 8 then .next (doQctl 1 p c q v (.retry p c q v) s) else .fault .noSuchUnit

/-- R253: SKIP. -/
def execSkip (p : HostPort) (c q v : Nat) (s : State) : Host.Outcome State Fault Refusal :=
  if c < 24 ∧ q < 8 then .next (doQctl 2 p c q v (.skip p c q v) s) else .fault .noSuchUnit

/-- R253, R256: ABORT. -/
def execAbort (p : HostPort) (c q v : Nat) (s : State) : Host.Outcome State Fault Refusal :=
  if c < 24 ∧ q < 8 then .next (doQctl 3 p c q v (.abort p c q v) s) else .fault .noSuchUnit

/-! ### Tacks (R258, R272, R281) -/

/-- R281: TCK_HOST_OP: SET or ADD; a reserved op is dropped and logged. BAR2 writes take effect as they arrive, so those of the port
come first. -/
def State.hostTackOp (s : State) (p : HostPort) (op n v : Nat) : State :=
  if op = 0 then s.tackSet n v else if op = 1 then s.tackAdd n v else s.misuse p

def doHostTack (op : Nat) (p : HostPort) (n v : Nat) (i : Instr) (s : State) : State :=
  s.hostWrite p 0x03640000 i (fun t => t.hostTackOp p op n (v % 2 ^ 32))

/-- R260, R281: TCK_HOST_OP SET. -/
def execHostTackSet (p : HostPort) (n v : Nat) (s : State) : Host.Outcome State Fault Refusal :=
  if n < tackCount then .next (doHostTack 0 p n v (.hostTackSet p n v) s) else .fault .noSuchUnit

/-- R260, R281: TCK_HOST_OP ADD. -/
def execHostTackAdd (p : HostPort) (n v : Nat) (s : State) : Host.Outcome State Fault Refusal :=
  if n < tackCount then .next (doHostTack 1 p n v (.hostTackAdd p n v) s) else .fault .noSuchUnit

/-- TCK_CFG: of a communicator, bits [60:55] of src_id are zero; another value is reserved. -/
def tckIdReserved (v : Nat) : Bool := fld v 62 61 == 2 && fld v 60 55 != 0

/-- The binding that a value of TCK_CFG gives; a reserved source kind or src_id is a write of 0 (R20). -/
def Tack.rebind (t : Tack) (v : Nat) : Tack :=
  { t with remoteOk := bit v 63, srcKind := if fld v 62 61 = 3 then 0 else fld v 62 61,
           srcId := if tckIdReserved v then 0 else fld v 60 47, domain := fld v 46 41, sourceLost := false }

/-- TCK_CFG as a read returns it. -/
def Tack.cfgWord (t : Tack) : Nat := put (b2n t.remoteOk) 63 63 + put t.srcKind 62 61 + put t.srcId 60 47 + put t.domain 46 41

/-- R272: TCK_CFG: the binding is replaced and SOURCE_LOST cleared; a tack bound to a module already lost enters it again. -/
def State.tckCfg (s : State) (p : HostPort) (n v : Nat) : State :=
  let s := if fld v 62 61 = 3 ∨ tckIdReserved v then s.misuse p else s
  let t := (s.tack n).rebind v
  let s := s.setTack n t
  if s.link.lost.any (s.boundTo t) then s.enterSourceLost n else s

def doTckCfg (p : HostPort) (n v : Nat) (s : State) : State :=
  s.hostWrite p (0x03600008 + 0x10 * n) (.tckCfgWrite p n v) (fun t => t.tckCfg p n v)

/-- R272: TCK_CFG. -/
def execTckCfgWrite (p : HostPort) (n v : Nat) (s : State) : Host.Outcome State Fault Refusal :=
  if n < tackCount then .next (doTckCfg p n v s) else .fault .noSuchUnit

/-! ### Command-scoped counters (R288, R289) -/

/-- R529: the counter of a shuttle, or of a press unit; and its base offset. -/
def ctrIndex : ScopedCtr → Nat
  | .shuttleBytes i => i
  | .pressElems g => 64 + g
def ctrBase : ScopedCtr → Nat
  | .shuttleBytes i => 0x03830000 + 0x20 * i
  | .pressElems g => 0x03831000 + 0x20 * g
def ctrOk : ScopedCtr → Bool
  | .shuttleBytes i => decide (i < 48)
  | .pressElems g => decide (g < 96)

/-- The number of a reader (R288). -/
def readerNum : Reader → Nat
  | .ha => 0
  | .hb => 1
  | .mc => 2

/-- R528: the port may read the global and the command-scoped counters. -/
def State.mayCount (s : State) (p : HostPort) : Bool := s.isSteward p || bit (s.reg 0x03800008) 31

/-- R289: X_LIVE or X_SNAP: the value, and its sequence word latched for the reader. -/
def State.scopedRead (s : State) (r k : Nat) (snap : Bool) : Nat × State :=
  let x := s.scope k
  if snap then (x.snap, s.setScope k { x with latchSnap := SMap.set none x.latchSnap r (some x.snapSeq) })
  else (x.live, s.setScope k { x with latchLive := SMap.set none x.latchLive r (some x.liveSeq) })

/-- R288: the _SEQ register: the latched word, which the read releases, or the current one. -/
def State.scopedSeq (s : State) (r k : Nat) (snap : Bool) : Nat × State :=
  let x := s.scope k
  if snap then ((SMap.get none x.latchSnap r).getD x.snapSeq, s.setScope k { x with latchSnap := SMap.set none x.latchSnap r none })
  else ((SMap.get none x.latchLive r).getD x.liveSeq, s.setScope k { x with latchLive := SMap.set none x.latchLive r none })

/-- A read of one of the counters by a reader, or of the _SEQ register beside it (R288). -/
def State.scopedGet (s : State) (r : Reader) (x : ScopedCtr) (snap seq : Bool) : Nat × State :=
  if seq then s.scopedSeq (readerNum r) (ctrIndex x) snap else s.scopedRead (readerNum r) (ctrIndex x) snap

def doScopedRead (snap : Bool) (r : Reader) (x : ScopedReg) (i : Instr) (s : State) : State :=
  let host := fun p => s.hostRead p (ctrBase x.ctr + (if snap then 0x10 else 0) + (if x.seq then 8 else 0)) 8 i (fun t =>
    if t.mayCount p then t.scopedGet r x.ctr snap x.seq else (0, t))
  match r with
  | .ha => host .ha
  | .hb => host .hb
  | .mc => if s.power.pwrGood then let (v, t) := s.scopedGet r x.ctr snap x.seq; { t with mcRead := v } else s

/-- R289: a read of X_LIVE or X_LIVE_SEQ. -/
def execCounterLiveRead (r : Reader) (x : ScopedReg) (s : State) : Host.Outcome State Fault Refusal :=
  if ctrOk x.ctr then .next (doScopedRead false r x (.counterLiveRead r x) s) else .fault .noSuchUnit

/-- R289: a read of X_SNAP or X_SNAP_SEQ. -/
def execCounterSnapRead (r : Reader) (x : ScopedReg) (s : State) : Host.Outcome State Fault Refusal :=
  if ctrOk x.ctr then .next (doScopedRead true r x (.counterSnapRead r x) s) else .fault .noSuchUnit

end Sys2Proof.Machine
end

