-- ==== Sys2Proof/Machine/Halt.lean ====
section
/-! DEFINITION. Chalk buffers as hosts and the chalk writer drive them (R534 to R541), freeze and its end (R542 to R546), state read-out
(R547, R548), the time base (R523) and the rearming of the first-NaN trap (R198). -/

namespace Sys2Proof.Machine

/-! ### The chalk writer (R538, R539) -/

/-- R538: the records of the writer's first unit of buffer `b`: the first waiting one, and those of the same 256-byte unit.
[DEDUCED, log 51] -/
def State.unitRecs (s : State) (b : Nat) : List ChalkWait :=
  match s.chalkQ.find? (fun x => x.buf == b) with
  | some r => s.chalkQ.filter (fun x => x.buf == b && x.pos / 8 == r.pos / 8)
  | none => []

/-- R538: a unit is written when it is full or 2 µs after its first record. -/
def doUnitFlush (b : Nat) (s : State) : State :=
  match s.unitRecs b with
  | [] => s
  | r :: rs =>
    if !s.ready || s.freeze.frozen then s
    else
      let s : State := { s with now := if rs.length + 1 < 8 then max s.now (r.time + 2000) else s.now,
                                chalkQ := s.chalkQ.filter (fun x => !decide (x ∈ r :: rs)) }
      (r :: rs).foldl (fun s x =>
        let a := (s.buffer b).base + 32 * x.pos
        (s.writeBytes a x.bytes).countBytes none false a 32) s

/-- R538: CHALK_UNIT_FLUSH. -/
def execChalkUnitFlush (b : Nat) (s : State) : Host.Outcome State Fault Refusal :=
  if b < 16 then .next (doUnitFlush b s) else .fault .noSuchUnit

/-- R539: CHALK_GAP: the GAP record owed, once there is space. -/
def doGap (b : Nat) (s : State) : State := if s.ready && s.gapDue b then s.chalkGap b else s

def execChalkGap (b : Nat) (s : State) : Host.Outcome State Fault Refusal :=
  if b < 16 then .next (doGap b s) else .fault .noSuchUnit

/-! ### OBS_CHALK registers (R534 to R537) -/

def offChalk (b r : Nat) : Nat := 0x03840000 + 0x40 * b + r

/-- HOST_DOMAIN_ALLOW of a port has the bit of domain `d`. -/
def State.allows (s : State) (p : HostPort) (d : Nat) : Bool := bit (s.reg (0x3020 + 8 * portNum p)) d

/-- The permissions of OBS_CHALK_CFG: a peer may not set all_domains or freeze_on_trigger, nor name a domain it is not allowed. -/
def State.chalkMay (s : State) (p : HostPort) (cfg : Nat) : Bool :=
  s.isSteward p || (!bit cfg 60 && !bit cfg 53 && s.allows p (fld cfg 59 54))

/-- R20: OBS_CHALK_CFG with its reserved bits dropped and reserved values replaced by their reset values. -/
def chalkCfgOf (v : Nat) : Nat :=
  let v := setFld (setFld (v % 2 ^ 64) 47 42 0) 29 24 0
  let v := if fld v 62 61 = 3 then setFld v 62 61 0 else v
  if fld v 52 48 < 11 ∨ 27 < fld v 52 48 then setFld v 52 48 0 else v

/-- R20: the value has a reserved policy or a size outside 11–27. -/
def chalkCfgBad (v : Nat) : Bool := fld v 62 61 == 3 || (fld v 52 48 != 0 && (decide (fld v 52 48 < 11) || decide (27 < fld v 52 48)))

/-- R534: OBS_CHALK_CFG: every field while the buffer is STOPPED, enable alone at other times; clearing enable stops the buffer. -/
def State.chalkCfg (s : State) (p : HostPort) (b v : Nat) : State :=
  if !s.chalkMay p v then s.misuse p
  else
    let s := if chalkCfgBad v then s.misuse p else s
    s.modBuffer b (fun c =>
      let c := if c.state = .stopped then { c with cfg := chalkCfgOf v } else { c with cfg := setFld c.cfg 63 63 (b2n (bit v 63)) }
      if bit v 63 then c else { c with state := .stopped })

def doChalkCfg (p : HostPort) (b v : Nat) (s : State) : State :=
  s.hostWrite p (offChalk b 0) (.obsChalkCfgWrite p b v) (fun t => t.chalkCfg p b v)

/-- R534: OBS_CHALK_CFG. -/
def execObsChalkCfgWrite (p : HostPort) (b v : Nat) (s : State) : Host.Outcome State Fault Refusal :=
  if b < 16 then .next (doChalkCfg p b v s) else .fault .noSuchUnit

/-- R20: OBS_CHALK_BASE: a multiple of 32 × S; any other value is reserved. -/
def Chalk.baseOf (c : Chalk) (v : Nat) : Nat := if v % 2 ^ 64 % (32 * c.size) = 0 then v % 2 ^ 64 else 0

/-- OBS_CHALK_BASE: writable while STOPPED. -/
def State.chalkBase (s : State) (p : HostPort) (b v : Nat) : State :=
  let c := s.buffer b
  if c.state = .stopped then (if c.baseOf v = v % 2 ^ 64 then s else s.misuse p).modBuffer b (fun c => { c with base := c.baseOf v }) else s

/-- R534, R539: OBS_CHALK_HEAD: under STOP the positions before it are free, and a GAP record that waited for space is written.
[DEDUCED, log 51] -/
def State.chalkHead (s : State) (b v : Nat) : State :=
  let c := s.buffer b
  let h := v % 2 ^ 28
  let s := s.setBuffer b (if c.policy = 1 then { c with head := h, count := (c.next + c.size - h % c.size) % c.size } else { c with head := h })
  if s.gapDue b then s.chalkGap b else s

def doChalkHead (p : HostPort) (b v : Nat) (s : State) : State :=
  s.hostWrite p (offChalk b 0x20) (.obsChalkHeadWrite p b v) (fun t => t.chalkHead b v)

/-- R534: OBS_CHALK_HEAD. -/
def execObsChalkHeadWrite (p : HostPort) (b v : Nat) (s : State) : Host.Outcome State Fault Refusal :=
  if b < 16 then .next (doChalkHead p b v s) else .fault .noSuchUnit

/-- R534, R536: OBS_CHALK_CMD: 1 START, 2 STOP, 3 TRIGGER. -/
def State.chalkCmd (s : State) (p : HostPort) (b op : Nat) : State :=
  if !s.chalkMay p (s.buffer b).cfg then s.misuse p
  else if op = 1 then
    let (t, bad) := s.chalkStart b
    if bad then t.misuse p else t
  else if op = 2 then s.chalkStop b
  else if op = 3 then s.chalkTrigger b 1 0
  else s

def doChalkCmd (op : Nat) (p : HostPort) (b : Nat) (i : Instr) (s : State) : State :=
  s.hostWrite p (offChalk b 0x24) i (fun t => t.chalkCmd p b op)

/-- R534: START by a host. -/
def execChalkHostStart (p : HostPort) (b : Nat) (s : State) : Host.Outcome State Fault Refusal :=
  if b < 16 then .next (doChalkCmd 1 p b (.chalkHostStart p b) s) else .fault .noSuchUnit

/-- R534: STOP by a host. -/
def execChalkHostStop (p : HostPort) (b : Nat) (s : State) : Host.Outcome State Fault Refusal :=
  if b < 16 then .next (doChalkCmd 2 p b (.chalkHostStop p b) s) else .fault .noSuchUnit

/-- R536: TRIGGER by a host. -/
def execChalkHostTrigger (p : HostPort) (b : Nat) (s : State) : Host.Outcome State Fault Refusal :=
  if b < 16 then .next (doChalkCmd 3 p b (.chalkHostTrigger p b) s) else .fault .noSuchUnit

/-- OBS_CHALK_STATUS. -/
def State.chalkStatus (s : State) (b : Nat) : Nat :=
  let c := s.buffer b
  let st := match c.state with | .stopped => 0 | .recording => 1 | .postTrigger => 2 | .full => 3
  put st 63 62 + put (b2n c.triggered) 61 61 + put (b2n c.wrapped) 60 60 + put c.next 59 32 + put c.trigPos 31 4 +
    put (b2n (s.chalkQ.any (fun x => x.buf == b))) 3 3

/-! ### The first-NaN trap (R198) -/

/-- R198: a write of 1 to valid clears the trap registers and rearms the trap. -/
def State.rearmNan (s : State) : State := { s with nanTrap := {} }

def doNanRearm (p : HostPort) (s : State) : State := s.hostWrite p 0x02800040 (.nanTrapRearm p) State.rearmNan

/-- R198: NAN_TRAP_REARM. -/
def execNanTrapRearm (p : HostPort) (s : State) : Host.Outcome State Fault Refusal := .next (doNanRearm p s)

/-! ### Freeze (R542 to R546) -/

/-- R544: the deadlines and timers that freeze suspends go on with the time they had left. [DEDUCED, log 49] -/
def State.shiftTimers (s : State) (d : Nat) : State :=
  let moveRead := fun (x : Port) => { x with reads := x.reads.map (fun r => { r with deadline := r.deadline + d }),
                                             txn := { x.txn with lastTouch := s.now } }
  { s with tacks := SMap.mapVals {} (fun _ t => { t with waiters := t.waiters.map (fun w => { w with deadline := w.deadline.map (· + d) }) }) s.tacks,
           ha := moveRead s.ha, hb := moveRead s.hb,
           roles := { s.roles with lastHb := s.now, graceEnds := s.roles.graceEnds + d },
           link := { s.link with ports := SMap.mapVals {} (fun _ x => if x.state = .recovery then { x with since := x.since + d } else x) s.link.ports,
                                 colls := s.link.colls.map (fun c => c.delayed d),
                                 streams := SMap.mapVals {} (fun _ x => { x with unacked := x.unacked.map (fun m => { m with sentAt := m.sentAt + d }) }) s.link.streams } }

/-- R543 step 5, R395, R393: HOLD ends: ports that the hold limit took down train again, and losses that came with freeze are declared. -/
def State.endHold (s : State) : State :=
  let gone := (upto 48).filter (fun p => !(s.fport p).linked && !(s.fport p).partnerSwitch && (s.fport p).since != 0 && decide (s.freeze.began ≤ (s.fport p).since))
  let ids := gone.map (fun p => (s.fport p).partnerId)
  let s := { s with link := { s.link with ports := SMap.mapVals {} (fun _ x => if x.state = .down ∧ x.cause = 5 then { x with state := .training, step := 0 } else x) s.link.ports } }
  ids.foldl State.meshLoss s

/-- R543 steps 4 to 6: freeze ends once no source asserts it. [DEDUCED, log 49] -/
def State.settleFreeze (s : State) : State :=
  if s.freeze.frozen && !s.freeze.asserted then
    let began := s.freeze.began
    let s := s.shiftTimers (s.now - began)
    let s : State := { s with freeze := { s.freeze with frozen := false, holding := false, frozenMs := sat 32 ((s.now - began) / 1000000) } }
    let s := s.endHold
    s.chalkFreezeRecords began
  else s

/-- R542: freeze begins once a source asserts it, in a module that is ready. -/
def State.applyFreeze (s : State) : State :=
  if s.freeze.asserted && !s.freeze.frozen && s.ready then s.beginFreeze else s.settleFreeze

/-- R542: FREEZE_N low for at least 1 µs asserts freeze while pin_enable is 1; high releases it. [DEDUCED, log 49] -/
def doFreezePin (low : Bool) (ns : Nat) (s : State) : State :=
  if !s.power.pwrGood then s
  else
    let held := low && decide (1000 ≤ ns)
    if low && !held then s
    else State.applyFreeze { s with power := { s.power with frzLow := held }, freeze := { s.freeze with pin := held && s.freeze.pinEnable } }

/-- R542: FREEZE_PIN. -/
def execFreezePin (low : Bool) (ns : Nat) (s : State) : Host.Outcome State Fault Refusal := .next (doFreezePin low ns s)

/-- R542: sw_freeze set or cleared. -/
def State.setSwFreeze (s : State) (on : Bool) : State := State.applyFreeze { s with freeze := { s.freeze with sw := on } }

/-- R537: clear_chalk. -/
def State.clearChalkFreeze (s : State) : State := State.applyFreeze { s with freeze := { s.freeze with chalk := false } }

/-- OBS_FREEZE_CTL, written whole by the steward. -/
def State.freezeCtl (s : State) (p : HostPort) (v : Nat) : State :=
  s.byStewardOnly p (fun s =>
    State.applyFreeze { s with freeze := { s.freeze with sw := bit v 31, chalk := s.freeze.chalk && !bit v 30, pinEnable := bit v 29,
                                                         pin := s.power.frzLow && bit v 29 } })

def doSwFreeze (p : HostPort) (on : Bool) (s : State) : State :=
  s.hostWrite p 0x03800010 (.swFreeze p on) (fun t => t.byStewardOnly p (fun u => u.setSwFreeze on))

/-- R542: SW_FREEZE. -/
def execSwFreeze (p : HostPort) (set : Bool) (s : State) : Host.Outcome State Fault Refusal := .next (doSwFreeze p set s)

def doClearChalk (p : HostPort) (s : State) : State :=
  s.hostWrite p 0x03800010 (.clearChalk p) (fun t => t.byStewardOnly p State.clearChalkFreeze)

/-- R537: CLEAR_CHALK. -/
def execClearChalk (p : HostPort) (s : State) : Host.Outcome State Fault Refusal := .next (doClearChalk p s)

/-- OBS_FREEZE_STATUS. -/
def State.freezeStatus (s : State) : Nat :=
  let f := s.freeze
  let ms := if f.frozen then sat 32 ((s.now - f.began) / 1000000) else f.frozenMs
  put (b2n f.frozen) 63 63 + put (b2n f.pin) 62 62 + put (b2n f.sw) 61 61 + put (b2n f.chalk) 60 60 + put (b2n f.holding) 59 59 +
    put (b2n f.holdExpired) 58 58 + put (b2n f.roError) 57 57 + put f.freezes 47 32 + put ms 31 0

/-! ### Read-out (R547, R548) -/

/-- R547: the size of a selection, where it is valid. -/
def roSize (kind unit sub : Nat) : Option Nat :=
  if kind = 0 then (if unit < 24 ∧ sub = 0 then some 0x2000000 else none)
  else if kind = 1 then (if unit < 24 ∧ sub < 4 then some 0x80000 else none)
  else if kind = 2 then (if unit < 24 ∧ sub < 4 then some 0x180000 else none)
  else if kind = 3 then (if unit < 24 ∧ sub < 4 then some 0x200000 else none)
  else if kind = 4 then (if unit < 24 ∧ sub < 16 then some 0x220 else none)
  else if kind = 5 then (if unit < 4 ∧ sub = 0 then some 0x3000000 else none)
  else none

/-- R547: word `i` of a queue context. -/
def CoreQ.contextWord (q : CoreQ) (i : Nat) : Nat :=
  if i < 32 then (q.getG i).toNat
  else if i < 48 then (q.getA (i - 32)).toNat
  else if i = 48 then q.pc.toNat
  else if i = 49 then q.cseq
  else if i = 50 then q.rseq
  else if i = 51 then q.rstack.length
  else ((q.rstack.reverse)[i - 52]?.getD 0).toNat

/-- R547, R548: a queue context by core and sub; one that serves no queue, or a confidential domain's, reads as zero. -/
def State.contextRead (s : State) (unit sub i : Nat) : Nat :=
  match (s.contexts unit).find? (fun x => x.1 == sub) with
  | some x => if s.confidential (s.queueDomain x.2) then 0 else (s.queue x.2).contextWord i
  | none => 0

/-- R547, R548: the 8 bytes of a valid selection; hem contents and the private part of the fabric buffers have no layout in the spec and
read as a free value. [DESIGN CHOICE, log 50] -/
def State.roWord (s : State) (kind unit sub off : Nat) : Nat × State :=
  let hidden := s.confidential (s.core unit).sramDomain
  if kind = 0 then (if hidden then 0 else ofLe (s.rawBytes (0x0D0000000000 + 0x2000000 * unit + off) 8), s)
  else if kind = 1 then (if hidden then 0 else ofLe (s.rawBytes (0x0D1000000000 + 0x400000 * (4 * unit + sub) + off) 8), s)
  else if kind = 2 then (if hidden then 0 else ofLe (s.rawBytes (0x0D1000000000 + 0x400000 * (4 * unit + sub) + 0x80000 + off) 8), s)
  else if kind = 3 then (if hidden then (0, s) else let (v, t) := s.draw; (v.toNat, t))
  else if kind = 4 then (s.contextRead unit sub (off / 8), s)
  else if off < 0x2000000 then
    let a := 0x0D2000000000 + 0x2000000 * unit + off
    (match s.domainOf a with | some d => if s.confidential d then 0 else ofLe (s.rawBytes a 8) | none => ofLe (s.rawBytes a 8), s)
  else let (v, t) := s.draw; (v.toNat, t)

/-- R547, R548: OBS_RO_DATA read by port `p`: the selected bytes, with the offset advanced, or all ones with ro_error. -/
def State.roRead (s : State) (p : HostPort) : Nat × State :=
  let sel := s.freeze.roSel
  let kind := fld sel 63 60
  let unit := fld sel 59 52
  let sub := fld sel 51 48
  let off := fld sel 31 0
  let fail : Nat × State := (onesOf 8, { s with freeze := { s.freeze with roError := true } })
  match roSize kind unit sub with
  | some n =>
    if s.freeze.frozen && s.isSteward p && off % 8 == 0 && decide (off < n) then
      let (v, t) := s.roWord kind unit sub off
      (v, { t with freeze := { t.freeze with roSel := setFld sel 31 0 (off + 8) } })
    else fail
  | none => fail

def doRoRead (r : Reader) (s : State) : State :=
  match r with
  | .ha => s.hostRead .ha 0x03800028 8 (.obsRoDataRead .ha) (fun t => t.roRead .ha)
  | .hb => s.hostRead .hb 0x03800028 8 (.obsRoDataRead .hb) (fun t => t.roRead .hb)
  | .mc => if s.power.pwrGood then { s with mcRead := onesOf 8, freeze := { s.freeze with roError := true } } else s

/-- R547: OBS_RO_DATA_READ. -/
def execObsRoDataRead (r : Reader) (s : State) : Host.Outcome State Fault Refusal := .next (doRoRead r s)

/-! ### The time base (R23, R523) -/

/-- R23: OBS_TIME_LO: the low half, with the high half latched for the reader; a 64-bit read returns the whole. [DESIGN CHOICE, log 83] -/
def State.timeLo (s : State) (r size : Nat) : Nat × State :=
  if size = 8 then (s.now % 2 ^ 64, s)
  else (s.now % 2 ^ 32, { s with hiLatch := SMap.set none s.hiLatch r (some (s.now / 2 ^ 32 % 2 ^ 32)) })

/-- R23: OBS_TIME_HI: the latched half, which the read releases; with no latch held, the high half now. -/
def State.timeHi (s : State) (r : Nat) : Nat × State :=
  ((SMap.get none s.hiLatch r).getD (s.now / 2 ^ 32 % 2 ^ 32), { s with hiLatch := SMap.set none s.hiLatch r none })

def doTimeRead (r : Reader) (size : Nat) (s : State) : State :=
  let host := fun p => s.hostRead p 0x03800000 size (.obsTimeLoRead r size) (fun t => t.timeLo (readerNum r) size)
  match r with
  | .ha => host .ha
  | .hb => host .hb
  | .mc => if s.power.pwrGood then let (v, t) := s.timeLo 2 size; { t with mcRead := v } else s

/-- R23: OBS_TIME_LO_READ. -/
def execObsTimeLoRead (r : Reader) (size : Nat) (s : State) : Host.Outcome State Fault Refusal :=
  .next (doTimeRead r size s)

end Sys2Proof.Machine
end

