-- ==== Sys2Proof/Machine/Fabric.lean ====
section
/-! DEFINITION. The fabric: training and INIT (R356 to R359), the link layer (R360 to R370), the transport's delivery and resends
(R371 to R377, R392 to R397), time synchronisation (R398 to R400) and the straggler watch (R482). -/

namespace Sys2Proof.Machine

/-- R512: link control of the slice of port `p` restarts: its training and port-state decisions wait. [DEDUCED, log 76] -/
def State.linkRestarts (s : State) (p : Nat) : Bool := s.unitRestarts 4 20000000 (p / 12)

/-- The link block works: ready and not frozen; it stays up in REST (R448). [DESIGN CHOICE, log 42] -/
def State.linkLive (s : State) : Bool := s.ready && !s.freeze.frozen

/-! ### Down, fenced, up (R356 to R359, R365) -/

/-- LNK_PORT_CTL enable. -/
def State.portEnabled (s : State) (p : Nat) : Bool := bit (s.reg (fportReg p 0)) 31

/-- R365: an hour. -/
def hourNs : Nat := 3600000000000

/-- R356, R458: a port taken out of service. -/
def State.fencePort (s : State) (p : Nat) : State :=
  let x := s.fport p
  let s := s.setFport p (x.dropped .fenced x.cause s.now)
  if x.linked && !x.partnerSwitch && !s.freeze.frozen then s.meshLoss x.partnerId else s

/-- R365: a port goes DOWN to retrain; its third retrain within an hour leaves it FENCED. [DEDUCED, log 43] -/
def State.retrainPort (s : State) (p cause : Nat) : State :=
  let x := s.fport p
  let times := x.retrainTimes.filter (fun t => decide (s.now ≤ t + hourNs)) ++ [s.now]
  let s := s.setFport p { x with retrainTimes := times }
  if 3 ≤ times.length then (State.fencePort (s.modFport p (fun x => { x with cause := cause })) p).errPort 0x0305 degrading p
  else s.portDown p cause

/-- R357 steps 1 to 3: PMD training, alignment and FEC lock end, well or not. [DESIGN CHOICE, log 3; DEDUCED, log 43] -/
def doPortTraining (p : Nat) (ok : Bool) (polarity : Nat) (s : State) : State :=
  let x := s.fport p
  if s.linkLive && !s.linkRestarts p && s.portEnabled p && ((x.state == .down && decide (x.retryAt ≤ s.now)) || (x.state == .training && x.step == 0)) then
    if ok then s.setFport p { x with state := .training, step := 4, polarity := polarity % 16 }
    else s.setFport p { x with state := .down, step := 0, cause := 2, retryAt := s.now + 1000000000 }
  else s

/-- R357: PORT_TRAINING. -/
def execPortTraining (p : Nat) (ok : Bool) (polarity : Nat) (s : State) : Host.Outcome State Fault Refusal :=
  if p < 48 then .next (doPortTraining p ok polarity s) else .fault .noSuchUnit

/-- R357: after 1 s a port that failed tries again. -/
def doTrainingRetry (p : Nat) (s : State) : State :=
  let x := s.fport p
  if s.linkLive && !s.linkRestarts p && s.portEnabled p && x.state == .down && x.retryAt != 0 then
    State.setFport { s with now := max s.now x.retryAt } p { x with state := .training, step := 0, retryAt := 0 }
  else s

/-- R357: TRAINING_RETRY_TIMER. -/
def execTrainingRetryTimer (p : Nat) (s : State) : Host.Outcome State Fault Refusal :=
  if p < 48 then .next (doTrainingRetry p s) else .fault .noSuchUnit

/-- R357 step 6: sequence numbers 0 and credits at the advertised depths. -/
def FabPort.comeUp (x : FabPort) : FabPort :=
  let vcs := (upto 4).foldl (fun m v => SMap.set {} m v ({ avail := x.depths.getD v 0 } : VcBook)) []
  { x with state := .up, step := 6, txSeq := 0, rxSeq := 0, replay := [], unacked := 0, nackOpen := false, nackCount := 0, vcs := vcs,
           outq := [], ctrlq := [], assembling := [], inq := [], cause := 0 }

/-- R359: an end is UP once it has sent and received ready = 1. -/
def FabPort.tryUp (x : FabPort) : FabPort := if x.sentReady && x.partnerReady then x.comeUp else x

/-- R359: the payload of this module's INIT. -/
def State.initPayload (s : State) (p : Nat) : List Byte :=
  let clos := bit (s.reg 0x03100008) 31
  leBytes 1 1 ++ leBytes 1 0 ++ leBytes 2 (s.fabricId + put (b2n s.fabricValid) 15 15) ++ leBytes 1 (b2n clos) ++
  leBytes 1 (if clos then 0 else fld (s.reg 0x03100008) 5 0) ++ leBytes 1 p ++ leBytes 1 (b2n (s.fport p).ownReady) ++
  leBytes 2 (rxDepth 0) ++ leBytes 2 (rxDepth 1) ++ leBytes 2 (rxDepth 2) ++ leBytes 2 (rxDepth 3) ++ leBytes 2 512 ++ leBytes 6 0 ++
  leBytes 8 s.sec.dsn

/-- R357 step 4: INIT sent every 1 µs. -/
def doInitSend (p : Nat) (s : State) : State :=
  let x := s.fport p
  if s.linkLive && !s.linkRestarts p && x.state == .training && decide (4 ≤ x.step) then
    let s := s.emit p (put fkInit 63 61) (pad240 (s.initPayload p)) 0
    s.setFport p (FabPort.tryUp { x with sentReady := x.sentReady || x.ownReady })
  else s

/-- R359: INIT_SEND_TIMER. -/
def execInitSendTimer (p : Nat) (s : State) : Host.Outcome State Fault Refusal :=
  if p < 48 then .next (doInitSend p s) else .fault .noSuchUnit

/-- R358, R359: the checks of step 5 on a received INIT. [DEDUCED, log 43] -/
def State.initOk (s : State) (bs : List Byte) : Bool :=
  let kind := leAt bs 1 1
  leAt bs 0 1 == 1 && decide (kind < 2) && (upto 4).all (fun v => leAt bs (8 + 2 * v) 2 != 0) && s.fabricValid &&
    (kind == 1) == bit (s.reg 0x03100008) 31

/-- R358: the partner is a module that reports this module's own fabric ID. [DEDUCED, log 43] -/
def State.initDuplicate (s : State) (bs : List Byte) : Bool :=
  leAt bs 1 1 == 0 && bit (leAt bs 2 2) 15 && leAt bs 2 2 % 2 ^ 14 == s.fabricId && s.fabricValid

/-- R357 step 5, R359: an INIT is received. [DEDUCED, log 43] -/
def doInit (p : Nat) (f : Flit) (s : State) : State :=
  let x := s.fport p
  let bs := f.payload
  if !s.linkLive || f.kind != fkInit || !f.passes 0 then s
  else if x.linked then s.retrainPort p 6
  else if x.state == .training && decide (4 ≤ x.step) then
    let x := { x with partnerSwitch := leAt bs 1 1 == 1, partnerId := leAt bs 2 2 % 2 ^ 14, depths := (upto 4).map (fun v => leAt bs (8 + 2 * v) 2),
                      replayDepth := leAt bs 16 2 }
    if s.initDuplicate bs then State.errPort (s.setFport p { x.dropped .fenced x.cause s.now with duplicate := true }) 0x0305 degrading p
    else if s.initOk bs then s.setFport p (FabPort.tryUp { x with step := 5, ownReady := true, partnerReady := bit (leAt bs 7 1) 0 })
    else s.setFport p (x.dropped .down 6 s.now)
  else s

/-- R359: INIT. -/
def execInit (p : Nat) (f : Flit) (s : State) : Host.Outcome State Fault Refusal :=
  if p < 48 then .next (doInit p f s) else .fault .noSuchUnit

/-! ### Acknowledgements and replay (R364, R365) -/

/-- R365: flits of the replay buffer resent in order. [DEDUCED, log 44] -/
def State.resend (s : State) (p : Nat) (ks : List Kept) : State :=
  ks.foldl (fun s k => (s.emit p k.header k.payload k.seq).addGctr (752 + p) 256) s

/-- R365: RECOVERY: the port resynchronises and resumes from the first unacknowledged flit. [DEDUCED, log 44] -/
def State.enterRecovery (s : State) (p : Nat) : State :=
  let x := s.fport p
  let s := s.setFport p { x with state := .recovery, since := s.now, recoveries := sat 8 (x.recoveries + 1), nackCount := 0 }
  (s.errPort 0x0301 corrected p).resend p x.replay

/-- R365: entries that an acknowledgement up to `upTo` covers are freed, and RECOVERY ends once its first flit is accepted.
[DEDUCED, log 44] -/
def FabPort.ackTo (x : FabPort) (upTo : Nat) : FabPort :=
  let left := x.replay.filter (fun k => decide (2048 ≤ (upTo + 4096 - k.seq) % 4096))
  { x with replay := left, state := if x.state = .recovery ∧ left.length < x.replay.length then .up else x.state }

/-- R365: a nack: resends from the nacked sequence; the eighth of one sequence puts the port in RECOVERY. [DEDUCED, log 44] -/
def State.takeNack (s : State) (p seq : Nat) : State :=
  let s := s.modFport p (fun x => x.ackTo ((seq + 4095) % 4096))
  let x := s.fport p
  let n := if x.nackedSeq = seq ∧ x.nackCount ≠ 0 then x.nackCount + 1 else 1
  let s := State.errPort (s.setFport p { x with nackedSeq := seq, nackCount := n, replays := sat 32 (x.replays + 1) }) 0x0301 corrected p
  if 8 ≤ n ∧ x.state = .up then s.enterRecovery p else s.resend p x.replay

/-- R364: the acknowledgement fields of a flit whose check passes. -/
def State.takeAck (s : State) (p : Nat) (f : Flit) : State :=
  if !f.ackValid then s
  else if f.nack then s.takeNack p f.ackSeq
  else s.modFport p (fun x => x.ackTo f.ackSeq)

/-- R395: a flit other than HOLD ends HELD: the port resumes from the first unacknowledged flit; R397: at the limit of 500 ms the limit wins,
and the port goes DOWN. -/
def State.endHeld (s : State) (p : Nat) : State :=
  let x := s.fport p
  if x.state = .held then
    if x.since + 500000000 ≤ s.now then s.portDown p 5 else (s.setFport p { x with state := .up }).resend p x.replay
  else s

/-- A flit other than HOLD comes to a linked port: `g` is what it does, where the port is still linked once HELD has ended. -/
def State.onLink (s : State) (p : Nat) (g : State → State) : State :=
  if s.linkLive && (s.fport p).linked then
    let s := s.endHeld p
    if (s.fport p).linked then g s else s
  else s

/-! ### Receiving sequenced flits (R364, R367 to R371) -/

/-- R364: a sequenced flit is dropped: one nack is sent, and repeated by its timer. [DEDUCED, log 44] -/
def State.dropFlit (s : State) (p : Nat) : State :=
  let x := s.fport p
  let s := s.setFport p { x with crcFail := sat 16 (x.crcFail + 1), nackOpen := true }
  if x.nackOpen then s else (s.errPort 0x0301 corrected p).sendNack p

/-- R367: the credits that a DATA or CTRL flit returns. -/
def FabPort.takeCredits (x : FabPort) (f : Flit) : FabPort :=
  let b := x.book f.crVc
  x.setBook f.crVc { b with avail := b.avail + f.crCount, creditTotal := (b.creditTotal + f.crCount) % 2 ^ 32 }

/-- R367: receive buffers freed: their credits are owed to the partner. -/
def FabPort.freeBuffers (x : FabPort) (vc n : Nat) : FabPort :=
  let b := x.book vc
  x.setBook vc { b with occ := b.occ - n, owed := b.owed + n }

/-- R364: the acceptance of a sequenced flit with the next expected sequence, its acknowledgement and credits taken; an
acknowledgement is due at every 64. -/
def State.acceptFlit (s : State) (p : Nat) (f : Flit) : State :=
  let x := s.fport p
  let b := x.book f.vc
  let x := { x.setBook f.vc { b with occ := b.occ + 1 } with rxSeq := (x.rxSeq + 1) % 4096, nackOpen := false, unacked := x.unacked + 1 }
  let s := ((s.setFport p (x.takeCredits f)).addGctr (800 + p) 256).takeAck p f
  if 64 ≤ (s.fport p).unacked then s.sendUnsequenced p fkIdle [] else s

/-- R364: a sequenced flit is received: `g` is what it does once accepted. -/
def State.sequenced (s : State) (p : Nat) (f : Flit) (g : State → State) : State :=
  s.onLink p (fun s => if f.passes (s.fport p).rxSeq then g (s.acceptFlit p f) else s.dropFlit p)

/-- R449: what a message received in REST starts. [DESIGN CHOICE, log 42] -/
def State.wakeFor (s : State) (m : Msg) : State := if m.mkind = 0xE then s else s.wake

/-- R371, R372: a DATA flit accepted: its message goes on, and, with its last flit, waits to be served; a reserved kind is dropped. -/
def State.dataFlit (s : State) (p : Nat) (f : Flit) : State :=
  let x := s.fport p
  let bs := (if f.isFirst then [] else SMap.get [] x.assembling f.vc) ++ f.payload
  if !f.isLast then s.setFport p { x with assembling := SMap.set [] x.assembling f.vc bs }
  else
    let m := Msg.ofWire bs
    let n := bs.length / 240
    let x := { x with assembling := SMap.set [] x.assembling f.vc [] }
    if m.mkind = 0 ∨ 0xE < m.mkind then (s.setFport p (x.freeBuffers f.vc n)).errMsg p m.src
    else (s.setFport p { x with inq := x.inq ++ [(f.vc, n, m)] }).wakeFor m

/-- The type of a CTRL flit (R369). -/
def Flit.ctrlType (f : Sys2Proof.Flit) : Nat := leAt f.payload 0 1

/-- R369: a CTRL flit accepted: its buffer is freed at once. -/
def State.ctrlDone (s : State) (p : Nat) (f : Flit) : State := s.modFport p (fun x => x.freeBuffers f.vc 1)

/-- [DESIGN CHOICE, log 42] -/
def isCtrl (f : Flit) (ty : Nat) : Bool := f.kind == fkCtrl && Flit.ctrlType f == ty

/-- R362, R369: a DATA flit, a flit of a reserved kind, or a CTRL flit of a reserved type. -/
def doData (p : Nat) (f : Flit) (s : State) : State :=
  if f.kind = fkData then s.sequenced p f (fun t => t.dataFlit p f)
  else if fkInit < f.kind then s.onLink p (fun s => s.dropFlit p)
  else if f.kind = fkCtrl ∧ (Flit.ctrlType f = 0 ∨ 4 < Flit.ctrlType f) then
    s.sequenced p f (fun t => (t.ctrlDone p f).errPort 0x0304 contained p)
  else s

/-- R364: DATA. -/
def execData (p : Nat) (f : Flit) (s : State) : Host.Outcome State Fault Refusal :=
  if p < 48 then .next (doData p f s) else .fault .noSuchUnit

/-- R364: an IDLE flit gives the acknowledgement it carries. -/
def doIdle (p : Nat) (f : Flit) (s : State) : State :=
  if f.kind = fkIdle then s.onLink p (fun s => if f.passes 0 then s.takeAck p f else s) else s

/-- R364: IDLE. -/
def execIdle (p : Nat) (f : Flit) (s : State) : Host.Outcome State Fault Refusal :=
  if p < 48 then .next (doIdle p f s) else .fault .noSuchUnit

/-- R395: a HOLD flit puts a port in HELD; what its acknowledgement covers is freed, and nothing is resent before HOLD ends. -/
def doHold (p : Nat) (f : Flit) (s : State) : State :=
  let x := s.fport p
  if s.linkLive && f.kind == fkHold && f.passes 0 && x.linked then
    let s := if x.state = .held then s else s.setFport p { x with state := .held, since := s.now, holds := sat 8 (x.holds + 1) }
    if f.ackValid then s.modFport p (fun x => x.ackTo (if f.nack then (f.ackSeq + 4095) % 4096 else f.ackSeq)) else s
  else s

/-- R395: HOLD. -/
def execHold (p : Nat) (f : Flit) (s : State) : Host.Outcome State Fault Refusal :=
  if p < 48 then .next (doHold p f s) else .fault .noSuchUnit

def doCredit (p : Nat) (f : Flit) (s : State) : State := if isCtrl f 1 then s.sequenced p f (fun t => t.ctrlDone p f) else s

/-- R367: CREDIT. -/
def execCredit (p : Nat) (f : Flit) (s : State) : Host.Outcome State Fault Refusal :=
  if p < 48 then .next (doCredit p f s) else .fault .noSuchUnit

/-! ### AUDIT (R368) -/

/-- R368: avail + occ + (returned − credit_total) of one VC, by the partner's figures; a buffer freed whose credit is not yet returned
counts as occupied. [DEDUCED, log 45] -/
def FabPort.auditSum (x : FabPort) (bs : List Byte) (vc : Nat) : Nat :=
  let b := x.book vc
  leAt bs (1 + 10 * vc + 8) 2 + b.occ + b.owed + (b.returned + 2 ^ 32 - leAt bs (1 + 10 * vc + 4) 4) % 2 ^ 32

/-- R368: credits lost are returned at once, in as many CREDIT flits as they take, and counted. [DEDUCED, log 45] -/
def State.auditFix (s : State) (p vc : Nat) (bs : List Byte) : State :=
  let x := s.fport p
  let t := x.auditSum bs vc
  if t < rxDepth vc then
    let b := x.book vc
    let owed := b.owed + (rxDepth vc - t)
    let s := s.setFport p { x.setBook vc { b with owed := owed } with auditFixes := sat 8 (x.auditFixes + (rxDepth vc - t)) }
    (upto (cdiv owed 63)).foldl (fun s _ => s.sendCtrl p (.credit vc)) (s.errPort 0x0302 corrected p)
  else s

/-- R368: an accepted AUDIT compared with this receiver's books. -/
def State.audit (s : State) (p : Nat) (f : Flit) : State :=
  let bs := f.payload
  let x := s.fport p
  let s := { s with link := { s.link with audits := (s.link.audits + 1) % 2 ^ 32 } }
  if (upto 4).any (fun v => decide (rxDepth v < x.auditSum bs v)) then
    State.retrainPort (State.errPort { s with link := { s.link with surpluses := sat 16 (s.link.surpluses + 1) } } 0x0304 contained p) p 4
  else if (upto 4).any (fun v => decide (x.auditSum bs v < rxDepth v)) then
    ((upto 4).foldl (fun (s : State) v => s.auditFix p v bs) { s with link := { s.link with deficits := sat 16 (s.link.deficits + 1) } }).ctrlDone p f
  else s.ctrlDone p f

def doAudit (p : Nat) (f : Flit) (s : State) : State := if isCtrl f 2 then s.sequenced p f (fun t => t.audit p f) else s

/-- R368: AUDIT. -/
def execAudit (p : Nat) (f : Flit) (s : State) : Host.Outcome State Fault Refusal :=
  if p < 48 then .next (doAudit p f s) else .fault .noSuchUnit

/-- R368: an AUDIT is due; it leaves in its turn, with the figures of that moment. -/
def doAuditTimer (p : Nat) (s : State) : State := if s.linkLive && (s.fport p).state == .up then s.sendCtrl p .audit else s

/-- R368: AUDIT_TIMER. -/
def execAuditTimer (p : Nat) (s : State) : Host.Outcome State Fault Refusal :=
  if p < 48 then .next (doAuditTimer p s) else .fault .noSuchUnit

/-! ### The timers of the link (R364, R365, R367, R392, R395) -/

/-- R364, R395: a port that is not HELD sends nacks and acknowledgements, in RECOVERY too. -/
def FabPort.talks (x : FabPort) : Bool := x.state == .up || x.state == .recovery

def doNackRepeat (p : Nat) (s : State) : State := if s.linkLive && (s.fport p).talks && (s.fport p).nackOpen then s.sendNack p else s

/-- R364: NACK_REPEAT_TIMER. -/
def execNackRepeatTimer (p : Nat) (s : State) : Host.Outcome State Fault Refusal :=
  if p < 48 then .next (doNackRepeat p s) else .fault .noSuchUnit

def doAckTimer (p : Nat) (s : State) : State :=
  if s.linkLive && (s.fport p).talks && (s.fport p).unacked != 0 then s.sendUnsequenced p fkIdle [] else s

/-- R364: ACK_TIMER. -/
def execAckTimer (p : Nat) (s : State) : Host.Outcome State Fault Refusal :=
  if p < 48 then .next (doAckTimer p s) else .fault .noSuchUnit

/-- R367: a CREDIT flit asks to leave where credits are owed and none of its kind waits. -/
def doCreditReturn (p : Nat) (s : State) : State :=
  match (s.fport p).owedVc with
  | some (vc, _) => if s.linkLive && (s.fport p).state == .up && !(s.fport p).ctrlq.contains (.credit vc) then s.sendCtrl p (.credit vc) else s
  | none => s

/-- R367: CREDIT_RETURN_TIMER. -/
def execCreditReturnTimer (p : Nat) (s : State) : Host.Outcome State Fault Refusal :=
  if p < 48 then .next (doCreditReturn p s) else .fault .noSuchUnit

/-- R365: RECOVERY has not ended within 50 µs. -/
def doRecoveryTimeout (p : Nat) (s : State) : State :=
  let x := s.fport p
  if s.linkLive && !s.linkRestarts p && x.state == .recovery then
    let s := { s with now := max s.now (x.since + 50000) }
    (s.errPort 0x0303 corrected p).retrainPort p 3
  else s

/-- R365: RECOVERY_TIMEOUT. -/
def execRecoveryTimeout (p : Nat) (s : State) : Host.Outcome State Fault Refusal :=
  if p < 48 then .next (doRecoveryTimeout p s) else .fault .noSuchUnit

/-- R392: loss of signal on a lane; a lane fault takes the port down whether or not the module is frozen. -/
def doLossOfSignal (p : Nat) (s : State) : State :=
  if s.ready && ((s.fport p).linked || (s.fport p).state == .training) then s.portDown p 1 else s

/-- R392: LOSS_OF_SIGNAL. -/
def execLossOfSignal (p : Nat) (s : State) : Host.Outcome State Fault Refusal :=
  if p < 48 then .next (doLossOfSignal p s) else .fault .noSuchUnit

/-- R395: the hold limit: a frozen module's ports go DOWN; of one that is not frozen, the ports HELD longest. [DESIGN CHOICE, log 5] -/
def doHoldLimit (s : State) : State :=
  if !s.ready then s
  else if s.freeze.frozen then
    if s.freeze.holding then
      let s : State := { s with now := max s.now (s.freeze.began + 500000000), freeze := { s.freeze with holding := false, holdExpired := true } }
      ((upto 48).filter (fun p => (s.fport p).linked)).foldl (fun s p => s.portDown p 5) s
    else s
  else
    let held := (upto 48).filter (fun p => (s.fport p).state == .held)
    match held with
    | [] => s
    | p :: ps =>
      let first := ps.foldl (fun m q => min m (s.fport q).since) (s.fport p).since
      let s := { s with now := max s.now (first + 500000000) }
      (held.filter (fun q => decide ((s.fport q).since + 500000000 ≤ s.now))).foldl (fun s q => s.portDown q 5) s

/-- R395: HOLD_LIMIT_EXPIRY. -/
def execHoldLimitExpiry (s : State) : Host.Outcome State Fault Refusal := .next (doHoldLimit s)

/-! ### Time (R398 to R400) -/

/-- R399: one grandmaster is better than another. -/
def gmBetter (pps : Bool) (id : Nat) (pps' : Bool) (id' : Nat) : Bool := (pps && !pps') || (pps == pps' && decide (id < id'))

/-- LNK_TIME_CFG role, a reserved value as AUTO (R20): 0 AUTO, 1 GM, 2 FOLLOWER. -/
def State.timeRole (s : State) : Nat := fld (s.reg 0x03100020) 1 0

/-- R399: this module has an active TIME_PPS_IN. -/
def State.ownPps (s : State) : Bool := bit (s.reg 0x03100020) 2 && s.power.ppsSeen

/-- R399: the grandmaster heard within the last 3 ms, if any. -/
def State.heardGm (s : State) : Option (Bool × Nat) :=
  match s.link.time.gmId with
  | some g => if s.now ≤ s.link.time.heardAt + 3000000 then some (s.link.time.gmPps, g) else none
  | none => none

/-- R399: this module is grandmaster: GM or AUTO, and it has heard no better one within 3 ms. -/
def State.isGm (s : State) : Bool :=
  s.ready && s.timeRole != 2 && (match s.heardGm with | some (pps, g) => !gmBetter pps g s.ownPps s.fabricId | none => true)

/-- R399: the port that the follower takes time from: of those that reach the grandmaster, the lowest delay, then the lowest number. -/
def State.parentPort (s : State) : Option Nat :=
  match s.link.time.gmId with
  | some g =>
    ((upto 48).filter (fun p => s.portReaches p g && (s.fport p).delay.isSome)).foldl (fun best p =>
      match best with
      | some q => if (s.fport p).delay.getD 0 < (s.fport q).delay.getD 0 then some p else best
      | none => some p) none
  | none => none

/-- R400: the first lock: a step forward once, by the whole nanoseconds, or a slew back. [DESIGN CHOICE, log 48] -/
def State.firstLock (s : State) (offset : Int) : State :=
  let t := s.link.time
  if 0 < offset ∧ !t.stepped then
    let now := s.now + (offset / 131072).toNat
    { s with now := now, link := { s.link with time := { t with stepped := true, slew := offset % 131072, slewFrom := now } } }
  else { s with link := { s.link with time := { t with stepped := true, slew := offset, slewFrom := s.now } } }

/-- R400: a follower disciplines its time base by a measured offset, in units of 2^−17 ns. [DESIGN CHOICE, log 48] -/
def State.discipline (s : State) (offset : Int) : State :=
  let t := s.link.time
  let near := decide (offset.natAbs ≤ 25 * 65536)
  let far := decide (10000 * 131072 < offset.natAbs)
  if t.locked && far then
    let (a, s) := s.draw
    let (b, s) := s.draw
    let s : State := { s with link := { s.link with time := { t with locked := false, stepped := false } } }
    (s.raiseEvent (a.toNat % 2 ^ 16) b.toNat).firstLock offset
  else
    let s : State := { s with link := { s.link with time := { t with locked := near } } }
    if t.stepped then { s with link := { s.link with time := { t with locked := near, slew := offset, slewFrom := s.now } } } else s.firstLock offset

/-- R398: the offset and the delay, from the four times and the correction, exact in units of 2^−17 ns: the correction is in units of
2^−16 ns, and both formulas halve. -/
def timeOffset (t1 t2 t3 t4 corr : Int) : Int := ((t2 - t1) - (t4 - t3)) * 65536 - corr
def timeDelay (t1 t2 t3 t4 corr : Int) : Int := ((t4 - t1) - (t3 - t2)) * 65536 - corr

/-- R398, R400: a TIME_RESP accepted. -/
def State.timeResp (s : State) (p : Nat) (f : Flit) : State :=
  let s := s.ctrlDone p f
  let bs := f.payload
  let t1 : Int := leAt bs 1 8
  let t2 : Int := leAt bs 9 8
  let t3 : Int := leAt bs 17 8
  let corr := sext 64 (leAt bs 25 8)
  let off := timeOffset t1 t2 t3 s.now corr
  let s := s.modFport p (fun x => { x with delay := some (timeDelay t1 t2 t3 s.now corr) })
  if s.isGm then s
  else match s.parentPort with
    | some q =>
      let s : State := { s with link := { s.link with time := { s.link.time with parent := q, offset := if q = p then off else s.link.time.offset } } }
      if q = p then s.discipline off else s
    | none => s

def doTimeResp (p : Nat) (f : Flit) (s : State) : State := if isCtrl f 4 then s.sequenced p f (fun t => t.timeResp p f) else s

/-- R400: TIME_RESP. -/
def execTimeResp (p : Nat) (f : Flit) (s : State) : Host.Outcome State Fault Refusal :=
  if p < 48 then .next (doTimeResp p f s) else .fault .noSuchUnit

/-- R398: a TIME_REQ accepted is answered with t1, t2 and t3. -/
def doTimeReq (p : Nat) (f : Flit) (s : State) : State :=
  if isCtrl f 3 then
    s.sequenced p f (fun t => (t.ctrlDone p f).sendCtrl p (.timeResp (leAt f.payload 1 8) t.now))
  else s

/-- R398: TIME_REQ. -/
def execTimeReq (p : Nat) (f : Flit) (s : State) : Host.Outcome State Fault Refusal :=
  if p < 48 then .next (doTimeReq p f s) else .fault .noSuchUnit

def doTimeReqTimer (p : Nat) (s : State) : State :=
  if s.linkLive && (s.fport p).state == .up then s.sendCtrl p .timeReq else s

/-- R398: TIME_REQ_TIMER. -/
def execTimeReqTimer (p : Nat) (s : State) : Host.Outcome State Fault Refusal :=
  if p < 48 then .next (doTimeReqTimer p s) else .fault .noSuchUnit

/-- R399: the TIME_ANNOUNCE of this module for another. -/
def State.announcement (s : State) (id : Nat) : Msg :=
  { t0 := msgT0 id s.fabricId 0xE 0 1, t1 := put 448 63 48, t2 := 0, t3 := b2n s.ownPps + put s.fabricId 14 1 }

/-- R399, R375: TIME_ANNOUNCE to the partner of every UP port: on the management controller's stream to a module that is not lost, and
unkept to a switch or a lost module (R397). [DESIGN CHOICE, log 84] -/
def State.announce (s : State) : State :=
  let ups := (upto 48).filter (fun p => (s.fport p).state == .up)
  let kept := fun p => !(s.fport p).partnerSwitch && !s.isLost (s.fport p).partnerId
  let s := ((ups.filter kept).map (fun p => (s.fport p).partnerId)).eraseDups.foldl (fun s id => s.sendStream id 448 (s.announcement id)) s
  (ups.filter (fun p => !kept p)).foldl (fun s p => s.dispatchMsg p (s.announcement (s.fport p).partnerId)) s

def doAnnounceTimer (s : State) : State := if s.linkLive && s.isGm then s.announce else s

/-- R399: TIME_ANNOUNCE_TIMER. -/
def execTimeAnnounceTimer (s : State) : Host.Outcome State Fault Refusal := .next (doAnnounceTimer s)

/-- R399: an announcement heard: the better grandmaster is followed, and the one followed is refreshed. -/
def State.hearGm (s : State) (pps : Bool) (id : Nat) : State :=
  let take := match s.heardGm with
    | some (pps', g) => g == id || gmBetter pps id pps' g
    | none => true
  let t := s.link.time
  if take then { s with link := { s.link with time := { t with gmId := some id, gmPps := pps, heardAt := s.now } } } else s

/-! ### Messages at their destination (R372 to R377) -/

/-- R376: the bytes an address-form message touches. -/
def Msg.touched (m : Msg) : Nat := if m.mkind = 1 then m.data.length else if m.mkind = 2 then m.t3 else 8

/-- R372: the address a message acts on; an ATOMIC acts on the aligned word at its target. -/
def Msg.where' (m : Msg) : Nat := if m.mkind = 4 then m.t2 / 8 * 8 else m.t2

/-- R376: an address-form message may be executed. -/
def State.remoteMay (s : State) (m : Msg) : Bool :=
  bit (s.reg 0x03100018) m.domain && decide (0 < Msg.touched m) && decide (Msg.touched m ≤ 16384) &&
    (pieces (Msg.where' m) (Msg.touched m)).all (fun x => match s.area x.1 with
      | some r => r.granular && s.area x.2 == some r && s.domainOf x.1 == some m.domain
      | none => false)

/-- R309: bytes read for a partner; those of a poisoned unit are free values. [DEDUCED, log 46] -/
def State.remoteRead (s : State) (a n : Nat) : List Byte × State :=
  let bs := (upto n).map (fun i =>
    if s.unitPoisoned ((a + i) / 256) then (Config.freeValue (s.freeCtr + i)).truncate 8 else s.memByte (a + i))
  (bs, (if s.poisoned a n then { s with freeCtr := s.freeCtr + n } else s).countBytes none true a n)

/-- R372: a response on the stream of the request. -/
def State.respond (s : State) (m : Msg) (kind : Nat) (bs : List Byte) : State :=
  s.sendReply { t0 := msgT0 m.src s.fabricId kind m.domain bs.length, t1 := put m.streamNo 63 48 + put m.mseq 47 24, t2 := m.t2, t3 := 0, data := bs }

/-- R372: the new value of an ATOMIC. -/
def atomicNew (op old operand cmp : Nat) : Nat :=
  if op = 0 then (old + operand) % 2 ^ 64 else if op = 1 then operand % 2 ^ 64 else if old = cmp then operand % 2 ^ 64 else old

/-- R372, R374, R376: an address-form message executed, or refused; the status that its ACK carries. [DEDUCED, log 46] -/
def State.addressForm (s : State) (p : Nat) (m : Msg) : State × Nat :=
  if (m.mkind == 4 && m.atomicOp == 3) || !s.remoteMay m then (s.errMsg p m.src, stContained)
  else if m.mkind = 1 then ((s.writeBytes m.t2 m.data).countBytes none false m.t2 m.data.length, stOk)
  else if m.mkind = 2 then let (bs, s) := s.remoteRead m.t2 m.t3; (s.respond m 3 bs, stOk)
  else
    let a := Msg.where' m
    let (bs, s) := s.remoteRead a 8
    let s := (s.writeLe a 8 (atomicNew m.atomicOp (ofLe bs) m.t3 (leAt m.data 0 8))).countBytes none false a 8
    (s.respond m 5 bs, stOk)

/-- R269: a remote ADD at its target. -/
def State.remoteTack (s : State) (p : Nat) (m : Msg) : State :=
  let n := m.t2 % 2 ^ 14
  if (s.tack n).remoteOk then State.tackAdd { s with remoteApplied := (s.remoteApplied + 1) % 2 ^ 64 } n (m.t3 % 2 ^ 32)
  else State.errMsg { s with remoteRejected := (s.remoteRejected + 1) % 2 ^ 64 } p m.src

/-- R372: what a message of a stream does once it is its turn; the status of its ACK. [DEDUCED, log 46] -/
def State.perform (s : State) (p : Nat) (m : Msg) : State × Nat :=
  if m.mkind = 1 ∨ m.mkind = 2 ∨ m.mkind = 4 then s.addressForm p m
  else if m.mkind = 0xD then (s.declareLost (m.t3 % 2 ^ 14), stOk)
  else if m.mkind = 0xE then (s.hearGm (bit m.t3 0) (fld m.t3 14 1), stOk)
  else
    let s := s.addCtx m.domain 6 (256 * m.flits)
    if m.mkind = 6 then (s.remoteTack p m, stOk)
    else (s.collMsg p m, stOk)

/-- R375: messages behind a gap are delivered as it fills. -/
def State.drainReorder (s : State) (p src n : Nat) : Nat → State
  | 0 => s
  | k + 1 =>
    let st := s.stream src n
    match st.reorder.find? (fun x => x.1 == st.expected) with
    | some (q, m) =>
      let s := s.setStream src n { st with expected := (q + 1) % 2 ^ 24, reorder := st.reorder.filter (fun x => x.1 != q) }
      let (s, status) := s.perform p m
      (s.sendAck m status).drainReorder p src n k
    | none => s

/-- R375: a message of a stream arrives: in its turn it is performed and acknowledged; ahead of a gap it waits; a repeat is acknowledged
again and discarded. [DEDUCED, log 46] -/
def State.deliverMsg (s : State) (p : Nat) (m : Msg) : State :=
  let st := s.stream m.src m.streamNo
  if m.mseq = st.expected then
    let s := s.setStream m.src m.streamNo { st with expected := (m.mseq + 1) % 2 ^ 24 }
    let (s, status) := s.perform p m
    (s.sendAck m status).drainReorder p m.src m.streamNo st.reorder.length
  else if (m.mseq + 2 ^ 24 - st.expected) % 2 ^ 24 < 2 ^ 23 then
    if st.reorder.any (fun x => x.1 == m.mseq) || !s.transportRoom m then s
    else s.setStream m.src m.streamNo { st with reorder := st.reorder ++ [(m.mseq, m)] }
  else s.sendAck { m with t1 := setFld m.t1 47 24 (st.expected + 2 ^ 24 - 1) } stOk

/-- R375: a cumulative ACK frees the source's copies, and messages that waited leave. -/
def State.takeMsgAck (s : State) (m : Msg) : State :=
  let st := s.stream m.src m.streamNo
  let left := st.unacked.filter (fun k => decide (2 ^ 23 ≤ (m.mseq + 2 ^ 24 - k.mseq) % 2 ^ 24))
  (s.setStream m.src m.streamNo { st with unacked := left }).drainStreams

/-- R375: a management message of a stream of a module that is not lost, which is taken in its turn. -/
def State.inStream (s : State) (m : Msg) : Bool := m.dst == s.fabricId && !s.isLost m.src && m.streamNo == 448

/-- R396: what a message received does: none from a lost module but PEER_DOWN and TIME_ANNOUNCE, and none for another module.
[DEDUCED, log 46] -/
def State.receive (s : State) (p : Nat) (m : Msg) : State :=
  if (m.mkind = 0xD ∨ m.mkind = 0xE) ∧ s.inStream m then s.deliverMsg p m
  else if m.mkind = 0xD then s.declareLost (m.t3 % 2 ^ 14)
  else if m.mkind = 0xE then s.hearGm (bit m.t3 0) (fld m.t3 14 1)
  else if m.dst != s.fabricId || s.isLost m.src then s
  else if m.mkind = 7 then s.takeMsgAck m
  else if m.mkind = 3 ∨ m.mkind = 5 then s
  else s.deliverMsg p m

/-- The first message of port `p` that is `m`, with its virtual channel and flits. -/
def FabPort.holds' (x : FabPort) (m : Msg) : Option (Nat × Nat × Msg) := x.inq.find? (fun e => e.2.2 == m)

/-- A message of a kind that port `p` has received whole is served: its buffers are freed and it has its effect (R367, R372).
[DESIGN CHOICE, log 42] -/
def doMessage (kind p : Nat) (m : Msg) (s : State) : State :=
  if m.mkind != kind || !s.linkLive || (s.resting && kind != 0xE) then s
  else match (s.fport p).holds' m with
    | some (vc, n, _) =>
      (s.modFport p (fun x => { x.freeBuffers vc n with inq := x.inq.eraseP (fun e => e.2.2 == m) })).receive p m
    | none => s

/-- R376: PUT. -/
def execPut (p : Nat) (m : Msg) (s : State) : Host.Outcome State Fault Refusal :=
  if p < 48 then .next (doMessage 1 p m s) else .fault .noSuchUnit

/-- R376: GET. -/
def execGet (p : Nat) (m : Msg) (s : State) : Host.Outcome State Fault Refusal :=
  if p < 48 then .next (doMessage 2 p m s) else .fault .noSuchUnit

/-- R372: GET_RESP: no unit of the module asks for one (R376), so it only leaves its buffer. -/
def execGetResp (p : Nat) (m : Msg) (s : State) : Host.Outcome State Fault Refusal :=
  if p < 48 then .next (doMessage 3 p m s) else .fault .noSuchUnit

/-- R372, R374: ATOMIC. -/
def execAtomic (p : Nat) (m : Msg) (s : State) : Host.Outcome State Fault Refusal :=
  if p < 48 then .next (doMessage 4 p m s) else .fault .noSuchUnit

/-- R372: ATOMIC_RESP: as GET_RESP. -/
def execAtomicResp (p : Nat) (m : Msg) (s : State) : Host.Outcome State Fault Refusal :=
  if p < 48 then .next (doMessage 5 p m s) else .fault .noSuchUnit

/-- R269: TACK_ADD. -/
def execTackAdd (p : Nat) (m : Msg) (s : State) : Host.Outcome State Fault Refusal :=
  if p < 48 then .next (doMessage 6 p m s) else .fault .noSuchUnit

/-- R375: ACK. -/
def execAck (p : Nat) (m : Msg) (s : State) : Host.Outcome State Fault Refusal :=
  if p < 48 then .next (doMessage 7 p m s) else .fault .noSuchUnit

/-- R385: COLL_READY. -/
def execCollReady (p : Nat) (m : Msg) (s : State) : Host.Outcome State Fault Refusal :=
  if p < 48 then .next (doMessage 8 p m s) else .fault .noSuchUnit

/-- R385: COLL_GET. -/
def execCollGet (p : Nat) (m : Msg) (s : State) : Host.Outcome State Fault Refusal :=
  if p < 48 then .next (doMessage 9 p m s) else .fault .noSuchUnit

/-- R385: COLL_DATA. -/
def execCollData (p : Nat) (m : Msg) (s : State) : Host.Outcome State Fault Refusal :=
  if p < 48 then .next (doMessage 10 p m s) else .fault .noSuchUnit

/-- R388: COLL_PUT. -/
def execCollPut (p : Nat) (m : Msg) (s : State) : Host.Outcome State Fault Refusal :=
  if p < 48 then .next (doMessage 11 p m s) else .fault .noSuchUnit

/-- R383: COLL_ABORT. -/
def execCollAbort (p : Nat) (m : Msg) (s : State) : Host.Outcome State Fault Refusal :=
  if p < 48 then .next (doMessage 12 p m s) else .fault .noSuchUnit

/-- R393: PEER_DOWN. -/
def execPeerDown (p : Nat) (m : Msg) (s : State) : Host.Outcome State Fault Refusal :=
  if p < 48 then .next (doMessage 13 p m s) else .fault .noSuchUnit

/-- R399: TIME_ANNOUNCE. -/
def execTimeAnnounce (p : Nat) (m : Msg) (s : State) : Host.Outcome State Fault Refusal :=
  if p < 48 then .next (doMessage 14 p m s) else .fault .noSuchUnit

/-! ### Resends and lost modules (R375, R393, R396) -/

/-- R375: 50 µs without an ACK: the message is resent, on another port where one reaches; after the eighth resend its destination is lost.
While no port reaches it, as when all are HELD (R395), nothing is resent or counted, and no loss is declared. [DEDUCED, log 47] -/
def doResendTimeout (dst n mseq : Nat) (s : State) : State :=
  let st := s.stream dst n
  if !s.linkLive then s
  else match st.unacked.find? (fun k => k.mseq == mseq) with
    | none => s
    | some k =>
      let s := { s with now := max s.now (k.sentAt + 50000) }
      let kept := fun (k' : SentMsg) => s.setStream dst n { st with unacked := st.unacked.map (fun x => if x.mseq == mseq then k' else x) }
      match s.choosePort dst k.port with
      | none => kept { k with sentAt := s.now }
      | some p =>
        if 8 ≤ k.resends then s.declareLost dst
        else
          let s := kept { k with resends := k.resends + 1, sentAt := s.now, port := p }
          (if k.port = 48 then s.countSent k.msg else s).dispatchMsg p k.msg

/-- R375: TRANSPORT_RESEND_TIMEOUT. -/
def execTransportResendTimeout (dst stream mseq : Nat) (s : State) : Host.Outcome State Fault Refusal :=
  if dst < 16384 ∧ stream < 449 then .next (doResendTimeout dst stream mseq s) else .fault .noSuchUnit

/-- R396: lost bits cleared: the stream sequences with those modules start again. -/
def State.clearLost (s : State) (word v : Nat) : State :=
  let gone := s.link.lost.filter (fun id => id / 64 == word && bit v (id % 64))
  { s with link := { s.link with lost := s.link.lost.filter (fun id => !decide (id ∈ gone)),
                                 streams := s.link.streams.filter (fun e => !decide (e.1 / 512 ∈ gone)) } }

def doPeerLostClear (p : HostPort) (word v : Nat) (s : State) : State :=
  s.hostWrite p (0x03110000 + 8 * word) (.lnkPeerLostClear p word v) (fun t => t.clearLost word v)

/-- R396: LNK_PEER_LOST_CLEAR. -/
def execLnkPeerLostClear (p : HostPort) (word v : Nat) (s : State) : Host.Outcome State Fault Refusal :=
  if word < 256 then .next (doPeerLostClear p word v s) else .fault .noSuchUnit

/-! ### The straggler watch (R482, R483) -/

/-- R482: a message awaited: since when, of which chunk, its key among the messages of its collective, and the rank of its home. -/
structure Await where
  since : Nat
  chunk : Nat
  key : Nat
  rank : Nat
deriving DecidableEq, Repr

/-- The message that a node of a chunk homed here awaits: COLL_READY of the other child since the start, then COLL_DATA since its COLL_GET. -/
def Coll.nodeWait (c : Coll) (x l i : Nat) : Option Await :=
  match c.other x l i with
  | some o =>
    let v := c.node x l i
    let key := nodeKey x l i
    let r := c.home x o.1 o.2
    if r = c.rank ∨ v.summed then none
    else if !v.ready then some ⟨c.startedAt, x, 4 * key, r⟩
    else if v.getSent then some ⟨v.askedAt, x, 4 * key + 1, r⟩
    else none
  | none => none

/-- The messages awaited at the nodes on the way from this member's leaf to the root, while it is their home; the home above them. -/
def Coll.climb (c : Coll) (x : Nat) : Nat → Nat → Nat → List Await × Option Nat
  | 0, _, _ => ([], none)
  | f + 1, l, i =>
    match c.parent l i with
    | none => ([], none)
    | some (pl, pi) =>
      if c.home x pl pi = c.rank then
        let rest := c.climb x f pl pi
        ((c.nodeWait x pl pi).toList ++ rest.1, rest.2)
      else ([], some (c.home x pl pi))

/-- The lowest bit set in a label, which tells the home that pushes a copied piece to it (R388). -/
def lowBit (n : Nat) : Nat := match (upto 14).find? (bit n) with | some k => 2 ^ k | none => 0

/-- R388: the home that pushes the piece of `owner` to this member. -/
def Coll.pusher (c : Coll) (owner : Nat) : Nat :=
  let label := (c.rank + c.n - owner) % max c.n 1
  (label - lowBit label + owner) % max c.n 1

/-- R482: the COLL_PUTs of chunk `x` that this member awaits, `up` being the home above the nodes that it holds. -/
def Coll.putWaits (c : Coll) (x : Nat) (up : Option Nat) : List Await :=
  let put := fun (owner r : Nat) => Await.mk c.startedAt x (4 * (x * 16384 + owner) + 2) r
  if c.kind = .broadcast then (if c.rank = 0 ∨ x * 16384 ∈ c.doneChunks then [] else [put 0 (c.pusher 0)])
  else if c.kind = .allgather then
    ((upto c.n).filter (fun o => o != c.rank && decide ((x * 16384 + o) ∈ c.duties) && !decide ((x * 16384 + o) ∈ c.doneChunks))).map
      (fun o => put o (c.pusher o))
  else if x * 16384 ∈ c.doneChunks then []
  else if c.kind = .reduce ∨ c.kind = .reduceScatter then
    (if up.isSome && c.takes c.rank x then [put 0 (c.home x c.root.1 c.root.2)] else [])
  else (up.map (put 0)).toList

/-- R482: the messages that this member awaits, chunk by chunk. [DEDUCED, log 41] -/
def Coll.awaits (c : Coll) : List Await :=
  (upto c.chunkCount).flatMap (fun x =>
    if c.kind.copies then c.putWaits x none
    else
      let w := c.climb x (2 * c.n + 64) 0 c.rank
      w.1 ++ c.putWaits x w.2)

/-- R482: the message awaited longest, the first of equals. -/
def Coll.longest (c : Coll) : Option Await :=
  c.awaits.foldl (fun m a => match m with | some b => if a.since < b.since then some a else m | none => some a) none

/-- R482: the reports made of a wait. -/
def Coll.reportsOf (c : Coll) (a : Await) : Nat := if c.watched = some a.key then c.watchedFor else 0

/-- R482: a wait reported once more. -/
def Coll.reported (c : Coll) (a : Await) : Coll :=
  { c with reports := c.reports + 1, watched := some a.key, watchedFor := c.reportsOf a + 1 }

/-- R482, R483: the longest wait has lasted a further interval. [DEDUCED, log 41] -/
def doStraggler (comm k : Nat) (s : State) : State :=
  let ms := fld (s.reg 0x03210008) 15 0
  if !s.linkLive || ms == 0 then s
  else match s.coll comm k with
    | none => s
    | some c =>
      if c.unbegun || c.endedAs.isSome || decide (8 ≤ c.reports) then s
      else match c.longest with
        | none => s
        | some a =>
          let s := { s with now := max s.now (a.since + 1000000 * ms * (c.reportsOf a + 1)) }
          let s := s.setColl (c.reported a)
          let s := s.raiseEvent 0x0230 (put k 127 104 + put comm 103 96 + put (s.member comm a.rank) 95 82 + put a.rank 81 68 +
            put (c.reports + 1) 67 64 + put ((s.now - a.since) / 1000000) 63 32 + put a.chunk 31 0)
          s.chalkStraggler

/-- R482: STRAGGLER_TIMER. -/
def execStragglerTimer (comm k : Nat) (s : State) : Host.Outcome State Fault Refusal :=
  if comm < 256 then .next (doStraggler comm k s) else .fault .noSuchUnit

/-! ### The link's configuration in force (LNK_PORT_CTL, LNK_FABRIC_ID) and slice faults (R476) -/

/-- LNK_PORT_CTL takes force: enable 0 holds the port DOWN, fence 1 fences it, and fence 0 lets a FENCED port train. The down_cause of a port
released from FENCED is that of a change of configuration. [DEDUCED, log 43] -/
def State.portCtl (s : State) (p v : Nat) : State :=
  let s := s.setReg (fportReg p 0) v
  let x := s.fport p
  if bit v 30 then (if x.state = .fenced then s else s.fencePort p)
  else if x.state = .fenced then s.setFport p { x with state := .down, duplicate := false, cause := 7 }
  else if !bit v 31 && x.state != .down then s.portDown p 7
  else s

/-- LNK_FABRIC_ID takes force: the enabled ports go DOWN and retrain. -/
def State.setFabricId (s : State) (v : Nat) : State :=
  let s := s.setReg 0x03100000 v
  ((upto 48).filter (fun p => s.portEnabled p && ((s.fport p).linked || (s.fport p).state == .training))).foldl (fun s p => s.portDown p 7) s

/-- R2, R476: the fabric ports of a quadrant's slice. -/
def slicePorts (q : Nat) : List Nat := (upto 12).map (· + 12 * q)

end Sys2Proof.Machine
end

