-- ==== Sys2Proof/Machine/Hubs.lean ====
section
/-! DEFINITION. The memory system's own events: data units, check bytes, scrubbing and retirement (R302 to R311), channel upkeep (R303,
R305), arbiters (R319 to R322), block streams (R323 to R327) and a core's SRAM domain (R318). -/

namespace Sys2Proof.Machine

/-! ### Units and check bytes (R306) -/

/-- R306: the 132 symbols of a unit as read, errors only: 128 data symbols and four check symbols. [DEDUCED, log 36] -/
def errorWord (err : List (Nat × Nat)) : List Nat :=
  (upto 132).map (fun i => (err.filter (fun e => e.1 == i)).foldl (fun v e => v ^^^ e.2 % 65536) 0)

/-- R306: the outcome of decoding, and the error left in the symbols after correction. [DEDUCED, log 36] -/
def decodeErrors (err : List (Nat × Nat)) : RsResult × List Nat :=
  let w := errorWord err
  match rsDecode w with
  | .clean => (.clean, w)
  | .corrected p v => (.corrected p v, w.set p (w.getD p 0 ^^^ v))
  | .uncorrectable => (.uncorrectable, w)

/-- R310: the distinct pages of a channel with uncorrectable errors within the last hour. -/
def State.badPages (s : State) (ch : Nat) : Nat :=
  ((s.channel ch).pages.filter (fun e => match e.2.uncorrectableAt with | some t => decide (s.now ≤ t + 3600000000000) | none => false)).length

/-! ### Retirement (R308, R311) -/

/-- R311: the top stripe of the hub's space lies in its local region and every granule it touches is unassigned. -/
def State.stripeFree (s : State) (h : Nat) : Bool :=
  let n := s.stripe h
  let limit := (s.hub h).localLimit
  let base := 0x040000000000 + 0x8000000000 * h
  decide (n ≤ limit) && n != 0 && (pieces (base + limit - n) n).all (fun p => (s.granuleDomain (p.1 / granuleSize)).isNone)

/-- R311: the top stripe taken for replacement pages, one for each live channel. [DESIGN CHOICE, log 90] -/
def State.takeStripe (s : State) (h : Nat) : State :=
  let n := s.stripe h
  let s := s.modHub h (fun x => { x with localLimit := x.localLimit - n, stripesTaken := x.stripesTaken + 1,
                                         sparePages := x.sparePages + x.liveChannels })
  { s with bring := { s.bring with usableKib := s.bring.usableKib - n / 1024 } }

/-- R308, R311: a retirement refused: counted, and logged as DEGRADING. -/
def State.refuseRetire (s : State) (h ch page : Nat) : State :=
  (s.modHub h (fun x => { x with refused := sat 8 (x.refused + 1) })).raiseError 0x0204 degrading .channel ch none page

/-- R308 step 1: a replacement page for `page` of channel `ch`, from the pool or from the top stripe; none where the retirement is refused. -/
def State.takeSpare (s : State) (h ch page : Nat) : Option State :=
  let c := s.channel ch
  let pooled := (s.hub h).stripesTaken != c.remaps
  if decide (512 ≤ c.remaps) || !(pooled || s.stripeFree h) then none
  else
    let s := if pooled then s else s.takeStripe h
    let s := s.modHub h (fun x => { x with sparePages := x.sparePages - 1 })
    let p := { SMap.get {} c.pages page with replacement := s.rawPages - 1 - c.remaps, copying := true, copied := 0 }
    some (s.setChannel ch { c with remaps := c.remaps + 1, pages := SMap.set {} c.pages page p })

/-- R305, R491: the hub's training record is to be written. [DEDUCED, log 63] -/
def State.queueTraining (s : State) (h : Nat) : State :=
  if s.sec.flashQ.contains (.training h) then s else { s with sec := { s.sec with flashQ := s.sec.flashQ ++ [.training h] } }

/-- R308 steps 2 and 3: the copy of one unit; the last, the check unit's, puts the pair in the remap table. -/
def State.copyUnit (s : State) (h ch page : Nat) : State × Bool :=
  let c := s.channel ch
  let p := SMap.get {} c.pages page
  let s := s.addGctr (368 + ch) 512
  if p.copied + 1 < 32 then
    (s.setChannel ch { c with pages := SMap.set {} c.pages page { p with copied := p.copied + 1 } }, false)
  else
    (((s.setChannel ch { c with pages := SMap.set {} c.pages page { p with copied := 0, copying := false, retired := true } }).modHub h
      (fun x => { x with retiredPages := x.retiredPages + 1 })).queueTraining h, true)

/-- The copies of a retirement, all at once. -/
def State.copyAll (s : State) (h ch page : Nat) : Nat → State
  | 0 => s
  | k + 1 => let (t, done) := s.copyUnit h ch page; if done then t else t.copyAll h ch page k

/-- R308: a page retired for its second corrected error in 24 hours. [DEDUCED, log 63] -/
def State.retirePage (s : State) (h ch page : Nat) : State :=
  if (SMap.get {} (s.channel ch).pages page).retired then s
  else match s.takeSpare h ch page with
    | some t => t.copyAll h ch page 32
    | none => s.refuseRetire h ch page

/-! ### The outcome of one unit (R306) -/

/-- R306: a unit corrected. [DEDUCED, log 63] -/
def State.correctedUnit (s : State) (h ch page : Nat) (a : Option Nat) : State :=
  let c := s.channel ch
  let p := SMap.get {} c.pages page
  let again := match p.lastCorrected with | some t => decide (s.now ≤ t + 86400000000000) | none => false
  let s := s.setChannel ch { c with pages := SMap.set {} c.pages page { p with lastCorrected := some s.now } }
  let s := s.modHub h (fun x => { x with corrected := sat 32 (x.corrected + 1) })
  let s := s.raiseError 0x0201 corrected .channel ch (a.bind s.domainOf) page
  if again then s.retirePage h ch page else s

/-- R306, R308, R310: a unit found uncorrectable: poisoned, where it holds one of module memory, and logged; the log's handling retires the
page. -/
def State.lostUnit (s : State) (h ch page : Nat) (a : Option Nat) : State :=
  let c := s.channel ch
  let p := SMap.get {} c.pages page
  let s := s.setChannel ch { c with pages := SMap.set {} c.pages page { p with uncorrectableAt := some s.now } }
  let s := match a with | some a => s.poisonUnits a 256 | none => s
  let s := s.modHub h (fun x => { x with uncorrectable := sat 32 (x.uncorrectable + 1) })
  let s := s.raiseError 0x0203 contained .channel ch (a.bind s.domainOf) page
  if 64 < s.badPages ch then s.raiseError 0x0205 degrading .channel ch none page else s

/-- R314: the key that the unit at `a` is encrypted with; none where its domain carries no key. -/
def State.unitKey (s : State) (a : Nat) : Option (List Byte) :=
  match s.granuleDomain (a / granuleSize) with
  | some d => let k := SMap.get ({} : DomainKey) s.sec.domains d; if k.keyed then some k.key else none
  | none => none

/-- R314: the 256 bytes that a channel holds for the unit at `a`: ciphertext where its domain carries a key, the tweak being `a`. -/
def State.storedUnit (s : State) (a : Nat) : List Byte :=
  match s.unitKey a with
  | some k => xtsSeal k a (s.rawBytes a 256)
  | none => s.rawBytes a 256

/-- R306: the eight check bytes of a unit as stored. -/
def checkBytes (unit : List Byte) : List Byte := (rsCheck ((upto 128).map (fun i => leAt unit (2 * i) 2))).flatMap (leBytes 2)

/-- R298: the check unit of a raw page of the `ix`-th live channel: the check bytes in slot order, their CRC-32C, and four zeros. -/
def State.checkUnit (s : State) (h ix raw : Nat) : List Byte :=
  let cs := (upto 31).flatMap (fun i => checkBytes (match s.unitAddr h ix raw i with | some a => s.storedUnit a | none => List.replicate 256 0))
  cs ++ leBytes 4 (crc32c cs) ++ [0, 0, 0, 0]

/-- Errors left in a unit that the decoder takes for another code word reach its stored bytes, ciphertext where the domain carries a key.
[DESIGN CHOICE, log 35] -/
def State.missedErrors (s : State) (a : Nat) (left : List Nat) : State :=
  if left.all (· == 0) then s
  else
    let got := xorBytes (s.storedUnit a) ((upto 128).flatMap (fun i => leBytes 2 (left.getD i 0)))
    s.setBytes a (match s.unitKey a with | some k => xtsOpen k a got | none => got)

/-- R306: a unit read with errors: decoded and handled. `a` is its module address, where it has one. -/
def State.readUnit (s : State) (h ch page : Nat) (a : Option Nat) (err : List (Nat × Nat)) : State :=
  let s := s.addGctr (368 + ch) 264
  match decodeErrors err with
  | (.clean, left) => match a with | some a => s.missedErrors a left | none => s
  | (.corrected _ _, left) =>
    let s := match a with | some a => s.missedErrors a left | none => s
    (s.addGctr (368 + ch) 264).correctedUnit h ch page a
  | (.uncorrectable, _) => s.lostUnit h ch page a

/-! ### Meanings: channel accesses and upkeep -/

/-- R512: the controller of hub `h` restarts. [DEDUCED, log 76] -/
def State.hubRestarts (s : State) (h : Nat) : Bool := s.unitRestarts 2 30000000 h

/-- The hub works on memory: ready, not frozen, not in self refresh, not lost, and (R512) its controller does not restart. -/
def State.hubWorks (s : State) (h : Nat) : Bool := s.alive && !(s.hub h).lost && !s.hubRestarts h

/-- R305: when a request made at `t` is carried out: a held channel makes it wait. -/
def Channel.freeAt (c : Channel) (t : Nat) : Nat := if c.heldFrom ≤ t then max t c.heldUntil else t

/-- R319: the oldest granted request is carried out, and its token returns. -/
def State.tokenBack (s : State) (h : Nat) : State :=
  match (s.hub h).requests with
  | r :: rs => s.modHub h (fun x => { x with requests := rs, tokens := SMap.set 0 x.tokens r (SMap.get 0 x.tokens r - 1) })
  | [] => s

/-- R302, R305, R306: a read of the unit at hub offset `off`, or a write of bytes within it, which keeps the rest of the unit. A held
channel makes the request wait. [DESIGN CHOICE, log 5] -/
def doChannelAccess (h off : Nat) (write : Option (List Byte)) (err : List (Nat × Nat)) (s : State) : State :=
  let (ch, page, _) := s.dramOf h off
  match s.moduleAddr h off with
  | none => s
  | some a =>
    if !s.alive then s
    else if (s.hub h).lost || (s.channel ch).fenced then s.tokenBack h
    else
      let s : State := State.tokenBack { s with now := (s.channel ch).freeAt s.now } h
      let unit := a / 256 * 256
      match write with
      | none => s.readUnit h ch page (some unit) err
      | some bs =>
        let bs := bs.take (256 - a % 256)
        let s := if a % 256 = 0 ∧ bs.length = 256 then s else s.readUnit h ch page (some unit) err
        (s.addGctr (368 + ch) 264).writeBytes a bs

/-- R306: HUB_CHANNEL_ACCESS. -/
def execHubChannelAccess (h off : Nat) (write : Option (List Byte)) (err : List (Nat × Nat)) (s : State) : Host.Outcome State Fault Refusal :=
  if h < 8 then .next (doChannelAccess h off write err s) else .fault .noSuchUnit

/-- R307: the channel and raw page that the scrubber of a hub reads next. -/
def State.scrubNext (s : State) (h : Nat) : Nat × Nat :=
  let live := s.liveList h
  let n := max live.length 1
  (live.getD ((s.hub h).scrubPos % n) (48 * h), (s.hub h).scrubPos / n)

/-- R307: the scrubber's position advances; a pass ends after the last page. -/
def State.scrubAdvance (s : State) (h : Nat) : State :=
  let n := (s.liveList h).length * s.rawPages
  s.modHub h (fun x => if n ≤ x.scrubPos + 1 then { x with scrubPos := 0, scrubPasses := (x.scrubPasses + 1) % 256 } else { x with scrubPos := x.scrubPos + 1 })

/-- R306: the check unit's own CRC fails: its check bytes are recomputed from the units, and a unit that does not decode is lost. -/
def State.checkUnitFails (s : State) (ch page : Nat) (unitsDecode : Bool) : State :=
  if unitsDecode then s.raiseError 0x0202 corrected .channel ch none page else s

/-- R298, R306: the CRC-32C of a check unit fails under the errors of its read. The CRC being linear over flipped bits, it is the CRC of the
flips of the 248 check bytes, against that of no flip, that must match the flips of the stored CRC; the last four bytes are not covered. -/
def checkCrcFails (err : List (Nat × Nat)) : Bool :=
  let e := (errorWord err).flatMap (leBytes 2)
  crc32c (e.take 248) ^^^ crc32c (List.replicate 248 0) != leAt e 248 4

/-- R307: one scrub read: every unit of the page decoded; slot 31 is the check unit. [DESIGN CHOICE, log 3; DEDUCED, log 63] -/
def doScrub (h k page : Nat) (errs : List (Nat × List (Nat × Nat))) (s : State) : State :=
  let ch := 48 * h + k
  let next := s.scrubNext h
  if !s.hubWorks h || !bit (s.reg (hubReg h 0x28)) 31 || next != (ch, page) then s
  else
    let ix := (s.liveList h).findIdx (· == ch)
    let s := s.addGctr (368 + ch) 8192
    let bad := errs.filter (fun e => decide (e.1 < 31))
    let s := bad.foldl (fun s e => s.readUnit h ch page (s.unitAddr h ix page e.1) e.2) s
    let decode := bad.all (fun e => match decodeErrors e.2 with | (.uncorrectable, _) => false | _ => true)
    let s := if checkCrcFails ((errs.filter (fun e => e.1 == 31)).flatMap (·.2)) then s.checkUnitFails ch page decode else s
    s.scrubAdvance h

/-- R307: SCRUB_READ. -/
def execScrubRead (h ch page : Nat) (errs : List (Nat × List (Nat × Nat))) (s : State) : Host.Outcome State Fault Refusal :=
  if h < 8 ∧ ch < 48 then .next (doScrub h ch page errs s) else .fault .noSuchUnit

/-- R305, R310: channel `k` of a hub retuned, as the `i`-th of the pass: two at once, each held for 1.5 µs in its turn.
[DEDUCED, log 63] -/
def State.retune (s : State) (h k i : Nat) (delay : Int) (ok : Bool) : State :=
  let ch := 48 * h + k
  let c := s.channel ch
  let s := s.setChannel ch { c with delay := if ok then delay else c.delay, heldFrom := s.now + 1500 * (i / 2),
                                    heldUntil := s.now + 1500 * (i / 2 + 1),
                                    failedRetunes := if ok then 0 else c.failedRetunes + 1 }
  if !ok && decide (2 ≤ c.failedRetunes + 1) then s.raiseError 0x0205 degrading .channel ch none 0 else s

/-- R305: the channels whose measured delay, in thousandths of a unit interval, has moved by more than 3%. [DEDUCED, log 63] -/
def State.drifted (s : State) (h : Nat) (drift : List (Nat × Int × Bool)) : List (Nat × Int × Bool) :=
  drift.filter (fun x => decide (x.1 < 48) && !(s.channel (48 * h + x.1)).fenced &&
    decide (30 < (x.2.1 - (s.channel (48 * h + x.1)).delay).natAbs))

/-- R305: every 256 ms a hub reads its oscillators and retunes; the results reach the memory training record at most once an hour. -/
def doRetune (h : Nat) (drift : List (Nat × Int × Bool)) (s : State) : State :=
  if !s.hubWorks h then s
  else
    let s : State := { s with now := max s.now ((s.hub h).lastRetune + 256000000) }
    let hit := s.drifted h drift
    let s := (upto hit.length).foldl (fun s i => match hit[i]? with | some x => s.retune h x.1 i x.2.1 x.2.2 | none => s) s
    let due := !hit.isEmpty && decide ((s.hub h).lastTrainingWrite + 3600000000000 ≤ s.now)
    let s := s.modHub h (fun x => { x with lastRetune := s.now, lastTrainingWrite := if due then s.now else x.lastTrainingWrite })
    if due then s.queueTraining h else s

/-- R305: DQ_RETUNE. -/
def execDqRetune (h : Nat) (drift : List (Nat × Int × Bool)) (s : State) : Host.Outcome State Fault Refusal :=
  if h < 8 then .next (doRetune h drift s) else .fault .noSuchUnit

/-- R303: MR4 is read every 32 ms and the refresh interval follows its refresh-rate field; refresh goes on in freeze. -/
def doMr4 (h rate : Nat) (s : State) : State :=
  if s.ready && !(s.hub h).lost then
    let s : State := { s with now := max s.now ((s.hub h).lastMr4 + 32000000) }
    s.modHub h (fun x => { x with refreshRate := rate % 32, lastMr4 := s.now })
  else s

/-- R303: MR4_READ. -/
def execMr4Read (h rate : Nat) (s : State) : Host.Outcome State Fault Refusal :=
  if h < 8 then .next (doMr4 h rate s) else .fault .noSuchUnit

/-- R303: the background ZQ calibration of a channel latched, every 32 ms. -/
def doZq (h k : Nat) (s : State) : State :=
  let ch := 48 * h + k
  if s.ready && !(s.hub h).lost then
    let s : State := { s with now := max s.now ((s.channel ch).zqAt + 32000000) }
    s.modChannel ch (fun c => { c with zqAt := s.now })
  else s

/-- R303: ZQ_CALIBRATION_LATCH. -/
def execZqCalibrationLatch (h ch : Nat) (s : State) : Host.Outcome State Fault Refusal :=
  if h < 8 ∧ ch < 48 then .next (doZq h ch s) else .fault .noSuchUnit

/-! ### Arbiters (R319 to R322) -/

/-- The arbiters that exist. -/
def arbOk : ArbPort → Bool
  | .hubIngress h => decide (h < 8)
  | .coreStoreBank c b => decide (c < 24) && decide (b < 16)
  | .egress p => decide (p < 48)
  | .scopedCtr (.shuttleBytes i) => decide (i < 48)
  | .scopedCtr (.pressElems g) => decide (g < 96)
  | .tack n => decide (n < 16384)
  | _ => true

/-- The requesters of an arbiter; 256 where the spec gives no number. [DESIGN CHOICE, log 66] -/
def arbWidth : ArbPort → Nat
  | .hubIngress _ => 28
  | .coreStoreBank _ _ => 8
  | .egress _ => 4
  | .tailor => 192
  | _ => 256

/-- The priority of a requester as it stands now (R321); equal where no register gives one. -/
def State.arbPrio (s : State) (a : ArbPort) (r : Nat) : Nat :=
  match a with
  | .hubIngress h => if r < 16 then fld (s.reg (hubReg h 0x30)) (4 * r + 2) (4 * r) else fld (s.reg (hubReg h 0x38)) (4 * r - 62) (4 * r - 64)
  | .coreStoreBank c _ => fld (s.reg (coreReg c 0x0F20)) (4 * r + 2) (4 * r)
  | .egress _ => fld (s.reg 0x03100010) (4 * r + 2) (4 * r)
  | _ => 0

/-- R319, R370: a requester may ask: it holds a hub token, or a credit and a flit. [DESIGN CHOICE, log 66] -/
def State.arbAsks (s : State) (a : ArbPort) (r : Nat) : Bool :=
  match a with
  | .hubIngress h => decide (SMap.get 0 (s.hub h).tokens r < 64)
  | .egress p => (s.fport p).canSend r && (!(SMap.get [] (s.fport p).outq r).isEmpty || (r == 3 && !(s.fport p).ctrlq.isEmpty))
  | _ => true

/-- R370: the flit granted leaves on its virtual channel; of VC3 the CTRL flits go first. [DESIGN CHOICE, log 66] -/
def State.sendGranted (s : State) (p vc : Nat) : State :=
  match (if vc = 3 then (s.fport p).ctrlq.head? else none), SMap.get [] (s.fport p).outq vc with
  | some c, _ => s.emitCtrl p c
  | none, f :: fs =>
    let s := s.modFport p (fun x => { x with outq := SMap.set [] x.outq vc fs })
    s.sendSequenced p fkData vc f.header f.payload
  | none, [] => s

/-- R42, R448: an arbiter runs while its unit does: a fabric port's in REST too. [DESIGN CHOICE, log 66] -/
def State.arbRuns (s : State) : ArbPort → Bool
  | .egress _ => s.ready && !s.freeze.frozen
  | _ => s.alive

/-- R319: the blocks of a burst at most. -/
def burstMost : ArbPort → Nat
  | .hubIngress _ => 8
  | _ => 1

/-- R326: the live UCIe module after `m`, in turn. -/
def nextUcie (live m : Nat) : Nat := match ((upto 6).map (fun i => (m + 1 + i) % 6)).find? (bit live) with | some k => k | none => m

/-- R319, R326: requester `r` is granted a burst of `n` blocks: each takes a token, and the burst goes over the next live UCIe module.
[DESIGN CHOICE, log 66] -/
def State.grantHub (s : State) (h r n : Nat) : State :=
  s.modHub h (fun x =>
    let n := min (min n 8) (64 - SMap.get 0 x.tokens r)
    { x with tokens := SMap.set 0 x.tokens r (SMap.get 0 x.tokens r + n), requests := x.requests ++ List.replicate n r,
             ucieNext := nextUcie x.ucieLive x.ucieNext })

/-- R320: a decision point of a contended port: `req` are the requesters that ask, each as often as it has blocks to move in its burst.
Masking clears a request. [DESIGN CHOICE, log 66] -/
def doArbiter (a : ArbPort) (req : List Nat) (s : State) : State :=
  if !s.arbRuns a then s
  else
    let asks := (req.filter (fun r => decide (r < arbWidth a) && s.arbAsks a r && !s.arbMasked a r)).foldl setIns []
    let (g, s) := s.arbRound a (s.arbPrio a) (s.arbMasked a) asks
    match a, g with
    | .egress p, some vc => s.sendGranted p vc
    | .hubIngress h, some r => s.grantHub h r (min (burstMost a) (req.filter (· == r)).length)
    | _, _ => s

/-- R320: ARBITER_GRANT. -/
def execArbiterGrant (a : ArbPort) (req : List Nat) (s : State) : Host.Outcome State Fault Refusal :=
  if arbOk a then .next (doArbiter a req s) else .fault .noSuchUnit

/-! ### Block streams (R323 to R327) -/

/-- R323: the number of a stream: die-network ports are 24 cores, 4 slices, 8 hubs, 2 host ports and the management periphery. -/
def blockStreamKey : BlockStream → Nat
  | .die a b => 64 * a + b
  | .ucie h m up => 4096 + 12 * h + 2 * m + b2n up

def streamExists : BlockStream → Bool
  | .die a b => decide (a < 39) && decide (b < 39) && a != b
  | .ucie h m _ => decide (h < 8) && decide (m < 6)

/-- The stream the other way, whose blocks the acknowledgement of a block is for. -/
def reverseOf : BlockStream → BlockStream
  | .die a b => .die b a
  | .ucie h m up => .ucie h m (!up)

/-- R459: the containment domain of a die-network port. -/
def diePortDomain (p : Nat) : DomKind × Nat :=
  if p < 24 then (.core, p) else if p < 28 then (.slice, p - 24) else if p < 36 then (.hub, p - 28)
  else if p < 38 then (.hostPort, p - 36) else (.module, 0)

def State.blockLink (s : State) (b : BlockStream) : BlockLink := SMap.get {} s.blockLinks (blockStreamKey b)
def State.setBlockLink (s : State) (b : BlockStream) (x : BlockLink) : State := { s with blockLinks := SMap.set {} s.blockLinks (blockStreamKey b) x }

/-- R325: the resends of one block that a stream's limit allows. -/
def resendLimit : BlockStream → Nat
  | .die _ _ => 8
  | .ucie _ _ _ => 4

/-- R324, R325: the check of a block with the next expected sequence. [DEDUCED, log 64] -/
def blockPasses (blk : Block) (seq : Nat) : Bool :=
  blk.payload.length == 256 && blk.crc == crc32c (blk.payload ++ leBytes 8 blk.addr ++ leBytes 2 seq)

/-- R325: a positive acknowledgement frees the replay entries that it covers; a negative one frees none. [DEDUCED, log 64] -/
def BlockLink.acked (x : BlockLink) (ok : Bool) (seq : Nat) : BlockLink :=
  if ok then { x with replay := x.replay.drop (x.replay.length - (x.nextSeq + 65536 - (seq + 1)) % 65536) } else x

/-- R325: the replay buffer of a stream's sender has room for one more block: 64 a UCIe stream, 128 a die-network port, shared.
[DEDUCED, log 64] -/
def State.replayRoom (s : State) (b : BlockStream) : Bool :=
  match b with
  | .die a _ => decide (((upto 39).map (fun d => (s.blockLink (.die a d)).replay.length)).sum < 128)
  | .ucie _ _ _ => decide ((s.blockLink b).replay.length < 64)

/-- R325: how far after the expected sequence a block passes, if it does: one sent behind the block that failed. [DEDUCED, log 64] -/
def laterBy (blk : Block) (seq : Nat) : Option Nat := ((upto 128).find? (fun k => blockPasses blk ((seq + k + 1) % 65536))).map (· + 1)

/-- R325: a block that passes at a sequence before the expected one: an earlier one repeated. [DEDUCED, log 64] -/
def passesEarlier (blk : Block) (seq : Nat) : Bool := (upto 128).any (fun k => blockPasses blk ((seq + 65535 - k) % 65536))

/-- R325: while a negative acknowledgement is out, a block that is no failed resend: an earlier one repeated, or one in flight behind the
block that failed. A later block that comes for a second time was resent behind one that is missing. [DEDUCED, log 64] -/
def BlockLink.inFlight (x : BlockLink) (blk : Block) : Bool :=
  match laterBy blk x.expected with
  | some k => decide (x.ahead < k)
  | none => passesEarlier blk x.expected

/-- R325, R459: a block failed its check and is resent, or its resends are exhausted. [DEDUCED, log 64] -/
def State.blockFailed (s : State) (b : BlockStream) (n : Nat) : State :=
  match b with
  | .die a _ =>
    let d := diePortDomain a
    let p := s.port (portOf d.2)
    if n ≤ 8 then s.raiseError 0x0108 corrected d.1 d.2 none (if d.1 = .hostPort then p.aerCor else 0)
    else s.raiseError 0x0109 (if d.1 = .module then contained else degrading) d.1 d.2 none (if d.1 = .hostPort then p.aerUnc else 0)
  | .ucie h m _ =>
    if n ≤ 4 then
      (s.modHub h (fun x => { x with resends := sat 16 (x.resends + 1) })).raiseError 0x0206 corrected .ucie (6 * h + m) none n
    else s

/-- R325: a block arrives on stream `b`: accepted, or dropped with a negative acknowledgement and resent. The blocks that follow a failed
one are dropped without another. A sender whose replay buffer is full sends none. [DEDUCED, log 64] -/
def doBlock (b : BlockStream) (blk : Block) (s : State) : State :=
  if !s.alive then s
  else
    let x := s.blockLink b
    if blockPasses blk x.expected then
      if !s.replayRoom b then s
      else
      let seq := (x.expected + 1) % 65536
      let s := s.setBlockLink b { x with expected := seq, nextSeq := seq, replay := x.replay ++ [(x.expected, blk)], resends := 0, ackOwed := true, nackSent := false, ahead := 0 }
      match blk.ack with
      | some (ok, k) => s.setBlockLink (reverseOf b) ((s.blockLink (reverseOf b)).acked ok k)
      | none => s
    else
      let ahead := (laterBy blk x.expected).getD 0
      if x.nackSent && x.inFlight blk then s.setBlockLink b { x with ahead := max x.ahead ahead }
      else
      let s := s.setBlockLink b { x with resends := x.resends + 1, nackSent := true, ahead := ahead }
      s.blockFailed b (x.resends + 1)

/-- R325: BLOCK_RECEIVE. -/
def execBlockReceive (b : BlockStream) (blk : Block) (s : State) : Host.Outcome State Fault Refusal :=
  if streamExists b then .next (doBlock b blk s) else .fault .noSuchUnit

/-- R325: an acknowledgement sent alone frees every block accepted. -/
def doBlockAck (b : BlockStream) (s : State) : State :=
  let x := s.blockLink b
  if s.alive && x.ackOwed then s.setBlockLink b { x with ackOwed := false, replay := [] } else s

/-- R325: BLOCK_ACK_TIMER. -/
def execBlockAckTimer (b : BlockStream) (s : State) : Host.Outcome State Fault Refusal :=
  if streamExists b then .next (doBlockAck b s) else .fault .noSuchUnit

/-- R327: the resends of a UCIe module's block are exhausted. [DEDUCED, log 64] -/
def State.needsRetrain (s : State) (h m : Nat) : Bool :=
  decide (4 < (s.blockLink (.ucie h m true)).resends) || decide (4 < (s.blockLink (.ucie h m false)).resends)

/-- R325, R327: a UCIe module retrains: it resumes from the first unacknowledged block, or fails and is to be fenced. -/
def doUcieRetrain (h m : Nat) (ok : Bool) (s : State) : State :=
  if s.alive && s.needsRetrain h m && bit (s.hub h).ucieLive m then
    let clear := fun (s : State) (up : Bool) => s.setBlockLink (.ucie h m up) { s.blockLink (.ucie h m up) with resends := 0 }
    let n := (s.blockLink (.ucie h m true)).resends + (s.blockLink (.ucie h m false)).resends
    let s := clear (clear s true) false
    let s := s.modHub h (fun x => { x with retrains := sat 8 (x.retrains + 1) })
    if ok then s.raiseError 0x0206 corrected .ucie (6 * h + m) none n else s.raiseError 0x0207 degrading .ucie (6 * h + m) none n
  else s

/-- R327: UCIE_RETRAIN. -/
def execUcieRetrain (h m : Nat) (ok : Bool) (s : State) : Host.Outcome State Fault Refusal :=
  if h < 8 ∧ m < 6 then .next (doUcieRetrain h m ok s) else .fault .noSuchUnit

/-! ### A core's SRAM domain (R318) -/

/-- R318: a core's core store and its warp and weft bobbins zero-filled. [DEDUCED, log 65] -/
def State.scrubCore (s : State) (c : Nat) : State :=
  let s := s.zeroFill (0x0D0000000000 + 0x2000000 * c) 0x2000000
  (upto 4).foldl (fun s e => s.zeroFill (0x0D1000000000 + 0x400000 * (4 * c + e)) 0x200000) s

/-- R318: no queue that core `c` serves has an unretired wide command. -/
def State.coreQuiet (s : State) (c : Nat) : Bool := (s.contexts c).all (fun x => (s.queue x.2).inflight.isEmpty)

/-- R318: the SRAM domain changes and the zero-fill begins; the core's blocks are SCRUBBING until it ends (R480). [DEDUCED, log 65] -/
def doSramChange (c : Nat) (s : State) : State :=
  match (s.core c).sramPending with
  | some d =>
    if s.alive && s.coreQuiet c then
      State.scrubCore (s.modCore c (fun x => { x with sramDomain := d, sramPending := none, scrubBusy := true, blocksScrub := 512 - x.blocksOut })) c
    else s
  | none => s

/-- R318: SRAM_DOMAIN_CHANGE. -/
def execSramDomainChange (c : Nat) (s : State) : Host.Outcome State Fault Refusal :=
  if c < 24 then .next (doSramChange c s) else .fault .noSuchUnit

/-- R318, R474: the zero-fill of a core's SRAM ends; in a retest the core enters TESTING. [DEDUCED, log 65] -/
def doSramDone (c : Nat) (s : State) : State :=
  if s.alive && (s.core c).scrubBusy then s.modCore c (fun x => { x with scrubBusy := false, blocksScrub := 0 })
  else if s.alive && (s.core c).fence == .scrubbing then s.modCore c (fun x => { x with fence := .testing, blocksScrub := 0 })
  else s

/-- R318: SRAM_ZERO_FILL_COMPLETE. -/
def execSramZeroFillComplete (c : Nat) (s : State) : Host.Outcome State Fault Refusal :=
  if c < 24 then .next (doSramDone c s) else .fault .noSuchUnit

end Sys2Proof.Machine
end

