-- ==== Sys2Proof/Machine/Roles.lean ====
section
/-! DEFINITION. The host ports (chapter 11): roles and heartbeats (R415 to R420), a lost host's queues (R421 to R427), the event queue
(R411), BAR2 (R405 to R407), completions (R407, R413) and configuration space (R402, R405). -/

namespace Sys2Proof.Machine

/-! ### Transactions as a port's loss and a change of role see them (R445, R446) -/

/-- R441: the registers that a peer may stage: CORE_QUEUE_PRIO, CORE_HERITAGE, UPD_NONFINITE_POLICY, UPD_RECIPE slots 4–31, COL_COMM_CFG
and COL_RANK_TABLE. -/
def peerMayStage (off : Nat) : Bool :=
  (match inBlock 0x01000000 0x10000 24 off with | some (_, r) => r == 0x0F08 || r == 0x0F00 | none => false) ||
  off == 0x02800010 ||
  (decide (0x02800900 ≤ off) && decide (off < 0x02801000)) ||
  (match inBlock 0x03200000 0x10 256 off with | some (_, r) => r == 0 | none => false) ||
  (decide (0x03300000 ≤ off) && decide (off < 0x03320000))

/-- R443 to R445: a port's transaction ends. -/
def Txn.finish (x : Txn) (status cause : Nat) : Txn := { x with state := .idle, staged := [], released := false, status := status, endCause := cause }

def State.endTxn (s : State) (p : HostPort) (status cause : Nat) : State := s.modPort p (fun x => { x with txn := x.txn.finish status cause })

/-- R445: the transaction of a lost port is unpicked with ST_CONTAINED, unless it has passed its sew point. -/
def State.loseTxn (s : State) (p : HostPort) : State :=
  let x := (s.port p).txn
  if x.state = .opened ∨ x.state = .doomed then s.endTxn p stContained 4 else s

/-- R446: a transaction of a peer that has staged a register outside R441's table is doomed. -/
def State.doomPeer (s : State) (p : HostPort) : State :=
  s.modPort p (fun x => if x.txn.state = .opened ∧ x.txn.staged.any (fun e => !peerMayStage e.1)
    then { x with txn := { x.txn with state := .doomed } } else x)

/-! ### Lost-host handling (R421 to R426) -/

/-- HOST_HB_CFG of the steward's port, or of HA while no port holds stewardship. -/
def State.hbCfg (s : State) : Nat := s.reg (perPort (s.roles.steward.getD .ha) 0x3018)

/-- R424: a queue under CANCEL dispatches nothing more: a pending WAIT completes with ST_TIMEOUT, and with nothing dispatched the queue
settles. -/
def State.cancelNow (s : State) (hq : Nat) : State :=
  match s.queues.find? (fun e => match e.2.sub with | some x => x.hostq == hq | none => false) with
  | some (qi, _) =>
    let s := s.tacks.foldl (fun s e => match e.2.waiters.find? (fun x => x.queue == qi) with
      | some x => s.endWait e.1 qi x.cseq stTimeout
      | none => s) s
    s.checkEnd qi
  | none => s.lostStep hq 0

/-- R422: a trapped queue settles as CANCEL, its held command discarded and its status recorded. -/
def State.cancelTrapped (s : State) (hq qi : Nat) : State :=
  let q := s.queue qi
  let status := match q.heldWide, q.trap with
    | some w, _ => w.heldStatus
    | none, some t => trapStatus t.cause (t.code % 256)
    | none, none => stContained
  let s := s.modHostq hq (fun h => match h.lost with
    | some l => { h with lost := some { l with converted := l.converted || !l.cancel, cancel := true, status := if l.status = 0 then status else l.status } }
    | none => h)
  let s := match q.heldWide with | some w => s.endRecord qi { w with status := status } true | none => s
  let s := (s.dropWork qi).modQueue qi (fun q => { q with trap := none, inflight := [] })
  s.endSubmission qi status

/-- R422: with the link down a stream in the lost host's memory cannot be fetched, so its queue goes on as under CANCEL. -/
def State.cutHostStream (s : State) (hq : Nat) (x : Submission) : State :=
  if x.onHost && !x.ended && !(s.port x.port).linkUp then
    s.modHostq hq (fun h => match h.lost with
      | some l => if l.cancel then h else { h with lost := some { l with cancel := true, converted := true, status := if l.status = 0 then stContained else l.status } }
      | none => h)
  else s

/-- R421: one queue comes under handling, with its policy and limits. -/
def State.underLoss (s : State) (hq : Nat) : State :=
  let h := s.hostq hq
  let limit := fld s.hbCfg 15 0
  s.setHostq hq { h with lost := some { cancel := h.lostPolicy == 1, tailLimit := h.tail, userTag := h.lastTag,
                                        deadline := if limit = 0 then 0 else s.now + limit * 1000000000 } }

/-- R422: a STOPPED queue settles at once with ST_CONTAINED. -/
def State.stoppedSettles (s : State) (hq : Nat) : State :=
  (s.modHostq hq (fun h => match h.lost with | some l => { h with lost := some { l with status := stContained } } | none => h)).settleHostq hq

/-- R422: a queue under handling whose stream cannot be fetched any more goes on as under CANCEL, as does one whose policy it is. -/
def State.cutOrCancel (s : State) (hq : Nat) (q : CoreQ) : State :=
  let s := match q.sub with | some x => s.cutHostStream hq x | none => s
  match (s.hostq hq).lost with
  | some l => if l.cancel then s.cancelNow hq else s
  | none => s

/-- R422 to R425: what becomes of a queue that has come under handling. A trap whose earlier commands have yet to retire settles later. -/
def State.loseQueue (s : State) (hq : Nat) : State :=
  let h := s.hostq hq
  let cq := s.queue (8 * h.core + h.cq)
  match s.queues.find? (fun e => match e.2.sub with | some x => x.hostq == hq | none => false) with
  | some (qi, q) =>
    if q.stopped then (s.releaseStopped hq qi).stoppedSettles hq
    else if q.trapped then s.cancelTrapped hq qi
    else s.cutOrCancel hq q
  | none => if cq.stopped && cq.sub.isNone then s.stoppedSettles hq else s.lostStep hq 0

/-- R422: a queue already under handling when its port's link goes down: its stream in that host's memory is cut. [DEDUCED, log 55] -/
def State.cutAgain (s : State) (hq : Nat) : State :=
  match s.queues.find? (fun e => match e.2.sub with | some x => x.hostq == hq | none => false) with
  | some (_, q) => if q.trap.isSome || q.stopped then s else s.cutOrCancel hq q
  | none => if (s.hostq hq).underHandling then s.lostStep hq 0 else s

/-- R422: module reads of a host's memory fail with ST_CONTAINED once its link is down. -/
def State.failReads (s : State) (p : HostPort) : State :=
  if (s.port p).linkUp then s
  else
    let rs := (s.port p).reads ++ (s.port p).asks
    rs.foldl (fun s r => s.hostFail r.queue r.cseq stContained) (s.modPort p (fun x => { x with reads := [], asks := [] }))

/-- R421, R426: handling begins for a port, with EV_HOST_LOST; it covers every enabled host queue. [DEDUCED, log 55] -/
def State.beginLost (s : State) (p : HostPort) (cause : Nat) : State :=
  let s := s.failReads p
  let hit := (upto 64).filter (fun n => let h := s.hostq (hqOf p n); h.enable && !h.stopping && !h.underHandling)
  let mask := (hit.map (2 ^ ·)).sum
  let x := s.port p
  let lose := fun (s : State) =>
    hit.foldl (fun s n => s.loseQueue (hqOf p n)) (hit.foldl (fun s n => s.underLoss (hqOf p n)) s)
  if x.lostOpen then
    let old := (upto 64).filter (fun n => (s.hostq (hqOf p n)).underHandling)
    old.foldl (fun s n => s.cutAgain (hqOf p n)) (lose (s.setPort p { x with lostQueues := x.lostQueues ||| mask }))
  else
    let s := s.setPort p { x with lostOpen := true, lostCause := cause, lostQueues := mask }
    let s := s.raiseEvent 0x0130 (put mask 127 64 + put cause 7 5 + put (portNum p) 4 4)
    (lose s).lostDone p

/-! ### Roles (R415 to R420) -/

/-- R417, R418: the steward becomes silent: GRACE begins. -/
def State.silence (s : State) (cause : Nat) : State :=
  if s.roles.claim = 0 then
    { s with roles := { s.roles with claim := 1, silence := cause, graceEnds := s.now + fld s.hbCfg 31 16 * 1000000 } }
  else s

/-- R417: the port's loss makes the steward silent. -/
def State.silenceIfSteward (s : State) (p : HostPort) (cause : Nat) : State := if s.isSteward p then s.silence cause else s

/-- A port takes stewardship; the events held are written. -/
def State.makeSteward (s : State) (p : HostPort) : State :=
  State.flushEvents { s with roles := { s.roles with assigned := true, steward := some p, claim := 0, silence := 0, lastHb := s.now, upAt := none } }

/-- R415: the port that the module settings record names. -/
def State.preferred (s : State) : HostPort := if s.sec.preferHb then .hb else .ha

/-- R415: roles at ready. [DEDUCED, log 56] -/
def State.assignRoles (s : State) : State :=
  let s := { s with roles := { s.roles with assigned := true } }
  if (s.port s.preferred).linkUp then s.makeSteward s.preferred
  else if (s.port (otherPort s.preferred)).linkUp then s.makeSteward (otherPort s.preferred)
  else s

/-- R416 to R419: a heartbeat, through the role arbiter. -/
def State.heartbeat (s : State) (p : HostPort) (v : Nat) : State :=
  s.byStewardOnly p (fun s =>
    let s := (s.passArb .role (portNum p)).modPort p (fun x => { x with heartbeat := v % 2 ^ 32 })
    { s with roles := { s.roles with lastHb := s.now, claim := 0, silence := 0, upAt := none } })

def doHeartbeat (p : HostPort) (v : Nat) (s : State) : State :=
  s.hostWrite p 0x3008 (.hostHeartbeat p v) (fun t => t.heartbeat p v)

/-- R417: HOST_HEARTBEAT. -/
def execHostHeartbeat (p : HostPort) (v : Nat) (s : State) : Host.Outcome State Fault Refusal := .next (doHeartbeat p v s)

/-- R417, R429: misses × period_ms pass without a heartbeat; supervision is suspended in freeze. -/
def doStewardSilent (s : State) : State :=
  if s.ready && !s.freeze.frozen && s.roles.steward.isSome && s.roles.claim == 0 then
    let cfg := s.hbCfg
    let due := s.roles.lastHb + fld cfg 63 48 * fld cfg 47 44 * 1000000
    State.silence { s with now := max s.now due } 2
  else s

/-- R417: the steward is silent. -/
def execStewardSilent (s : State) : Host.Outcome State Fault Refusal := .next (doStewardSilent s)

/-- R418: GRACE ends. -/
def doGraceEnd (s : State) : State :=
  if s.ready && !s.freeze.frozen && s.roles.claim == 1 then
    { s with now := max s.now s.roles.graceEnds, roles := { s.roles with claim := 2 } }
  else s

/-- R418: claim_state moves to OPEN. -/
def execGraceEnd (s : State) : Host.Outcome State Fault Refusal := .next (doGraceEnd s)

/-- The result of a port's last CLAIM or HANDOVER. -/
def State.claimResult (s : State) (p : HostPort) (v : Nat) : State := s.modPort p (fun x => { x with claimResult := v })

/-- R418, R419, R421, R445, R446: CLAIM, through the role arbiter. [DEDUCED, log 56] -/
def State.claim (s : State) (p : HostPort) : State :=
  let s := s.passArb .role (portNum p)
  if s.isSteward p then s.claimResult p stConflict
  else if s.roles.claim != 2 then s.claimResult p stNotReady
  else
    let s := (s.makeSteward p).claimResult p stOk
    let s := (s.loseTxn (otherPort p)).doomPeer (otherPort p)
    s.beginLost (otherPort p) 3

def doClaim (p : HostPort) (s : State) : State := s.hostWrite p 0x3010 (.claim p) (fun t => t.claim p)

/-- R418: CLAIM. -/
def execClaim (p : HostPort) (s : State) : Host.Outcome State Fault Refusal := .next (doClaim p s)

/-- R419, R420, R446: HANDOVER, through the role arbiter. [DEDUCED, log 56] -/
def State.handover (s : State) (p : HostPort) : State :=
  let s := s.passArb .role (portNum p)
  if !s.isSteward p then s.claimResult p stConflict
  else if !(s.port (otherPort p)).linkUp then s.claimResult p stConflict
  else ((s.makeSteward (otherPort p)).claimResult p stOk).doomPeer p

def doHandover (p : HostPort) (s : State) : State := s.hostWrite p 0x3010 (.handover p) (fun t => t.handover p)

/-- R420: HANDOVER. -/
def execHandover (p : HostPort) (s : State) : Host.Outcome State Fault Refusal := .next (doHandover p s)

/-! ### Links and resets (R421, R427, R433) -/

/-- The link of a port goes down, with a cause of R426 and of HOST_ROLE. -/
def State.portLost (s : State) (p : HostPort) (cause silenceCause : Nat) : State :=
  let s := s.maskHubs.loseTxn p
  let s := s.silenceIfSteward p silenceCause
  if s.ready then s.beginLost p cause else s

/-- R421: the link goes down. -/
def doLinkDown (p : HostPort) (s : State) : State :=
  if s.power.pwrGood && (s.port p).linkUp then (s.modPort p (fun x => { x with linkUp := false, width := 0, rate := 0 })).portLost p 0 1 else s

/-- R421: HOST_LINK_DOWN. -/
def execHostLinkDown (p : HostPort) (s : State) : Host.Outcome State Fault Refusal := .next (doLinkDown p s)

/-- R403: the widest width and the highest rate that both ends support, where the host's end goes up to `width` lanes and `rate` GT/s; 2 stands
for 2.5 GT/s. [PRESUMED, log 10] -/
def linkWidth (width : Nat) : Nat := ([16, 8, 4, 2].find? (fun w => decide (w ≤ width))).getD 1
def linkRate (rate : Nat) : Nat := ([32, 16, 8, 5].find? (fun r => decide (r ≤ rate))).getD 2

/-- R415: a port whose link comes up takes stewardship where nobody holds it; where both come up in the same handshake, at the same time with
neither role used between, the port that the settings name has it. [DEDUCED, log 56] -/
def State.takeRole (s : State) (p : HostPort) : State :=
  if s.roles.steward.isNone || (s.roles.upAt == some s.now && p == s.preferred) then
    let s := s.makeSteward p
    { s with roles := { s.roles with upAt := some s.now } }
  else s

/-- R403, R415, R433: the link comes up, once PERST is deasserted; with no steward the port takes stewardship. [DEDUCED, log 56] -/
def doLinkUp (p : HostPort) (width rate : Nat) (s : State) : State :=
  let x := s.port p
  if s.power.pwrGood && !x.perst && !x.heldDown && !x.linkUp then
    let s := s.setPort p { x with linkUp := true, width := linkWidth width, rate := linkRate rate }
    if s.ready && s.roles.assigned then (s.takeRole p).flushEvents else s.flushEvents
  else s

/-- R415: HOST_LINK_UP. -/
def execHostLinkUp (p : HostPort) (width rate : Nat) (s : State) : Host.Outcome State Fault Refusal := .next (doLinkUp p width rate s)

/-- R427: what a reset of one port returns to its reset values: configuration space, BAR sizes, HOST_BAR2_MAP, MSI-X and the event
queue. [PRESUMED, log 53] -/
def Port.resetFunction (x : Port) : Port :=
  { x with d3hot := false, bar2Log2 := 36, cfg := [], msixEnable := false, msixMask := false, msix := [], evqEnable := false, evqSize := 0,
           evqVec := 0, evqHead := 0, evqTail := 0, evqPhase := true, evqBase := 0, aerCor := 0, aerUnc := 0, waiting := [], devCtl := 0x2000, devCtl2 := 0 }

/-- [PRESUMED, log 53] -/
def State.resetFunction (s : State) (p : HostPort) : State :=
  (upto 16).foldl (fun s k => s.setReg (perPort p (0x3100 + 8 * k)) 0) (s.modPort p Port.resetFunction)

/-- R427, R457: PERST, or a Hot Reset: the port is reset and its link goes down; the release of PERST lets it train. -/
def doPerst (p : HostPort) (asserted : Bool) (s : State) : State :=
  if asserted then
    let x := s.port p
    let s := State.resetFunction (s.setPort p { x with perst := true, heldDown := false, linkUp := false, width := 0, rate := 0 }) p
    if s.power.pwrGood then s.portLost p 1 3 else s
  else s.modPort p (fun x => { x with perst := false })

/-- R427: PERST. -/
def execPerst (p : HostPort) (asserted : Bool) (s : State) : Host.Outcome State Fault Refusal := .next (doPerst p asserted s)

/-- R427: a Function Level Reset; the link stays up. -/
def doFlr (p : HostPort) (s : State) : State :=
  if s.power.pwrGood && (s.port p).linkUp then (s.resetFunction p).portLost p 2 4 else s

/-- R427: FUNCTION_LEVEL_RESET. -/
def execFunctionLevelReset (p : HostPort) (s : State) : Host.Outcome State Fault Refusal := .next (doFlr p s)

/-- R423: a DRAIN queue has not settled within its limit: it converts to CANCEL. [DEDUCED, log 55] -/
def doDrainLimit (p : HostPort) (n : Nat) (s : State) : State :=
  let hq := hqOf p n
  match (s.hostq hq).lost with
  | some l =>
    if l.settled || l.cancel || l.deadline == 0 || s.freeze.frozen then s
    else
      let s : State := { s with now := max s.now l.deadline }
      (s.modHostq hq (fun h => { h with lost := some { l with cancel := true, converted := true } })).cancelNow hq
  | none => s

/-- R423: DRAIN_LIMIT_EXPIRY. -/
def execDrainLimitExpiry (p : HostPort) (n : Nat) (s : State) : Host.Outcome State Fault Refusal :=
  if n < 64 then .next (doDrainLimit p n s) else .fault .noSuchUnit

/-! ### The event queue (R411, R412) -/

/-- HOST_EVQ_CFG: size_log2 only while enable is 0; a write that sets enable with a size outside 6–16 leaves it at 0. R20: a size outside
6–16 is reserved, and is a write of 0; 0 is the field's own reset value. -/
def State.evqCfg (s : State) (p : HostPort) (v : Nat) : State :=
  let x := s.port p
  let ok := decide (6 ≤ fld v 62 58 ∧ fld v 62 58 ≤ 16)
  let size := if ok then fld v 62 58 else 0
  let x' := { x with evqVec := fld v 57 47, evqHead := fld v 31 16 }
  if x.evqEnable then (s.setPort p { x' with evqEnable := bit v 63 }).flushEvents
  else if !bit v 63 then (if ok || fld v 62 58 == 0 then s else s.misuse p).modPort p (fun y =>
    { y with evqVec := x'.evqVec, evqHead := x'.evqHead, evqSize := size })
  else if ok then (s.setPort p { x' with evqSize := size, evqEnable := true, evqTail := 0, evqPhase := true }).flushEvents
  else (s.misuse p).modPort p (fun y => { y with evqVec := x'.evqVec, evqHead := x'.evqHead, evqSize := 0 })

def doEvqCfg (p : HostPort) (v : Nat) (s : State) : State :=
  s.hostWrite p 0x3048 (.hostEvqCfgWrite p v) (fun t => t.evqCfg p v)

/-- R411: HOST_EVQ_CFG. -/
def execHostEvqCfgWrite (p : HostPort) (v : Nat) (s : State) : Host.Outcome State Fault Refusal := .next (doEvqCfg p v s)

def doEvqHead (p : HostPort) (head : Nat) (s : State) : State :=
  s.hostWrite p 0x3048 (.eventQueueHeadWrite p head) (fun t => (t.modPort p (fun x => { x with evqHead := head % 65536 })).flushEvents)

/-- R412: the head of the event queue advances. -/
def execEventQueueHeadWrite (p : HostPort) (head : Nat) (s : State) : Host.Outcome State Fault Refusal := .next (doEvqHead p head s)

/-! ### BAR2 (R405 to R407) -/

/-- R405: the size of an aperture. -/
def Port.aperture (x : Port) : Nat := 2 ^ x.bar2Log2 / 16

/-- R405: the module address of a BAR2 offset, where its aperture is enabled. -/
def State.bar2Addr (s : State) (p : HostPort) (off : Nat) : Option Nat :=
  let a := (s.port p).aperture
  let m := s.reg (perPort p (0x3100 + 8 * (off / a)))
  if off / a < 16 && bit m 63 then some (fld m 47 26 * 2 ^ 26 / a * a + off % a) else none

/-- R405: an access cut at the bounds of apertures: module address and length of each piece. -/
def State.bar2Pieces (s : State) (p : HostPort) : Nat → Nat → Nat → Option (List (Nat × Nat))
  | 0, _, _ => none
  | k + 1, off, len =>
    if len = 0 then some []
    else
      let a := (s.port p).aperture
      let n := min len (a - off % a)
      match s.bar2Addr p off, s.bar2Pieces p k (off + n) (len - n) with
      | some m, some rest => some ((m, n) :: rest)
      | _, _ => none

/-- R406, R313: a piece lies in memory of an allowed domain that carries no key. -/
def State.bar2Ok (s : State) (p : HostPort) (a n : Nat) : Bool :=
  let allow := s.reg (0x3020 + 8 * portNum p)
  (pieces a n).all (fun x =>
    let dom := fun r => match r with
      | Area.bobbin _ => none
      | Area.host _ => none
      | _ => s.domainOf x.1
    match s.area x.1 with
    | some r => s.area x.2 == some r &&
      (match dom r with | some d => bit allow d && !s.keyed d | none => false)
    | none => false)

/-- R406: the pieces of an access that succeeds. -/
def State.bar2Map (s : State) (p : HostPort) (off len : Nat) : Option (List (Nat × Nat)) :=
  match s.bar2Pieces p 18 off len with
  | some ps => if ps.all (fun x => s.bar2Ok p x.1 x.2) then some ps else none
  | none => none

/-- What becomes of a BAR2 access as it arrives. [DEDUCED, log 52] -/
def State.bar2Gate (s : State) (p : HostPort) : Gate :=
  let x := s.port p
  if !s.power.pwrGood || !x.linkUp || x.d3hot then .absent
  else if !s.ready then .early
  else if x.barred then .unsupported
  else if s.freeze.frozen || s.resting then .waits
  else if x.waiting != [] && !x.draining then .waits
  else .served

/-- R413: where a BAR2 access fails the checks: an offset past the BAR is a request to no BAR, an Unsupported Request; any other is a
Completer Abort. [DESIGN CHOICE, log 54] -/
def State.bar2Fault (s : State) (p : HostPort) (off : Nat) : State := s.logPort p (if 2 ^ (s.port p).bar2Log2 ≤ off then 20 else 15)

/-- R406, R407: a BAR2 read that is served. -/
def State.bar2Fetch (s : State) (p : HostPort) (off len : Nat) : State :=
  match s.bar2Map p off len with
  | some ps =>
    let bytes := ps.flatMap (fun x => s.readBytes x.1 x.2)
    let bad := ps.any (fun x => s.poisoned x.1 x.2)
    let s := ps.foldl (fun s x => s.countBytes none true x.1 x.2) s
    (s.addGctr (848 + 4 * portNum p) len).modPort p (fun x => { x with lastBytes := bytes, lastEp := bad, lastAbort := false })
  | none => (s.bar2Fault p off).modPort p (fun x => { x with lastBytes := [], lastEp := false, lastAbort := true })

/-- R406, R434, R449: BAR2_READ. -/
def doBar2Read (p : HostPort) (off len : Nat) (s : State) : State :=
  let t := s.undrain p
  match s.bar2Gate p with
  | .absent => t
  | .early => State.modPort { t with bring := t.bring.early true false } p (fun x =>
      { x with lastBytes := List.replicate len 0xFF, lastEp := false, lastAbort := false })
  | .unsupported => (t.logPort p 20).modPort p (fun x => { x with lastBytes := [], lastAbort := true })
  | .waits => t.wake.keepAccess p (.bar2Read p off len)
  | .served => t.bar2Fetch p off len

def execBar2Read (p : HostPort) (off len : Nat) (s : State) : Host.Outcome State Fault Refusal := .next (doBar2Read p off len s)

/-- R413: a Poisoned TLP received: non-fatal and advisory, so the correctable status shows an Advisory Non-Fatal Error (bit 13) too.
[DESIGN CHOICE, log 54] -/
def State.poisonedTlp (s : State) (p : HostPort) : State := (s.modPort p (fun x => { x with aerCor := x.aerCor ||| 2 ^ 13 })).logPort p 12

/-- The pieces of a write, stored in order. [DESIGN CHOICE, log 54] -/
def State.bar2Put (s : State) : List (Nat × Nat) → List Byte → Bool → State
  | [], _, _ => s
  | (a, n) :: ps, bs, ep =>
    let s := (s.writeBytes a (bs.take n)).countBytes none false a n
    let s := if ep then s.poisonUnits a n else s
    s.bar2Put ps (bs.drop n) ep

/-- R406, R407: a BAR2 write that is served. -/
def State.bar2Store (s : State) (p : HostPort) (off : Nat) (bytes : List Byte) (ep : Bool) : State :=
  match s.bar2Map p off bytes.length with
  | some ps =>
    let s := (s.bar2Put ps bytes ep).addGctr (848 + 4 * portNum p + 1) bytes.length
    if ep then s.poisonedTlp p else s
  | none => s.bar2Fault p off

/-- R406, R407: BAR2_WRITE. -/
def doBar2Write (p : HostPort) (off : Nat) (bytes : List Byte) (ep : Bool) (s : State) : State :=
  let t := s.undrain p
  match s.bar2Gate p with
  | .absent => t
  | .early => { t with bring := t.bring.early true true }
  | .unsupported => t.logPort p 20
  | .waits => t.wake.keepAccess p (.bar2Write p off bytes ep)
  | .served => t.bar2Store p off bytes ep

def execBar2Write (p : HostPort) (off : Nat) (bytes : List Byte) (ep : Bool) (s : State) : Host.Outcome State Fault Refusal :=
  .next (doBar2Write p off bytes ep s)

/-! ### Completions of module reads (R407, R413) -/

/-- R413, R544: a read of host memory times out; Completion Timeout is suspended in freeze. -/
def doCompletionTimeout (p : HostPort) (tag : Nat) (s : State) : State :=
  let x := s.port p
  match x.reads.find? (fun r => r.tag == tag) with
  | some r =>
    if !s.ready || s.freeze.frozen then s
    else
      let s : State := { s with now := max s.now r.deadline }
      let s := s.modPort p (fun x => { x with reads := x.reads.filter (fun r => r.tag != tag) })
      (((s.logPort p 14).hostFail r.queue r.cseq stTimeout).modPort p (fun x => x.sendReads s.now))
  | none => s

/-- R413: COMPLETION_TIMEOUT. -/
def execCompletionTimeout (p : HostPort) (tag : Nat) (s : State) : Host.Outcome State Fault Refusal := .next (doCompletionTimeout p tag s)

/-- R407, R413: a completion arrives: its data go to the command that asked, or it is discarded and reported. -/
def doHostCompletion (p : HostPort) (tag : Nat) (c : HostCpl) (s : State) : State :=
  let t := s.undrain p
  if !s.ready || !(s.port p).linkUp then t
  else if s.freeze.frozen then t.keepAccess p (.hostReadCompletion p tag c)
  else
    match c with
    | .malformed => t.logPort p 18
    | .unexpected => t.logPort p 16
    | .data bytes ep =>
      match (t.port p).reads.find? (fun r => r.tag == tag) with
      | some r =>
        let t := t.modPort p (fun x => { x with reads := x.reads.filter (fun r => r.tag != tag) })
        let t := if ep then t.poisonedTlp p else t
        let t := t.modPort p (fun x => x.sendReads t.now)
        t.hostData p r bytes ep
      | none => t.logPort p 16

/-- R407: HOST_READ_COMPLETION. -/
def execHostReadCompletion (p : HostPort) (tag : Nat) (x : HostCpl) (s : State) : Host.Outcome State Fault Refusal :=
  .next (doHostCompletion p tag x s)

/-! ### Configuration space (R402, R405, R408, R417) -/

/-- R408: pending vectors that are unmasked are sent. [PRESUMED, log 10] -/
def State.flushMsix (s : State) (p : HostPort) : State :=
  let x := s.port p
  if x.msixEnable && !x.msixMask && x.linkUp then
    let go := x.msix.filter (fun e => e.2.pending && !bit e.2.ctl 0)
    s.setPort p { x with msix := SMap.mapVals {} (fun _ v => if v.pending && !bit v.ctl 0 then { v with pending := false } else v) x.msix,
                         msixSent := x.msixSent ++ go.map (·.1) }
  else s

/-- R3, R402: the identifiers of configuration space, by the offset of their double word: the order code changes only the Subsystem ID.
[PRESUMED, log 10] -/
def State.pciId (s : State) : Nat → Option Nat
  | 0x00 => some (put 0x6E10 31 16 + 0x1F6D)
  | 0x08 => some (put 0x120000 31 8 + 0x11)
  | 0x2C => some (put s.subsystem 31 16 + 0x1F6D)
  | _ => none

/-- R402: the capability structures, in the order of their list: offset, capability ID, and version or capability register. PCI Express gives
their IDs; the spec gives no offsets. [DESIGN CHOICE, log 89] -/
def capList : List (Nat × Nat × Nat) := [(0x40, 0x01, 0x0003), (0x50, 0x11, 0), (0x60, 0x10, 0x0002)]
def extCapList : List (Nat × Nat × Nat) :=
  [(0x100, 0x0001, 2), (0x150, 0x0015, 1), (0x160, 0x0003, 1), (0x170, 0x002E, 1), (0x190, 0x0030, 1), (0x1C0, 0x0025, 1), (0x1D0, 0x0026, 1),
   (0x200, 0x002A, 1), (0x230, 0x0027, 1)]

/-- The first double word of a capability structure of a list: its ID and the offset of the next. -/
def capHead (l : List (Nat × Nat × Nat)) (ext : Bool) (off : Nat) : Option Nat :=
  match l.findIdx? (fun c => c.1 == off) with
  | some i =>
    let c := l.getD i (0, 0, 0)
    let next := (l.getD (i + 1) (0, 0, 0)).1
    some (if ext then put next 31 20 + put c.2.2 19 16 + put c.2.1 15 0 else put c.2.2 31 16 + put next 15 8 + put c.2.1 7 0)
  | none => none

/-- R402, R403, R405, R413: the registers of the capability structures that the module's own state fills, by the offset of their double word.
[PRESUMED, log 10; DESIGN CHOICE, log 89] -/
def State.capReg (s : State) (x : Port) : Nat → Option Nat
  | 0x34 => some 0x40
  | 0x44 => some (if x.d3hot then 3 else 0)
  | 0x50 => some (0x6011 + put 2047 26 16 + put (b2n x.msixMask) 30 30 + put (b2n x.msixEnable) 31 31)
  | 0x54 => some 0x8000
  | 0x58 => some 0x10000
  | 0x64 => some (2 + put 1 15 15 + put 1 28 28)
  | 0x68 => some x.devCtl
  | 0x6C => some (5 + put 16 9 4)
  | 0x70 => some (put ([2, 5, 8, 16, 32].findIdx (· == x.rate) + 1) 19 16 + put x.width 25 20)
  | 0x84 => some (6 + put 3 17 16)
  | 0x88 => some x.devCtl2
  | 0x104 => some x.aerUnc
  | 0x110 => some x.aerCor
  | 0x154 => some (put (2 ^ 13 - 1) 26 14)
  | 0x158 => some (2 + put 1 7 5 + put (x.bar2Log2 - 20) 13 8)
  | 0x164 => some (s.sec.dsn % 2 ^ 32)
  | 0x168 => some (s.sec.dsn / 2 ^ 32)
  | _ => none

/-- R3, R402: a double word of a port's configuration space: identifiers, capability structures, their registers, and what the host wrote. -/
def State.cfgRead (s : State) (p : HostPort) (off : Nat) : Nat :=
  match s.pciId off, s.capReg (s.port p) off, capHead capList false off, capHead extCapList true off with
  | some v, _, _, _ => v
  | none, some v, _, _ => v
  | none, none, some v, _ => v
  | none, none, none, some v => v
  | none, none, none, none => SMap.get 0 (s.port p).cfg off

/-- R402, R405, R408, R417, R427: the host's control of its function. -/
def State.bar2Resize (s : State) (p : HostPort) (n : Nat) : State :=
  if 30 ≤ n ∧ n ≤ 42 then s.modPort p (fun x => { x with bar2Log2 := n }) else s
def State.msixControl (s : State) (p : HostPort) (e m : Bool) : State :=
  (s.modPort p (fun x => { x with msixEnable := e, msixMask := m })).flushMsix p

/-- R402: a double word written: the fields of a capability structure that a host may set, AER status cleared where ones are written, and no
effect on an identifier or on a register that only reads. [PRESUMED, log 10; DESIGN CHOICE, log 89] -/
def State.cfgStore (s : State) (p : HostPort) (off v : Nat) : State :=
  if (s.pciId off).isSome then s
  else if off = 0x44 then s.modPort p (fun x => { x with d3hot := v % 4 == 3 })
  else if off = 0x50 then s.msixControl p (bit v 31) (bit v 30)
  else if off = 0x68 then
    let s := s.modPort p (fun x => { x with devCtl := put (fld v 14 0) 14 0 })
    if bit v 15 then doFlr p s else s
  else if off = 0x88 then s.modPort p (fun x => { x with devCtl2 := fld v 15 0 })
  else if off = 0x104 then s.modPort p (fun x => { x with aerUnc := x.aerUnc &&& (2 ^ 32 - 1 - v % 2 ^ 32) })
  else if off = 0x110 then s.modPort p (fun x => { x with aerCor := x.aerCor &&& (2 ^ 32 - 1 - v % 2 ^ 32) })
  else if off = 0x158 then s.bar2Resize p (20 + fld v 13 8)
  else if (s.capReg (s.port p) off).isSome || (capHead capList false off).isSome || (capHead extCapList true off).isSome then s
  else s.modPort p (fun x => { x with cfg := SMap.set 0 x.cfg off v })

/-- A write of configuration space, by what the written register controls; the identifiers of R3 do not change. -/
def doCfgWrite (p : HostPort) (c : CfgWrite) (s : State) : State :=
  if !s.power.pwrGood || !(s.port p).linkUp then s
  else match c with
    | .bar2Size n => s.bar2Resize p n
    | .powerState d => s.modPort p (fun x => { x with d3hot := d })
    | .msixControl e m => s.msixControl p e m
    | .other off v => s.cfgStore p off v

/-- R405: CONFIGURATION_SPACE_WRITE. -/
def execConfigurationSpaceWrite (p : HostPort) (x : CfgWrite) (s : State) : Host.Outcome State Fault Refusal := .next (doCfgWrite p x s)

end Sys2Proof.Machine
end

