-- ==== Sys2Proof/Machine/Contain.lean ====
section
/-! DEFINITION. Containment (R457, R464): fencing of cores and their retest (R468 to R475), the loss of channels, hubs, UCIe modules, ports,
slices and host links (R310, R327, R476, R477), JOB-FATAL (R479), the conserved quantities (R480, R481) and internal faults (R459). -/

namespace Sys2Proof.Machine

/-! ### Core fencing (R468 to R475) -/

/-- R132: what an engine holds is discarded: every pleat is empty, no load holds the port, and the wave-rate monitor's value is not valid
until a window completes after the core is in service again (R46). [DESIGN CHOICE, log 79] -/
def Engine.discard (e : Engine) : Engine :=
  { e with regions := [], flight := [], loadQ := [], seam := none, samples := [], portFree := 0, laneBusy := [], rateValid := false,
           pleats := SMap.mapVals {} (fun _ x => { lastHeritage := x.lastHeritage }) e.pleats }

/-- R469 step 2: the core is masked; its engines, shuttles and tile queue stop and lose their work. A host read of a stopped shuttle runs
on to no command. -/
def State.maskCore (s : State) (c source : Nat) : State :=
  let held := ((s.core c).shuttle0.toList ++ (s.core c).shuttle1.toList)
  let cut := fun (x : Port) => { x with asks := x.asks.filter (fun r => !decide ((r.queue, r.cseq) ∈ held)),
                                        reads := x.reads.map (fun r => if decide ((r.queue, r.cseq) ∈ held) then { r with queue := 192 } else r) }
  let s := s.modCore c (fun x => { x with fence := .fencing, source := source, stoppedAtFence := 0, bySw := source == 0, tileQ := [], shuttle0 := none, shuttle1 := none })
  let s := State.maskHubs { s with ha := cut s.ha, hb := cut s.hb }
  let s := (upto 16).foldl (fun s b => s.maskArb (.coreStoreBank c b)) s
  (upto 4).foldl (fun s e => s.modEngine (4 * c + e) Engine.discard) s

/-- R470: core `k` can take a queue of domain `d`. -/
def State.canHost (s : State) (k d : Nat) : Bool :=
  (s.core k).fence == .inService && (s.core k).sramDomain == d && (upto 8).any (fun g => SMap.get 0 (s.core k).guests g == 0)

/-- R470: the guest contexts of core `k` in use. -/
def State.guestCount (s : State) (k : Nat) : Nat := ((upto 8).filter (fun g => SMap.get 0 (s.core k).guests g != 0)).length

/-- R470: the sibling of a queue of fenced core `c`: the same quadrant first, then the fewest guests, then the lowest number. -/
def State.sibling (s : State) (c qi : Nat) : Option Nat :=
  let rank := fun k => (if k / 6 = c / 6 then 0 else 16) + s.guestCount k
  ((upto 24).filter (fun k => k != c && s.canHost k (s.queueDomain qi))).foldl (fun best k =>
    match best with
    | some b => if rank k < rank b then some k else best
    | none => some k) none

/-- R206, R255: TACK, COLL, UPD and MEASURE commands that have issued are kept. -/
def Wide.kept (w : Wide) : Bool := (w.opcode == 7 || w.opcode == 8 || w.opcode == 9 || w.opcode == 0xA) && w.stage != .dispatched && !w.failedCheck

/-- R255: the queue as its sibling takes it: the checkpoint of the oldest unretired command, and the commands that run on. -/
def CoreQ.restored (q : CoreQ) : CoreQ :=
  match q.inflight.head? with
  | none => q
  | some w =>
    { q with g := w.ck.g, a := w.ck.a, pc := w.ck.pc, rstack := w.ck.rstack, cseq := w.cseq - 1, replayTo := max q.replayTo q.cseq, trap := none,
             reruns := q.inflight.filter (fun u => !u.kept) ++ q.reruns.filter (fun u => decide (q.cseq < u.cseq)),
             inflight := (q.inflight.filter Wide.kept).map (fun w => { w with held := none }),
             sub := q.sub.map (fun x => { x with ended := false }) }

/-- R186, R255: a NORM_ACC that has filled its slot and runs again gives the slot back first, so that its second run is not refused (R191). -/
def State.unfillSlots (s : State) (qi : Nat) : State :=
  (s.queue qi).inflight.foldl (fun (s : State) w => match w.normKey with
    | some k => if !w.kept && w.stage == .complete && w.status == stOk then { s with normSlots := SMap.set none s.normSlots k none } else s
    | none => s) s

/-- R470: a free guest context of core `k` taken by a queue. -/
def State.seat (s : State) (k qi : Nat) : State :=
  match (upto 8).find? (fun g => SMap.get 0 (s.core k).guests g == 0) with
  | some g => s.modCore k (fun x => { x with guests := SMap.set 0 x.guests g (qi + 1) })
  | none => s

/-- R256, R475: a queue stops at the fence of core `c`, which marks its own in EV_CORE_FENCED. -/
def State.stopAtFence (s : State) (c qi : Nat) : State :=
  (s.stopQueue qi).modCore c (fun x => { x with stoppedAtFence := if qi / 8 = c then x.stoppedAtFence ||| 2 ^ (qi % 8) else x.stoppedAtFence })

/-- R469 steps 4 and 5, R256: one queue moves to a sibling, or stops. -/
def State.moveQueue (s : State) (c qi : Nat) : State :=
  let q := s.queue qi
  if q.stopped then s
  else match q.inflight.find? Wide.nrep with
    | some w => (s.stopAtFence c qi).logQueue 0x010D qi (s.queueDomain qi) w.cseq
    | none =>
      match s.sibling c qi with
      | none => s.stopAtFence c qi
      | some k =>
        let s := s.modCore c (fun x => { x with guests := SMap.mapVals 0 (fun _ v => if v = qi + 1 then 0 else v) x.guests })
        ((s.unfillSlots qi).seat k qi).setQueue qi { q.restored with movedTo := k + 1 }

/-- R469 steps 4 and 5: every queue that core `c` serves, its own and its guests'. -/
def State.moveQueues (s : State) (c : Nat) : State := ((s.contexts c).map (·.2)).foldl (fun s qi => s.moveQueue c qi) s

/-- R471: the core store is kept, or withdrawn. -/
def State.keepStore (s : State) (c : Nat) : State :=
  let out := (s.core c).source == 0x0105 || (s.core c).source == 0x0109
  s.modCore c (fun x => { x with withdrawn := out, blocksOut := if out then 512 else x.blocksOut })

/-- R475: EV_CORE_FENCED. -/
def State.coreEvent (s : State) (c : Nat) (retest passed : Bool) : State :=
  let x := s.core c
  let own := (upto 8).map (fun n => 8 * c + n)
  let sib := own.foldl (fun v qi => v + put (if (s.queue qi).stopped then 0x1F else s.serving qi) (88 + 5 * (qi % 8) + 4) (88 + 5 * (qi % 8))) 0
  let moved := own.foldl (fun v qi => v + (if (s.queue qi).movedTo ≠ 0 then 2 ^ (qi % 8) else 0)) 0
  s.raiseEvent 0x0140 (sib + put moved 87 80 + put x.stoppedAtFence 79 72 + put x.source 71 56 + put (b2n x.withdrawn) 55 55 +
    put (b2n x.bySw) 54 54 + put (b2n retest) 53 53 + put (b2n passed) 52 52 + put c 47 43)

/-- R469 step 7. -/
def State.fenced (s : State) (c : Nat) : State := (s.modCore c (fun x => { x with fence := .fenced })).coreEvent c false false

/-- R469 step 3: the checkpoint of a queue's oldest unretired command passes its check code or not: of a core whose state check failed
(source 0x0106) a free value says which, and every other passes. A queue whose checkpoint fails is stopped. [DESIGN CHOICE, log 87] -/
def State.readCheckpoint (s : State) (c qi : Nat) : State :=
  if (s.queue qi).stopped || (s.queue qi).inflight.isEmpty then s
  else
    let (v, s) := s.draw
    if v.toNat % 2 = 0 then s else s.stopAtFence c qi

/-- R469 step 3: every checkpoint of the core. -/
def State.readCheckpoints (s : State) (c source : Nat) : State :=
  if source = 0x0106 then ((s.contexts c).map (·.2)).foldl (fun s qi => s.readCheckpoint c qi) s else s

/-- R469: the steps of a fence, counted from step 2; true at the last. Step 4 chooses siblings, which acts with step 5. -/
def State.fenceStepDo (s : State) (c source : Nat) : Nat → State × Bool
  | 0 => (s.maskCore c source, false)
  | 1 => (s.readCheckpoints c source, false)
  | 2 => (s, false)
  | 3 => (s.moveQueues c, false)
  | 4 => (s.keepStore c, false)
  | _ => (s.fenced c, true)

/-- R468, R469: FENCE written by the steward: a core in service is fenced, with source 0. [DEDUCED, log 67] -/
def State.fenceBySw (s : State) (c : Nat) : State :=
  if (s.core c).fence = .inService then
    ((((s.maskCore c 0).moveQueues c).keepStore c).fenced c)
  else s

/-- R474 steps 1 and 2: RETEST of a FENCED core. -/
def State.retest (s : State) (c : Nat) : State :=
  if (s.core c).fence = .fenced then (s.modCore c (fun x => { x with fence := .scrubbing, blocksScrub := 512, blocksOut := 0 })).scrubCore c else s

/-- CORE_FENCE_CTL op: 1 FENCE, 2 RETEST, other values ignored. -/
def State.fenceCtl (s : State) (p : HostPort) (c op : Nat) : State :=
  s.byStewardOnly p (fun s => if op = 1 then s.fenceBySw c else if op = 2 then s.retest c else s)

def doFence (p : HostPort) (c : Nat) (s : State) : State := s.hostWrite p (coreReg c 0x0F28) (.fence p c) (fun t => t.fenceCtl p c 1)

/-- R469: FENCE. -/
def execFence (p : HostPort) (c : Nat) (s : State) : Host.Outcome State Fault Refusal :=
  if c < 24 then .next (doFence p c s) else .fault .noSuchUnit

def doRetest (p : HostPort) (c : Nat) (s : State) : State := s.hostWrite p (coreReg c 0x0F28) (.retest p c) (fun t => t.fenceCtl p c 2)

/-- R474: RETEST. -/
def execRetest (p : HostPort) (c : Nat) (s : State) : Host.Outcome State Fault Refusal :=
  if c < 24 then .next (doRetest p c s) else .fault .noSuchUnit

/-- R46: the first window of a core's monitors after unfencing begins once the rail is stable. -/
def State.monitorAgain (s : State) (c : Nat) : State :=
  (upto 4).foldl (fun (s : State) i => s.modEngine (4 * c + i) (fun e => { e with rateFrom := max s.now s.power.stableAt })) s

/-- R474 steps 3 and 4: a core passes, and returns to service with its idle queues, or fails. -/
def doRetestEnd (c : Nat) (passed : Bool) (s : State) : State :=
  if s.alive && ((s.core c).fence == .scrubbing || (s.core c).fence == .testing) then
    let back := fun (st : FenceState) (x : Core) => { x with fence := st, blocksScrub := 0 }
    if passed then
      let s := (s.modCore c (fun x => { back .inService x with withdrawn := false, blocksOut := 0 })).monitorAgain c
      let s := (upto 8).foldl (fun s n => if (s.queue (8 * c + n)).sub.isNone then s.returnHome (8 * c + n) else s) s
      s.coreEvent c true true
    else ((s.modCore c (fun x => { back .fenced x with blocksOut := if x.withdrawn then 512 else 0 })).raiseError 0x0107 degrading .core c none 0).coreEvent c true false
  else s

/-- R474: RETEST_END. -/
def execRetestEnd (c : Nat) (passed : Bool) (s : State) : Host.Outcome State Fault Refusal :=
  if c < 24 then .next (doRetestEnd c passed s) else .fault .noSuchUnit

/-! ### JOB-FATAL (R479) -/

/-- R479: an issued MEASURE ends: the boundary of a STEP_END fails, and a LOAD_FIT loads nothing. -/
def State.endMeasure (s : State) (qi cseq : Nat) : State :=
  match s.tailor.boundary with
  | some b =>
    if (b.queue, b.cseq) = (qi, cseq) then
      if b.load then State.complete { s with tailor := { s.tailor with boundary := none } } qi cseq stContained
      else (s.endColls (fun c => c.kind == .stepEnd && c.queue == qi && c.cseq == cseq) stContained).failBoundary b stContained
    else s.complete qi cseq stContained
  | none => s.complete qi cseq stContained

/-- R479: the issued commands of a queue that run outside the core end with ST_CONTAINED. -/
def State.endIssued (s : State) (qi : Nat) : State :=
  ((s.queue qi).inflight.filter (fun w => w.kept && w.stage == .issued)).foldl (fun s w =>
    if w.opcode = 7 then s.endWait (fld w.n0 27 14) qi w.cseq stContained
    else if w.opcode = 9 then s.updEnd qi w.cseq stContained w.outcome
    else if w.opcode = 0xA then s.endMeasure qi w.cseq
    else s.complete qi w.cseq stContained) s

/-- R479: the UPDs of a domain end with ST_CONTAINED, whatever queue holds them. -/
def State.endUpds (s : State) (d : Nat) : State :=
  (s.allWide.filter (fun x => x.2.opcode == 9 && x.2.domain == d && x.2.stage == .issued)).foldl (fun s x => s.updEnd x.1 x.2.cseq stContained x.2.outcome) s

/-- R479: JOB-FATAL for domain `d`. -/
def State.stopDomain (s : State) (d : Nat) : State :=
  let qs := (upto 192).filter (fun qi => s.queueDomain qi == d)
  let s := qs.foldl (fun s qi => (s.endIssued qi).stopQueue qi) s
  let s := s.endColls (fun c => s.commDomain c.comm == d) stContained
  let s := ((upto 256).filter (fun c => s.commValid c && s.commDomain c == d)).foldl (fun s c => s.setComm c { s.comm c with fatal := true }) s
  s.endUpds d

/-- R457, R477: the domains with an assigned granule that lies in a hub: one of the interleaved region, or of the hub's local region. -/
def State.domainsOfHub (s : State) (h : Nat) : List Nat :=
  s.granules.foldl (fun ds e =>
    if e.2 = 0 then ds
    else match s.area (e.1 * granuleSize) with
      | some .interleaved => setIns ds (e.2 - 1)
      | some (.hubLocal n) => if n = h then setIns ds (e.2 - 1) else ds
      | _ => ds) []

/-- R476: the domains that have a valid communicator. -/
def State.commDomains (s : State) : List Nat := ((upto 256).filter s.commValid).foldl (fun ds c => setIns ds (s.commDomain c)) []

/-- R459: source 0x020A for each domain of a list. -/
def State.raiseJobs (s : State) (ds : List Nat) : State := ds.foldl (fun s d => s.raiseError 0x020A jobFatal .job d (some d) 0) s

/-! ### Units lost (R310, R327, R476, R477) -/

/-- R310: a channel is fenced while the module runs; its hub is DEGRADED, so its update engine leaves ACTIVE (R346). -/
def State.fenceChannel (s : State) (ch : Nat) : State :=
  let h := ch / 48
  let s := s.modChannel ch (fun c => { c with fenced := true, pages := SMap.mapVals {} (fun _ p => { p with copying := false }) c.pages })
  if s.updActive h then (s.updLeaves h).raiseError 0x0209 degrading .hub h none 0 else s

/-- R327: a UCIe module is fenced; a hub with none left is lost (R310). -/
def State.fenceUcie (s : State) (h m : Nat) : State :=
  let x := s.hub h
  let live := if bit x.ucieLive m then x.ucieLive - 2 ^ m else x.ucieLive
  let s := s.setHub h { x with ucieLive := live }
  if live = 0 then s.raiseError 0x0208 degrading .hub h none 0
  else if s.updActive h then (s.updLeaves h).raiseError 0x0209 degrading .hub h none 0
  else s

/-- R477: a hub is lost. -/
def State.loseHub (s : State) (h : Nat) : State :=
  if (s.hub h).lost then s
  else ((s.modHub h (fun x => { x with lost := true })).updLeaves h).raiseJobs (s.domainsOfHub h)

/-- R476: a slice fault. [DEDUCED, log 40] -/
def State.sliceFault (s : State) (q : Nat) : State :=
  if q ∈ s.link.sliceFaults then s
  else
    let s := { s with link := { s.link with sliceFaults := setIns s.link.sliceFaults q } }
    let s := (slicePorts q).foldl (fun s p => s.fencePort p) s
    let s := s.endColls (fun _ => true) stContained
    let off := fun (m : SMap FitEntry) => SMap.mapVals {} (fun _ (e : FitEntry) => { e with valid := false }) m
    let s := { s with tailor := { s.tailor with bank0 := off s.tailor.bank0, bank1 := off s.tailor.bank1 } }
    s.raiseJobs s.commDomains

/-- R457: a host link held down until PERST; R421 applies. -/
def State.holdLinkDown (s : State) (n : Nat) : State :=
  let p := portOf n
  let up := (s.port p).linkUp
  let s := s.modPort p (fun x => { x with heldDown := true, linkUp := false, width := 0, rate := 0 })
  if up then s.portLost p 0 1 else s

/-! ### Records and their handling units (R457, R464, R465) -/

/-- R457: the unit that handles a record: 0 management controller, 1 sequencers, 2 link control, 3 + h hub controllers. -/
def State.unitOf (s : State) (r : ErrRec) : Nat :=
  match r.kind with
  | .queue => 1
  | .port | .slice => 2
  | .channel => 3 + r.domId / 48
  | .ucie => 3 + r.domId / 6
  | .hub => if (s.hub r.domId).controllerFailed then 0 else 3 + r.domId
  | _ => 0

/-- The same record. -/
def ErrRec.same (a b : ErrRec) : Bool := a.seq == b.seq && a.kind == b.kind && a.domId == b.domId

/-- A record rewritten, in the queue or out of it. -/
def ErrQueue.rewrite (q : ErrQueue) (r : ErrRec) (f : ErrRec → ErrRec) : ErrQueue :=
  let g := fun x => if ErrRec.same x r then f x else x
  { q with slots := SMap.mapVals none (fun _ o => o.map g) q.slots, offQueue := (q.offQueue.map g).filter (·.isOpen) }

/-- R464: a record's action is done. -/
def State.closeRec (s : State) (r : ErrRec) : State :=
  { s with errq := s.errq.rewrite r (fun x => { x with isOpen := false, version := x.version + 1, step := 0 }) }

/-- R464: the record that a handling unit works on next: the highest class, the one in progress before others of that class, then the
oldest. [DEDUCED, log 67] -/
def State.nextRec (s : State) (unit : Nat) : Option ErrRec :=
  let mine := s.errq.opened.filter (fun r => s.unitOf r == unit)
  let top := mine.foldl (fun m r => max m r.cls) 0
  let best := mine.filter (fun r => r.cls == top)
  match best.find? (fun r => r.seq == SMap.get 0 s.errq.handling unit && r.step != 0) with
  | some r => some r
  | none => best.foldl (fun m r => match m with | some x => if r.seq < x.seq then some r else m | none => some r) none

/-- R308, R464: one step of a page retirement: a replacement page is taken, and one unit is copied. -/
def State.retireStep (s : State) (r : ErrRec) : State × Bool :=
  let ch := r.domId
  let h := ch / 48
  let p := SMap.get {} (s.channel ch).pages r.detail
  if p.retired then (s, true)
  else if p.copying then s.copyUnit h ch r.detail
  else match s.takeSpare h ch r.detail with
    | some t => t.copyUnit h ch r.detail
    | none => (s, true)

/-- R459, R461: the management periphery's die-network resends are exhausted: the management controller restarts. -/
def State.restartMc (s : State) : State := s.raiseError 0x0502 contained .module 0 none 0

/-- R457: the DEGRADING action of a record; true where it is done. -/
def State.degradeStep (s : State) (r : ErrRec) : State × Bool :=
  match r.kind with
  | .core =>
    if r.step = 0 ∧ (s.core r.domId).fence ≠ .inService then (s, true)
    else s.fenceStepDo r.domId r.source r.step
  | .queue => (s.stopQueue r.domId, true)
  | .channel => (if r.source = 0x0204 ∧ !r.escalated then s else s.fenceChannel r.domId, true)
  | .hub => (if r.source = 0x0209 ∧ !r.escalated then s else s.loseHub r.domId, true)
  | .ucie => (s.fenceUcie (r.domId / 6) (r.domId % 6), true)
  | .port => (s.fencePort r.domId, true)
  | .slice => (s.sliceFault r.domId, true)
  | .hostPort => (s.holdLinkDown r.domId, true)
  | _ => (s, true)

/-- R457: the domains that a JOB-FATAL record stops. -/
def State.fatalDomains (s : State) (r : ErrRec) : List Nat :=
  match r.kind with
  | .core => [(s.core r.domId).sramDomain]
  | .queue => [s.queueDomain r.domId]
  | .channel => s.domainsOfHub (r.domId / 48)
  | .hub => s.domainsOfHub r.domId
  | .slice => s.commDomains
  | .job => [r.domId]
  | _ => []

/-- R464: one step of a record's containment action; true where it is done. [DEDUCED, log 67] -/
def State.containRec (s : State) (r : ErrRec) : State × Bool :=
  if r.cls = jobFatal then ((s.fatalDomains r).foldl State.stopDomain s, true)
  else if r.cls = degrading then s.degradeStep r
  else if r.source = 0x0203 then s.retireStep r
  else (s, true)

/-- R308, R459, R477: what a closed record leaves to be raised: a refused retirement, a restart of the management controller, or the loss of
a hub that was not lost before. -/
def State.afterRec (s : State) (r : ErrRec) (wasLost : Bool) : State :=
  if r.cls = degrading ∧ r.kind = .hub ∧ r.source ≠ 0x0208 ∧ (s.hub r.domId).lost ∧ !wasLost then s.raiseError 0x0208 degrading .hub r.domId none 0
  else if r.cls ≠ contained then s
  else if r.source = 0x0203 ∧ !(SMap.get {} (s.channel r.domId).pages r.detail).retired then s.refuseRetire (r.domId / 48) r.domId r.detail
  else if r.source = 0x0109 then s.restartMc
  else s

/-- The purge of some domain runs (R507). -/
def State.purging (s : State) : Bool := s.sec.domains.any (fun e => e.2.purging)

/-- R512: hub controllers restart after their open error records close; a new TH runs after the purges that pin_th asks for.
[DEDUCED, log 76] -/
def State.mayRun (s : State) (j : Nat) : Bool :=
  if j = 2 then !s.errq.opened.any (fun r => decide (3 ≤ s.unitOf r)) else if j = 0 then !s.purging else true

/-- R512, R513: the hold of the activation in progress begins, once the image may run. [DEDUCED, log 76] -/
def State.beginHold (s : State) : State :=
  match s.sec.activation with
  | some a => if a.deadline = 0 ∧ s.mayRun a.cur then { s with sec := { s.sec with activation := some { a with deadline := s.now + activationHold a.cur } } } else s
  | none => s

/-- R512: the retirement that a record asks for waits while the controller of its hub restarts. -/
def State.retirementWaits (s : State) (unit : Nat) (r : ErrRec) : Bool := r.source == 0x0203 && decide (3 ≤ unit) && s.hubRestarts (unit - 3)

/-- R464: a handling unit's next step. [DEDUCED, log 67] -/
def doContainment (unit : Nat) (s : State) : State :=
  if !s.ready || s.freeze.frozen then s
  else match s.nextRec unit with
    | none => s
    | some r =>
      if s.retirementWaits unit r then s
      else
      let s := { s with errq := { s.errq with handling := SMap.set 0 s.errq.handling unit r.seq } }
      let (t, done) := s.containRec r
      if done then ((t.closeRec r).afterRec r (s.hub r.domId).lost).beginHold
      else { t with errq := t.errq.rewrite r (fun x => { x with step := r.step + 1 }) }

/-- R464: ERROR_CONTAINMENT_STEP. -/
def execErrorContainmentStep (unit : Nat) (s : State) : Host.Outcome State Fault Refusal :=
  if unit < 11 then .next (doContainment unit s) else .fault .noSuchUnit

/-! ### The error queue as hosts drive it (R467), and the watchdog (R461) -/

/-- R467: held records that are not open, up to a seq, are released; clear_lost clears lost, with the errors it counted (R480).
[DEDUCED, log 68] -/
def State.popErrors (s : State) (v : Nat) : State :=
  let q := s.errq
  let free := fun (o : Option ErrRec) => match o with
    | some r => if r.seq ≤ v % 2 ^ 48 ∧ !r.isOpen then none else some r
    | none => none
  let n := if bit v 63 then q.lost else 0
  { s with errq := { q with slots := SMap.mapVals none (fun _ o => free o) q.slots, lost := q.lost - n, raised := q.raised - n } }

def State.errqPop (s : State) (p : HostPort) (v : Nat) : State := s.byStewardOnly p (fun s => s.popErrors v)

def doErrqPop (p : HostPort) (v : Nat) (s : State) : State := s.hostWrite p 0x03B00028 (.obsErrqPop p v) (fun t => t.errqPop p v)

/-- R467: OBS_ERRQ_POP. -/
def execObsErrqPop (p : HostPort) (v : Nat) (s : State) : Host.Outcome State Fault Refusal := .next (doErrqPop p v s)

/-- R461: the management controller restarts within this one command; open records resume from their current step, a SEW past its sew point completes, and one
that has not passed it checks again: all as State holds them. R512: the watchdog is suspended while TH activates. [DEDUCED, log 68] -/
def doWatchdog (s : State) : State := if s.power.pwrGood && !s.activating 0 then s.restartMc else s

/-- R461: MC_WATCHDOG_EXPIRY. -/
def execMcWatchdogExpiry (s : State) : Host.Outcome State Fault Refusal := .next (doWatchdog s)

/-! ### Conserved quantities (R480, R481) -/

/-- R480: the replay slots of a port balance. -/
def FabPort.slotsOk (x : FabPort) : Bool :=
  decide (x.replay.length ≤ 512) && (match x.replay with | [] => true | k :: _ => (x.txSeq + 4096 - k.seq) % 4096 == x.replay.length)

/-- R480: the ring slots of a host queue balance. -/
def HostQ.slotsOk (h : HostQ) : Bool :=
  !h.enable || (decide ((h.tail + 65536 - h.shead) % 65536 ≤ 2 ^ h.sizeLog2 - 1) && decide ((h.ctail + 65536 - h.head) % 65536 ≤ 2 ^ h.sizeLog2 - 1))

/-- R480: errors raised = records stored + lost + merged + coalesced. -/
def ErrQueue.balanced (q : ErrQueue) : Bool := q.raised == q.stored + q.lost + q.merged + q.coalesced

/-- [DEDUCED, log 68] -/
def State.checkReplay (s : State) (p : Nat) : State :=
  if !(s.fport p).linked || (s.fport p).state == .recovery || (s.fport p).slotsOk then s
  else (State.raiseError { s with errq := { s.errq with replayMismatch := sat 8 (s.errq.replayMismatch + 1) } } 0x0503 contained .port p none 1).retrainPort p 0

def State.checkBlocks (s : State) (c : Nat) : State :=
  if (s.core c).blocksScrub + (s.core c).blocksOut ≤ 512 then s
  else State.raiseError { s with errq := { s.errq with storeMismatch := sat 8 (s.errq.storeMismatch + 1) } } 0x0503 degrading .core c none 3

/-- [DEDUCED, log 68] -/
def State.checkRing (s : State) (i : Nat) : State := if (s.hostq i).slotsOk then s else s.raiseError 0x0503 contained .hostPort (i / 64) none 4

def State.checkTokens (s : State) (h : Nat) : State :=
  if (s.hub h).tokens.all (fun e => decide (e.2 ≤ 64)) then s
  else State.raiseError { s.modHub h (fun x => { x with tokens := SMap.mapVals 0 (fun _ v => min v 64) x.tokens }) with
    errq := { s.errq with tokenRestores := sat 8 (s.errq.tokenRestores + 1) } } 0x0503 corrected .hub h none 5

def State.checkErrq (s : State) : State :=
  if s.errq.balanced then s
  else
    let q := s.errq
    State.raiseError { s with errq := { q with raised := q.stored + q.lost + q.merged + q.coalesced, rebuilds := sat 8 (q.rebuilds + 1) } } 0x0503 contained .module 0 none 6

/-- R480: a round of the 1 ms checks. -/
def doConservation (s : State) : State :=
  if !s.ready || s.freeze.frozen then s
  else
    let s := (upto 48).foldl (fun s p => s.checkReplay p) s
    let s := (upto 24).foldl (fun s c => s.checkBlocks c) s
    let s := (upto 128).foldl (fun s i => s.checkRing i) s
    let s := (upto 8).foldl (fun s h => s.checkTokens h) s
    let s := s.checkErrq
    { s with errq := { s.errq with checks := (s.errq.checks + 1) % 2 ^ 32 } }

/-- R481: CONSERVATION_CHECK. -/
def execConservationCheck (s : State) : Host.Outcome State Fault Refusal := .next (doConservation s)

/-! ### Internal faults (R459) -/

/-- PCI Express: the status bits of the correctable errors of R413, in its order. [DESIGN CHOICE, log 54] -/
def aerCorBits : List Nat := [0, 6, 7, 12, 8]

/-- R413: a correctable error of a port; which of those of R413 is not told. [DESIGN CHOICE, log 54] -/
def State.aerCorrectable (s : State) (p : HostPort) : State :=
  let (v, s) := s.draw
  let s := s.modPort p (fun x => { x with aerCor := x.aerCor ||| 2 ^ aerCorBits.getD (v.toNat % 5) 0 })
  s.raiseError 0x0401 corrected .hostPort (portNum p) none (s.port p).aerCor

/-- R413: IDE Check Failed. [DESIGN CHOICE, log 54] -/
def State.ideFailed (s : State) (p : HostPort) : State :=
  let s := s.modPort p (fun x => { x with aerUnc := x.aerUnc ||| 2 ^ 28 })
  s.raiseError 0x0403 contained .hostPort (portNum p) none (s.port p).aerUnc

def doInternalFault (u : FaultUnit) (s : State) : State :=
  if !s.ready then s
  else match u with
    | .bobbinDouble c => s.raiseError 0x0102 degrading .core c none 0
    | .arrayCheck c => s.raiseError 0x0103 degrading .core c none 0
    | .coreStoreDouble c => s.raiseError 0x0105 degrading .core c none 0
    | .stateCheck c => s.raiseError 0x0106 degrading .core c none 0
    | .bobbinSingle c => s.raiseError 0x0101 corrected .core c none 0
    | .coreStoreSingle c => s.raiseError 0x0104 corrected .core c none 0
    | .updateEngine h => if s.updActive h then (s.updLeaves h).raiseError 0x0209 degrading .hub h none 0 else s
    | .hubController h => if (s.hub h).controllerFailed then s else (s.modHub h (fun x => { x with controllerFailed := true })).raiseError 0x0208 degrading .hub h none 0
    | .slice q => s.raiseError 0x0306 degrading .slice q none 0
    | .aerCorrectable p => s.aerCorrectable p
    | .ideCheckFailed p => s.ideFailed p

/-- R12: the unit of an internal fault exists. -/
def faultUnitOk : FaultUnit → Bool
  | .bobbinDouble c | .arrayCheck c | .coreStoreDouble c | .stateCheck c | .bobbinSingle c | .coreStoreSingle c => decide (c < 24)
  | .updateEngine h | .hubController h => decide (h < 8)
  | .slice q => decide (q < 4)
  | _ => true

/-- R459: INTERNAL_FAULT. -/
def execInternalFault (u : FaultUnit) (s : State) : Host.Outcome State Fault Refusal :=
  if faultUnitOk u then .next (doInternalFault u s) else .fault .noSuchUnit

end Sys2Proof.Machine
end

