-- ==== Sys2Proof/Machine/Settings.lean ====
section
/-! DEFINITION. Shared operations of the thimble: measurements (R498), keys and identity (R487 to R490), settings records (R515 to R519) and
images (R493 to R497). -/

namespace Sys2Proof.Machine

/-! ### Measurements (R498) -/

/-- Measurement register `i`. -/
def State.mreg (s : State) (i : Nat) : List Byte :=
  let m := SMap.get [] s.sec.measures i
  if m = [] then List.replicate 32 0 else m

def State.setMreg (s : State) (i : Nat) (m : List Byte) : State := { s with sec := { s.sec with measures := SMap.set [] s.sec.measures i m } }

/-- R498: extension with 32 bytes. -/
def State.extendMeasure (s : State) (i : Nat) (d : List Byte) : State := s.setMreg i (sha256 (s.mreg i ++ d))

/-- `n` bytes of free values. [DESIGN CHOICE, log 6] -/
def State.drawBytes (s : State) (n : Nat) : List Byte × State :=
  ((upto n).map (fun i => (Config.freeValue (s.freeCtr + i)).truncate 8), { s with freeCtr := s.freeCtr + n })

/-- R498: M9 extended for a domain purged or an IDE-required change, whose digest's input the spec does not state. [DEDUCED, log 74] -/
def State.extendM9Free (s : State) : State := let (d, s) := s.drawBytes 32; s.extendMeasure 9 d

/-! ### Identity (R487 to R490) -/

/-- R488: a key derived from the device secret. -/
def deviceKey (info : List Byte) (n : Nat) : List Byte := hkdf (List.replicate 32 0) Config.deviceSecret info n

/-- R488: the alias key's seed, for the TH image of digest `m1`. -/
def aliasKey (m1 : List Byte) : List Byte := deviceKey (ascii "alias" ++ m1) 48

/-- R488: the DeviceID public key, and the Device Serial Number. -/
def devicePublic : List Byte := Config.slhPublicKey true (deviceKey (ascii "devid") 48)
def deviceSerial : Nat := leAt (sha256 devicePublic) 0 8

/-! ### Images (R493 to R497) -/

/-- The image of a code that a flash device holds. -/
def State.file (s : State) (dev image : Nat) : ImageFile := SMap.get {} s.sec.files (5 * dev + image)
def State.setFile (s : State) (dev image : Nat) (f : ImageFile) : State := { s with sec := { s.sec with files := SMap.set {} s.sec.files (5 * dev + image) f } }

def State.fw (s : State) (image : Nat) : FwImage := SMap.get {} s.sec.fw image
def State.setFw (s : State) (image : Nat) (x : FwImage) : State := { s with sec := { s.sec with fw := SMap.set {} s.sec.fw image x } }

/-- The image in slot A of a code, and in slot B. -/
def State.slotA (s : State) (image : Nat) : ImageFile := s.file (s.fw image).devA image
def State.slotB (s : State) (image : Nat) : ImageFile := s.file (1 - (s.fw image).devA) image

/-- R494: the interface versions of image code `j` that an image accepts. -/
def ImageFile.accepts (f : ImageFile) (j iface : Nat) : Bool :=
  let w := f.windows.getD j (0, 0)
  decide (w.1 ≤ iface) && decide (iface ≤ w.2)

/-- R496: images X and Y, of codes i and j, are compatible. -/
def compatible (i : Nat) (x : ImageFile) (j : Nat) (y : ImageFile) : Bool := y.accepts i x.iface && x.accepts j y.iface

/-- R496: a set of five images is compatible. -/
def setCompatible (get : Nat → ImageFile) : Bool :=
  (upto 5).all (fun i => (upto 5).all (fun j => i == j || compatible i (get i) j (get j)))

/-- The svn floor of an image code (R514). -/
def State.floor (s : State) (image : Nat) : Nat := SMap.get 0 s.sec.floors image

/-- R495: a slot verifies: its signature and digest did, and its svn is at least the floor. -/
def State.verifies (s : State) (dev image : Nat) : Bool := (s.file dev image).verified && decide (s.floor image ≤ (s.file dev image).svn)

/-- R491: the bytes of an image's area. -/
def areaSize (image : Nat) : Nat := [0x800000, 0xC00000, 0x800000, 0x800000, 0xC00000].getD image 0

/-- A unit of 4 KiB of an image. -/
def ImageFile.unit (f : ImageFile) (i : Nat) : List Byte := SMap.get [] f.units i

/-- R493: the header, and the length of an image by its body_len. -/
def ImageFile.header (f : ImageFile) : List Byte := f.unit 0
def ImageFile.bodyLen (f : ImageFile) : Nat := leAt f.header 8 4
def ImageFile.length (f : ImageFile) : Nat := 0x1000 + 16 * cdiv f.bodyLen 16 + 7856

/-- R510: every unit up to the image's length is written. -/
def ImageFile.covered (f : ImageFile) : Bool := (upto (cdiv f.length 4096)).all (fun i => f.unit i != [])

/-- Bytes [a, a + n) of an image as it was programmed. -/
def ImageFile.bytes (f : ImageFile) (a n : Nat) : List Byte :=
  (((upto (cdiv (a + n) 4096 - a / 4096)).map (fun i => f.unit (a / 4096 + i))).flatten.drop (a % 4096)).take n

/-- R494: the fields of the compatibility descriptor. -/
def headerWindows (h : List Byte) : List (Nat × Nat) := (upto 5).map (fun j => (leAt h (0x40 + 4 * j) 2, leAt h (0x42 + 4 * j) 2))
def headerFmts (h : List Byte) : List (Nat × Nat) := (upto 3).map (fun k => (leAt h (0x56 + 2 * k) 1, leAt h (0x57 + 2 * k) 1))

/-- R495, R510: the verification of an image: its status. -/
def State.verifyImage (s : State) (image : Nat) (f : ImageFile) : Nat :=
  let h := f.header
  if h.length < 4096 ∨ leAt h 0 4 ≠ 0x474D4932 ∨ leAt h 4 1 ≠ image ∨ leAt h 5 1 ≠ 1 ∨ 1 < leAt h 6 1 ∨ areaSize image < f.length ∨ !f.covered then stConflict
  else if !Config.slhVerify (Config.romKey (leAt h 6 1)) h (f.bytes (0x1000 + 16 * cdiv f.bodyLen 16) 7856) then stBadSignature
  else if sha256 (f.bytes 0x1000 f.bodyLen) ≠ (h.drop 0x20).take 32 then stBadSignature
  else if leAt h 0xE 2 < s.floor image ∨ 0x11 < leAt h 0x54 1 ∨ leAt h 0x55 1 < 0x11 then stIncompatible
  else stOk

/-- What an image's header gives once it has verified. -/
def ImageFile.verifiedBy (f : ImageFile) : ImageFile :=
  let h := f.header
  { f with verified := true, iface := leAt h 0xC 2, svn := leAt h 0xE 2, build := leAt h 0x10 2, windows := headerWindows h, fmts := headerFmts h,
           measure := sha256 h }

/-! ### Settings (R515 to R519) -/

/-- R516: the keys of a kind's entries: key, lsb and width. -/
def settingKeys : Nat → List (Nat × Nat × Nat)
  | 0 => (0xFFFF0000, 0, 1) :: (upto 5).map (fun j => (0xFFFF0010 + j, 0, 16))
  | 1 => (upto 8).map (fun h => (hubReg h 0x18, 8, 8)) ++ [(0x02810000, 0, 9)]
  | _ => (upto 48).map (fun p => (fportReg p 0, 28, 2)) ++ [(0x03100000, 0, 14), (0x03100000, 31, 1), (0x03100008, 0, 6), (0x03100008, 31, 1)]

/-- R300: the default of ilv in GiB: half the hub space with 48 channels, in whole GiB. -/
def State.ilvDefault (s : State) : Nat := match s.bring.order with | .m3t => 186 | .m15 => 93

/-- R516: the defaults. -/
def State.settingDefaults (s : State) : Nat → List Nat
  | 0 => List.replicate 6 0
  | 1 => List.replicate 8 16 ++ [s.ilvDefault]
  | _ => List.replicate 48 0 ++ [0, 0, 2, 0]

/-- R515: the values in force of a kind, in the order of its entries. -/
def State.settingValues (s : State) (kind : Nat) : List Nat :=
  if kind = 0 then b2n s.sec.preferHb :: (upto 5).map s.floor
  else (settingKeys kind).map (fun e => fld (s.reg e.1) (e.2.1 + e.2.2 - 1) e.2.1)

/-- R516: a body: its entries in order. -/
def settingBody (kind : Nat) (vs : List Nat) : List Byte :=
  ((settingKeys kind).zip vs).flatMap (fun e => leBytes 4 e.1.1 ++ leBytes 1 e.1.2.1 ++ leBytes 1 e.1.2.2 ++ leBytes 2 0 ++ leBytes 8 e.2)

/-- R516: each value is one that its field permits. -/
def settingOk (kind : Nat) (vs : List Nat) : Bool :=
  vs.length == (settingKeys kind).length && ((settingKeys kind).zip vs).all (fun e => decide (e.2 < 2 ^ e.1.2.2)) &&
    (kind != 2 || (vs.take 48).all (· != 3) && decide (2 ≤ vs.getD 50 0) && decide (vs.getD 50 0 ≤ 49))

/-- A field of a plain register set. -/
def State.setField (s : State) (off lsb width v : Nat) : State := s.setReg off (setFld (s.reg off) (lsb + width - 1) lsb v)

/-- Values of a kind put in force. -/
def State.putSettings (s : State) (kind : Nat) (vs : List Nat) : State :=
  let s : State := { s with sec := { s.sec with loaded := SMap.set [] s.sec.loaded kind vs } }
  if kind = 0 then
    { s with sec := { s.sec with preferHb := vs.getD 0 0 == 1,
                                 floors := (upto 5).foldl (fun m j => SMap.set 0 m j (vs.getD (j + 1) 0)) s.sec.floors } }
  else ((settingKeys kind).zip vs).foldl (fun s e => s.setField e.1.1 e.1.2.1 e.1.2.2 e.2) s

/-- R498: M6 to M8 follow the values in force. -/
def State.measureSettings (s : State) (kind : Nat) : State := s.setMreg (6 + kind) (sha256 (settingBody kind (s.settingValues kind)))

/-- A settings record of a device and kind. -/
def State.settingRec (s : State) (dev kind : Nat) : SettingsRec := SMap.get {} s.sec.records (3 * dev + kind)

/-- R516: the values of a body's entries, in order. -/
def SettingsRec.values (r : SettingsRec) : List Nat := (upto (r.bodyLen / 16)).map (fun i => leAt r.body (16 * i + 8) 8)

/-- R515: the 64 bytes before the body. -/
def SettingsRec.head (r : SettingsRec) : List Byte :=
  leBytes 4 r.magic ++ leBytes 1 r.kind ++ leBytes 1 r.format ++ leBytes 1 r.signer ++ leBytes 1 0 ++ leBytes 8 r.seq ++ leBytes 4 r.bodyLen ++
    leBytes 12 0 ++ r.binding

/-- R515: what the signature of a record is over. [DEDUCED, log 77] -/
def SettingsRec.signed (r : SettingsRec) : List Byte := r.head ++ r.body

/-- R515: a slot holds a record of the kind that the signer of it is known for. -/
def SettingsRec.present (r : SettingsRec) (kind : Nat) : Bool := r.magic == 0x53544732 && r.kind == kind && decide (r.signer ≤ 1) && r.body.length == r.bodyLen

/-- R515: the binding of a record of this module. -/
def moduleBinding : List Byte := sha256 devicePublic

/-- R515: the signature of a record verifies: under Yalyind's record key, which the ROM holds, or under this module's. One that this module's key
made verifies, as FIPS 205 has it. [DESIGN CHOICE, log 34] -/
def State.recSigned (s : State) (r : SettingsRec) : Bool :=
  if r.signer = 1 then Config.slhVerify (Config.romKey 2) r.signed r.sig
  else s.sec.identityValid && (r.sig == Config.slhSign true s.sec.recordSeed r.signed r.hedge || Config.slhVerify (Config.slhPublicKey true s.sec.recordSeed) r.signed r.sig)

/-- R516: the body of a record of the known format is well formed: exactly the entries of its kind, each with a value its field permits. -/
def SettingsRec.wellFormed (r : SettingsRec) : Bool := r.format != 1 || (settingOk r.kind r.values && r.body == settingBody r.kind r.values)

/-- R515, R516: a record is valid here: its signature verifies, its binding is this module's where this module signed it, and its body is well
formed. -/
def State.recValid (s : State) (kind : Nat) (r : SettingsRec) : Bool :=
  r.present kind && r.wellFormed && s.recSigned r && (r.signer == 1 || r.binding == moduleBinding)

/-- R515: a record of the values `vs` of a kind with the given write_seq, as this module signs it with its record key and a draw of randomness. -/
def State.signRecord (s : State) (kind seq : Nat) (vs : List Nat) : SettingsRec :=
  let body := settingBody kind vs
  let r : SettingsRec := { magic := 0x53544732, kind := kind, format := 1, seq := seq, bodyLen := body.length, binding := moduleBinding, body := body, hedge := s.freeCtr }
  { r with sig := Config.slhSign true s.sec.recordSeed r.signed s.freeCtr }

/-- R515: the valid record of a kind with the higher write_seq. -/
def State.bestRec (s : State) (kind : Nat) : Option SettingsRec :=
  let a := s.settingRec 0 kind
  let b := s.settingRec 1 kind
  if s.recValid kind a && (!s.recValid kind b || decide (b.seq ≤ a.seq)) then some a else if s.recValid kind b then some b else none

/-- R518: the case of a kind: its cause and the format found; none where the record is used. -/
def State.settingCase (s : State) (kind : Nat) : Option (Nat × Nat) :=
  let w := (s.slotA 1).fmts.getD kind (1, 1)
  match s.bestRec kind with
  | some r => if r.format < w.1 then some (0, r.format) else if w.2 < r.format then some (1, r.format) else none
  | none =>
    match [s.settingRec 0 kind, s.settingRec 1 kind].find? (fun r => r.present kind && r.wellFormed && r.signer == 0 && !s.sec.identityValid) with
    | some r => some (3, r.format)
    | none => some (2, 0)

/-- R491: a flash operation accepted; training records wait behind the others. -/
def State.queueFlash (s : State) (op : FlashOp) : State := { s with sec := { s.sec with flashQ := s.sec.flashQ ++ [op] } }

/-- R518, R519: defaults in force, the record of them queued where the flash copy is not kept, and EV_SETTINGS_RESET. -/
def State.resetSettings (s : State) (kind cause format : Nat) : State :=
  let vs := s.settingDefaults kind
  let kept := cause == 1 || cause == 3
  let s := s.putSettings kind vs
  let s := if kept then s else s.queueFlash (.record kind vs false)
  s.raiseEvent 0x0150 (put 1 39 32 + put format 31 24 + put cause 23 16 + put kind 15 8 + b2n kept)

/-- R459, R515: one slot of a record is invalid where the other is used: source 0x0501. -/
def State.otherSlot (s : State) (kind : Nat) : State :=
  if s.recValid kind (s.settingRec 0 kind) && s.recValid kind (s.settingRec 1 kind) then s else s.raiseError 0x0501 corrected .module 0 none 0

/-- R432 step 3, R518: the values of a kind at bring-up: of its record, or the defaults. [DEDUCED, log 58] -/
def State.loadSettings (s : State) (kind : Nat) : State :=
  let s := match s.settingCase kind with
    | some (cause, format) => s.resetSettings kind cause format
    | none => match s.bestRec kind with | some r => (s.otherSlot kind).putSettings kind r.values | none => s
  s.measureSettings kind

/-- R518: after an MC activation a record outside its window is handled again. -/
def State.recheckSettings (s : State) (kind : Nat) : State :=
  match s.settingCase kind with
  | some (cause, format) =>
    let id := s.reg 0x03100000
    let s := (s.resetSettings kind cause format).measureSettings kind
    if s.reg 0x03100000 = id then s else s.setFabricId (s.reg 0x03100000)
  | none => s

end Sys2Proof.Machine
end

