-- ==== Sys2Proof/Machine/Security.lean ====
section
/-! DEFINITION. The thimble: the security mailbox (R508, R509), measurements and quotes (R498 to R500), sessions and keys (R501 to R507),
firmware update (R510 to R513, R521), settings records (R514, R517) and the flash devices (R491). -/

namespace Sys2Proof.Machine

/-! ### The mailbox (R508) -/

def State.mail (s : State) : HostPort → Mailbox
  | .ha => s.sec.mailA
  | .hb => s.sec.mailB

def State.setMail (s : State) : HostPort → Mailbox → State
  | .ha, m => { s with sec := { s.sec with mailA := m } }
  | .hb, m => { s with sec := { s.sec with mailB := m } }

/-- Byte `i` and a run of bytes of the request in a mailbox's buffer, and a number of its fields. -/
def Mailbox.bytes (m : Mailbox) (a n : Nat) : List Byte := (upto n).map (fun i => SMap.get 0 m.buf (a + i))
/-- [DEDUCED, log 71] -/
def Mailbox.num (m : Mailbox) (a n : Nat) : Nat := ofLe (m.bytes a n)

/-- R508: the response in the buffer, its length and its status; busy ends. -/
def State.reply (s : State) (p : HostPort) (status : Nat) (resp : List Byte) : State :=
  let m := s.mail p
  let buf := (upto resp.length).foldl (fun b i => SMap.set 0 b i (resp.getD i 0)) m.buf
  s.setMail p { m with busy := false, status := status, resp := cdiv resp.length 8, buf := buf }

/-- R509: the operations. [DEDUCED, log 71] -/
def opListed (op : Nat) : Bool := (decide (1 ≤ op) && decide (op ≤ 0xA)) || (decide (0x10 ≤ op) && decide (op ≤ 0x15)) || op == 0x20 || op == 0x21

/-- R509: the operations marked R. -/
def opRecovery (op : Nat) : Bool := op == 1 || op == 0x10 || op == 0x11 || op == 0x12 || op == 0x14 || op == 0x15

/-- R509: the operations that only the steward may request. -/
def opSteward (op : Nat) : Bool := decide (9 ≤ op)

/-- R509, R521: port `p` may request `op` now. [DEDUCED, log 72] -/
def State.opPermitted (s : State) (p : HostPort) (op : Nat) : Bool :=
  if s.recovery then opRecovery op else op != 0x15 && (!opSteward op || s.isSteward p)

/-- A request that the thimble has taken up and not yet answered: a block being programmed, a commit, an activation. -/
def State.inService (s : State) : Bool :=
  s.sec.activation.isSome ||
  s.sec.flashQ.any (fun op => match op with | .program _ _ _ _ => true | .selector (some _) _ => true | _ => false)

/-- R507: the requests that take keys in or out, which act in the order granted. -/
def opKeys (op : Nat) : Bool := decide (6 ≤ op) && decide (op ≤ 0xA)

/-- R508, R512, R544: the thimble can take up the request `op` of port `p`: one request at a time; while the module is frozen, GET_INFO and
GET_MEAS only. [DEDUCED, log 71] -/
def State.takes (s : State) (p : HostPort) (op : Nat) : Bool :=
  (s.ready || s.recovery) && (s.mail p).busy && (s.mail p).opcode == op &&
    (if s.freeze.frozen then op == 1 || op == 3 else !s.inService && !(opKeys op && s.purging))

/-- R508, R509: a request served, through the arbiter of the mailboxes: `f` gives the state after it and, where the response comes at once, its status and words.
[DEDUCED, log 71] -/
def State.serve (s : State) (p : HostPort) (op : Nat) (f : State → State × Option (Nat × List Byte)) : State :=
  if !s.takes p op then s
  else
    let s := s.passArb .mailbox (portNum p)
    if !s.opPermitted p op then s.reply p stConflict []
    else match f s with
      | (t, some (status, resp)) => t.reply p status resp
      | (t, none) => t

/-! ### Registers of the thimble (R522) -/

/-- SEC_STATUS. -/
def State.secStatus (s : State) : Nat :=
  put s.sec.mode 63 62 + put (b2n s.sec.identityValid) 61 61 + put (b2n s.ha.ideRequired) 60 60 + put (b2n s.hb.ideRequired) 59 59 +
    put (b2n s.sec.fwSession.isSome) 58 58 + put (b2n s.sec.settingsBusy) 57 57 + put s.sec.settingsStatus 56 49 +
    put (s.sec.sessions.filter (fun e => e.2.isSome)).length 48 46 + put (s.sec.keySlots.filter (fun e => e.2.isSome)).length 45 39

/-- SEC_DOMAINS and SEC_CONF_DOMAINS. -/
def State.secDomains (s : State) : Nat := ((upto 64).map (fun d => if s.keyed d then 2 ^ d else 0)).sum
def State.secConfDomains (s : State) : Nat := ((upto 64).map (fun d => if s.confidential d then 2 ^ d else 0)).sum

/-- FW_ACTIVE of image `j`. -/
def State.fwActive (s : State) (j : Nat) : Nat :=
  if s.sec.mode = 0 then 0
  else
    let f := s.slotA j
    put (s.fw j).devA 63 63 + put f.iface 47 32 + put f.svn 31 16 + put f.build 15 0

/-- FW_STAGED of image `j`. -/
def State.fwStaged (s : State) (j : Nat) : Nat :=
  let x := s.fw j
  let f := s.slotB j
  put x.staged 63 61 + put (1 - x.devA) 60 60 + put x.covered 59 48 +
    (if f.verified && (s.ready || s.recovery) then put f.iface 47 32 + put f.svn 31 16 else 0) + put x.lastStatus 15 8

/-- R509: GET_INFO. -/
def State.getInfo (s : State) : State × Option (Nat × List Byte) :=
  (s, some (stOk, leBytes 8 s.secStatus ++ (upto 5).flatMap (fun j => leBytes 8 (s.fwActive j)) ++ (upto 5).flatMap (fun j => leBytes 8 (s.fwStaged j))))

def doGetInfo (p : HostPort) (s : State) : State := s.serve p 1 State.getInfo

/-- R509: GET_INFO. -/
def execGetInfo (p : HostPort) (s : State) : Host.Outcome State Fault Refusal := .next (doGetInfo p s)

/-- R489, R509: the certificates held, each preceded by a 4-byte length. -/
def State.getCerts (s : State) : State × Option (Nat × List Byte) :=
  let certs := [Config.certificate 0, Config.certificate 1] ++ (if s.sec.aliasIssued then [Config.aliasCertificate (s.mreg 1) (s.slotA 0).svn] else [])
  (s, some (stOk, certs.flatMap (fun c => leBytes 4 c.length ++ c)))

def doGetCerts (p : HostPort) (s : State) : State := s.serve p 2 State.getCerts

/-- R509: GET_CERTS. -/
def execGetCerts (p : HostPort) (s : State) : Host.Outcome State Fault Refusal := .next (doGetCerts p s)

/-- R498, R509: M0 to M15 in order. -/
def State.allMeasures (s : State) : List Byte := (upto 16).flatMap s.mreg

def doGetMeas (p : HostPort) (s : State) : State := s.serve p 3 (fun s => (s, some (stOk, s.allMeasures)))

/-- R509: GET_MEAS. -/
def execGetMeas (p : HostPort) (s : State) : Host.Outcome State Fault Refusal := .next (doGetMeas p s)

/-- R498: EXTEND: a register 11 to 15 and 32 bytes. -/
def State.extendHost (s : State) (m : Mailbox) : State × Option (Nat × List Byte) :=
  let r := m.num 0 8
  if 11 ≤ r ∧ r ≤ 15 then (s.extendMeasure r (m.bytes 8 32), some (stOk, [])) else (s, some (stConflict, []))

def doExtend (p : HostPort) (s : State) : State := s.serve p 4 (fun s => s.extendHost (s.mail p))

/-- R498: EXTEND. -/
def execExtend (p : HostPort) (s : State) : Host.Outcome State Fault Refusal := .next (doExtend p s)

/-! ### Quotes and sessions (R499 to R501) -/

/-- R499: bytes 0x000 to 0x27F of a quote. -/
def State.quoteHead (s : State) (nonce report : List Byte) (session : Option Nat) : List Byte :=
  let id := s.reg 0x03100000
  leBytes 4 0x51544732 ++ leBytes 2 1 ++ leBytes 2 (b2n session.isSome) ++ nonce ++ report ++ leBytes 8 s.now ++ leBytes 8 s.sec.dsn ++
    leBytes 2 (put (b2n (bit id 31)) 15 15 + fld id 13 0) ++ leBytes 2 s.subsystem ++ leBytes 1 0x11 ++ leBytes 1 (session.getD 0xFF) ++ leBytes 2 0 ++
    (upto 5).flatMap (fun j => leBytes 2 (s.slotA j).iface ++ leBytes 2 (s.slotA j).svn) ++ leBytes 12 0 ++ s.allMeasures

/-- R499: a quote, signed with the alias key. -/
def State.quote (s : State) (head : List Byte) : List Byte × State :=
  (head ++ Config.slhSign false s.sec.aliasSeed head s.freeCtr, { s with freeCtr := s.freeCtr + 1 })

def State.session (s : State) (i : Nat) : Option Session := if i < 4 then SMap.get none s.sec.sessions i else none
def State.setSession (s : State) (i : Nat) (x : Option Session) : State := { s with sec := { s.sec with sessions := SMap.set none s.sec.sessions i x } }

/-- R501: a session opened under number `i`: its quote and ek. [DEDUCED, log 73] -/
def State.openSession (s : State) (i : Nat) (nonce user : List Byte) : State × Option (Nat × List Byte) :=
  let (seed, s) := s.draw
  let ek := Config.kemEncapsulationKey seed
  let head := s.quoteHead nonce (sha256 (ek ++ user)) (some i)
  let (q, s) := s.quote head
  let s := s.setSession i (some { uid := s.sec.opened, dk := seed, salt := sha256 head, last := s.now })
  ({ s with sec := { s.sec with opened := s.sec.opened + 1 } }, some (stOk, q ++ ek))

/-- R499 to R501: ATTEST: nonce, report_data and session flag. [DEDUCED, log 72] -/
def State.attest (s : State) (m : Mailbox) : State × Option (Nat × List Byte) :=
  if !s.sec.identityValid || !s.sec.aliasIssued then (s, some (stNotReady, []))
  else if bit (m.num 64 8) 0 then
    match (upto 4).find? (fun i => (s.session i).isNone) with
    | some i => s.openSession i (m.bytes 0 32) (m.bytes 32 32)
    | none => (s, some (stConflict, []))
  else
    let (q, s) := s.quote (s.quoteHead (m.bytes 0 32) (m.bytes 32 32) none)
    (s, some (stOk, q))

def doAttest (p : HostPort) (s : State) : State := s.serve p 5 (fun s => s.attest (s.mail p))

/-- R499: ATTEST. -/
def execAttest (p : HostPort) (s : State) : Host.Outcome State Fault Refusal := .next (doAttest p s)

/-! ### Keys (R502 to R507) -/

/-- R504: some open session sets flag `b`. -/
def State.anyFlag (s : State) (b : Nat) : Bool := s.sec.sessions.any (fun e => match e.2 with | some x => bit x.flags b | none => false)

/-- R504, R498: the IDE-required state of the ports follows the sessions; each change extends M9. -/
def State.recheckIde (s : State) : State :=
  [HostPort.ha, HostPort.hb].foldl (fun (s : State) p =>
    let v := s.anyFlag (portNum p)
    if (s.port p).ideRequired = v then s else (s.modPort p (fun x => { x with ideRequired := v })).extendM9Free) s

def State.domKey (s : State) (d : Nat) : DomainKey := SMap.get {} s.sec.domains d
def State.setDomKey (s : State) (d : Nat) (x : DomainKey) : State := { s with sec := { s.sec with domains := SMap.set {} s.sec.domains d x } }

/-- R315, R503: domain `d` has an assigned granule. -/
def State.domainAssigned (s : State) (d : Nat) : Bool := s.granules.any (fun e => e.2 == d + 1)

/-- R503: a key item that a KEY_RELEASE of session `uid` may install. -/
def State.itemOk (s : State) (uid : Nat) (it : List Byte) : Bool :=
  let t := leAt it 1 1
  if leAt it 0 1 = 1 then
    decide (t < 64) && decide (leAt it 2 1 < 64) && (match SMap.get none s.sec.keySlots t with | some k => k.session == uid | none => true)
  else if leAt it 0 1 = 2 then
    decide (t < 64) && ((s.domKey t).holder == 0 || (s.domKey t).holder == uid + 1) && (!(s.domKey t).keyed || (s.domKey t).holder == uid + 1) &&
      !s.domainAssigned t
  else false

/-- R503: a key item installed; M9 extended with its digest. -/
def State.installItem (s : State) (uid : Nat) (it : List Byte) : State :=
  let t := leAt it 1 1
  let s :=
    if leAt it 0 1 = 1 then
      { s with sec := { s.sec with keySlots := SMap.set none s.sec.keySlots t (some { key := (it.drop 16).take 32, domain := leAt it 2 1, session := uid }) } }
    else s.setDomKey t { s.domKey t with keyed := true, holder := uid + 1, key := (it.drop 16).take 64 }
  s.extendMeasure 9 (sha256 it)

/-- A request names session `i`: its idle time starts again (R501). -/
def State.touchSession (s : State) (i : Nat) (x : Session) : State := s.setSession i (some { x with last := s.now })

/-- R503: a payload that decrypted, taken in wholly or not at all. -/
def State.release (s : State) (i : Nat) (x : Session) (ss plain : List Byte) : State × Option (Nat × List Byte) :=
  let items := (chunks 80 32 (plain.drop 16)).filter (fun it => it.length == 80)
  if leAt plain 0 8 ≤ x.seq ∨ items.any (fun it => !s.itemOk x.uid it) then (s, some (stConflict, []))
  else
    let s := s.setSession i (some { x with seq := leAt plain 0 8, flags := leAt plain 8 8, auth := hkdf x.salt ss (ascii "kr-auth") 32,
                                           psk := hkdf x.salt ss (ascii "kr-psk") 32, last := s.now })
    ((items.foldl (fun s it => s.installItem x.uid it) s).recheckIde, some (stOk, []))

/-- R502, R503: KEY_RELEASE. [DEDUCED, log 73] -/
def State.keyRelease (s : State) (m : Mailbox) : State × Option (Nat × List Byte) :=
  let i := m.num 0 8
  let n := (8 * m.req - 1140) / 80
  if !s.sec.identityValid then (s, some (stNotReady, []))
  else match s.session i with
    | none => (s, some (stConflict, []))
    | some x =>
      let s := s.touchSession i x
      if 8 * m.req < 1140 ∨ 32 < n then (s, some (stConflict, []))
      else
        let ss := Config.kemDecapsulate x.dk (m.bytes 8 1088)
        match gcmOpen (hkdf x.salt ss (ascii "kr-kek") 32) (m.bytes 1096 12) [] (m.bytes 1108 (16 + 80 * n)) (m.bytes (1124 + 80 * n) 16) with
        | none => (s, some (stBadSignature, []))
        | some plain => s.release i x ss plain

def doKeyRelease (p : HostPort) (s : State) : State := s.serve p 6 (fun s => s.keyRelease (s.mail p))

/-- R503: KEY_RELEASE. -/
def execKeyRelease (p : HostPort) (s : State) : Host.Outcome State Fault Refusal := .next (doKeyRelease p s)

/-- A request authenticated under AUTH: `n` bytes that begin with the session and seq, and their HMAC after them. -/
def State.authed (s : State) (m : Mailbox) (n : Nat) : (Nat × Session) ⊕ Nat :=
  let i := m.num 0 8
  match s.session i with
  | none => .inr stConflict
  | some x =>
    if x.auth = [] ∨ hmac x.auth (m.bytes 0 n) ≠ m.bytes n 32 then .inr stBadSignature
    else if m.num 8 8 ≤ x.seq then .inr stConflict
    else .inl (i, x)

/-- The session that a request names, its idle time started again. [DEDUCED, log 73] -/
def State.touchNamed (s : State) (m : Mailbox) : State :=
  match s.session (m.num 0 8) with | some x => s.touchSession (m.num 0 8) x | none => s

/-- R505: DOMAIN_AUTH: session, seq, assign, domain, first and count. [DEDUCED, log 73] -/
def State.domainAuth (s : State) (m : Mailbox) : State × Option (Nat × List Byte) :=
  let t := s.touchNamed m
  match s.authed m 48 with
  | .inr st => (t, some (st, []))
  | .inl (i, x) =>
    let d := m.num 24 8
    if (s.domKey d).holder ≠ x.uid + 1 then (t, some (stConflict, []))
    else
      let t := t.setSession i (some { x with seq := m.num 8 8, last := s.now })
      ({ t with sec := { t.sec with auths := t.sec.auths ++ [{ session := x.uid, assign := m.num 16 8 != 0, domain := d, first := m.num 32 8,
                                                               count := m.num 40 8, time := s.now }] } }, some (stOk, []))

def doDomainAuth (p : HostPort) (s : State) : State := s.serve p 7 (fun s => s.domainAuth (s.mail p))

/-- R505: DOMAIN_AUTH. -/
def execDomainAuth (p : HostPort) (s : State) : Host.Outcome State Fault Refusal := .next (doDomainAuth p s)

/-- R507, R527: a purge begins: the work of the domain stops, its counters are zero, and its memory and the SRAM of its cores are
zero-filled. [DEDUCED, log 74] -/
def State.purge (s : State) (d : Nat) : State :=
  let s := s.stopDomain d
  let s : State := { s with ctx := SMap.clear s.ctx (16 * d) (16 * d + 16) }
  let s := s.setDomKey d { s.domKey d with purging := true }
  ((upto 24).filter (fun c => (s.core c).sramDomain == d)).foldl (fun s c =>
    State.scrubCore (s.modCore c (fun x => { x with scrubBusy := true, blocksScrub := 512 - x.blocksOut })) c) s

/-- The key slots that satisfy `p` cleared. -/
def State.dropSlots (s : State) (p : KeySlot → Bool) : State :=
  let keep := fun (k : Option KeySlot) => match k with
    | some y => if p y then none else some y
    | none => none
  { s with sec := { s.sec with keySlots := SMap.mapVals none (fun _ k => keep k) s.sec.keySlots } }

/-- The domains that a session holds. -/
def State.heldBy (s : State) (uid : Nat) : List Nat := (upto 64).filter (fun d => (s.domKey d).holder == uid + 1)

/-- R507: SESSION_CLOSE: session, seq, and their HMAC. [DEDUCED, log 74] -/
def State.closeSession (s : State) (m : Mailbox) : State × Option (Nat × List Byte) :=
  match s.authed m 16 with
  | .inr st => (s.touchNamed m, some (st, []))
  | .inl (i, x) =>
    let s := s.setSession i none
    let s := s.dropSlots (fun y => y.session == x.uid)
    (((s.heldBy x.uid).foldl State.purge s).recheckIde, some (stOk, []))

def doSessionClose (p : HostPort) (s : State) : State := s.serve p 8 (fun s => s.closeSession (s.mail p))

/-- R507: SESSION_CLOSE. -/
def execSessionClose (p : HostPort) (s : State) : Host.Outcome State Fault Refusal := .next (doSessionClose p s)

/-- R507: DOMAIN_PURGE. -/
def State.purgeRequest (s : State) (m : Mailbox) : State × Option (Nat × List Byte) :=
  let d := m.num 0 8
  if d < 64 then (s.purge d, some (stOk, [])) else (s, some (stConflict, []))

def doDomainPurge (p : HostPort) (s : State) : State := s.serve p 9 (fun s => s.purgeRequest (s.mail p))

/-- R507: DOMAIN_PURGE. -/
def execDomainPurge (p : HostPort) (s : State) : Host.Outcome State Fault Refusal := .next (doDomainPurge p s)

/-- R507: what the end of a purge leaves: memory zero and unassigned, key and slots cleared, the session's hold released.
[DEDUCED, log 74] -/
def State.purged (s : State) (d : Nat) : State :=
  let gs := (s.granules.filter (fun e => e.2 == d + 1)).map (·.1)
  let s := gs.foldl (fun s g => s.zeroFill (g * granuleSize) granuleSize) s
  let s : State := { s with granules := s.granules.filter (fun e => e.2 != d + 1) }
  let s := s.setDomKey d {}
  let s := s.dropSlots (fun y => y.domain == d)
  s.extendM9Free

/-- R507, R512: the zero-fill of a purged domain ends; a TH activation that waited for it begins its hold. -/
def doPurgeComplete (d : Nat) (s : State) : State :=
  if s.ready && !s.freeze.frozen && (s.domKey d).purging then (s.purged d).beginHold else s

/-- R507: DOMAIN_PURGE_COMPLETE. -/
def execDomainPurgeComplete (d : Nat) (s : State) : Host.Outcome State Fault Refusal :=
  if d < 64 then .next (doPurgeComplete d s) else .fault .noSuchUnit

/-- R507: DOMAIN_KEYGEN. [DEDUCED, log 73] -/
def State.keygen (s : State) (m : Mailbox) : State × Option (Nat × List Byte) :=
  let d := m.num 0 8
  if 64 ≤ d ∨ s.domainAssigned d ∨ (s.domKey d).holder ≠ 0 then (s, some (stConflict, []))
  else
    let s := s.setDomKey d { s.domKey d with keyed := true, key := Config.randomBytes s.freeCtr 64 }
    ({ s with freeCtr := s.freeCtr + 1 }, some (stOk, []))

def doDomainKeygen (p : HostPort) (s : State) : State := s.serve p 0xA (fun s => s.keygen (s.mail p))

/-- R507: DOMAIN_KEYGEN. -/
def execDomainKeygen (p : HostPort) (s : State) : Host.Outcome State Fault Refusal := .next (doDomainKeygen p s)

/-- R501: a session ends after 10 minutes with no request; its domains and slots keep their keys (R507). [DEDUCED, log 73] -/
def doSessionTimeout (i : Nat) (s : State) : State :=
  if !s.ready || s.freeze.frozen then s
  else match s.session i with
    | some x => (State.setSession { s with now := max s.now (x.last + 600000000000) } i none).recheckIde
    | none => s

/-- R501: SESSION_TIMEOUT. -/
def execSessionTimeout (i : Nat) (s : State) : Host.Outcome State Fault Refusal :=
  if i < 4 then .next (doSessionTimeout i s) else .fault .noSuchUnit

/-- R505: an authorisation not consumed within 60 s lapses. -/
def doAuthorisationLapse (i : Nat) (s : State) : State :=
  if !s.ready || s.freeze.frozen then s
  else match s.sec.auths[i]? with
    | some a => { s with now := max s.now (a.time + 60000000000), sec := { s.sec with auths := s.sec.auths.eraseIdx i } }
    | none => s

/-- R505: AUTHORISATION_LAPSE. -/
def execAuthorisationLapse (i : Nat) (s : State) : Host.Outcome State Fault Refusal := .next (doAuthorisationLapse i s)

/-! ### Firmware sessions (R510, R521) -/

/-- The firmware session of `image` is open and its slot is in state `st`. -/
def State.fwIn (s : State) (image st : Nat) : Bool := (match s.sec.fwSession with | some (i, _) => i == image | none => false) && (s.fw image).staged == st

/-- R521: a request of the session. -/
def State.fwTouch (s : State) : State := { s with sec := { s.sec with fwSession := s.sec.fwSession.map (fun x => (x.1, s.now)) } }

/-- The status of a request that the slot's state does not let run: while slot B is erased the request comes too early, and outside the
session it conflicts. [DEDUCED, log 75] -/
def State.fwRefusal (s : State) (image : Nat) : Nat := if s.fwIn image 1 then stNotReady else stConflict

/-- R510 step 1: FW_BEGIN: the session opens and slot B is erased. -/
def State.fwBegin (s : State) (m : Mailbox) : State × Option (Nat × List Byte) :=
  let j := m.num 0 8
  if 5 ≤ j ∨ s.sec.fwSession.isSome then (s, some (stConflict, []))
  else
    let dev := 1 - (s.fw j).devA
    let s := s.setFile dev j { s.file dev j with verified := false }
    let s := s.setFw j { s.fw j with staged := 1, covered := 0 }
    (State.queueFlash { s with sec := { s.sec with fwSession := some (j, s.now) } } (.eraseB j), some (stOk, []))

def doFwBegin (p : HostPort) (s : State) : State := s.serve p 0x10 (fun s => s.fwBegin (s.mail p))

/-- R510: FW_BEGIN. -/
def execFwBegin (p : HostPort) (s : State) : Host.Outcome State Fault Refusal := .next (doFwBegin p s)

/-- R510 step 2: the length of a block is a multiple of 4,096, but for one that ends the image as its header states. [DEDUCED, log 75] -/
def State.blockLenOk (s : State) (j off : Nat) (data : List Byte) : Bool :=
  let f := s.slotB j
  let f := if off = 0 then { f with units := SMap.set [] f.units 0 (data.take 4096) } else f
  data.length % 4096 == 0 || (f.header.length == 4096 && off + data.length == f.length)

/-- R510 step 2: FW_WRITE: image code, 3 reserved bytes, offset, data. -/
def State.fwWrite (s : State) (p : HostPort) (m : Mailbox) : State × Option (Nat × List Byte) :=
  let j := m.num 0 1
  let off := m.num 4 4
  let data := m.bytes 8 (8 * m.req - 8)
  let us := chunks 4096 15 data
  let s := s.fwTouch
  if !s.fwIn j 2 then (s, some (s.fwRefusal j, []))
  else if off % 4096 ≠ 0 ∨ data = [] ∨ 61440 < data.length ∨ areaSize j < off + data.length ∨ !s.blockLenOk j off data ∨
      (upto us.length).any (fun k => (s.slotB j).unit (off / 4096 + k) != []) then (s, some (stConflict, []))
  else (s.queueFlash (.program p j (off / 4096) us), none)

def doFwWrite (p : HostPort) (s : State) : State := s.serve p 0x11 (fun s => s.fwWrite p (s.mail p))

/-- R510: FW_WRITE. -/
def execFwWrite (p : HostPort) (s : State) : Host.Outcome State Fault Refusal := .next (doFwWrite p s)

/-- R510 step 3: FW_VERIFY. -/
def State.fwVerify (s : State) (m : Mailbox) : State × Option (Nat × List Byte) :=
  let j := m.num 0 8
  let s := s.fwTouch
  if s.fwIn j 2 then (s.setFw j { s.fw j with staged := 3 }, some (stOk, [])) else (s, some (s.fwRefusal j, []))

def doFwVerify (p : HostPort) (s : State) : State := s.serve p 0x12 (fun s => s.fwVerify (s.mail p))

/-- R510: FW_VERIFY. -/
def execFwVerify (p : HostPort) (s : State) : Host.Outcome State Fault Refusal := .next (doFwVerify p s)

/-- R510 step 3: verification ends; so does the session. [DESIGN CHOICE, log 3; DEDUCED, log 75] -/
def doFwVerifyComplete (s : State) : State :=
  if !(s.ready || s.recovery) || s.freeze.frozen then s
  else match s.sec.fwSession with
    | some (j, _) =>
      if s.fwIn j 3 then
        let f := s.slotB j
        let st := s.verifyImage j f
        let s := if st = stOk then s.setFile (1 - (s.fw j).devA) j f.verifiedBy else s
        let s := s.setFw j { s.fw j with staged := if st = stOk then 4 else 5, lastStatus := st }
        { s with sec := { s.sec with fwSession := none } }
      else s
    | none => s

/-- R510: FW_VERIFY_COMPLETE. -/
def execFwVerifyComplete (s : State) : Host.Outcome State Fault Refusal := .next (doFwVerifyComplete s)

/-- R510 step 4, R521: the session is abandoned: the slot is INVALID. -/
def State.fwAbandon (s : State) (j : Nat) : State :=
  let s := s.setFw j { s.fw j with staged := 5 }
  { s with sec := { s.sec with fwSession := none } }

/-- R510 step 4: FW_ABORT. -/
def State.fwAbort (s : State) (m : Mailbox) : State × Option (Nat × List Byte) :=
  let j := m.num 0 8
  match s.sec.fwSession with
  | some (i, _) => if i = j then (s.fwAbandon j, some (stOk, [])) else (s.fwTouch, some (stConflict, []))
  | none => (s, some (stConflict, []))

def doFwAbort (p : HostPort) (s : State) : State := s.serve p 0x14 (fun s => s.fwAbort (s.mail p))

/-- R510: FW_ABORT. -/
def execFwAbort (p : HostPort) (s : State) : Host.Outcome State Fault Refusal := .next (doFwAbort p s)

/-- R521: in RECOVERY a session that receives no request for 60 s is abandoned. -/
def doFwIdle (s : State) : State :=
  if !s.recovery then s
  else match s.sec.fwSession with
    | some (j, last) => State.fwAbandon { s with now := max s.now (last + 60000000000) } j
    | none => s

/-- R521: FW_SESSION_IDLE_TIMEOUT. -/
def execFwSessionIdleTimeout (s : State) : Host.Outcome State Fault Refusal := .next (doFwIdle s)

/-- R521: FW_COMMIT: a verified slot B becomes slot A in the boot selector. -/
def State.fwCommit (s : State) (p : HostPort) (m : Mailbox) : State × Option (Nat × List Byte) :=
  let j := m.num 0 8
  if j < 5 ∧ (s.fw j).staged = 4 then (s.queueFlash (.selector (some p) j), none) else (s, some (stConflict, []))

def doFwCommit (p : HostPort) (s : State) : State := s.serve p 0x15 (fun s => s.fwCommit p (s.mail p))

/-- R521: FW_COMMIT. -/
def execFwCommit (p : HostPort) (s : State) : Host.Outcome State Fault Refusal := .next (doFwCommit p s)

/-! ### Activation (R511 to R513) -/

/-- R511: the order of activation. [DEDUCED, log 76] -/
def activationOrder : List Nat := [4, 2, 3, 1, 0]

/-- R496, R511: the image in slot B of `j` is compatible with the images running. -/
def State.fitsRunning (s : State) (j : Nat) : Bool := (upto 5).all (fun i => i == j || compatible j (s.slotB j) i (s.slotA i))

/-- R507: pin_th: the domains of the open sessions that set it are purged before the new TH runs. -/
def State.purgePinned (s : State) : State :=
  (s.sec.sessions.filter (fun e => match e.2 with | some x => bit x.flags 2 | none => false)).foldl (fun s e => match e.2 with
    | some x => (s.heldBy x.uid).foldl State.purge s
    | none => s) s

/-- R511: the operation ends with a response. -/
def State.endActivation (s : State) (p : HostPort) (status : Nat) : State :=
  State.reply { s with sec := { s.sec with activation := none } } p status []

/-- R511: the next image of an operation: it begins to activate, or its refusal ends the operation. -/
def State.activateNext (s : State) (p : HostPort) : List Nat → State
  | [] => s.endActivation p stOk
  | j :: rest =>
    if s.fitsRunning j then
      let s := s.setFw j { s.fw j with staged := 6 }
      let s : State := { s with sec := { s.sec with activation := some { port := p, rest := rest, cur := j, deadline := 0 },
                                                    mode := if j = 0 then 2 else s.sec.mode } }
      (if j = 0 then s.purgePinned else s).beginHold
    else (s.setFw j { s.fw j with lastStatus := stIncompatible }).endActivation p stIncompatible

/-- R511: FW_ACTIVATE: the images of the mask whose slot B is STAGED. -/
def State.fwActivate (s : State) (p : HostPort) (m : Mailbox) : State × Option (Nat × List Byte) :=
  (s.activateNext p (activationOrder.filter (fun j => bit (m.num 0 8) j && (s.fw j).staged == 4)), none)

def doFwActivate (p : HostPort) (s : State) : State := s.serve p 0x13 (fun s => s.fwActivate p (s.mail p))

/-- R511: FW_ACTIVATE. -/
def execFwActivate (p : HostPort) (s : State) : Host.Outcome State Fault Refusal := .next (doFwActivate p s)

/-- R498, R513: the unit runs the new image: the slots change places, the measurements follow, and the boot selector is to be written.
[DEDUCED, log 76] -/
def State.unitRuns (s : State) (j : Nat) : State :=
  let s := s.setFw j { s.fw j with devA := 1 - (s.fw j).devA, staged := 4, covered := 0, lastStatus := stOk }
  let s := (s.queueFlash (.selector none j)).setMreg (1 + j) (s.slotA j).measure
  let s := (s.extendMeasure 10 (BitVec.ofNat 8 j :: List.replicate 31 0)).extendMeasure 10 (s.slotA j).measure
  if j = 0 then { s with sec := { s.sec with mode := 1, aliasIssued := false, aliasSeed := if s.sec.identityValid then aliasKey (s.mreg 1) else [] } }
  else if j = 1 then (upto 3).foldl State.recheckSettings s
  else s

/-- R513: an activated unit reports itself running; the next image of the operation follows. -/
def doFwUnitRunning (j : Nat) (s : State) : State :=
  if !s.ready || s.freeze.frozen then s
  else match s.sec.activation with
    | some a => if a.cur = j ∧ a.deadline ≠ 0 ∧ s.mayRun j then (s.unitRuns j).activateNext a.port a.rest else s
    | none => s

/-- R513: FW_UNIT_RUNNING. -/
def execFwUnitRunning (j : Nat) (s : State) : Host.Outcome State Fault Refusal :=
  if j < 5 then .next (doFwUnitRunning j s) else .fault .noSuchUnit

/-- R513: a unit that does not report running within its hold runs its previous image again; the slot is INVALID and the operation stops.
[DEDUCED, log 76] -/
def doActivationTimeout (j : Nat) (s : State) : State :=
  if !s.ready || s.freeze.frozen then s
  else match s.sec.activation with
    | some a =>
      if a.cur = j ∧ a.deadline ≠ 0 ∧ s.mayRun j then
        let s : State := { s with now := max s.now a.deadline, sec := { s.sec with mode := if j = 0 then 1 else s.sec.mode } }
        (s.setFw j { s.fw j with staged := 5, lastStatus := stTimeout }).endActivation a.port stIncompatible
      else s
    | none => s

/-- R513: ACTIVATION_TIMEOUT. -/
def execActivationTimeout (j : Nat) (s : State) : Host.Outcome State Fault Refusal :=
  if j < 5 then .next (doActivationTimeout j s) else .fault .noSuchUnit

/-! ### Settings records and floors (R514, R517) -/

/-- R517: a record of the values in force begins to be written. -/
def State.writeSettings (s : State) (kind : Nat) : State :=
  State.queueFlash { s with sec := { s.sec with settingsBusy := true } } (.record kind (s.settingValues kind) true)

/-- R517: SETTINGS_WRITE. [DEDUCED, log 77] -/
def State.settingsWrite (s : State) (m : Mailbox) : State × Option (Nat × List Byte) :=
  let k := m.num 0 8
  if !s.sec.identityValid then (s, some (stNotReady, []))
  else if 3 ≤ k ∨ s.sec.settingsBusy then (s, some (stConflict, []))
  else (s.writeSettings k, some (stOk, []))

def doSettingsWrite (p : HostPort) (s : State) : State := s.serve p 0x20 (fun s => s.settingsWrite (s.mail p))

/-- R517: SETTINGS_WRITE. -/
def execSettingsWrite (p : HostPort) (s : State) : Host.Outcome State Fault Refusal := .next (doSettingsWrite p s)

/-- R514: the floor of an image raised; a STAGED slot below it becomes INVALID. [DEDUCED, log 76] -/
def State.raiseFloor (s : State) (j svn : Nat) : State :=
  let s : State := { s with sec := { s.sec with floors := SMap.set 0 s.sec.floors j svn } }
  let s := if (s.fw j).staged = 4 ∧ (s.slotB j).svn < svn then s.setFw j { s.fw j with staged := 5 } else s
  s.measureSettings 0

/-- R514: SET_MIN_SVN: image code and svn. -/
def State.setMinSvn (s : State) (m : Mailbox) : State × Option (Nat × List Byte) :=
  let j := m.num 0 8
  let svn := m.num 8 8
  if !s.sec.identityValid then (s, some (stNotReady, []))
  else if 5 ≤ j ∨ svn < s.floor j ∨ (s.slotA j).svn < svn ∨ s.sec.settingsBusy then (s, some (stConflict, []))
  else ((s.raiseFloor j svn).writeSettings 0, some (stOk, []))

def doSetMinSvn (p : HostPort) (s : State) : State := s.serve p 0x21 (fun s => s.setMinSvn (s.mail p))

/-- R514: SET_MIN_SVN. -/
def execSetMinSvn (p : HostPort) (s : State) : Host.Outcome State Fault Refusal := .next (doSetMinSvn p s)

/-- R489: the alias certificate of the running TH is issued, and is to be stored. -/
def doAliasCert (s : State) : State :=
  if s.ready && !s.freeze.frozen && s.sec.identityValid && !s.sec.aliasIssued && s.sec.mode == 1 then
    State.queueFlash { s with sec := { s.sec with aliasIssued := true } } (.aliasCert (s.mreg 1))
  else s

/-- R489: ALIAS_CERT_ISSUE. -/
def execAliasCertIssue (s : State) : Host.Outcome State Fault Refusal := .next (doAliasCert s)

/-! ### Flash (R491, R492, R520) -/

/-- R492: the copy in force of the boot selector: the valid one with the higher sequence. -/
def State.selector (s : State) : Option Selector :=
  let a := SMap.get ({} : Selector) s.sec.selectors 0
  let b := SMap.get ({} : Selector) s.sec.selectors 1
  if a.valid && (!b.valid || decide (b.seq ≤ a.seq)) then some a else if b.valid then some b else none

/-- Of two copies, the device whose copy is invalid, or the one with the lower sequence (R492, R517, R520). [DEDUCED, log 75] -/
def olderCopy (v0 v1 : Bool) (q0 q1 : Nat) : Nat := if !v0 then 0 else if !v1 then 1 else if q0 ≤ q1 then 0 else 1

/-- R492, R513, R521: the selector written, with the device of slot A of image `j`. -/
def State.writeSelector (s : State) (j dev : Nat) : State :=
  let a := SMap.get ({} : Selector) s.sec.selectors 0
  let b := SMap.get ({} : Selector) s.sec.selectors 1
  let cur := s.selector.getD {}
  let x : Selector := { valid := true, seq := (cur.seq + 1) % 2 ^ 32, map := setFld cur.map j j dev }
  { s with sec := { s.sec with selectors := SMap.set {} s.sec.selectors (olderCopy a.valid b.valid a.seq b.seq) x } }

/-- R517: a settings record signed, and written to the slot with the lower write_seq, or to an invalid one. -/
def State.writeRecord (s : State) (kind : Nat) (vs : List Nat) : State :=
  let a := s.settingRec 0 kind
  let b := s.settingRec 1 kind
  let va := s.recValid kind a
  let vb := s.recValid kind b
  let seq := max (if va then a.seq else 0) (if vb then b.seq else 0) + 1
  { s with freeCtr := s.freeCtr + 1,
           sec := { s.sec with records := SMap.set {} s.sec.records (3 * olderCopy va vb a.seq b.seq + kind) (s.signRecord kind seq vs) } }

/-- R520: a copy of a hub's training record. -/
def State.trainRec (s : State) (dev h : Nat) : TrainRec := SMap.get {} s.sec.training (8 * dev + h)

/-- R520: what the HMAC of a training record is over: the whole of it. -/
def TrainRec.bytes (r : TrainRec) : List Byte :=
  Config.trainingBytes ((r.seq : Int) :: (r.delays ++ r.tables.flatMap (fun t => (t.2 : Int) :: t.1.flatMap (fun e => [(e.1 : Int), (e.2.replacement : Int)]))))

/-- R488, R520: a copy's HMAC verifies under the training MAC key. -/
def State.trainValid (s : State) (r : TrainRec) : Bool := r.mac != [] && s.sec.trainKey != [] && r.mac == hmac s.sec.trainKey r.bytes

/-- R520: the copy in force: the valid one with the higher sequence. -/
def State.trainInForce (s : State) (h : Nat) : Option TrainRec :=
  let a := s.trainRec 0 h
  let b := s.trainRec 1 h
  if s.trainValid a && (!s.trainValid b || decide (b.seq ≤ a.seq)) then some a else if s.trainValid b then some b else none

/-- R305, R308, R520: the delays and remap tables of a hub's channels written to the other copy. -/
def State.writeTraining (s : State) (h : Nat) : State :=
  let a := s.trainRec 0 h
  let b := s.trainRec 1 h
  let chans := (upto 48).map (fun c => s.channel (48 * h + c))
  let r : TrainRec :=
    { seq := max a.seq b.seq + 1, delays := chans.map (·.delay),
      tables := chans.map (fun c => ((c.pages.filter (fun e => e.2.retired)).map (fun e => (e.1, ({ replacement := e.2.replacement, retired := true } : Page))), c.remaps)) }
  { s with sec := { s.sec with training := SMap.set {} s.sec.training (8 * olderCopy (s.trainValid a) (s.trainValid b) a.seq b.seq + h) { r with mac := hmac s.sec.trainKey r.bytes } } }

/-- R510: slot B of an image is erased: it is LOADING once no erasure of it is left. -/
def State.erased (s : State) (j : Nat) : State :=
  let dev := 1 - (s.fw j).devA
  let s := s.setFile dev j {}
  if s.fwIn j 1 && !s.sec.flashQ.contains (.eraseB j) then s.setFw j { s.fw j with staged := 2 } else s

/-- R510: a block is programmed. -/
def State.programmed (s : State) (j u : Nat) (us : List (List Byte)) : State :=
  let dev := 1 - (s.fw j).devA
  let f := s.file dev j
  let units := (upto us.length).foldl (fun m k => SMap.set [] m (u + k) (us.getD k [])) f.units
  (s.setFile dev j { f with units := units }).setFw j { s.fw j with covered := units.length }

/-- What a flash operation leaves once it ends. [DEDUCED, log 75] -/
def State.flashDone (s : State) : FlashOp → State
  | .eraseB j => s.erased j
  | .program p j u us => (s.programmed j u us).reply p stOk []
  | .selector none j => s.writeSelector j (s.fw j).devA
  | .selector (some p) j => (s.writeSelector j (1 - (s.fw j).devA)).reply p stOk []
  | .record kind vs report =>
    let s := s.writeRecord kind vs
    if report then { s with sec := { s.sec with settingsBusy := false, settingsStatus := stOk } } else s
  | .training h => s.writeTraining h
  | .aliasCert m => { s with sec := { s.sec with aliasFor := SMap.set [] (SMap.set [] s.sec.aliasFor 0 m) 1 m } }

/-- R491: training records wait behind image and record writes. [DEDUCED, log 75] -/
def FlashOp.waits : FlashOp → Bool
  | .training _ => true
  | _ => false

/-- R491: the flash operation in progress ends. -/
def doFlashComplete (s : State) : State :=
  if !(s.ready || s.recovery) || s.freeze.frozen then s
  else match (match s.sec.flashQ.find? (fun op => !op.waits) with | some op => some op | none => s.sec.flashQ.head?) with
    | some op => State.flashDone { s with sec := { s.sec with flashQ := s.sec.flashQ.erase op } } op
    | none => s

/-- R491: FLASH_OPERATION_COMPLETE. -/
def execFlashOperationComplete (s : State) : Host.Outcome State Fault Refusal := .next (doFlashComplete s)

/-! ### The Data Object Exchange mailbox (R402, R414, R504) -/

/-- R504: some open session holds a PSK. -/
def State.anyPsk (s : State) : Bool := s.sec.sessions.any (fun e => match e.2 with | some x => x.psk != [] | none => false)

/-- R414, R504: an object served. [DEDUCED, log 77] -/
def State.doe (s : State) (p : HostPort) : DataObject → State
  | .spdmPsk ok => if ok && s.anyPsk then s.modPort p (fun x => { x with spdmPsk := true }) else s
  | .ideKeyProg k key => if k < 5 then s.modPort p (fun x => if x.spdmPsk then { x with ideKeys := SMap.set 0 x.ideKeys k key } else x) else s
  | .ideGo k => s.modPort p (fun x => if x.spdmPsk && x.ideKeys.any (fun e => e.1 == k) then { x with ideSecure := setIns x.ideSecure k } else x)
  | .ideStop k => s.modPort p (fun x => if x.spdmPsk then { x with ideSecure := setDel x.ideSecure k } else x)

/-- R504, R544: the thimble serves the object; while the module is frozen it waits. -/
def doDataObject (p : HostPort) (o : DataObject) (s : State) : State :=
  let t := s.undrain p
  if !s.ready || !(s.port p).linkUp then t
  else if s.freeze.frozen then t.keepAccess p (.dataObjectExchange p o)
  else t.doe p o

/-- R504: DATA_OBJECT_EXCHANGE. -/
def execDataObjectExchange (p : HostPort) (o : DataObject) (s : State) : Host.Outcome State Fault Refusal := .next (doDataObject p o s)

end Sys2Proof.Machine
end

