-- ==== Sys2Proof/Machine/Sew.lean ====
section
/-! DEFINITION. Configuration transactions (R438 to R447): staging, the checks of a SEW, its sew point and its follow-on actions. -/

namespace Sys2Proof.Machine

/-! ### The staged registers (access type ST) -/

/-- A field of a register: its bits, and the lowest and highest value that its table defines (R20). -/
structure RegField where
  hi : Nat
  lo : Nat
  least : Nat := 0
  most : Nat := 2 ^ 64

/-- The ST fields of the register at a BAR0 offset; none where it has none. -/
def stFields (off : Nat) : Option (List RegField) :=
  if off = 0x03780000 then some [⟨31, 31, 0, 1⟩, ⟨23, 16, 0, 255⟩]
  else if off = 0x02800010 then some [⟨1, 0, 0, 2⟩]
  else if off = 0x02810000 then some [⟨8, 0, 0, 511⟩]
  else if off = 0x02810008 then some [⟨63, 63, 0, 1⟩, ⟨62, 57, 0, 63⟩, ⟨56, 35, 1, 2 ^ 22 - 1⟩, ⟨34, 0, 0, 2 ^ 35 - 1⟩]
  else if off = 0x03100000 then some [⟨31, 31, 0, 1⟩, ⟨13, 0, 0, 16383⟩]
  else if off = 0x03100008 then some [⟨31, 31, 0, 1⟩, ⟨5, 0, 2, 49⟩]
  else if off = 0x03100018 then some [⟨63, 0, 0, 2 ^ 64 - 1⟩]
  else if off = 0x03100020 then some [⟨2, 2, 0, 1⟩, ⟨1, 0, 0, 2⟩]
  else match inBlock 0x01000000 0x10000 24 off with
    | some (_, r) =>
      if r = 0x0F00 then some [⟨7, 0, 0, 255⟩]
      else if r = 0x0F08 then some ((upto 8).map (fun q => ⟨4 * q + 2, 4 * q, 0, 7⟩))
      else if r = 0x0F10 then some ((upto 8).map (fun q => ⟨8 * q + 5, 8 * q, 0, 63⟩))
      else if r = 0x0F18 then some [⟨5, 0, 0, 63⟩]
      else none
    | none => match inBlock 0x02000000 0x100000 8 off with
      | some (_, r) => if r = 0x18 then some [⟨15, 8, 0, 255⟩] else if r = 0x28 then some [⟨31, 31, 0, 1⟩, ⟨23, 16, 1, 168⟩] else none
      | none => match inBlock 0x03000000 0x1000 48 off with
        | some (_, r) => if r = 0 then some [⟨31, 31, 0, 1⟩, ⟨30, 30, 0, 1⟩, ⟨29, 28, 0, 2⟩] else none
        | none => match inBlock 0x02800900 4 448 off with
          | some (_, r) => if r = 0 then some [⟨31, 26, 0, 63⟩, ⟨25, 22, 0, 15⟩, ⟨21, 18, 0, 15⟩, ⟨17, 14, 0, 15⟩, ⟨13, 10, 0, 15⟩] else none
          | none => match inBlock 0x03200000 0x10 256 off with
            | some (_, r) =>
              if r = 0 then some [⟨63, 63, 0, 1⟩, ⟨62, 48, 1, 16384⟩, ⟨47, 32, 0, 65535⟩, ⟨31, 18, 0, 16383⟩, ⟨17, 12, 0, 63⟩] else none
            | none => match inBlock 0x03300000 4 32768 off with
              | some (_, r) => if r = 0 then some [⟨29, 16, 0, 16383⟩, ⟨13, 0, 0, 16383⟩] else none
              | none => none

/-- The ST registers of 64 bits. -/
def stWide (off : Nat) : Bool :=
  off == 0x02810008 || off == 0x03100018 ||
  (match inBlock 0x01000000 0x10000 24 off with | some (_, r) => r == 0x0F10 | none => false) ||
  (match inBlock 0x02000000 0x100000 8 off with | some (_, r) => r == 0x18 | none => false) ||
  (match inBlock 0x03200000 0x10 256 off with | some (_, r) => r == 0 | none => false)

/-- R21: the reset value of a field: of a field marked S, the value its settings record gave. -/
def State.fieldReset (s : State) (off : Nat) (f : RegField) : Nat :=
  let find := fun (kind : Nat) =>
    match ((settingKeys kind).zip (SMap.get [] s.sec.loaded kind)).find? (fun e => e.1.1 == off && e.1.2.1 == f.lo) with
    | some e => some e.2
    | none => none
  match find 1, find 2 with
  | some v, _ => v
  | none, some v => v
  | none, none => fld (regReset off) f.hi f.lo

/-- R20: the fields written, a reserved value taken as the reset value, and whether that happened. [DEDUCED, log 12] -/
def State.takeFields (s : State) (off : Nat) (fs : List RegField) (v : Nat) : Nat × Bool :=
  fs.foldl (fun (x : Nat × Bool) f =>
    let w := fld v f.hi f.lo
    if f.least ≤ w ∧ w ≤ f.most then (x.1 + put w f.hi f.lo, x.2)
    else (x.1 + put (s.fieldReset off f) f.hi f.lo, x.2 || w != s.fieldReset off f)) (0, false)

/-- The ST fields of a register set, its other bits kept. -/
def setFields (w : Nat) (fs : List RegField) (v : Nat) : Nat := fs.foldl (fun w f => setFld w f.hi f.lo (fld v f.hi f.lo)) w

/-- What a read of an ST register's fields returns: the values in force (R19). -/
def State.stInForce (s : State) (off : Nat) : Nat :=
  if off = 0x02810008 then s.dmapLast
  else match inBlock 0x01000000 0x10000 24 off with
    | some (c, r) => if r = 0x0F18 then (s.core c).sramPending.getD (s.core c).sramDomain else s.reg off
    | none => s.reg off

/-! ### CFG_TXN_CTL (R438, R444, R445) -/

/-- R445: the idle timer starts again. -/
def State.touchTxn (s : State) (p : HostPort) : State :=
  s.modPort p (fun x => if x.txn.state = .idle then x else { x with txn := { x.txn with lastTouch := s.now } })

/-- R438: BASTE. -/
def State.baste (s : State) (p : HostPort) (v : Nat) : State :=
  let x := (s.port p).txn
  let t := fld v 15 0
  if x.state ≠ .idle then s.touchTxn p
  else
    let s := if 6000 < t then s.misuse p else s
    let idle := if t = 0 ∨ 6000 < t then 1000000000 else 10000000 * t
    s.modPort p (fun y => { y with txn := { y.txn with state := .opened, staged := [], released := false, idleNs := idle, lastTouch := s.now,
                                                       seq := (y.txn.seq + 1) % 2 ^ 32 } })

def doTouch (p : HostPort) (s : State) : State := s.hostWrite p 0x00100000 (.touch p) (fun t => t.touchTxn p)

/-- R445: TOUCH. -/
def execTouch (p : HostPort) (s : State) : Host.Outcome State Fault Refusal := .next (doTouch p s)

def doBaste (p : HostPort) (v : Nat) (s : State) : State := s.hostWrite p 0x00100000 (.baste p v) (fun t => t.baste p v)

/-- R438: BASTE. -/
def execBaste (p : HostPort) (v : Nat) (s : State) : Host.Outcome State Fault Refusal := .next (doBaste p v s)

/-- R444: UNPICK. [DEDUCED, log 69] -/
def State.unpick (s : State) (p : HostPort) : State :=
  match (s.port p).txn.state with
  | .opened => s.endTxn p stOk 1
  | .doomed => s.endTxn p stConflict 2
  | .sewing | .idle => s

def doUnpick (p : HostPort) (s : State) : State := s.hostWrite p 0x00100000 (.unpick p) (fun t => t.unpick p)

/-- R444: UNPICK. -/
def execUnpick (p : HostPort) (s : State) : Host.Outcome State Fault Refusal := .next (doUnpick p s)

/-- R445: an idle transaction is unpicked; the timer is suspended in freeze. [DESIGN CHOICE, log 5] -/
def doTxnTimeout (p : HostPort) (s : State) : State :=
  let x := (s.port p).txn
  if s.ready && !s.freeze.frozen && (x.state == .opened || x.state == .doomed) then
    State.endTxn { s with now := max s.now (x.lastTouch + x.idleNs) } p stTimeout 3
  else s

/-- R445: TRANSACTION_IDLE_TIMEOUT. -/
def execTransactionIdleTimeout (p : HostPort) (s : State) : Host.Outcome State Fault Refusal := .next (doTxnTimeout p s)

/-! ### Staged writes (R438 to R442) -/

/-- R440: a port's transaction claims a register, until it ends. [DEDUCED, log 69] -/
def Txn.claims (x : Txn) (off : Nat) : Bool := x.state != .idle && !x.released && x.staged.any (fun e => e.1 == off)

/-- R442: a port's transaction is doomed; `rel` releases its claims. [DEDUCED, log 69] -/
def State.doom (s : State) (p : HostPort) (rel : Bool) : State :=
  s.modPort p (fun x => { x with txn := { x.txn with state := .doomed, released := x.txn.released || rel } })

/-- R439: a value enters the transaction: requests accumulate, and a later value replaces an earlier one. -/
def Txn.add (x : Txn) (off v : Nat) : Txn :=
  if off ≠ 0x02810008 ∧ x.staged.any (fun e => e.1 == off) then { x with staged := x.staged.map (fun e => if e.1 = off then (off, v) else e) }
  else if x.staged.length < 1024 then { x with staged := x.staged ++ [(off, v)] }
  else { x with state := .doomed }

/-- R20, R438 to R442: a write of a whole ST register. -/
def State.stageReg (s : State) (p : HostPort) (off v : Nat) : State :=
  match stFields off with
  | none => s
  | some fs =>
    let x := (s.port p).txn
    if x.state = .idle ∨ x.state = .sewing then s.misuse p
    else if x.state = .doomed then s
    else if !s.isSteward p && !peerMayStage off then s.doom p false
    else
      let (w, bad) := s.takeFields off fs v
      let s := if bad then s.misuse p else s
      let other := (s.port (otherPort p)).txn.claims off
      if other && !s.isSteward p then s.doom p false
      else
        -- R447: what a SEW has passed its check with is not doomed
        let s := if other ∧ (s.port (otherPort p)).txn.state ≠ .sewing then s.doom (otherPort p) true else s
        s.modPort p (fun y => { y with txn := { y.txn.add off w with lastTouch := s.now } })

/-- The value that a half-width write completes: the one staged, else the one in force. [DEDUCED, log 13] -/
def State.stHalf (s : State) (p : HostPort) (off : Nat) : Nat :=
  match (s.port p).txn.staged.find? (fun e => e.1 == off) with
  | some e => if off = 0x02810008 then s.dmapLast else e.2
  | none => s.stInForce off

/-- R22: an aligned write of 4 or 8 bytes at an ST register. [DEDUCED, log 69] -/
def State.stageAt (s : State) (p : HostPort) (off size v : Nat) : State :=
  let b := off / 8 * 8
  if stWide b then
    if size = 8 then s.stageReg p b (v % 2 ^ 64)
    else if off = b then s.stageReg p b (setFld (s.stHalf p b) 31 0 v) else s.stageReg p b (setFld (s.stHalf p b) 63 32 v)
  else if size = 8 then (s.stageReg p b (v % 2 ^ 32)).stageReg p (b + 4) (v / 2 ^ 32 % 2 ^ 32)
  else s.stageReg p off (v % 2 ^ 32)

/-- R22: accesses of 4 or 8 bytes, naturally aligned. -/
def aligned (off size : Nat) : Bool := (size == 4 || size == 8) && off % size == 0

/-- [DESIGN CHOICE, log 3] -/
def doStagedWrite (p : HostPort) (off size v : Nat) (s : State) : State :=
  s.hostWrite p off (.stagedWrite p off size v) (fun t => if aligned off size then t.stageAt p off size v else t.misuse p)

/-- R440: STAGED_WRITE. -/
def execStagedWrite (p : HostPort) (off size v : Nat) (s : State) : Host.Outcome State Fault Refusal := .next (doStagedWrite p off size v s)

/-! ### The checks of a SEW (R443 step 2) -/

/-- The value of register `off` that a SEW would leave in force. -/
def State.after (s : State) (x : Txn) (off : Nat) : Nat :=
  match x.staged.find? (fun e => e.1 == off) with | some e => e.2 | none => s.stInForce off

/-- The space of a hub in bytes (R300). -/
def State.hubSpace (s : State) (h : Nat) : Nat := if (s.hub h).lost then 0 else (s.hub h).localLimit + s.ilv

/-- R300: the smallest hub space in whole GiB. -/
def State.ilvMost (s : State) : Nat := (upto 8).foldl (fun m h => min m (s.hubSpace h / 2 ^ 30)) 511

/-- The module with another ilv in force, its local regions changed by it (R300). -/
def State.withIlv (s : State) (g : Nat) : State :=
  if g = fld (s.reg 0x02810000) 8 0 then s
  else
    let hubs := (upto 8).foldl (fun m h => SMap.set {} m h { SMap.get {} m h with localLimit := s.hubSpace h - g * 2 ^ 30 }) s.hubs
    State.setField { s with hubs := hubs } 0x02810000 0 9 g

/-- R316: a granule that lies in the interleaved region, a local window or a fabric window. -/
def State.granuleAt (s : State) (g : Nat) : Bool :=
  match s.area (g * granuleSize), s.area (g * granuleSize + granuleSize - 1) with
  | some a, some b => a.granular && a == b
  | _, _ => false

/-- R316, R505: what domain-map requests carry from one to the next: the map, the authorisations left, the granules that the transaction
has assigned, and whether all has been in order. -/
structure MapRun where
  granules : SMap Nat
  auths : List Authorisation
  fresh : List Nat := []
  ok : Bool := true

/-- R505: the authorisation that a request for confidential domain `d` consumes. [DEDUCED, log 70] -/
def MapRun.consume (m : MapRun) (assign : Bool) (d first count : Nat) : MapRun :=
  match m.auths.findIdx? (fun a => a.assign == assign && a.domain == d && a.first == first && a.count == count) with
  | some i => { m with auths := m.auths.eraseIdx i }
  | none => { m with ok := false }

/-- R316: one request: `old` and `new` hold the address maps before and after the SEW (R300). [DEDUCED, log 70] -/
def State.mapRequest (s old new : State) (m : MapRun) (v : Nat) : MapRun :=
  let d := fld v 62 57
  let first := fld v 34 0
  let count := fld v 56 35
  let gs := (upto count).map (· + first)
  let owners := gs.foldl (fun ds g => match SMap.get 0 m.granules g with | 0 => ds | e + 1 => setIns ds e) []
  let secret := (setIns owners d).filter s.confidential
  let m := if secret = [] then m else if secret = [d] then m.consume (bit v 63) d first count else { m with ok := false }
  if bit v 63 then
    if gs.all (fun g => new.granuleAt g && SMap.get 0 m.granules g == 0) then
      { m with granules := gs.foldl (fun t g => SMap.set 0 t g (d + 1)) m.granules, fresh := gs.foldl setIns m.fresh }
    else { m with ok := false }
  else if gs.all old.granuleAt then
    { m with granules := gs.foldl (fun t g => SMap.set 0 t g 0) m.granules, fresh := gs.foldl setDel m.fresh }
  else { m with ok := false }

/-- The granules of the slow tier (R292, R312). -/
def slowGranule (g : Nat) : Bool := decide (g * granuleSize < 0x080000000000)

/-- R300, R316, R505: the domain-map requests of a transaction carried out in order. [DEDUCED, log 70] -/
def State.runMap (s : State) (x : Txn) : MapRun :=
  let new := s.withIlv (fld (s.after x 0x02810000) 8 0)
  (x.staged.filter (fun e => e.1 == 0x02810008)).foldl (fun m e => s.mapRequest s new m e.2) { granules := s.granules, auths := s.sec.auths }

/-- R300, R316: ilv and the domain map. [DEDUCED, log 70] -/
def State.checkMap (s : State) (x : Txn) : Bool :=
  let m := s.runMap x
  let g := fld (s.after x 0x02810000) 8 0
  m.ok && (!x.staged.any (fun e => e.1 == 0x02810000) || decide (g ≤ s.ilvMost)) &&
    (g == fld (s.reg 0x02810000) 8 0 || m.granules.all (fun e => !slowGranule e.1 || m.fresh.contains e.1))

/-- The state whose plain registers are those that the SEW would leave. -/
def State.staged (s : State) (x : Txn) : State :=
  x.staged.foldl (fun s e => match stFields e.1 with | some fs => s.setReg e.1 (setFields (s.reg e.1) fs e.2) | none => s) s

/-- R382: the communicators that a SEW changes; `t` holds the registers as they stand after it. -/
def State.changedComms (t : State) (x : Txn) : List Nat :=
  (upto 256).filter (fun c => x.staged.any (fun e => e.1 == 0x03200000 + 0x10 * c ||
    (match inBlock 0x03300000 4 32768 e.1 with
      | some (j, _) => decide (2 * j < t.commBase c + t.commSize c) && decide (t.commBase c ≤ 2 * j + 1)
      | none => false)))

/-- R382: a communicator changed by a SEW, as the registers `t` give it. -/
def State.checkComm (s t : State) (c : Nat) : Bool :=
  decide (t.commBase c + t.commSize c ≤ 65536) &&
  decide (t.commRank c < t.commSize c) && t.member c (t.commRank c) == t.fabricId && (t.members c).Nodup &&
  ((s.comm c).lost.isSome || !s.link.colls.any (fun y => y.comm == c))

/-- R339: no slot is left with an invalid recipe. -/
def State.checkRecipes (t : State) (x : Txn) : Bool :=
  (upto 28).all (fun i => !x.staged.any (fun e => e.1 / 0x40 == (0x02800900 + 0x40 * i) / 0x40) || recipeValid (t.recipeWords (i + 4)))

/-- R443 step 2: the checks of a SEW. -/
def State.sewOk (s : State) (x : Txn) : Bool :=
  let t := s.staged x
  s.checkMap x && (t.changedComms x).all (s.checkComm t) && t.checkRecipes x

/-! ### The sew point and what follows (R443 steps 3 to 5) -/

/-- One staged value in force. -/
def State.applyStaged (s : State) (e : Nat × Nat) : State :=
  match stFields e.1 with
  | none => s
  | some fs =>
    let v := setFields (s.reg e.1) fs e.2
    if e.1 = 0x02810008 then { s with dmapLast := e.2 }
    else if e.1 = 0x02810000 then (s.withIlv (fld e.2 8 0)).setField 0x02810000 31 1 0
    else if e.1 = 0x03100000 then (if v = s.reg e.1 then s else s.setFabricId v)
    else match inBlock 0x03000000 0x1000 48 e.1 with
      | some (p, _) =>
        let moved := fld v 29 28 != fld (s.reg e.1) 29 28 && ((s.fport p).linked || (s.fport p).state == .training)
        let s := s.portCtl p v
        if moved && ((s.fport p).linked || (s.fport p).state == .training) then s.portDown p 7 else s
      | none => match inBlock 0x01000000 0x10000 24 e.1 with
        | some (c, r) =>
          if r = 0x0F18 then s.modCore c (fun y => { y with sramPending := if e.2 = y.sramDomain then none else some e.2 }) else s.setReg e.1 v
        | none => s.setReg e.1 v

/-- R382: a changed communicator starts its collectives from 0, with no member lost. -/
def State.freshComms (s : State) (cs : List Nat) : State := cs.foldl (fun s c => s.setComm c {}) s

/-- R498: M6 to M8 after a SEW that changed a setting. -/
def State.remeasure (s old : State) : State :=
  [1, 2].foldl (fun (s : State) k => if s.settingValues k = old.settingValues k then s else s.measureSettings k) s

/-- R443 step 4: the ports that a sew point takes down, to train again on a new fabric ID or PMD. -/
def retrained (s t : State) : List Nat :=
  (upto 48).filter (fun p => ((s.fport p).linked || (s.fport p).state == .training) && (t.fport p).state == .down && (t.fport p).cause == 7 && t.portEnabled p)

/-- R443 step 3: the sew point; the granules assigned wait for their zero-fill. [DEDUCED, log 69] -/
def State.sewPoint (s : State) (p : HostPort) (x : Txn) : State :=
  let m := s.runMap x
  let t := x.staged.foldl State.applyStaged s
  let fill := (x.staged.filter (fun e => e.1 == 0x02810008 && bit e.2 63)).map (fun e => (fld e.2 34 0, fld e.2 56 35))
  let t : State := { t with granules := m.granules, sec := { t.sec with auths := m.auths } }
  let t := t.modPort p (fun y => { y with txn := { y.txn with state := .sewing, filling := fill, retrain := retrained s t } })
  (t.freshComms (t.changedComms x)).remeasure s

/-- R443: SEW. [DEDUCED, log 69] -/
def State.sew (s : State) (p : HostPort) : State :=
  let x := (s.port p).txn
  match x.state with
  | .idle | .sewing => s
  | .doomed => s.endTxn p stConflict 2
  | .opened =>
    let s := s.passArb .sew (portNum p)
    if s.sewOk x then s.sewPoint p x else s.endTxn p stConflict 5

def doSew (p : HostPort) (s : State) : State := s.hostWrite p 0x00100000 (.sew p) (fun t => t.sew p)

/-- R443: SEW. -/
def execSew (p : HostPort) (s : State) : Host.Outcome State Fault Refusal := .next (doSew p s)

/-- R318: the SRAM domain changes that the transaction asked for are done. -/
def State.sramDone (s : State) (x : Txn) : Bool :=
  x.staged.all (fun e => match inBlock 0x01000000 0x10000 24 e.1 with
    | some (c, r) => r != 0x0F18 || ((s.core c).sramPending.isNone && !(s.core c).scrubBusy)
    | none => true)

/-- R357, R443: a port's training has ended, with the port UP or without, or the port is not to train any more. [DEDUCED, log 69] -/
def State.trained (s : State) (p : Nat) : Bool :=
  !s.portEnabled p || ((s.fport p).state != .training && !((s.fport p).state == .down && (s.fport p).cause == 7))

/-- R443 steps 4 and 5: every follow-on action is complete: the granules assigned are zero. [DESIGN CHOICE, log 3; DEDUCED, log 69] -/
def doSewEnd (p : HostPort) (s : State) : State :=
  let x := (s.port p).txn
  if s.ready && !s.freeze.frozen && x.state == .sewing && s.sramDone x && x.retrain.all s.trained then
    let s := x.filling.foldl (fun s f => s.zeroFill (f.1 * granuleSize) (f.2 * granuleSize)) s
    (s.modPort p (fun y => { y with txn := { y.txn with filling := [], retrain := [] } })).endTxn p stOk 0
  else s

/-- R443: SEW_END. -/
def execSewEnd (p : HostPort) (s : State) : Host.Outcome State Fault Refusal := .next (doSewEnd p s)

/-- CFG_TXN_CTL written: the operation in bits [31:30]. -/
def State.txnCtl (s : State) (p : HostPort) (v : Nat) : State :=
  match fld v 31 30 with
  | 0 => s.touchTxn p
  | 1 => s.baste p v
  | 2 => s.sew p
  | _ => s.unpick p

/-- CFG_TXN_STATUS. -/
def State.txnStatus (s : State) (p : HostPort) : Nat :=
  let x := (s.port p).txn
  put (match x.state with | .idle => 0 | .opened => 1 | .doomed => 2 | .sewing => 3) 63 61 + put x.status 60 53 + put x.endCause 52 50 +
    put (b2n ((s.port (otherPort p)).txn.state != .idle)) 49 49 + put x.staged.length 48 38 + put x.seq 31 0

end Sys2Proof.Machine
end

