-- ==== Sys2Proof/Machine/Power.lean ====
section
/-! DEFINITION. Bring-up (R431 to R437), the supply (R560 to R562), power states, capping and thermal control (R448 to R455), the time input
(R559), the identity and status page and the management bus (R563). -/

namespace Sys2Proof.Machine

/-! ### The core rail (R43 to R45, R450) -/

/-- R450: in ACTIVE the rail follows the limits. -/
def State.applyRail (s : State) : State := if s.power.state = .active then s.slewTo s.power.wanted else s

/-- R43, R44: the guaranteed minimum at a rail, in waves per µs. -/
def guaranteedAt (mv : Nat) : Nat :=
  if 850 ≤ mv then 1740 else if 800 ≤ mv then 1580 else if 750 ≤ mv then 1400 else if 700 ≤ mv then 1190 else if 650 ≤ mv then 980 else 0

/-- R455: guaranteed_rate. [DESIGN CHOICE, log 78] -/
def State.guaranteedRate (s : State) : Nat :=
  let g := guaranteedAt (min s.railNow s.power.targetMv)
  if s.power.hold then g / 2 else g

/-- R450, R453: v_therm holds the rail below v_target and v_cap. [DEDUCED, log 60] -/
def Power.thermLimits (x : Power) : Bool := decide (x.vTherm < x.vTargetMv ∧ x.vTherm < x.vCap)

/-- R450, R451, R453: which limit holds the rail. [DEDUCED, log 60] -/
def Power.limiter (x : Power) : Nat :=
  if x.hold then 3 else if x.thermLimits then 2 else if x.vCap < x.vTargetMv then 1 else 0

/-- The rail is stable at what it was slewing to; the fast rule looks again (R451, R455). -/
def State.railReached (s : State) : State :=
  { s with now := max s.now s.power.stableAt, power := { s.power with railMv := s.power.targetMv, fastArmed := true } }

/-- The power state that follows once the rail is stable: REST is entered at 0.55 V (R448). -/
def State.restReached (s : State) : State := if s.power.state = .entering ∧ s.power.railMv = 550 then s.powerState .rest else s

/-- R451, R455: the rail has reached the voltage it was slewing to. -/
def doRailSlewComplete (s : State) : State :=
  if s.power.pwrGood && s.power.railMv != s.power.targetMv then s.railReached.restReached else s

/-- R451: RAIL_SLEW_COMPLETE. -/
def execRailSlewComplete (s : State) : Host.Outcome State Fault Refusal := .next (doRailSlewComplete s)

/-! ### MOD_POWER_CTL and REST (R449) -/

/-- R20: MOD_POWER_CTL's fields: REST is the last request defined, cap_w 1,000 to 1,800, v_target 0 to 40. -/
def powerCtlFields : List RegField := [⟨31, 30, 0, 1⟩, ⟨26, 16, 1000, 1800⟩, ⟨13, 8, 0, 40⟩]

/-- R449: a write of MOD_POWER_CTL by the steward; it takes effect at the next 1 ms window. -/
def State.powerCtl (s : State) (p : HostPort) (v : Nat) : State :=
  s.byStewardOnly p (fun s =>
    let (w, bad) := s.takeFields 0x40 powerCtlFields v
    (if bad then s.misuse p else s).setReg 0x40 w)

def doPowerCtl (p : HostPort) (v : Nat) (s : State) : State := s.hostWrite p 0x40 (.modPowerCtlWrite p v) (fun t => t.powerCtl p v)

/-- R449: MOD_POWER_CTL_WRITE. -/
def execModPowerCtlWrite (p : HostPort) (v : Nat) (s : State) : Host.Outcome State Fault Refusal := .next (doPowerCtl p v s)

/-- R371, R449: a flit that carries no part of a message but a TIME_ANNOUNCE: a CTRL flit, or the one flit of a TIME_ANNOUNCE. -/
def carriesNone (header : Nat) (payload : List Byte) : Bool :=
  fld header 63 61 == fkCtrl || (bit header 36 && bit header 35 && fld (leAt payload 0 8) 35 31 == 0xE)

/-- R365, R449: no port holds a flit of a message that its partner may not have: ready to leave, or kept for replay. -/
def FabPort.delivers (x : FabPort) : Bool :=
  x.outq.all (fun q => q.2.all (fun f => carriesNone f.header f.payload)) && x.replay.all (fun k => carriesNone k.header k.payload)

/-- R449: the module is idle: no unretired wide command, no submission left to fetch, no collective, UPD or SEW, and no message to deliver,
received or sent. [DESIGN CHOICE, log 61] -/
def State.quiet (s : State) : Bool :=
  s.queues.all (fun e => e.2.inflight.isEmpty && e.2.sub.isNone) &&
    (upto 128).all (fun n => let h := s.hostq n; !h.enable || h.shead == h.tail) &&
    s.link.colls.isEmpty && s.ha.txn.state != .sewing && s.hb.txn.state != .sewing &&
    s.link.ports.all (fun e => e.2.inq.isEmpty && e.2.delivers) &&
    s.link.streams.all (fun e => e.2.reorder.isEmpty && e.2.waiting.isEmpty && e.2.unacked.all (fun k => k.msg.mkind == 0xE))

/-- R449: after 10 ms idle the module begins to enter REST: the core rail falls to retention, and REST holds once it is there.
[DESIGN CHOICE, log 61] -/
def doRestEntry (s : State) : State :=
  if s.alive && s.power.restReq && s.quiet then ((s.slewTo 550).powerState .entering).restReached else s

/-- R449: REST_ENTRY. -/
def execRestEntry (s : State) : Host.Outcome State Fault Refusal := .next (doRestEntry s)

/-- R449, R450: the module is back in ACTIVE, its rail where the limits ask; what woke it goes on. [DESIGN CHOICE, log 61] -/
def doRestExit (s : State) : State :=
  if s.ready && s.power.state == .exiting then (s.slewTo s.power.wanted).railReached.powerState .active else s

/-- R449: REST_EXIT. -/
def execRestExit (s : State) : Host.Outcome State Fault Refusal := .next (doRestExit s)

/-! ### Power capping (R451, R452) -/

/-- R451: v_cap after a window of average power `p`. [DEDUCED, log 60] -/
def State.windowCap (s : State) (p : Nat) : Nat :=
  let x := s.power
  if x.capW < p then max 650 (s.railNow - 5 * min 10 (cdiv (p - x.capW) 25))
  else if p + 25 < x.capW ∧ x.vCap < 850 then x.vCap + 5
  else x.vCap

/-- R452: cap_unmet, and the end of its alert with it. -/
def State.setUnmet (s : State) (u : Bool) : State :=
  let x := s.power
  if u then { s with power := { x with capUnmet := true, capUnmetSince := if x.capUnmet then x.capUnmetSince else s.now } }
  else { s with power := { x with capUnmet := false, capAlert := false } }

/-- R449: MOD_POWER_CTL takes effect; ACTIVE ends a REST. [DEDUCED, log 60] -/
def State.takePowerCtl (s : State) : State :=
  let v := s.reg 0x40
  let s : State := { s with power := { s.power with capW := fld v 26 16, vTargetMv := 650 + 5 * fld v 13 8, restReq := fld v 31 30 == 1 } }
  if s.power.restReq then s else s.wake

/-- R563: MOD_SUPPLY takes the readings of the standby supply. [DEDUCED, log 59] -/
def State.takeSupply (s : State) (r : SupplyReading) : State :=
  { s with power := { s.power with vin := sat 16 r.vin, iin := sat 12 r.iin, tIn := sat 8 r.coolIn, tOut := sat 8 r.coolOut } }

/-- R451: the end of a 1 ms window. -/
def doPowerWindow (watts : Nat) (r : SupplyReading) (s : State) : State :=
  let s := if s.power.standby then s.takeSupply r else s
  if s.ready then
    let s : State := { s with now := (s.now / 1000000 + 1) * 1000000 }
    let cap := s.windowCap watts
    let limited := s.power.thermLimits
    let s : State := { s with power := { s.power with vCap := cap, inputW := watts,
                                                      throttleMs := if limited then sat 24 (s.power.throttleMs + 1) else s.power.throttleMs } }
    State.applyRail (State.takePowerCtl (s.setUnmet (cap == 650 && decide (s.power.capW < watts))))
  else s

/-- R451: POWER_WINDOW. -/
def execPowerWindow (watts : Nat) (r : SupplyReading) (s : State) : Host.Outcome State Fault Refusal := .next (doPowerWindow watts r s)

/-- R451: the fast rule, on a 100 µs interval. [DEDUCED, log 60] -/
def doPowerFast (watts : Nat) (s : State) : State :=
  if s.ready && s.power.fastArmed && decide (s.power.capW + 150 < watts) then
    let cap := max 650 (min s.power.vCap s.railNow - 25)
    let s := State.applyRail { s with power := { s.power with vCap := cap } }
    { s with power := { s.power with fastArmed := decide (s.railNow ≤ cap) } }
  else s

/-- R451: POWER_FAST_INTERVAL. -/
def execPowerFastInterval (watts : Nat) (s : State) : Host.Outcome State Fault Refusal := .next (doPowerFast watts s)

/-- R452: the cap unmet for 100 ms asserts ALERT_N. -/
def doCapUnmetAlert (s : State) : State :=
  if s.power.pwrGood && s.power.capUnmet then
    { s with now := max s.now (s.power.capUnmetSince + 100000000), power := { s.power with capAlert := true } }
  else s

/-- R452: CAP_UNMET_ALERT. -/
def execCapUnmetAlert (s : State) : Host.Outcome State Fault Refusal := .next (doCapUnmetAlert s)

/-! ### Thermal control (R453, R454) -/

/-- R453: v_therm after a reading of tj_die_max. [DEDUCED, log 60] -/
def thermStep (v die : Nat) : Nat := if 95 ≤ die then max 650 (v - 5) else if die < 92 then min 850 (v + 5) else v

/-- R454: thermal hold begins at 105 °C, logged as source 0x0504, and ends below 100 °C. -/
def State.holdStep (s : State) (die : Nat) : State :=
  let x := s.power
  if !x.hold && decide (105 ≤ die) then
    State.raiseError { s with power := { x with hold := true, holdPhase := true, holds := sat 8 (x.holds + 1) } } 0x0504 corrected .module 0 none 0
  else if x.hold && decide (die < 100) then { s with power := { x with hold := false, holdPhase := false } }
  else s

/-- R453: a hub at 95 °C or above halves its bandwidth until it is below 92 °C. -/
def State.hubTemps (s : State) (ts : List Nat) : State :=
  (upto (min 8 ts.length)).foldl (fun s h =>
    let t := ts.getD h 0
    s.modHub h (fun x => { x with halved := if 95 ≤ t then true else if t < 92 then false else x.halved })) s

/-- R453: the thermal controller's reading, each 1 ms. -/
def doThermalRead (die hub ps : Nat) (hubs : List Nat) (s : State) : State :=
  if s.ready then
    let s : State := { s with power := { s.power with tjDie := die, tjHub := hub, tPs := ps, vTherm := thermStep s.power.vTherm die } }
    ((s.holdStep die).hubTemps hubs).applyRail
  else s

/-- R453: THERMAL_READ. -/
def execThermalRead (die hub ps : Nat) (hubs : List Nat) (s : State) : Host.Outcome State Fault Refusal := .next (doThermalRead die hub ps hubs s)

/-- R454: in thermal hold the waves are withheld in alternate 10 µs intervals. [DESIGN CHOICE, log 62] -/
def doHoldInterval (s : State) : State :=
  if s.power.pwrGood && s.power.hold then { s with power := { s.power with holdPhase := !s.power.holdPhase } } else s

/-- R454: THERMAL_HOLD_INTERVAL. -/
def execThermalHoldInterval (s : State) : Host.Outcome State Fault Refusal := .next (doHoldInterval s)

/-! ### Power removed (R436, R454, R561, R562) -/

/-- R436, R487 to R520: what the loss of power leaves of the thimble: the flash. -/
def Security.flashOnly (x : Security) : Security :=
  { files := x.files, selectors := x.selectors, records := x.records, training := x.training, aliasFor := x.aliasFor, powerUps := x.powerUps,
    opened := x.opened }

/-- R436: every rail is removed: ports go down and the contents of every memory but the flash are lost. Host memory is not the module's.
[DEDUCED, log 59] -/
def State.powerOff (s : State) (supply : Nat) (latched : Bool) : State :=
  { State.reset with
    pending := s.pending, freeCtr := s.freeCtr, mem := s.mem.filter (fun e => decide (2 ^ 63 ≤ e.1)),
    bring := { order := s.bring.order }, ha := { perst := s.ha.perst }, hb := { perst := s.hb.perst }, sec := s.sec.flashOnly,
    power := { standby := s.power.standby, pwrEn := s.power.pwrEn, supply := supply, vin := s.power.vin, tIn := s.power.tIn, tOut := s.power.tOut, iin := s.power.iin,
               goodFell := s.power.pwrGood, latchedOff := latched, i3cOff := s.power.i3cOff, i3cData := s.power.i3cData } }

/-- R561 step 6: PWR_EN falls. -/
def doPwrEnFall (s : State) : State :=
  if !s.power.pwrEn then s
  else
    let s : State := { s with power := { s.power with pwrEn := false, heldRise := false } }
    if s.power.supply = 1 ∨ s.power.supply = 2 then s.powerOff 0 false else s

/-- R436: PWR_EN_FALL. -/
def execPwrEnFall (s : State) : Host.Outcome State Fault Refusal := .next (doPwrEnFall s)

/-- R562: an undervoltage or overvoltage cut-off while RAMPING or ON. -/
def doCutoff (tooHigh : Bool) (vin : Nat) (s : State) : State :=
  if s.power.standby && (s.power.supply == 1 || s.power.supply == 2) then
    State.powerOff { s with power := { s.power with vin := sat 16 vin } } (if tooHigh then 4 else 3) true
  else s

/-- R562: SUPPLY_CUTOFF. -/
def execSupplyCutoff (tooHigh : Bool) (vin : Nat) (s : State) : Host.Outcome State Fault Refusal := .next (doCutoff tooHigh vin s)

/-- R454: a die at 115 °C, or the power stage at 125 °C. -/
def doTrip (dieC psC : Nat) (s : State) : State :=
  if s.power.pwrGood && (decide (115 ≤ dieC) || decide (125 ≤ psC)) then s.powerOff 5 true else s

/-- R454: TRIP. -/
def execTrip (dieC psC : Nat) (s : State) : Host.Outcome State Fault Refusal := .next (doTrip dieC psC s)

/-- R561 step 1: the standby supply comes up. -/
def doStandbyUp (r : SupplyReading) (s : State) : State :=
  if s.power.standby then s
  else State.takeSupply { s with power := { s.power with standby := true, supply := 0, goodFell := false, heldRise := false } } r

/-- R561: INPUT_STANDBY_UP. -/
def execInputStandbyUp (r : SupplyReading) (s : State) : Host.Outcome State Fault Refusal := .next (doStandbyUp r s)

/-- R562: the input falls below 40 V with the rails off: the standby supply stops. [DEDUCED, log 59] -/
def doStandbyStop (vin : Nat) (s : State) : State :=
  if s.power.standby && s.power.supply != 1 && s.power.supply != 2 then { s with power := { s.power with standby := false, vin := sat 16 vin } } else s

/-- R562: STANDBY_SUPPLY_STOP. -/
def execStandbySupplyStop (vin : Nat) (s : State) : Host.Outcome State Fault Refusal := .next (doStandbyStop vin s)

/-- R561 step 2, R562: PWR_EN rises; the rise is held while PWR_GOOD has been low for less than 100 ms, and otherwise ends a PWR_EN cycle.
[DEDUCED, log 59] -/
def doPwrEnRise (s : State) : State :=
  if !s.power.standby || s.power.pwrEn then s
  else if s.power.goodFell then { s with power := { s.power with pwrEn := true, heldRise := true } }
  else { s with power := { s.power with pwrEn := true, latchedOff := false, supply := 1 } }

/-- R561: PWR_EN_RISE. -/
def execPwrEnRise (s : State) : Host.Outcome State Fault Refusal := .next (doPwrEnRise s)

/-- R562: 100 ms after PWR_GOOD fell the power stage acts on a held rise. [DEDUCED, log 59] -/
def doHoldExpiry (s : State) : State :=
  if s.power.goodFell then
    let x := { s.power with goodFell := false, heldRise := false }
    { s with power := if s.power.heldRise && x.pwrEn && !x.latchedOff then { x with supply := 1 } else x }
  else s

/-- R562: PWR_EN_HOLD_EXPIRY. -/
def execPwrEnHoldExpiry (s : State) : Host.Outcome State Fault Refusal := .next (doHoldExpiry s)

/-! ### Bring-up (R432 to R435, R497) -/

/-- R435: no image can be used, or a step has timed out: RECOVERY, with its fault_cause. -/
def State.toRecovery (s : State) (fault : Nat) : State := { s with bring := { s.bring with state := 2, fault := fault } }

/-- R492: the device that the boot selector names for slot A of an image. -/
def State.selected (s : State) (j : Nat) : Nat := match s.selector with | some x => b2n (bit x.map j) | none => 0

/-- R495: every slot is verified, under the floors in force; what its header gives is taken from one that verifies. [DEDUCED, log 58] -/
def State.verifySlots (s : State) : State :=
  (upto 10).foldl (fun (s : State) k =>
    let f := s.file (k / 5) (k % 5)
    if !f.verified && s.verifyImage (k % 5) f == stOk then s.setFile (k / 5) (k % 5) f.verifiedBy else s) s

/-- R489: the alias key of the TH image chosen, and whether a certificate of it is stored already. [DEDUCED, log 58] -/
def State.aliasReused (s : State) : State :=
  if s.sec.identityValid then
    { s with sec := { s.sec with aliasSeed := aliasKey (s.mreg 1), aliasIssued := s.sec.aliasFor.any (fun e => e.2 == s.mreg 1) } }
  else s

/-- R492, R497: the device an image runs from: slot A's if it verifies, else slot B's, with source 0x0501; RECOVERY where neither does.
[DEDUCED, log 58] -/
def State.pickSlot (s : State) (j : Nat) : State :=
  let dev := s.selected j
  if s.verifies dev j then s.setFw j { devA := dev }
  else if s.verifies (1 - dev) j then (s.setFw j { devA := 1 - dev }).raiseError 0x0501 corrected .module 0 none 0
  else if s.bring.state = 2 then s.setFw j { devA := dev } else (s.setFw j { devA := dev }).toRecovery (j + 1)

/-- FW_STAGED at bring-up: STAGED if slot B verifies. -/
def State.stageSlots (s : State) : State :=
  (upto 5).foldl (fun s j => s.setFw j { s.fw j with staged := if s.verifies (1 - (s.fw j).devA) j then 4 else 0 }) s

/-- R497: image `j` runs from its other slot, where that verifies. -/
def State.swapSlot (s : State) (j : Nat) : State :=
  let x := s.fw j
  if s.verifies (1 - x.devA) j then s.setFw j { x with devA := 1 - x.devA } else s

/-- R497: images replaced one at a time until the set is compatible. -/
def State.replaceSlots (s : State) : State := (upto 5).foldl (fun s j => if setCompatible s.slotA then s else s.swapSlot j) s

/-- R497: a verified slot of image `j` that is compatible with the images chosen for the others. -/
def State.slotFits (s : State) (j dev : Nat) : Bool :=
  s.verifies dev j && (upto 5).all (fun i => i == j || compatible j (s.file dev j) i (s.slotA i))

/-- R497: the first image with no slot compatible with the others. -/
def State.misfit (s : State) : Nat := ((upto 5).find? (fun j => !(s.slotFits j 0 || s.slotFits j 1))).getD 0

/-- R514, R516: the svn floors of the module settings record, read before the images are verified. [DEDUCED, log 58] -/
def State.loadFloors (s : State) : State :=
  match s.bestRec 0 with
  | some r => if r.format = 1 then s.putSettings 0 r.values else s
  | none => s

/-- R487: the secret is reconstructed with the helper data of F0, or of F1 where the F0 copy fails its CRC. -/
def pufOk (powerUp : Nat) : Bool :=
  match Config.helperData 0 with
  | some h => Config.pufReconstructs powerUp h
  | none => match Config.helperData 1 with
    | some h => Config.pufReconstructs powerUp h
    | none => false

/-- R487, R488, R490: the derivations made from the secret, which is erased once they are; nothing where it is not reconstructed. The alias key is
derived once the running TH image is chosen. -/
def Security.identity (x : Security) : Security :=
  if pufOk x.powerUps then
    { x with identityValid := true, dsn := deviceSerial, powerUps := x.powerUps + 1, deviceSeed := deviceKey (ascii "devid") 48,
             recordSeed := deviceKey (ascii "record") 48, trainKey := deviceKey (ascii "train") 32 }
  else { x with identityValid := false, dsn := 0, powerUps := x.powerUps + 1 }

/-- R432 step 2, R485 to R490: the identity, M0, and the TH image. -/
def State.bringIdentity (s : State) : State :=
  let s : State := { s with sec := s.sec.identity }
  let s := (((s.setMreg 0 Config.romDigest).loadFloors).verifySlots).pickSlot 0
  if s.bring.state = 2 then s.stageSlots
  else
    let s := s.setMreg 1 (s.slotA 0).measure
    { s with sec := { s.sec with mode := 1 } }.aliasReused

/-- R432 step 3, R497: the other images, compatible with one another; the settings in force. [DEDUCED, log 58] -/
def State.bringImages (s : State) : State :=
  let s := [1, 2, 3, 4].foldl State.pickSlot s
  let t := s.replaceSlots
  if s.bring.state = 2 then s.stageSlots
  else if !setCompatible t.slotA then (s.toRecovery (s.misfit + 1)).stageSlots
  else
    let t := (upto 5).foldl (fun (s : State) j => s.setMreg (1 + j) (s.slotA j).measure) t.stageSlots
    (upto 3).foldl State.loadSettings t.aliasReused

/-- R46, R432 step 4: the core rail at v_target; it is stable, and the wave-rate monitors start, at time 0. [DESIGN CHOICE, log 79] -/
def State.bringRail (s : State) : State :=
  let x := s.power
  { s with power := { x with railMv := x.wanted, targetMv := x.wanted } }

/-- R310: a hub lost at bring-up. -/
def State.bringLost (s : State) (h : Nat) (controller : Bool) : State :=
  ((s.modHub h (fun x => { x with lost := true, controllerFailed := controller })).updLeaves h).raiseError 0x0208 degrading .hub h none 0

/-- R432 step 5: the UCIe modules, of which `bad` fail; the hubs whose controllers fail, or with no module left, are lost. -/
def State.bringUcie (s : State) (bad hubs : List Nat) : State :=
  (upto 8).foldl (fun (s : State) h =>
    let ms := (upto 6).filter (fun m => bad.contains (6 * h + m))
    let s := s.modHub h (fun x => { x with ucieLive := 63 - (ms.map (2 ^ ·)).sum })
    let s := ms.foldl (fun s m => s.raiseError 0x0207 degrading .ucie (6 * h + m) none 0) s
    if hubs.contains h || ms.length == 6 then s.bringLost h (hubs.contains h)
    else if ms = [] then s
    else (s.updLeaves h).raiseError 0x0209 degrading .hub h none 0) s

/-- R304, R432 step 6: the channels trained: the results in a hub's training record are tried first and verified. `trained` names the
channels that fail the verification, or have no record, and what training them from the start gives: a delay, or failure, which fences
the channel. A channel without a record that it does not name has delay 0, from which the measured delays count. [DEDUCED, log 58] -/
def State.bringChannels (s : State) (trained : List (Nat × Option Int)) : State :=
  (upto 8).foldl (fun (s : State) h =>
    let rec_ := s.trainInForce h
    let s := (upto 48).foldl (fun (s : State) c =>
      let ch := 48 * h + c
      let s := match rec_ with
        | some r => s.modChannel ch (fun x => { x with delay := r.delays.getD c 0, pages := (r.tables.getD c ([], 0)).1, remaps := (r.tables.getD c ([], 0)).2 })
        | none => s
      match trained.find? (fun e => e.1 == ch) with
      | some (_, some d) => s.modChannel ch (fun x => { x with delay := d })
      | some (_, none) => (s.modChannel ch (fun x => { x with fenced := true, atBringUp := true })).raiseError 0x0205 degrading .channel ch none 0
      | none => s) s
    if trained.any (fun e => e.1 / 48 == h && e.2.isNone) && s.updActive h then (s.updLeaves h).raiseError 0x0209 degrading .hub h none 0 else s) s

/-- R297, R311: a hub's space from its live channels, with the stripes that its remap tables hold taken. -/
def State.formHub (s : State) (h : Nat) : State × Nat :=
  if (s.hub h).lost then (s, 0)
  else
    let live := (upto 48).filter (fun c => !(s.channel (48 * h + c)).fenced)
    let n := live.length
    let taken := live.foldl (fun m c => max m (s.channel (48 * h + c)).remaps) 0
    let spare := (live.map (fun c => taken - (s.channel (48 * h + c)).remaps)).sum
    (s.modHub h (fun x => { x with liveChannels := n, stripesTaken := taken, sparePages := spare }), 7936 * n * (s.rawPages - taken))

/-- R300, R432 step 7: the hub spaces formed, ilv clamped to the smallest, and the local regions and usable capacity that follow. M7 is of the
value in force (R498). -/
def State.bringSpaces (s : State) : State :=
  let (s, sizes) := (upto 8).foldl (fun (x : State × List Nat) h => let (t, n) := x.1.formHub h; (t, x.2 ++ [n])) (s, [])
  let most := sizes.foldl (fun m n => min m (n / 2 ^ 30)) 511
  let ilv := fld (s.reg 0x02810000) 8 0
  let s := if most < ilv then (s.setReg 0x02810000 (most + 2 ^ 31)).measureSettings 1 else s
  let s := (upto 8).foldl (fun (s : State) h => s.modHub h (fun x => { x with localLimit := sizes.getD h 0 - min ilv most * 2 ^ 30 })) s
  { s with bring := { s.bring with usableKib := sizes.sum / 1024 } }

/-- R432 step 8: the cores in `bad` fail their self-test and are fenced. -/
def State.bringCores (s : State) (bad : List Nat) : State :=
  let bad := bad.filter (· < 24)
  let s := bad.foldl (fun (s : State) c => s.maskCore c 0x0107) s
  bad.foldl (fun (s : State) c => ((((s.moveQueues c).keepStore c).fenced c).raiseError 0x0107 degrading .core c none 0)) s

/-- R432 step 9: the enabled ports begin to train. -/
def State.bringPorts (s : State) : State :=
  ((upto 48).filter s.portEnabled).foldl (fun s p => s.modFport p (fun x => { x with state := .training })) s

/-- R433: a port whose host released PERST and whose link trained during bring-up. -/
def State.bringLink (s : State) (l : HostPort × Nat × Nat) : State :=
  s.modPort l.1 (fun x => { x with perst := false, linkUp := true, width := linkWidth l.2.1, rate := linkRate l.2.2 })

/-- R415, R432 step 10: ready: the roles are assigned, and the events held are written. -/
def State.bringReady (s : State) (links : List (HostPort × Nat × Nat)) : State :=
  let s := links.foldl State.bringLink { s with bring := { s.bring with state := 1 } }
  s.assignRoles.flushEvents

/-- What fails during bring-up. [DESIGN CHOICE, log 57] -/
structure BringFails where
  cores : List Nat := []
  ucie : List Nat := []
  channels : List (Nat × Option Int) := []
  hubs : List Nat := []

/-- R432: a step of bring-up. -/
def State.bringStep (s : State) (f : BringFails) (links : List (HostPort × Nat × Nat)) : Nat → State
  | 2 => s.bringIdentity
  | 3 => s.bringImages
  | 4 => s.bringRail
  | 5 => s.bringUcie f.ucie f.hubs
  | 6 => s.bringChannels f.channels
  | 7 => s.bringSpaces
  | 8 => s.bringCores f.cores
  | 9 => s.bringPorts
  | 10 => s.bringReady links
  | _ => s

/-- R432, R435: the first `n` steps after the rise of PWR_GOOD, ended by RECOVERY; stage holds the last one completed.
[DESIGN CHOICE, log 57] -/
def State.bringUp (s : State) (f : BringFails) (links : List (HostPort × Nat × Nat)) (n : Nat) : State :=
  (upto n).foldl (fun (s : State) k =>
    if s.bring.state = 2 then s
    else
      let t := s.bringStep f links (k + 2)
      if t.bring.state = 2 then t else { t with bring := { t.bring with stage := k + 2 } }) s

/-- R431, R432 step 1, R492: PWR_GOOD rises and the time base starts; slot A of each image is where the boot selector has it. -/
def State.powerGood (s : State) : State :=
  let s := (upto 5).foldl (fun (s : State) j => s.setFw j { devA := s.selected j }) s
  { s with now := 0, bring := { s.bring with stage := 1 }, power := { s.power with pwrGood := true, goodFell := false, supply := 2 } }

/-- PWR_GOOD can rise: the power stage has ramped the rails. -/
def State.ramping (s : State) : Bool := s.power.standby && s.power.pwrEn && s.power.supply == 1 && !s.power.pwrGood

/-- [DESIGN CHOICE, log 57] -/
def doPwrGoodRise (f : BringFails) (links : List (HostPort × Nat × Nat)) (s : State) : State :=
  if s.ramping then s.powerGood.bringUp f links 9 else s

/-- R432: PWR_GOOD_RISE. -/
def execPwrGoodRise (failCores failUcie : List Nat) (trained : List (Nat × Option Int)) (failHubs : List Nat) (links : List (HostPort × Nat × Nat)) (s : State) :
    Host.Outcome State Fault Refusal :=
  .next (doPwrGoodRise { cores := failCores, ucie := failUcie, channels := trained, hubs := failHubs } links s)

/-- R435: step `stage` times out: stage holds it, and the fabric ports stay DOWN. [DESIGN CHOICE, log 57] -/
def State.timedOut (s : State) (stage : Nat) : State :=
  let s := s.toRecovery 6
  let s : State := if stage ≤ 3 then s.stageSlots else s
  { s with bring := { s.bring with stage := stage }, link := { s.link with ports := SMap.mapVals {} (fun _ x => { x with state := .down }) s.link.ports } }

/-- R435: bring-up whose step `stage` is still running at its maximum time: RECOVERY, with the steps before it done.
[DESIGN CHOICE, log 57] -/
def doStageTimeout (stage : Nat) (s : State) : State :=
  if s.ramping then
    let s := s.powerGood.bringUp {} [] (stage - 2)
    if s.bring.state = 2 then s else s.timedOut stage
  else s

/-- R435: STAGE_TIMEOUT. -/
def execStageTimeout (stage : Nat) (s : State) : Host.Outcome State Fault Refusal :=
  if 2 ≤ stage ∧ stage ≤ 10 then .next (doStageTimeout stage s) else .fault .noSuchUnit

/-! ### The time input (R399, R400, R559) -/

/-- R400: how far a PPS edge at `t` lies from the nearest multiple of 10^9 ns, as the slew that mends it. -/
def ppsError (t : Nat) : Int := let r := t % 1000000000; if r ≤ 500000000 then -(r : Int) else (1000000000 - r : Nat)

/-- R559: an edge at time `t`; a valid one disciplines a grandmaster. [DESIGN CHOICE, log 48] -/
def doPpsEdge (t : Nat) (s : State) : State :=
  if !s.power.pwrGood then s
  else
    let s : State := { s with now := max s.now t }
    let x := s.power
    let gap := t - x.ppsLast
    let fresh := !x.ppsSeen || decide (1500000000 < gap)
    if fresh || (decide (999000000 ≤ gap) && decide (gap ≤ 1001000000)) then
      let s : State := { s with power := { x with ppsSeen := true, ppsLast := t } }
      if s.ownPps && s.isGm && !s.freeze.frozen then { s with link := { s.link with time := { s.link.time with slew := ppsError t * 131072, slewFrom := s.now } } } else s
    else s

/-- R559: PPS_EDGE. -/
def execPpsEdge (t : Nat) (s : State) : Host.Outcome State Fault Refusal := .next (doPpsEdge t s)

/-- R559: 1.5 s with no valid edge. -/
def doPpsExpiry (s : State) : State :=
  if s.power.pwrGood && s.power.ppsSeen then
    { s with now := max s.now (s.power.ppsLast + 1500000000), power := { s.power with ppsSeen := false } }
  else s

/-- R559: PPS_SEEN_EXPIRY. -/
def execPpsSeenExpiry (s : State) : Host.Outcome State Fault Refusal := .next (doPpsExpiry s)

/-! ### The identity and status page (R437) and the management bus (R563) -/

/-- A hub is DEGRADED: in service with a channel or UCIe module fenced. -/
def State.hubDegraded (s : State) (h : Nat) : Bool :=
  !(s.hub h).lost && (decide ((s.hub h).ucieLive ≠ 63) || (upto 48).any (fun c => (s.channel (48 * h + c)).fenced))

/-- A set of unit numbers as a bit mask. -/
def maskOf (n : Nat) (p : Nat → Bool) : Nat := ((upto n).map (fun i => if p i then 2 ^ i else 0)).sum

/-- MOD_IDENT. -/
def State.modIdent (s : State) : Nat :=
  put s.subsystem 63 48 + put (match s.bring.order with | .m3t => 0x20 | .m15 => 0x10) 39 32 + put s.bring.usableKib 31 0

/-- MOD_STATUS: R469 sets a core's bit of fenced_cores in step 7. -/
def State.modStatus (s : State) : Nat :=
  let cores := maskOf 24 (fun c => (s.core c).fence != .inService && (s.core c).fence != .fencing)
  let lost := maskOf 8 (fun h => (s.hub h).lost)
  put s.bring.state 63 60 + put s.bring.stage 59 56 + put s.bring.fault 55 48 + put (b2n (cores != 0)) 47 47 + put (b2n (lost != 0)) 46 46 +
    put (b2n s.freeze.frozen) 45 45 + put cores 39 16 + put lost 15 8 + (if s.ready then put (maskOf 8 s.hubDegraded) 7 0 else 0)

/-- MOD_EARLY_ACCESS. -/
def BringUp.earlyAccess (b : BringUp) : Nat := put b.earlyR0 63 48 + put b.earlyW0 47 32 + put b.earlyR2 31 16 + put b.earlyW2 15 0

/-- MOD_POWER_STATUS. -/
def State.powerStatus (s : State) : Nat :=
  let x := s.power
  put (match x.state with | .active => 0 | .entering => 1 | .rest => 2 | .exiting => 3) 63 62 + put x.limiter 61 60 + put (b2n x.capUnmet) 59 59 +
    put (b2n (x.railMv != x.targetMv)) 58 58 + put s.railNow 57 48 + put s.guaranteedRate 47 37 + put x.inputW 36 26

/-- MOD_THERMAL. -/
def Power.thermal (x : Power) : Nat := put x.tjDie 63 56 + put x.tjHub 55 48 + put x.tPs 47 40 + put x.throttleMs 39 16 + put x.holds 15 8

/-- MOD_SUPPLY. -/
def Power.supplyReg (x : Power) : Nat :=
  put x.vin 63 48 + put x.tIn 47 40 + put x.tOut 39 32 + put x.iin 31 20 + put x.supply 19 17 + put (b2n x.pwrEn) 16 16

/-- The 64 bits of the identity and status page at an offset that is a multiple of 8. -/
def State.idPage (s : State) (off : Nat) : Nat :=
  if off = 0 then s.modIdent else if off = 8 then 0x11 else if off = 0x10 then s.modStatus else if off = 0x18 then s.bring.earlyAccess
  else if off = 0x40 then s.reg 0x40 else if off = 0x48 then s.powerStatus else if off = 0x50 then s.power.thermal
  else if off = 0x58 then s.power.supplyReg else 0

/-- R19: what a read of the page clears, by the halves it returns. [DEDUCED, log 11] -/
def State.idClear (s : State) (off : Nat) (lo hi : Bool) : State :=
  if off = 0x18 then
    let s : State := if hi then { s with bring := { s.bring with earlyR0 := 0, earlyW0 := 0 } } else s
    if lo then { s with bring := { s.bring with earlyR2 := 0, earlyW2 := 0 } } else s
  else if off = 0x50 then
    let x := s.power
    -- throttle_ms lies in both halves; a field is cleared by the read that returns a part of it
    { s with power := { x with throttleMs := if hi && lo then 0 else if hi then x.throttleMs % 2 ^ 16 else if lo then x.throttleMs / 2 ^ 16 * 2 ^ 16 else x.throttleMs,
                               holds := if lo then 0 else x.holds } }
  else s

/-- R563: which registers of the page respond over I3C. -/
def State.i3cResponds (s : State) (off : Nat) : Bool :=
  off % 8 == 0 && (off == 0x58 || (s.power.pwrGood && (off == 0 || off == 8 || off == 0x10 || off == 0x18 || off == 0x40 || off == 0x48 || off == 0x50)))

/-- R563: a two-byte offset. -/
def doI3cOffset (off : Nat) (s : State) : State := if s.power.standby then { s with power := { s.power with i3cOff := off % 65536 } } else s

/-- R563: I3C_OFFSET_WRITE. -/
def execI3cOffsetWrite (off : Nat) (s : State) : Host.Outcome State Fault Refusal := .next (doI3cOffset off s)

/-- R563: 8 bytes read; the offset advances. -/
def doI3cRead (s : State) : State :=
  if s.power.standby then
    let off := s.power.i3cOff
    let v := if s.i3cResponds off then s.idPage off else onesOf 8
    let s := if s.i3cResponds off then s.idClear off true true else s
    { s with power := { s.power with i3cOff := (off + 8) % 65536, i3cData := v } }
  else s

/-- R563: I3C_READ. -/
def execI3cRead (s : State) : Host.Outcome State Fault Refusal := .next (doI3cRead s)

end Sys2Proof.Machine
end

