-- ==== Sys2Proof/Machine/Registers.lean ====
section
/-! DEFINITION. The registers of BAR0 as hosts read and write them (R18 to R23): every register of the spec by its offset. -/

namespace Sys2Proof.Machine

/-! ### What is decoded (R18) -/

/-- R18: the blocks of BAR0, as first and last byte. [DEDUCED, log 14] -/
def bar0Blocks : List (Nat × Nat) :=
  [(0, 0x1F), (0x40, 0x5F), (0x1000, 0x11FF), (0x2000, 0x2FFF), (0x3000, 0x317F), (0x5000, 0x57FF), (0x8000, 0xFFFF), (0x10000, 0x100FF),
   (0x00100000, 0x0010000F), (0x02000000, 0x027FFFFF), (0x02800000, 0x02800FFF), (0x02810000, 0x02810FFF), (0x03000000, 0x0302FFFF),
   (0x03100000, 0x03110FFF), (0x03200000, 0x0331FFFF), (0x03600000, 0x0364FFFF), (0x03780000, 0x037FFFFF), (0x03800000, 0x038000FF),
   (0x03810000, 0x03811FFF), (0x03820000, 0x03821FFF), (0x03830000, 0x03831BFF), (0x03840000, 0x038403FF), (0x03B00000, 0x03B03FFF),
   (0x03C00000, 0x03C001FF), (0x03C00800, 0x03C00817), (0x03C01000, 0x03C0104F), (0x03C10000, 0x03C2FFFF)]

/-- R18: the offset lies in a block; of a core region, in its first 32 KiB. [DEDUCED, log 14] -/
def decoded (off : Nat) : Bool :=
  bar0Blocks.any (fun b => decide (b.1 ≤ off) && decide (off ≤ b.2)) ||
  (match inBlock 0x01000000 0x10000 24 off with | some (_, r) => decide (r < 0x8000) | none => false)

/-- R18: the registers of the other port's mailbox. -/
def otherMailbox (p : HostPort) (off : Nat) : Bool :=
  let q := portNum (otherPort p)
  (decide (0x03C00000 + 0x100 * q ≤ off) && decide (off < 0x03C00100 + 0x100 * q)) ||
  (decide (0x03C10000 + 0x10000 * q ≤ off) && decide (off < 0x03C20000 + 0x10000 * q))

/-! ### Reads of the host-port window (chapter 11) -/

/-- The halves of an 8-byte slot that an access takes. -/
structure Half where
  lo : Bool
  hi : Bool

/-- A read that changes nothing. -/
def State.pure (s : State) (v : Nat) : Nat × State := (v, s)

/-- HOST_QCFG and the registers after it. [DESIGN CHOICE, log 15] -/
def State.readQueue (s : State) (p : HostPort) (n r : Nat) : Nat :=
  let h := s.hostq (hqOf p n)
  if r = 0 then
    put (b2n (h.enable && !h.stopping)) 31 31 + put h.lostPolicy 30 29 +
      put (if h.enable then s.serving (8 * h.core + h.cq) else h.core) 28 24 + put h.cq 23 21 + put h.sizeLog2 20 16 + put h.vec 10 0
  else if r = 8 then h.sring
  else if r = 0x10 then h.cring
  else if r = 0x18 then h.head
  else if r = 0x20 then put (s.hqState (hqOf p n)) 63 62 + put h.ctail 31 16 + put h.shead 15 0
  else 0

/-- HOST_ROLE. [DESIGN CHOICE, log 15] -/
def State.hostRole (s : State) (p : HostPort) : Nat :=
  let r := s.roles
  let mine := match r.steward with | none => 0 | some q => if q = p then 1 else 2
  let grace := if r.claim = 1 then (r.graceEnds - s.now) / 1000000 else 0
  put mine 31 30 + put (b2n r.steward.isSome) 29 29 + put (match r.steward with | some q => portNum q | none => 0) 28 28 +
    put (b2n (s.port (otherPort p)).linkUp) 27 27 + put r.claim 26 25 + put r.silence 24 22 + put grace 15 0

/-- HOST_EVQ_CFG. -/
def Port.evqReg (x : Port) : Nat :=
  put (b2n x.evqEnable) 63 63 + put x.evqSize 62 58 + put x.evqVec 57 47 + put x.evqHead 31 16 + put x.evqTail 15 0

/-- HOST_LOSTQ and HOST_LOSTQ_SEQ of host queue `hq`. -/
def State.lostReg (s : State) (hq : Nat) (seq : Bool) : Nat :=
  match (s.hostq hq).lost with
  | none => 0
  | some l =>
    if seq then l.cseq
    else put 1 63 63 + put (b2n l.settled) 62 62 + put (b2n l.cancel) 61 61 + put (b2n l.converted) 60 60 + put l.status 59 52 +
      put l.discarded 51 36 + put l.userTag 31 0

/-- The MSI-X table and the pending-bit array (R408). -/
def Port.msixReg (x : Port) (off : Nat) : Nat :=
  if off < 0x10000 then
    let v := SMap.get ({} : MsixVec) x.msix ((off - 0x8000) / 16)
    if off % 16 = 0 then v.addr else v.data % 2 ^ 32 + v.ctl * 2 ^ 32
  else maskOf 64 (fun i => (SMap.get ({} : MsixVec) x.msix (64 * ((off - 0x10000) / 8) + i)).pending)

/-- The host-port window and the transaction registers. [DESIGN CHOICE, log 15] -/
def State.readHostWindow (s : State) (p : HostPort) (b : Nat) : Nat :=
  if b < 0x2000 then 0
  else if b < 0x3000 then s.readQueue p ((b - 0x2000) / 0x40) (b % 0x40)
  else if b = 0x3000 then s.hostRole p
  else if b = 0x3008 then (match s.roles.steward with | some q => (s.port q).heartbeat | none => 0)
  else if b = 0x3010 then (s.port p).claimResult
  else if b = 0x3018 then s.reg (perPort p 0x3018)
  else if b = 0x3020 ∨ b = 0x3028 then s.reg b
  else if b = 0x3040 then (s.port p).evqBase
  else if b = 0x3048 then (s.port p).evqReg
  else if 0x3100 ≤ b ∧ b < 0x3180 then s.reg (perPort p b)
  else if 0x5000 ≤ b ∧ b < 0x5800 then s.lostReg ((b - 0x5000) / 0x10) (b % 0x10 == 8)
  else if (0x8000 ≤ b ∧ b < 0x10100) then (s.port p).msixReg b
  else if b = 0x00100008 then s.txnStatus p
  else 0

/-! ### Reads of the core and engine registers -/

/-- CORE_QSTATUS's state. -/
def State.coreQState (s : State) (qi : Nat) : Nat :=
  let q := s.queue qi
  if q.stopped then 4
  else if q.trapped then 3
  else if q.movedTo ≠ 0 then 5
  else if q.inflight.any (fun w => w.stage == .issued && ((w.opcode == 7 && (w.op == 2 || w.op == 3)) || (w.opcode == 0xC && !w.waits.isEmpty))) then 2
  else if q.sub.isSome || !q.inflight.isEmpty then 1
  else 0

/-- The registers of a core queue. -/
def State.readCoreQ (s : State) (qi r : Nat) : Nat :=
  let q := s.queue qi
  let t := if q.trapped then q.trap else none
  if r = 0 then put (s.coreQState qi) 31 29 + put (s.serving qi) 28 24 + put (sat 8 q.inflight.length) 23 16
  else if r = 8 then q.rseq
  else if r = 0x10 then (match t with | some t => put t.code 31 16 + put t.cause 7 0 | none => 0)
  else if r = 0x18 then (match t with | some t => t.pc.toNat | none => 0)
  else if r = 0x20 then put (b2n q.trapOnStatus) 31 31
  else 0

/-- CORE_FENCE_CTL. [DESIGN CHOICE, log 15] -/
def Core.fenceReg (x : Core) : Nat :=
  put (match x.fence with | .inService => 0 | .fencing => 1 | .fenced => 2 | .scrubbing => 3 | .testing => 4) 29 27 + put (b2n x.withdrawn) 26 26 +
    put (b2n x.bySw) 25 25 + put (maskOf 8 (fun n => SMap.get 0 x.guests n != 0)) 23 16 + put x.source 15 0

/-- R133: a pleat between steps 3 and 4 of a drain (R125): the hem has not latched its last old sum. -/
def Engine.drainActive (e : Engine) (p : Nat) : Bool := (e.pleat p).draining && decide (e.wave < (e.pleat p).drainEnd)

/-- R133: a tile loads or streams on a pleat, or its sums still drain to the hem. -/
def Engine.pleatBusy (e : Engine) (p : Nat) : Bool := (e.pleat p).run.isSome || decide (e.wave < e.drainsAt p)

/-- ENG_ARRAY_STATUS. -/
def State.arrayStatus (s : State) (g : Nat) : Nat :=
  let e := s.engine g
  let used := (e.regions.map (fun r => r.accs * 64 * (r.right - r.left))).sum
  put (b2n ((s.core (g / 4)).fence != .inService)) 31 31 + put (b2n s.freeze.frozen) 30 30 + put (b2n (decide (e.wave < e.portFree))) 29 29 +
    put (b2n ((upto 16).any e.drainActive)) 28 28 + put ((524288 - used) / 256) 27 16 + put (maskOf 16 e.pleatBusy) 15 0

/-- The registers of an engine. -/
def State.readEngine (s : State) (g r : Nat) : Nat :=
  let e := s.engine g
  if r = 0x10 then
    put (b2n (e.rateValid && (s.core (g / 4)).fence == .inService)) 31 31 + put e.rateSeq 27 16 + put e.rate 15 0
  else if r = 0x20 then s.arrayStatus g
  else if r = 0x28 then e.map
  else if r = 0x30 then e.mode
  else 0

/-- A core region. -/
def State.readCore (s : State) (c r : Nat) : Nat :=
  if 0x4000 ≤ r then s.readEngine (4 * c + (r - 0x4000) / 0x1000) (r % 0x1000)
  else if 0x1000 ≤ r ∧ r < 0x1800 then s.readCoreQ (8 * c + (r - 0x1000) / 0x100) (r % 0x100)
  else if r = 0x0F18 then put (b2n (s.core c).scrubBusy) 31 31 + s.stInForce (coreReg c r)
  else if r = 0x0F28 then (s.core c).fenceReg
  else if r = 0x0F00 ∨ r = 0x0F08 ∨ r = 0x0F10 ∨ r = 0x0F20 then s.reg (coreReg c r)
  else 0

/-! ### Reads of the hub, update, link, tack and tailor registers -/

/-- HUB_SCRUB's progress, in 256ths of the pass. -/
def State.scrubProgress (s : State) (h : Nat) : Nat :=
  (s.hub h).scrubPos * 256 / max 1 (s.rawPages * (s.liveList h).length)

/-- A hub block. -/
def State.readHub (s : State) (h r : Nat) : Nat :=
  let x := s.hub h
  let live := if x.lost then 0 else x.ucieLive
  if r = 0 then
    put (if x.lost then 2 else if s.ready && s.hubDegraded h then 1 else 0) 31 30 + put (if x.lost then 0 else x.liveChannels) 29 24 +
      put ((upto 6).filter (bit live)).length 23 21
  else if r = 8 then x.localLimit
  else if r = 0x10 then maskOf 48 (fun c => (s.channel (48 * h + c)).fenced)
  else if r = 0x18 then
    put x.retiredPages 63 48 + put x.sparePages 47 32 + put x.stripesTaken 31 16 + put (fld (s.reg (hubReg h r)) 15 8) 15 8 + put (sat 8 x.refused) 7 0
  else if r = 0x20 then put x.corrected 63 32 + put x.uncorrectable 31 0
  else if r = 0x28 then setFld (setFld (s.reg (hubReg h r)) 15 8 (s.scrubProgress h)) 7 0 x.scrubPasses
  else if r = 0x30 ∨ r = 0x38 then s.reg (hubReg h r)
  else if r = 0x40 then put (sat 16 x.resends) 31 16 + put x.retrains 15 8 + put live 5 0
  else 0

/-- The update and numerics block. -/
def State.readUpd (s : State) (r : Nat) : Nat :=
  if r = 0 then put (maskOf 8 (fun h => !s.updActive h)) 15 8 + put (maskOf 8 (fun h => !(SMap.get [] s.upd.accepted h).isEmpty)) 7 0
  else if r = 8 then put (sat 32 s.upd.resumed) 63 32 + put (sat 32 s.upd.redirected) 31 0
  else if r = 0x20 then put (sat 8 s.registry.dupRejects) 31 24 + put s.registry.highWater 23 12 + put s.registry.keys.length 11 0
  else if r = 0x40 then s.nanTrap.info
  else if r = 0x48 then s.nanTrap.seq
  else if r = 0x50 then s.nanTrap.pos
  else if r = 0x58 then s.nanTrap.time
  else if r = 0x60 then sat 32 s.nanTrap.count
  else if 0x300 ≤ r ∧ r < 0x500 then SMap.get 0 s.upd.seen ((r - 0x300) / 8)
  else if 0x800 ≤ r then s.reg (0x02800000 + r) + s.reg (0x02800004 + r) * 2 ^ 32
  else s.reg (0x02800000 + r)

/-- LNK_PORT_STATUS's state. -/
def PortState.code : PortState → Nat
  | .down => 0
  | .training => 1
  | .up => 2
  | .held => 3
  | .recovery => 4
  | .fenced => 5

/-- The retrains of a port in the last hour (R365). -/
def State.retrainsIn (s : State) (p : Nat) : Nat := ((s.fport p).retrainTimes.filter (fun t => decide (s.now ≤ t + hourNs))).length

/-- A fabric port's block; of LNK_PORT_ERR, the FEC counters without what `withFec` adds. -/
def State.readFport (s : State) (p r : Nat) : Nat :=
  let x := s.fport p
  if r = 0 then s.reg (fportReg p 0)
  else if r = 8 then
    put x.state.code 63 61 + put (b2n x.partnerSwitch) 60 60 + put (b2n x.duplicate) 59 59 + put x.partnerId 58 45 + put x.polarity 44 41 +
      put x.cause 40 38
  else if r = 0x10 then put x.fecCorrected 63 32 + put x.fecUncorrectable 31 16 + put (sat 16 x.crcFail) 15 0
  else if r = 0x18 then
    put (sat 32 x.replays) 63 32 + put x.recoveries 31 24 + put (sat 8 (s.retrainsIn p)) 23 16 + put (sat 8 x.auditFixes) 15 8 + put x.holds 7 0
  else 0

/-- LNK_TIME_STATUS. -/
def State.timeStatus (s : State) : Nat :=
  let t := s.link.time
  put (b2n t.locked) 63 63 + put (b2n s.isGm) 62 62 + put (b2n s.power.ppsSeen) 61 61 + put t.parent 60 55 + put (t.gmId.getD 0) 54 41 +
    put (wrapInt 32 (t.offset / 131072)) 31 0

/-- COL_COMM_STATUS. -/
def State.commStatus (s : State) (c : Nat) : Nat :=
  let x := s.comm c
  put (if x.lost.isSome then 2 else if s.link.colls.any (fun y => y.comm == c) then 1 else 0) 63 62 + put (x.lost.getD 0) 61 48 + put x.nextK 23 0

/-- COL_STATUS. -/
def State.colStatus (s : State) : Nat :=
  put s.link.colls.length 31 26 + put ((upto 256).filter (fun c => (s.comm c).lost.isSome)).length 25 17 + put (sat 17 s.link.conflicts) 16 0

/-- The link and communicator blocks, above the port blocks. -/
def State.readLink (s : State) (b : Nat) : Nat :=
  if b = 0x03100028 then s.timeStatus
  else if b = 0x03100030 then put s.link.audits 63 32 + put (sat 16 s.link.deficits) 31 16 + put (sat 16 s.link.surpluses) 15 0
  else if b < 0x03110000 then s.reg b
  else if b < 0x03110800 then maskOf 64 (fun i => decide (64 * ((b - 0x03110000) / 8) + i ∈ s.link.lost))
  else if b < 0x03200000 then 0
  else if b < 0x03201000 then (if b % 16 = 0 then s.reg b else s.commStatus ((b - 0x03200000) / 16))
  else if b = 0x03210000 then s.colStatus
  else if b = 0x03210008 then s.reg b
  else if 0x03300000 ≤ b ∧ b < 0x03320000 then s.reg b + s.reg (b + 4) * 2 ^ 32
  else 0

/-- TCK_STATE. -/
def Tack.stateReg (t : Tack) : Nat :=
  put (b2n t.sourceLost) 63 63 + put (b2n t.mismatch) 62 62 + put t.waiters.length 61 54 + put t.arriveN 53 43 + put t.arrivals 42 32 + put t.value 31 0

/-- TCK_STATUS. -/
def State.tackStatus (s : State) : Nat :=
  let qs := s.tacks.foldl (fun (m : List Nat) e => e.2.waiters.foldl (fun m w => setIns m w.queue) m) []
  put qs.length 31 24 + put (s.tacks.filter (fun e => e.2.sourceLost)).length 14 0

/-- The tack block. -/
def State.readTacks (s : State) (b : Nat) : Nat :=
  if b < 0x03640000 then
    let t := s.tack ((b - 0x03600000) / 16)
    if b % 16 = 0 then t.stateReg else t.cfgWord
  else if b = 0x03640008 then s.tackStatus
  else if b = 0x03640010 then s.remoteSent
  else if b = 0x03640018 then s.remoteApplied
  else if b = 0x03640020 then s.remoteRejected
  else 0

/-- COL_FIT_STATUS. -/
def State.fitStatus (s : State) : Nat :=
  let t := s.tailor
  let tags := ((if t.bank then t.bank1 else t.bank0).filter (fun e => e.2.steered)).length
  put (b2n s.boundaryBusy) 31 31 + put (b2n t.bank) 30 30 + put t.lastResult 29 28 + put (b2n t.diverged) 27 27 + put tags 12 0

/-- The tailor unit's block; the bank in force lies at 0x037A_0000 (R170). -/
def State.readTailor (s : State) (b : Nat) : Nat :=
  let t := s.tailor
  if b = 0x03780000 then s.reg b
  else if b = 0x03780008 then s.fitStatus
  else if b = 0x03780010 then t.step
  else if b = 0x03780018 then put t.pinnedTags 60 48 + put t.coldTags 44 32 + put t.narrowedTags 28 16 + put t.widenedTags 12 0
  else if 0x037A0000 ≤ b ∧ b < 0x037E0000 then leAt (s.entry ((b - 0x037A0000) / 64)).bytes (b % 64) 8
  else 0

/-! ### Reads of the observability and security windows -/

/-- R528: OBS_CTX of domain `d`, counter `j`. -/
def State.readCtx (s : State) (p : HostPort) (d j : Nat) : Nat :=
  if s.confidential d || !(s.isSteward p || s.allows p d) then 0 else SMap.get 0 s.ctx (16 * d + j)

/-- OBS_ERRQ_STATUS. -/
def ErrQueue.statusReg (q : ErrQueue) : Nat :=
  put q.held.length 63 55 + put (q.opened.foldl (fun m r => max m r.cls) 0) 54 53 + put (b2n (!q.opened.isEmpty)) 52 52 + put (b2n q.alert) 51 51 +
    put (sat 32 q.lost) 31 0

/-- OBS_ERRQ_OLDEST. -/
def ErrQueue.oldest (q : ErrQueue) : Nat :=
  match q.held with
  | [] => q.nextSeq
  | r :: rs => rs.foldl (fun m x => min m x.seq) r.seq

/-- OBS_CONSERVE. -/
def ErrQueue.conserveReg (q : ErrQueue) : Nat :=
  put q.checks 63 32 + put (sat 8 q.replayMismatch) 31 24 + put (sat 8 q.storeMismatch) 23 16 + put (sat 8 q.tokenRestores) 15 8 + put (sat 8 q.rebuilds) 7 0

/-- The error queue's block. -/
def State.readErrq (s : State) (b : Nat) : Nat :=
  if b = 0x03B00000 then s.errq.statusReg
  else if b = 0x03B00008 then s.errq.oldest
  else if b = 0x03B00010 then s.errq.newest
  else if b = 0x03B00020 then s.reg b
  else if b = 0x03B00030 then s.errq.conserveReg
  else if 0x03B01000 ≤ b ∧ b < 0x03B03000 then
    match SMap.get none s.errq.slots ((b - 0x03B01000) / 0x20) with
    | some r => leAt r.bytes (b % 0x20) 8
    | none => 0
  else 0

/-- A chalk buffer's block. -/
def State.readChalk (s : State) (n r : Nat) : Nat :=
  let c := s.buffer n
  if r = 0 then c.cfg else if r = 8 then c.base else if r = 0x10 then s.chalkStatus n
  else if r = 0x18 then put (sat 32 c.lostTotal) 63 32 + put (sat 32 c.pending) 31 0
  else if r = 0x20 then put c.head 27 0 else 0

/-- The control registers of the observability window that a read does not change. -/
def State.readObs (s : State) (p : HostPort) (b : Nat) : Nat :=
  if b = 0x03800008 then s.reg b
  else if b = 0x03800010 then put (b2n s.freeze.sw) 31 31 + put (b2n s.freeze.pinEnable) 29 29
  else if b = 0x03800018 then s.freezeStatus
  else if b = 0x03800020 then s.freeze.roSel
  else if 0x03810000 ≤ b ∧ b < 0x03812000 then (if s.mayCount p then SMap.get 0 s.gctr ((b - 0x03810000) / 8) else 0)
  else if 0x03820000 ≤ b ∧ b < 0x03822000 then s.readCtx p ((b - 0x03820000) / 0x80) (b % 0x80 / 8)
  else if 0x03840000 ≤ b ∧ b < 0x03840400 then s.readChalk ((b - 0x03840000) / 0x40) (b % 0x40)
  else if 0x03B00000 ≤ b then s.readErrq b
  else 0

/-- SEC_MAILBOX. -/
def Mailbox.reg (m : Mailbox) : Nat := put (b2n m.busy) 62 62 + put m.status 55 48 + put m.opcode 47 40 + put m.req 29 16 + put m.resp 13 0

/-- The security window. -/
def State.readSec (s : State) (p : HostPort) (b : Nat) : Nat :=
  if b < 0x03C00200 then (if b % 0x100 = 0 then (s.mail p).reg else 0)
  else if b = 0x03C00800 then s.secStatus
  else if b = 0x03C00808 then s.secDomains
  else if b = 0x03C00810 then s.secConfDomains
  else if 0x03C01000 ≤ b ∧ b < 0x03C01050 then (if b % 16 = 0 then s.fwActive ((b - 0x03C01000) / 16) else s.fwStaged ((b - 0x03C01000) / 16))
  else if 0x03C10000 ≤ b ∧ b < 0x03C30000 then (if (s.mail p).busy then onesOf 8 else (s.mail p).num (b % 0x10000) 8)
  else 0

/-! ### A read (R19, R22, R23) -/

/-- The 8 bytes at slot `b` as they stand. -/
def State.slot (s : State) (p : HostPort) (b : Nat) : Nat :=
  if b < 0x1000 then s.idPage b
  else if b < 0x01000000 then s.readHostWindow p b
  else match inBlock 0x01000000 0x10000 24 b with
    | some (c, r) => if r < 0x8000 then s.readCore c r else 0
    | none => match inBlock 0x02000000 0x100000 8 b with
      | some (h, r) => s.readHub h r
      | none =>
        if 0x02800000 ≤ b ∧ b < 0x02801000 then s.readUpd (b - 0x02800000)
        else if b = 0x02810000 then s.reg b
        else if b = 0x02810008 then s.dmapLast
        else match inBlock 0x03000000 0x1000 48 b with
          | some (n, r) => s.readFport n r
          | none =>
            if 0x03100000 ≤ b ∧ b < 0x03320000 then s.readLink b
            else if 0x03600000 ≤ b ∧ b < 0x03650000 then s.readTacks b
            else if 0x03780000 ≤ b ∧ b < 0x03800000 then s.readTailor b
            else if 0x03800000 ≤ b ∧ b < 0x03C00000 then s.readObs p b
            else if 0x03C00000 ≤ b then s.readSec p b
            else 0

/-- R19: what a read of slot `b` clears: the RC fields of the halves it returns. [DEDUCED, log 11] -/
def State.clearRc (s : State) (b : Nat) (x : Half) : State :=
  if b < 0x1000 then s.idClear b x.lo x.hi
  else match inBlock 0x02000000 0x100000 8 b with
    | some (h, r) =>
      if r = 0x20 then s.modHub h (fun y => { y with corrected := if x.hi then 0 else y.corrected, uncorrectable := if x.lo then 0 else y.uncorrectable })
      else s
    | none => match inBlock 0x03000000 0x1000 48 b with
      | some (p, r) =>
        if r = 0x10 then s.modFport p (fun y => { y with fecCorrected := if x.hi then 0 else y.fecCorrected,
                                                         fecUncorrectable := if x.lo then 0 else y.fecUncorrectable, crcFail := if x.lo then 0 else y.crcFail })
        else if r = 0x18 then s.modFport p (fun y => { y with replays := if x.hi then 0 else y.replays, recoveries := if x.lo then 0 else y.recoveries,
                                                              auditFixes := if x.lo then 0 else y.auditFixes, holds := if x.lo then 0 else y.holds })
        else s
      | none =>
        if b = 0x02800020 then (if x.lo then { s with registry := { s.registry with dupRejects := 0 } } else s)
        else if b = 0x02800008 then { s with upd := { s.upd with resumed := if x.hi then 0 else s.upd.resumed, redirected := if x.lo then 0 else s.upd.redirected } }
        else if b = 0x03100030 then (if x.lo then { s with link := { s.link with deficits := 0, surpluses := 0 } } else s)
        else if b = 0x03210000 then (if x.lo then { s with link := { s.link with conflicts := 0 } } else s)
        else if b = 0x03800018 then (if x.hi then { s with freeze := { s.freeze with roError := false } } else s)
        else if b = 0x03B00030 then
          (if x.lo then { s with errq := { s.errq with replayMismatch := 0, storeMismatch := 0, tokenRestores := 0, rebuilds := 0 } } else s)
        else match inBlock 0x03840000 0x40 16 b with
          | some (n, r) => if r = 0x18 ∧ x.hi then s.modBuffer n (fun c => { c with lostTotal := 0 }) else s
          | none => s

/-- The counter whose registers lie at slot `b`, its snapshot or live value, and whether it is the sequence word (R288, R529). -/
def scopedAt (b : Nat) : Option (Nat × Bool × Bool) :=
  match inBlock 0x03830000 0x20 48 b with
  | some (i, r) => some (i, decide (0x10 ≤ r), r % 0x10 == 8)
  | none => match inBlock 0x03831000 0x20 96 b with
    | some (g, r) => some (64 + g, decide (0x10 ≤ r), r % 0x10 == 8)
    | none => none

/-- R23: OBS_TIME_LO and OBS_TIME_HI, read together or one half at a time. -/
def State.readTime (s : State) (p : HostPort) (x : Half) : Nat × State :=
  if x.lo && x.hi then s.timeLo (portNum p) 8
  else if x.lo then s.timeLo (portNum p) 4
  else let (v, t) := s.timeHi (portNum p); (v * 2 ^ 32, t)

/-- R526: the global counters whose value rests on what the spec does not state: the ns that waves were withheld, the bytes of the
die-network ports, hubs and channels beyond those that commands here count, and the host bytes that fetches read.
[DESIGN CHOICE, log 16] -/
def openCounter (b : Nat) : Bool :=
  let i := (b - 0x03810000) / 8
  decide (0x03810000 ≤ b) && (decide (96 ≤ i ∧ i < 192) || decide (264 ≤ i ∧ i < 312) || decide (336 ≤ i ∧ i < 752) || i == 850 || i == 854)

/-- The slots of LNK_PORT_ERR, whose FEC counters no event of the table counts. [DESIGN CHOICE, log 78] -/
def fecSlot (b : Nat) : Bool := match inBlock 0x03000000 0x1000 48 b with | some (_, r) => r == 0x10 | none => false

/-- LNK_PORT_ERR with a free value added to each FEC counter, saturating. [DESIGN CHOICE, log 78] -/
def withFec (w v : Nat) : Nat :=
  put (sat 32 (fld w 63 32 + fld v 63 32)) 63 32 + put (sat 16 (fld w 31 16 + fld v 31 16)) 31 16 + put (fld w 15 0) 15 0

/-- A read of the halves `x` of slot `b`, with what it changes. [DESIGN CHOICE, log 16; DESIGN CHOICE, log 78] -/
def State.readSlot (s : State) (p : HostPort) (b : Nat) (x : Half) : Nat × State :=
  if otherMailbox p b then s.pure (onesOf 8)
  else if b = 0x03800000 then s.readTime p x
  else if b = 0x03800028 then s.roRead p
  else if openCounter b && s.mayCount p then let (v, t) := s.draw; ((s.slot p b + v.toNat) % 2 ^ 64, t)
  else match scopedAt b with
    | some (k, snap, seq) =>
      if !s.mayCount p then s.pure 0 else if seq then s.scopedSeq (portNum p) k snap else s.scopedRead (portNum p) k snap
    | none =>
      if fecSlot b then let (v, t) := s.draw; (withFec (s.slot p b) v.toNat, t.clearRc b x)
      else (s.slot p b, s.clearRc b x)

/-- R22: the halves of an access of 4 or 8 bytes. -/
def halves (off size : Nat) : Half := { lo := size == 8 || off % 8 == 0, hi := size == 8 || off % 8 == 4 }

/-- R22: a read of BAR0. -/
def State.regRead (s : State) (p : HostPort) (off size : Nat) : Nat × State :=
  if !aligned off size then (onesOf size, s.misuse p)
  else
    let (v, t) := s.readSlot p (off / 8 * 8) (halves off size)
    (if size = 8 then v % 2 ^ 64 else if off % 8 = 0 then v % 2 ^ 32 else v / 2 ^ 32 % 2 ^ 32, t)

def doBar0Read (p : HostPort) (off size : Nat) (s : State) : State := s.hostRead p off size (.bar0Read p off size) (fun t => t.regRead p off size)

/-- R19, R22, R434: BAR0_READ. -/
def execBar0Read (p : HostPort) (off size : Nat) (s : State) : Host.Outcome State Fault Refusal := .next (doBar0Read p off size s)

/-- The slots that hold RC fields. [DEDUCED, log 11] -/
def rcSlot (b : Nat) : Bool :=
  b == 0x18 || b == 0x50 || b == 0x02800020 || b == 0x02800008 || b == 0x03100030 || b == 0x03210000 || b == 0x03800018 || b == 0x03B00030 ||
  (match inBlock 0x02000000 0x100000 8 b with | some (_, r) => r == 0x20 | none => false) ||
  (match inBlock 0x03000000 0x1000 48 b with | some (_, r) => r == 0x10 || r == 0x18 | none => false) ||
  (match inBlock 0x03840000 0x40 16 b with | some (_, r) => r == 0x18 | none => false)

/-- [DEDUCED, log 11] -/
def doRcRead (p : HostPort) (off size : Nat) (s : State) : State :=
  if rcSlot (off / 8 * 8) then s.hostRead p off size (.rcRegisterRead p off size) (fun t => t.regRead p off size) else s

/-- R19: RC_REGISTER_READ: the value, and the counters cleared. -/
def execRcRegisterRead (p : HostPort) (off size : Nat) (s : State) : Host.Outcome State Fault Refusal := .next (doRcRead p off size s)

/-! ### Writes (R19, R20, R22) -/

/-- The halves written into a 64-bit register that holds `cur`. [DEDUCED, log 13] -/
def Half.merge (x : Half) (cur v : Nat) : Nat := (if x.lo then v % 2 ^ 32 else cur % 2 ^ 32) + (if x.hi then v / 2 ^ 32 % 2 ^ 32 else cur / 2 ^ 32 % 2 ^ 32) * 2 ^ 32

/-- A plain register written, its reserved values handled by R20. [DEDUCED, log 12; DEDUCED, log 13] -/
def State.writeFields (s : State) (p : HostPort) (off : Nat) (fs : List RegField) (v : Nat) : State :=
  let (w, bad) := s.takeFields off fs v
  (if bad then s.misuse p else s).setReg off w

/-- The fields of HOST_HB_CFG. -/
def hbCfgFields : List RegField := [⟨63, 48, 1, 1000⟩, ⟨47, 44, 1, 15⟩, ⟨31, 16, 10, 10000⟩, ⟨15, 0, 0, 65535⟩]

/-- HOST_QCFG and the registers after it. -/
def State.writeQueue (s : State) (p : HostPort) (n r : Nat) (x : Half) (v : Nat) : State :=
  if r = 0 then (if x.lo then s.qcfg p n (v % 2 ^ 32) else s)
  else if r = 8 then s.qring p n false (x.merge (s.hostq (hqOf p n)).sring v)
  else if r = 0x10 then s.qring p n true (x.merge (s.hostq (hqOf p n)).cring v)
  else if r = 0x18 then (if x.lo then s.qchead p n v else s)
  else s

/-- R408: the MSI-X table; a vector unmasked sends its pending message. -/
def State.writeMsix (s : State) (p : HostPort) (off : Nat) (x : Half) (v : Nat) : State :=
  let i := (off - 0x8000) / 16
  let m := SMap.get ({} : MsixVec) (s.port p).msix i
  let m := if off % 16 = 0 then { m with addr := x.merge m.addr v }
    else { m with data := if x.lo then v % 2 ^ 32 else m.data, ctl := if x.hi then v / 2 ^ 32 % 2 else m.ctl }
  (s.modPort p (fun y => { y with msix := SMap.set {} y.msix i m })).flushMsix p

/-- The host-port window and CFG_TXN_CTL. -/
def State.writeHostWindow (s : State) (p : HostPort) (b : Nat) (x : Half) (v : Nat) : State :=
  if b < 0x1200 then (if x.lo then s.doorbell p ((b - 0x1000) / 8) (v % 2 ^ 32) else s)
  else if b < 0x3000 then s.writeQueue p ((b - 0x2000) / 0x40) (b % 0x40) x v
  else if b = 0x3008 then (if x.lo then s.heartbeat p (v % 2 ^ 32) else s)
  else if b = 0x3010 then
    (if x.lo then (if fld v 31 30 = 1 then s.claim p else if fld v 31 30 = 2 then s.handover p else s) else s)
  else if b = 0x3018 then
    s.byStewardOnly p (fun s => s.writeFields p (perPort p 0x3018) hbCfgFields (x.merge (s.reg (perPort p 0x3018)) v))
  else if b = 0x3020 ∨ b = 0x3028 then s.byStewardOnly p (fun s => s.setReg b (x.merge (s.reg b) v))
  else if b = 0x3040 then s.modPort p (fun y => if y.evqEnable then y else { y with evqBase := x.merge y.evqBase v / 64 * 64 })
  else if b = 0x3048 then s.evqCfg p (x.merge (s.port p).evqReg v)
  else if 0x3100 ≤ b ∧ b < 0x3180 then
    let w := x.merge (s.reg (perPort p b)) v
    s.setReg (perPort p b) (put (fld w 63 63) 63 63 + put (fld w 47 26) 47 26)
  else if 0x8000 ≤ b ∧ b < 0x10000 then s.writeMsix p b x v
  else if b = 0x00100000 then (if x.lo then s.txnCtl p (v % 2 ^ 32) else s)
  else s

/-- A priority register: `n` fields of 3 bits in 4. -/
def prioFields (n : Nat) : List RegField := (upto n).map (fun r => ⟨4 * r + 2, 4 * r, 0, 7⟩)

/-- A core region's registers that are not staged. -/
def State.writeCore (s : State) (p : HostPort) (c r : Nat) (x : Half) (v : Nat) : State :=
  if r = 0x0F20 then (if x.lo then s.writeFields p (coreReg c r) (prioFields 8) v else s)
  else if r = 0x0F28 then (if x.lo then s.fenceCtl p c (fld v 31 30) else s)
  else if 0x1000 ≤ r ∧ r < 0x1800 ∧ r % 0x100 = 0x20 then (if x.lo then s.qctl p (8 * c + (r - 0x1000) / 0x100) (v % 2 ^ 32) else s)
  else s

/-- The tack block. -/
def State.writeTacks (s : State) (p : HostPort) (b : Nat) (x : Half) (v : Nat) : State :=
  if b < 0x03640000 then
    let n := (b - 0x03600000) / 16
    if b % 16 = 8 then s.tckCfg p n (x.merge (s.tack n).cfgWord v) else s
  else if b = 0x03640000 then
    let w := x.merge 0 v
    s.hostTackOp p (fld w 63 60) (fld w 59 46) (fld w 31 0)
  else s

/-- The fields of OBS_ERRQ_CTL. -/
def errqCtlFields : List RegField := [⟨31, 30, 0, 3⟩, ⟨23, 23, 0, 1⟩, ⟨22, 22, 0, 1⟩, ⟨21, 11, 0, 2047⟩, ⟨10, 0, 0, 2047⟩]

/-- The observability window. -/
def State.writeObs (s : State) (p : HostPort) (b : Nat) (x : Half) (v : Nat) : State :=
  if b = 0x03800008 then (if x.lo then s.byStewardOnly p (fun s => s.setReg b (put (fld v 31 31) 31 31)) else s)
  else if b = 0x03800010 then (if x.lo then s.freezeCtl p (v % 2 ^ 32) else s)
  else if b = 0x03800020 then
    let w := x.merge s.freeze.roSel v
    { s with freeze := { s.freeze with roSel := put (fld w 63 48) 63 48 + put (fld w 31 0) 31 0 } }
  else if b = 0x03B00020 then (if x.lo then s.byStewardOnly p (fun s => s.writeFields p b errqCtlFields v) else s)
  else if b = 0x03B00028 then s.errqPop p (x.merge 0 v)
  else match inBlock 0x03840000 0x40 16 b with
    | some (n, r) =>
      if r = 0 then s.chalkCfg p n (x.merge (s.buffer n).cfg v)
      else if r = 8 then s.chalkBase p n (x.merge (s.buffer n).base v)
      else if r = 0x20 then
        let s := if x.lo then s.chalkHead n (v % 2 ^ 32) else s
        if x.hi then s.chalkCmd p n (fld v 63 62) else s
      else s
    | none => s

/-- R508: SEC_MAILBOX: opcode, req_words and doorbell; an operation that R509 does not list is answered at once. A value that the table of R522
does not define is handled by R20. [DEDUCED, log 12; DEDUCED, log 71] -/
def State.writeMailbox (s : State) (p : HostPort) (x : Half) (v : Nat) : State :=
  let m := s.mail p
  if m.busy then s
  else
    let op := if x.hi then fld v 47 40 else m.opcode
    let bad := x.hi && op != 0 && !opListed op
    let rq := if x.lo then fld v 29 16 else m.req
    let long := decide (8191 < rq)
    let s := if bad || long then s.misuse p else s
    let m := { m with opcode := if bad then 0 else op, req := if long then 0 else rq }
    if x.hi && bit v 63 then
      (if opListed m.opcode then s.setMail p { m with busy := true } else s.setMail p { m with status := stConflict, resp := 0 })
    else s.setMail p m

/-- R508: the buffer; a write while busy is dropped. -/
def State.writeBuf (s : State) (p : HostPort) (off : Nat) (x : Half) (v : Nat) : State :=
  let m := s.mail p
  if m.busy then s
  else
    let ks := (if x.lo then [0, 1, 2, 3] else []) ++ (if x.hi then [4, 5, 6, 7] else [])
    s.setMail p { m with buf := ks.foldl (fun b k => SMap.set 0 b (off + k) (BitVec.ofNat 8 (v / 2 ^ (8 * k)))) m.buf }

/-- The security window. -/
def State.writeSec (s : State) (p : HostPort) (b : Nat) (x : Half) (v : Nat) : State :=
  if b < 0x03C00200 then (if b % 0x100 = 0 then s.writeMailbox p x v else s)
  else if 0x03C10000 ≤ b ∧ b < 0x03C30000 then s.writeBuf p (b % 0x10000) x v
  else s

/-- The slots of ST registers, which a write stages. -/
def stSlot (b : Nat) : Bool := (stFields b).isSome || (stFields (b + 4)).isSome

/-- A write of the halves `x` of slot `b` that is not staged. [DEDUCED, log 14] -/
def State.writeSlot (s : State) (p : HostPort) (b : Nat) (x : Half) (v : Nat) : State :=
  if b < 0x1000 then (if b = 0x40 ∧ x.lo then s.powerCtl p (v % 2 ^ 32) else s)
  else if b < 0x01000000 then s.writeHostWindow p b x v
  else match inBlock 0x01000000 0x10000 24 b with
    | some (c, r) => s.writeCore p c r x v
    | none => match inBlock 0x02000000 0x100000 8 b with
      | some (h, r) =>
        if r = 0x30 then s.writeFields p b (prioFields 16) (x.merge (s.reg b) v)
        else if r = 0x38 then s.writeFields p b (prioFields 12) (x.merge (s.reg (hubReg h r)) v)
        else s
      | none =>
        if b = 0x02800040 then (if x.hi && bit v 63 then s.rearmNan else s)
        else if 0x02800100 ≤ b ∧ b < 0x02800300 then s.setReg b (x.merge (s.reg b) v)
        else if b = 0x03100010 then (if x.lo then s.writeFields p b (prioFields 4) v else s)
        else if 0x03110000 ≤ b ∧ b < 0x03110800 then s.clearLost ((b - 0x03110000) / 8) (x.merge 0 v)
        else if b = 0x03210008 then (if x.lo then s.writeFields p b [⟨15, 0, 0, 60000⟩] v else s)
        else if 0x03600000 ≤ b ∧ b < 0x03650000 then s.writeTacks p b x v
        else if 0x03800000 ≤ b ∧ b < 0x03C00000 then s.writeObs p b x v
        else if 0x03C00000 ≤ b then s.writeSec p b x v
        else s

/-- R18, R22: a write of BAR0: 4 or 8 bytes, aligned, to a decoded offset that the port reaches. -/
def State.regWrite (s : State) (p : HostPort) (off size v : Nat) : State :=
  let b := off / 8 * 8
  if !aligned off size || !decoded b || otherMailbox p b then s.misuse p
  else if stSlot b then s.stageAt p off size v
  else s.writeSlot p b (halves off size) (if size = 8 then v % 2 ^ 64 else if off % 8 = 0 then v % 2 ^ 32 else v % 2 ^ 32 * 2 ^ 32)

/-- R449: a doorbell in REST waits for the exit that it starts. -/
def doRegisterWrite (p : HostPort) (off size v : Nat) (s : State) : State :=
  s.hostWrite p off (.registerWrite p off size v) (fun t =>
    if t.resting && decide (0x1000 ≤ off) && decide (off < 0x1200) && aligned off size then t.wake.keepAccess p (.registerWrite p off size v)
    else t.regWrite p off size v)

/-- R19: REGISTER_WRITE. -/
def execRegisterWrite (p : HostPort) (off size v : Nat) (s : State) : Host.Outcome State Fault Refusal := .next (doRegisterWrite p off size v s)

end Sys2Proof.Machine
end

