-- ==== Sys2Proof/Machine/Dispatch.lean ====
section
/-! DEFINITION. The dispatch: one arm for each command, each one direct call of its meaning. -/

namespace Sys2Proof.Machine

def exec (i : Instr) (s : State) : Host.Outcome State Fault Refusal :=
  match i with
  | .registerWrite p off size v => Sys2Proof.Machine.execRegisterWrite p off size v s
  | .rcRegisterRead p off size => Sys2Proof.Machine.execRcRegisterRead p off size s
  | .obsTimeLoRead r size => Sys2Proof.Machine.execObsTimeLoRead r size s
  | .wave e => Sys2Proof.Machine.execWave e s
  | .waveRateWindowEnd e count => Sys2Proof.Machine.execWaveRateWindowEnd e count s
  | .engineTakeTile e press => Sys2Proof.Machine.execEngineTakeTile e press s
  | .warpLoadStart e pl => Sys2Proof.Machine.execWarpLoadStart e pl s
  | .drainStart e pl => Sys2Proof.Machine.execDrainStart e pl s
  | .newConfigurationInForce e pl => Sys2Proof.Machine.execNewConfigurationInForce e pl s
  | .shadowSampleCharge e => Sys2Proof.Machine.execShadowSampleCharge e s
  | .aluRegister c q op rd rs1 rs2 => Sys2Proof.Machine.execAluRegister c q op rd rs1 rs2 s
  | .aluImmediate c q op rd rs1 imm => Sys2Proof.Machine.execAluImmediate c q op rd rs1 imm s
  | .li c q rd imm => Sys2Proof.Machine.execLi c q rd imm s
  | .lih c q rd imm => Sys2Proof.Machine.execLih c q rd imm s
  | .amov c q rd rs1 => Sys2Proof.Machine.execAmov c q rd rs1 s
  | .gmov c q rd rs1 => Sys2Proof.Machine.execGmov c q rd rs1 s
  | .aadd c q rd rs1 rs2 imm => Sys2Proof.Machine.execAadd c q rd rs1 rs2 imm s
  | .load c q op rd rs1 imm => Sys2Proof.Machine.execLoad c q op rd rs1 imm s
  | .store c q op rs1 rs2 imm => Sys2Proof.Machine.execStore c q op rs1 rs2 imm s
  | .branch c q op rs1 rs2 imm => Sys2Proof.Machine.execBranch c q op rs1 rs2 imm s
  | .jmp c q imm => Sys2Proof.Machine.execJmp c q imm s
  | .call c q imm => Sys2Proof.Machine.execCall c q imm s
  | .ret c q => Sys2Proof.Machine.execRet c q s
  | .nop c q => Sys2Proof.Machine.execNop c q s
  | .endSub c q => Sys2Proof.Machine.execEndSub c q s
  | .rdsr c q rd imm => Sys2Proof.Machine.execRdsr c q rd imm s
  | .wrsr c q rs1 imm => Sys2Proof.Machine.execWrsr c q rs1 imm s
  | .trap c q imm => Sys2Proof.Machine.execTrap c q imm s
  | .mm c q w => Sys2Proof.Machine.execMm c q w s
  | .loadw c q w => Sys2Proof.Machine.execLoadw c q w s
  | .seam c q w => Sys2Proof.Machine.execSeam c q w s
  | .quant c q w => Sys2Proof.Machine.execQuant c q w s
  | .pressElementwise c q w => Sys2Proof.Machine.execPressElementwise c q w s
  | .pressReduction c q w => Sys2Proof.Machine.execPressReduction c q w s
  | .normAcc c q w => Sys2Proof.Machine.execNormAcc c q w s
  | .shuttleCopy c q w => Sys2Proof.Machine.execShuttleCopy c q w s
  | .convert c q w => Sys2Proof.Machine.execConvert c q w s
  | .decrypt c q w => Sys2Proof.Machine.execDecrypt c q w s
  | .fill c q w => Sys2Proof.Machine.execFill c q w s
  | .tackCmdSet c q w => Sys2Proof.Machine.execTackCmdSet c q w s
  | .tackCmdAdd c q w => Sys2Proof.Machine.execTackCmdAdd c q w s
  | .tackCmdWaitGe c q w => Sys2Proof.Machine.execTackCmdWaitGe c q w s
  | .tackCmdWaitEq c q w => Sys2Proof.Machine.execTackCmdWaitEq c q w s
  | .tackCmdArrive c q w => Sys2Proof.Machine.execTackCmdArrive c q w s
  | .tackWaitTimeout n c q => Sys2Proof.Machine.execTackWaitTimeout n c q s
  | .allreduce c q w => Sys2Proof.Machine.execAllreduce c q w s
  | .reduceScatter c q w => Sys2Proof.Machine.execReduceScatter c q w s
  | .allgather c q w => Sys2Proof.Machine.execAllgather c q w s
  | .broadcast c q w => Sys2Proof.Machine.execBroadcast c q w s
  | .reduce c q w => Sys2Proof.Machine.execReduce c q w s
  | .collNorm c q w => Sys2Proof.Machine.execCollNorm c q w s
  | .upd c q w => Sys2Proof.Machine.execUpd c q w s
  | .updBlockGroup c q cseq => Sys2Proof.Machine.execUpdBlockGroup c q cseq s
  | .stepEnd c q w => Sys2Proof.Machine.execStepEnd c q w s
  | .stepEndMerge => Sys2Proof.Machine.execStepEndMerge s
  | .stepEndDecide => Sys2Proof.Machine.execStepEndDecide s
  | .loadFit c q w => Sys2Proof.Machine.execLoadFit c q w s
  | .saveFit c q w => Sys2Proof.Machine.execSaveFit c q w s
  | .saveStats c q w => Sys2Proof.Machine.execSaveStats c q w s
  | .streamOpen c q w => Sys2Proof.Machine.execStreamOpen c q w s
  | .streamClose c q w => Sys2Proof.Machine.execStreamClose c q w s
  | .chalkMark c q w => Sys2Proof.Machine.execChalkMark c q w s
  | .chalkTrigger c q w => Sys2Proof.Machine.execChalkTrigger c q w s
  | .chalkStart c q w => Sys2Proof.Machine.execChalkStart c q w s
  | .chalkStop c q w => Sys2Proof.Machine.execChalkStop c q w s
  | .fenceQueue c q w => Sys2Proof.Machine.execFenceQueue c q w s
  | .fenceCore c q w => Sys2Proof.Machine.execFenceCore c q w s
  | .commandIssue c q => Sys2Proof.Machine.execCommandIssue c q s
  | .commandRetire c q => Sys2Proof.Machine.execCommandRetire c q s
  | .submissionStart c q entry => Sys2Proof.Machine.execSubmissionStart c q entry s
  | .hostQdoorbell p n v => Sys2Proof.Machine.execHostQdoorbell p n v s
  | .hostQcfgWrite p n v => Sys2Proof.Machine.execHostQcfgWrite p n v s
  | .hostQcheadWrite p n v => Sys2Proof.Machine.execHostQcheadWrite p n v s
  | .retry p c q v => Sys2Proof.Machine.execRetry p c q v s
  | .skip p c q v => Sys2Proof.Machine.execSkip p c q v s
  | .abort p c q v => Sys2Proof.Machine.execAbort p c q v s
  | .hostTackSet p n v => Sys2Proof.Machine.execHostTackSet p n v s
  | .hostTackAdd p n v => Sys2Proof.Machine.execHostTackAdd p n v s
  | .tckCfgWrite p n v => Sys2Proof.Machine.execTckCfgWrite p n v s
  | .counterLiveRead r x => Sys2Proof.Machine.execCounterLiveRead r x s
  | .counterSnapRead r x => Sys2Proof.Machine.execCounterSnapRead r x s
  | .arbiterGrant a req => Sys2Proof.Machine.execArbiterGrant a req s
  | .hubChannelAccess h off write err => Sys2Proof.Machine.execHubChannelAccess h off write err s
  | .scrubRead h ch page errs => Sys2Proof.Machine.execScrubRead h ch page errs s
  | .dqRetune h drift => Sys2Proof.Machine.execDqRetune h drift s
  | .mr4Read h rate => Sys2Proof.Machine.execMr4Read h rate s
  | .zqCalibrationLatch h ch => Sys2Proof.Machine.execZqCalibrationLatch h ch s
  | .blockReceive b blk => Sys2Proof.Machine.execBlockReceive b blk s
  | .blockAckTimer b => Sys2Proof.Machine.execBlockAckTimer b s
  | .ucieRetrain h m ok => Sys2Proof.Machine.execUcieRetrain h m ok s
  | .sramDomainChange c => Sys2Proof.Machine.execSramDomainChange c s
  | .sramZeroFillComplete c => Sys2Proof.Machine.execSramZeroFillComplete c s
  | .portTraining p ok polarity => Sys2Proof.Machine.execPortTraining p ok polarity s
  | .trainingRetryTimer p => Sys2Proof.Machine.execTrainingRetryTimer p s
  | .initSendTimer p => Sys2Proof.Machine.execInitSendTimer p s
  | .init p f => Sys2Proof.Machine.execInit p f s
  | .idle p f => Sys2Proof.Machine.execIdle p f s
  | .data p f => Sys2Proof.Machine.execData p f s
  | .hold p f => Sys2Proof.Machine.execHold p f s
  | .credit p f => Sys2Proof.Machine.execCredit p f s
  | .audit p f => Sys2Proof.Machine.execAudit p f s
  | .timeReq p f => Sys2Proof.Machine.execTimeReq p f s
  | .timeResp p f => Sys2Proof.Machine.execTimeResp p f s
  | .nackRepeatTimer p => Sys2Proof.Machine.execNackRepeatTimer p s
  | .ackTimer p => Sys2Proof.Machine.execAckTimer p s
  | .creditReturnTimer p => Sys2Proof.Machine.execCreditReturnTimer p s
  | .auditTimer p => Sys2Proof.Machine.execAuditTimer p s
  | .timeReqTimer p => Sys2Proof.Machine.execTimeReqTimer p s
  | .timeAnnounceTimer => Sys2Proof.Machine.execTimeAnnounceTimer s
  | .recoveryTimeout p => Sys2Proof.Machine.execRecoveryTimeout p s
  | .lossOfSignal p => Sys2Proof.Machine.execLossOfSignal p s
  | .put p m => Sys2Proof.Machine.execPut p m s
  | .get p m => Sys2Proof.Machine.execGet p m s
  | .getResp p m => Sys2Proof.Machine.execGetResp p m s
  | .atomic p m => Sys2Proof.Machine.execAtomic p m s
  | .atomicResp p m => Sys2Proof.Machine.execAtomicResp p m s
  | .tackAdd p m => Sys2Proof.Machine.execTackAdd p m s
  | .ack p m => Sys2Proof.Machine.execAck p m s
  | .collReady p m => Sys2Proof.Machine.execCollReady p m s
  | .collGet p m => Sys2Proof.Machine.execCollGet p m s
  | .collData p m => Sys2Proof.Machine.execCollData p m s
  | .collPut p m => Sys2Proof.Machine.execCollPut p m s
  | .collAbort p m => Sys2Proof.Machine.execCollAbort p m s
  | .peerDown p m => Sys2Proof.Machine.execPeerDown p m s
  | .timeAnnounce p m => Sys2Proof.Machine.execTimeAnnounce p m s
  | .transportResendTimeout dst stream mseq => Sys2Proof.Machine.execTransportResendTimeout dst stream mseq s
  | .holdLimitExpiry => Sys2Proof.Machine.execHoldLimitExpiry s
  | .stragglerTimer comm k => Sys2Proof.Machine.execStragglerTimer comm k s
  | .lnkPeerLostClear p word v => Sys2Proof.Machine.execLnkPeerLostClear p word v s
  | .bar2Read p off len => Sys2Proof.Machine.execBar2Read p off len s
  | .bar2Write p off bytes ep => Sys2Proof.Machine.execBar2Write p off bytes ep s
  | .hostHeartbeat p v => Sys2Proof.Machine.execHostHeartbeat p v s
  | .stewardSilent => Sys2Proof.Machine.execStewardSilent s
  | .graceEnd => Sys2Proof.Machine.execGraceEnd s
  | .claim p => Sys2Proof.Machine.execClaim p s
  | .handover p => Sys2Proof.Machine.execHandover p s
  | .hostLinkDown p => Sys2Proof.Machine.execHostLinkDown p s
  | .hostLinkUp p width rate => Sys2Proof.Machine.execHostLinkUp p width rate s
  | .perst p asserted => Sys2Proof.Machine.execPerst p asserted s
  | .functionLevelReset p => Sys2Proof.Machine.execFunctionLevelReset p s
  | .drainLimitExpiry p n => Sys2Proof.Machine.execDrainLimitExpiry p n s
  | .completionTimeout p tag => Sys2Proof.Machine.execCompletionTimeout p tag s
  | .hostEvqCfgWrite p v => Sys2Proof.Machine.execHostEvqCfgWrite p v s
  | .eventQueueHeadWrite p head => Sys2Proof.Machine.execEventQueueHeadWrite p head s
  | .pwrEnRise => Sys2Proof.Machine.execPwrEnRise s
  | .pwrGoodRise failCores failUcie trained failHubs links => Sys2Proof.Machine.execPwrGoodRise failCores failUcie trained failHubs links s
  | .stageTimeout stage => Sys2Proof.Machine.execStageTimeout stage s
  | .pwrEnFall => Sys2Proof.Machine.execPwrEnFall s
  | .inputStandbyUp r => Sys2Proof.Machine.execInputStandbyUp r s
  | .supplyCutoff tooHigh vin => Sys2Proof.Machine.execSupplyCutoff tooHigh vin s
  | .touch p => Sys2Proof.Machine.execTouch p s
  | .baste p v => Sys2Proof.Machine.execBaste p v s
  | .stagedWrite p off size v => Sys2Proof.Machine.execStagedWrite p off size v s
  | .sew p => Sys2Proof.Machine.execSew p s
  | .sewEnd p => Sys2Proof.Machine.execSewEnd p s
  | .unpick p => Sys2Proof.Machine.execUnpick p s
  | .transactionIdleTimeout p => Sys2Proof.Machine.execTransactionIdleTimeout p s
  | .restEntry => Sys2Proof.Machine.execRestEntry s
  | .restExit => Sys2Proof.Machine.execRestExit s
  | .modPowerCtlWrite p v => Sys2Proof.Machine.execModPowerCtlWrite p v s
  | .powerWindow watts r => Sys2Proof.Machine.execPowerWindow watts r s
  | .powerFastInterval watts => Sys2Proof.Machine.execPowerFastInterval watts s
  | .capUnmetAlert => Sys2Proof.Machine.execCapUnmetAlert s
  | .thermalRead die hub ps hubs => Sys2Proof.Machine.execThermalRead die hub ps hubs s
  | .thermalHoldInterval => Sys2Proof.Machine.execThermalHoldInterval s
  | .trip dieC psC => Sys2Proof.Machine.execTrip dieC psC s
  | .errorContainmentStep unit => Sys2Proof.Machine.execErrorContainmentStep unit s
  | .obsErrqPop p v => Sys2Proof.Machine.execObsErrqPop p v s
  | .mcWatchdogExpiry => Sys2Proof.Machine.execMcWatchdogExpiry s
  | .fence p c => Sys2Proof.Machine.execFence p c s
  | .retest p c => Sys2Proof.Machine.execRetest p c s
  | .retestEnd c passed => Sys2Proof.Machine.execRetestEnd c passed s
  | .conservationCheck => Sys2Proof.Machine.execConservationCheck s
  | .getInfo p => Sys2Proof.Machine.execGetInfo p s
  | .getCerts p => Sys2Proof.Machine.execGetCerts p s
  | .getMeas p => Sys2Proof.Machine.execGetMeas p s
  | .extend p => Sys2Proof.Machine.execExtend p s
  | .attest p => Sys2Proof.Machine.execAttest p s
  | .keyRelease p => Sys2Proof.Machine.execKeyRelease p s
  | .domainAuth p => Sys2Proof.Machine.execDomainAuth p s
  | .sessionClose p => Sys2Proof.Machine.execSessionClose p s
  | .domainPurge p => Sys2Proof.Machine.execDomainPurge p s
  | .domainKeygen p => Sys2Proof.Machine.execDomainKeygen p s
  | .sessionTimeout k => Sys2Proof.Machine.execSessionTimeout k s
  | .authorisationLapse k => Sys2Proof.Machine.execAuthorisationLapse k s
  | .fwBegin p => Sys2Proof.Machine.execFwBegin p s
  | .fwWrite p => Sys2Proof.Machine.execFwWrite p s
  | .fwVerify p => Sys2Proof.Machine.execFwVerify p s
  | .fwActivate p => Sys2Proof.Machine.execFwActivate p s
  | .fwAbort p => Sys2Proof.Machine.execFwAbort p s
  | .fwCommit p => Sys2Proof.Machine.execFwCommit p s
  | .fwUnitRunning image => Sys2Proof.Machine.execFwUnitRunning image s
  | .activationTimeout image => Sys2Proof.Machine.execActivationTimeout image s
  | .fwSessionIdleTimeout => Sys2Proof.Machine.execFwSessionIdleTimeout s
  | .flashOperationComplete => Sys2Proof.Machine.execFlashOperationComplete s
  | .settingsWrite p => Sys2Proof.Machine.execSettingsWrite p s
  | .setMinSvn p => Sys2Proof.Machine.execSetMinSvn p s
  | .aliasCertIssue => Sys2Proof.Machine.execAliasCertIssue s
  | .chalkUnitFlush b => Sys2Proof.Machine.execChalkUnitFlush b s
  | .chalkGap b => Sys2Proof.Machine.execChalkGap b s
  | .chalkHostStart p b => Sys2Proof.Machine.execChalkHostStart p b s
  | .chalkHostStop p b => Sys2Proof.Machine.execChalkHostStop p b s
  | .chalkHostTrigger p b => Sys2Proof.Machine.execChalkHostTrigger p b s
  | .obsChalkCfgWrite p b v => Sys2Proof.Machine.execObsChalkCfgWrite p b v s
  | .obsChalkHeadWrite p b v => Sys2Proof.Machine.execObsChalkHeadWrite p b v s
  | .nanTrapRearm p => Sys2Proof.Machine.execNanTrapRearm p s
  | .freezePin low ns => Sys2Proof.Machine.execFreezePin low ns s
  | .swFreeze p set => Sys2Proof.Machine.execSwFreeze p set s
  | .clearChalk p => Sys2Proof.Machine.execClearChalk p s
  | .obsRoDataRead r => Sys2Proof.Machine.execObsRoDataRead r s
  | .ppsEdge t => Sys2Proof.Machine.execPpsEdge t s
  | .i3cOffsetWrite off => Sys2Proof.Machine.execI3cOffsetWrite off s
  | .i3cRead => Sys2Proof.Machine.execI3cRead s
  | .illegalInstruction c q w => Sys2Proof.Machine.execIllegalInstruction c q w s
  | .bar0Read p off size => Sys2Proof.Machine.execBar0Read p off size s
  | .configurationSpaceWrite p x => Sys2Proof.Machine.execConfigurationSpaceWrite p x s
  | .dataObjectExchange p o => Sys2Proof.Machine.execDataObjectExchange p o s
  | .hostReadCompletion p tag x => Sys2Proof.Machine.execHostReadCompletion p tag x s
  | .internalFault u => Sys2Proof.Machine.execInternalFault u s
  | .railSlewComplete => Sys2Proof.Machine.execRailSlewComplete s
  | .pwrEnHoldExpiry => Sys2Proof.Machine.execPwrEnHoldExpiry s
  | .standbySupplyStop vin => Sys2Proof.Machine.execStandbySupplyStop vin s
  | .ppsSeenExpiry => Sys2Proof.Machine.execPpsSeenExpiry s
  | .domainPurgeComplete d => Sys2Proof.Machine.execDomainPurgeComplete d s
  | .fwVerifyComplete => Sys2Proof.Machine.execFwVerifyComplete s

end Sys2Proof.Machine
end

