-- ==== Sys2Proof/Machine/Tick.lean ====
section
/-! DEFINITION. What the block does when no command waits: host accesses held by freeze go on (R429, R544), or by REST (R449), and otherwise time passes. -/

namespace Sys2Proof.Machine

/-- The oldest access of a port that waited for freeze to end, put in front of the queue (R544). [DESIGN CHOICE, log 1] -/
def Port.release (x : Port) : Option (Instr × Port) :=
  match x.waiting with
  | [] => none
  | c :: cs => some (c, { x with waiting := cs, draining := true })

/-- R400: what is left to slew away now, in units of 2^−17 / 5,000 ns: ±200 ppm of the time since it was measured is done. -/
def State.slewOwed (s : State) : Int :=
  let t := s.link.time
  let done : Int := (s.now - t.slewFrom : Nat) * 131072
  if 0 ≤ t.slew then max (5000 * t.slew - done) 0 else min (5000 * t.slew + done) 0

/-- R400: one nanosecond passes: the time base advances by it, and by at most ±200 ppm more while there is something to slew away.
[DESIGN CHOICE, log 48] -/
def State.advance (s : State) : State :=
  let u := (655360000 + max (-131072) (min s.slewOwed 131072) + s.link.time.frac).toNat
  { s with now := s.now + u / 655360000, link := { s.link with time := { s.link.time with frac := u % 655360000 } } }

/-- An idle step: a waiting host access is taken up, HA's first, unless freeze, REST or an activation of the management controller (R461) holds
it; with none, a nanosecond passes while PWR_GOOD is high. [DESIGN CHOICE, log 1] -/
def State.idle (s : State) : State :=
  let passed := if s.power.pwrGood then s.advance else s
  if s.freeze.frozen || s.power.state != .active || (match s.sec.activation with | some a => a.cur == 1 | none => false) then passed
  else
    match s.ha.release, s.hb.release with
    | some (c, x), _ => { s with pending := [c], ha := x }
    | none, some (c, x) => { s with pending := [c], hb := x }
    | none, none => passed

end Sys2Proof.Machine
end

