-- ==== Sys2Proof/WellFormed.lean ====
section
/-! DEFINITION. Which commands are well formed: the units they name exist (R12), register numbers are in range (R205, R211), and a
scalar instruction's operands fit its word. -/

namespace Sys2Proof

/-- R12, R205: core queue q of core c exists. -/
def queueOk (c q : Nat) : Bool := decide (c < 24) && decide (q < 8)

/-- R205: a general register. -/
def gOk (r : Nat) : Bool := decide (r < 32)

/-- R205, R211: an address register. -/
def aOk (r : Nat) : Bool := decide (r < 16)

/-- R211: the scalar instructions, with register numbers that their word can hold. -/
def scalarOk : Instr → Bool
  | .aluRegister c q _ rd rs1 rs2 => queueOk c q && gOk rd && gOk rs1 && gOk rs2
  | .aluImmediate c q _ rd rs1 _ => queueOk c q && gOk rd && gOk rs1
  | .li c q rd _ => queueOk c q && gOk rd
  | .lih c q rd _ => queueOk c q && gOk rd
  | .amov c q rd rs1 => queueOk c q && aOk rd && gOk rs1
  | .gmov c q rd rs1 => queueOk c q && gOk rd && aOk rs1
  | .aadd c q rd rs1 rs2 _ => queueOk c q && aOk rd && aOk rs1 && gOk rs2
  | .load c q _ rd rs1 _ => queueOk c q && gOk rd && aOk rs1
  | .store c q _ rs1 rs2 _ => queueOk c q && aOk rs1 && gOk rs2
  | .branch c q _ rs1 rs2 _ => queueOk c q && gOk rs1 && gOk rs2
  | .jmp c q _ => queueOk c q
  | .call c q _ => queueOk c q
  | .ret c q => queueOk c q
  | .nop c q => queueOk c q
  | .endSub c q => queueOk c q
  | .rdsr c q rd _ => queueOk c q && gOk rd
  | .wrsr c q rs1 _ => queueOk c q && gOk rs1
  | .trap c q _ => queueOk c q
  | _ => false

/-- The core queue that a scalar instruction runs in. -/
def scalarQueue : Instr → Option (Nat × Nat)
  | .aluRegister c q _ _ _ _ => some (c, q)
  | .aluImmediate c q _ _ _ _ => some (c, q)
  | .li c q _ _ => some (c, q)
  | .lih c q _ _ => some (c, q)
  | .amov c q _ _ => some (c, q)
  | .gmov c q _ _ => some (c, q)
  | .aadd c q _ _ _ _ => some (c, q)
  | .load c q _ _ _ _ => some (c, q)
  | .store c q _ _ _ _ => some (c, q)
  | .branch c q _ _ _ _ => some (c, q)
  | .jmp c q _ => some (c, q)
  | .call c q _ => some (c, q)
  | .ret c q => some (c, q)
  | .nop c q => some (c, q)
  | .endSub c q => some (c, q)
  | .rdsr c q _ _ => some (c, q)
  | .wrsr c q _ _ => some (c, q)
  | .trap c q _ => some (c, q)
  | _ => none

/-- R214: a wide command's first word is of class 0xF, with a given opcode. -/
def wideOk (c q : Nat) (w : Words) (opcode : Nat) : Bool :=
  queueOk c q && w.w0.toNat / 2 ^ 60 == 15 && w.w0.toNat / 2 ^ 52 % 256 == opcode

/-- R529: a command-scoped counter exists. -/
def ctrExists : ScopedCtr → Bool
  | .shuttleBytes i => decide (i < 48)
  | .pressElems g => decide (g < 96)

/-- R319, R320: a contended port exists. -/
def arbExists : ArbPort → Bool
  | .hubIngress h => decide (h < 8)
  | .coreStoreBank c b => decide (c < 24) && decide (b < 16)
  | .egress p => decide (p < 48)
  | .tack n => decide (n < 16384)
  | .scopedCtr x => ctrExists x
  | .streamRegistry => true
  | .role => true
  | .sew => true
  | .chalk => true
  | .tailor => true
  | .mailbox => true

/-- R323: a block stream exists: 39 die-network ports, and six UCIe modules a hub. -/
def streamNamed : BlockStream → Bool
  | .die a b => decide (a < 39) && decide (b < 39) && a != b
  | .ucie h m _ => decide (h < 8) && decide (m < 6)

/-- A unit that detects faults of its own exists. -/
def faultNamed : FaultUnit → Bool
  | .bobbinDouble c => decide (c < 24)
  | .arrayCheck c => decide (c < 24)
  | .coreStoreDouble c => decide (c < 24)
  | .stateCheck c => decide (c < 24)
  | .bobbinSingle c => decide (c < 24)
  | .coreStoreSingle c => decide (c < 24)
  | .updateEngine h => decide (h < 8)
  | .hubController h => decide (h < 8)
  | .slice k => decide (k < 4)
  | .aerCorrectable _ => true
  | .ideCheckFailed _ => true

/-- Whether a command is well formed: every unit it names exists, and its operands have the form its row gives it.
[DESIGN CHOICE, log 4] -/
def wellFormed : Instr → Bool
  | .registerWrite _ _ size _ => size == 4 || size == 8
  | .rcRegisterRead _ _ size => size == 4 || size == 8
  | .obsTimeLoRead _ size => size == 4 || size == 8
  | .wave e => decide (e < 96)
  | .waveRateWindowEnd e _ => decide (e < 96)
  | .engineTakeTile e _ => decide (e < 96)
  | .warpLoadStart e pl => decide (e < 96) && decide (pl < 16)
  | .drainStart e pl => decide (e < 96) && decide (pl < 16)
  | .newConfigurationInForce e pl => decide (e < 96) && decide (pl < 16)
  | .shadowSampleCharge e => decide (e < 96)
  | .aluRegister x0 x1 x2 x3 x4 x5 => scalarOk (.aluRegister x0 x1 x2 x3 x4 x5)
  | .aluImmediate x0 x1 x2 x3 x4 x5 => scalarOk (.aluImmediate x0 x1 x2 x3 x4 x5)
  | .li x0 x1 x2 x3 => scalarOk (.li x0 x1 x2 x3)
  | .lih x0 x1 x2 x3 => scalarOk (.lih x0 x1 x2 x3)
  | .amov x0 x1 x2 x3 => scalarOk (.amov x0 x1 x2 x3)
  | .gmov x0 x1 x2 x3 => scalarOk (.gmov x0 x1 x2 x3)
  | .aadd x0 x1 x2 x3 x4 x5 => scalarOk (.aadd x0 x1 x2 x3 x4 x5)
  | .load x0 x1 x2 x3 x4 x5 => scalarOk (.load x0 x1 x2 x3 x4 x5)
  | .store x0 x1 x2 x3 x4 x5 => scalarOk (.store x0 x1 x2 x3 x4 x5)
  | .branch x0 x1 x2 x3 x4 x5 => scalarOk (.branch x0 x1 x2 x3 x4 x5)
  | .jmp x0 x1 x2 => scalarOk (.jmp x0 x1 x2)
  | .call x0 x1 x2 => scalarOk (.call x0 x1 x2)
  | .ret x0 x1 => scalarOk (.ret x0 x1)
  | .nop x0 x1 => scalarOk (.nop x0 x1)
  | .endSub x0 x1 => scalarOk (.endSub x0 x1)
  | .rdsr x0 x1 x2 x3 => scalarOk (.rdsr x0 x1 x2 x3)
  | .wrsr x0 x1 x2 x3 => scalarOk (.wrsr x0 x1 x2 x3)
  | .trap x0 x1 x2 => scalarOk (.trap x0 x1 x2)
  | .mm c q w => wideOk c q w 1
  | .loadw c q w => wideOk c q w 2
  | .seam c q w => wideOk c q w 3
  | .quant c q w => wideOk c q w 4
  | .pressElementwise c q w => wideOk c q w 5
  | .pressReduction c q w => wideOk c q w 5
  | .normAcc c q w => wideOk c q w 5
  | .shuttleCopy c q w => wideOk c q w 6
  | .convert c q w => wideOk c q w 6
  | .decrypt c q w => wideOk c q w 6
  | .fill c q w => wideOk c q w 6
  | .tackCmdSet c q w => wideOk c q w 7
  | .tackCmdAdd c q w => wideOk c q w 7
  | .tackCmdWaitGe c q w => wideOk c q w 7
  | .tackCmdWaitEq c q w => wideOk c q w 7
  | .tackCmdArrive c q w => wideOk c q w 7
  | .tackWaitTimeout n c q => decide (n < 16384) && queueOk c q
  | .allreduce c q w => wideOk c q w 8
  | .reduceScatter c q w => wideOk c q w 8
  | .allgather c q w => wideOk c q w 8
  | .broadcast c q w => wideOk c q w 8
  | .reduce c q w => wideOk c q w 8
  | .collNorm c q w => wideOk c q w 8
  | .upd c q w => wideOk c q w 9
  | .updBlockGroup c q _ => queueOk c q
  | .stepEnd c q w => wideOk c q w 10
  | .stepEndMerge => true
  | .stepEndDecide => true
  | .loadFit c q w => wideOk c q w 10
  | .saveFit c q w => wideOk c q w 10
  | .saveStats c q w => wideOk c q w 10
  | .streamOpen c q w => wideOk c q w 10
  | .streamClose c q w => wideOk c q w 10
  | .chalkMark c q w => wideOk c q w 11
  | .chalkTrigger c q w => wideOk c q w 11
  | .chalkStart c q w => wideOk c q w 11
  | .chalkStop c q w => wideOk c q w 11
  | .fenceQueue c q w => wideOk c q w 12
  | .fenceCore c q w => wideOk c q w 12
  | .commandIssue c q => queueOk c q
  | .commandRetire c q => queueOk c q
  | .submissionStart c q _ => queueOk c q
  | .hostQdoorbell _ n _ => decide (n < 64)
  | .hostQcfgWrite _ n _ => decide (n < 64)
  | .hostQcheadWrite _ n _ => decide (n < 64)
  | .retry _ c q _ => queueOk c q
  | .skip _ c q _ => queueOk c q
  | .abort _ c q _ => queueOk c q
  | .hostTackSet _ n _ => decide (n < 16384)
  | .hostTackAdd _ n _ => decide (n < 16384)
  | .tckCfgWrite _ n _ => decide (n < 16384)
  | .counterLiveRead _ x => ctrExists x.ctr
  | .counterSnapRead _ x => ctrExists x.ctr
  | .arbiterGrant a _ => arbExists a
  | .hubChannelAccess h _ _ _ => decide (h < 8)
  | .scrubRead h ch _ _ => decide (h < 8) && decide (ch < 48)
  | .dqRetune h _ => decide (h < 8)
  | .mr4Read h _ => decide (h < 8)
  | .zqCalibrationLatch h ch => decide (h < 8) && decide (ch < 48)
  | .blockReceive b _ => streamNamed b
  | .blockAckTimer b => streamNamed b
  | .ucieRetrain h m _ => decide (h < 8) && decide (m < 6)
  | .sramDomainChange c => decide (c < 24)
  | .sramZeroFillComplete c => decide (c < 24)
  | .portTraining p _ _ => decide (p < 48)
  | .trainingRetryTimer p => decide (p < 48)
  | .initSendTimer p => decide (p < 48)
  | .init p _ => decide (p < 48)
  | .idle p _ => decide (p < 48)
  | .data p _ => decide (p < 48)
  | .hold p _ => decide (p < 48)
  | .credit p _ => decide (p < 48)
  | .audit p _ => decide (p < 48)
  | .timeReq p _ => decide (p < 48)
  | .timeResp p _ => decide (p < 48)
  | .nackRepeatTimer p => decide (p < 48)
  | .ackTimer p => decide (p < 48)
  | .creditReturnTimer p => decide (p < 48)
  | .auditTimer p => decide (p < 48)
  | .timeReqTimer p => decide (p < 48)
  | .timeAnnounceTimer => true
  | .recoveryTimeout p => decide (p < 48)
  | .lossOfSignal p => decide (p < 48)
  | .put p _ => decide (p < 48)
  | .get p _ => decide (p < 48)
  | .getResp p _ => decide (p < 48)
  | .atomic p _ => decide (p < 48)
  | .atomicResp p _ => decide (p < 48)
  | .tackAdd p _ => decide (p < 48)
  | .ack p _ => decide (p < 48)
  | .collReady p _ => decide (p < 48)
  | .collGet p _ => decide (p < 48)
  | .collData p _ => decide (p < 48)
  | .collPut p _ => decide (p < 48)
  | .collAbort p _ => decide (p < 48)
  | .peerDown p _ => decide (p < 48)
  | .timeAnnounce p _ => decide (p < 48)
  | .transportResendTimeout dst stream _ => decide (dst < 16384) && decide (stream < 449)
  | .holdLimitExpiry => true
  | .stragglerTimer comm _ => decide (comm < 256)
  | .lnkPeerLostClear _ word _ => decide (word < 256)
  | .bar2Read _ _ _ => true
  | .bar2Write _ _ _ _ => true
  | .hostHeartbeat _ _ => true
  | .stewardSilent => true
  | .graceEnd => true
  | .claim _ => true
  | .handover _ => true
  | .hostLinkDown _ => true
  | .hostLinkUp _ _ _ => true
  | .perst _ _ => true
  | .functionLevelReset _ => true
  | .drainLimitExpiry _ n => decide (n < 64)
  | .completionTimeout _ _ => true
  | .hostEvqCfgWrite _ _ => true
  | .eventQueueHeadWrite _ _ => true
  | .pwrEnRise => true
  | .pwrGoodRise _ _ _ _ _ => true
  | .stageTimeout stage => decide (2 ≤ stage) && decide (stage ≤ 10)
  | .pwrEnFall => true
  | .inputStandbyUp _ => true
  | .supplyCutoff _ _ => true
  | .touch _ => true
  | .baste _ _ => true
  | .stagedWrite _ _ size _ => size == 4 || size == 8
  | .sew _ => true
  | .sewEnd _ => true
  | .unpick _ => true
  | .transactionIdleTimeout _ => true
  | .restEntry => true
  | .restExit => true
  | .modPowerCtlWrite _ _ => true
  | .powerWindow _ _ => true
  | .powerFastInterval _ => true
  | .capUnmetAlert => true
  | .thermalRead _ _ _ _ => true
  | .thermalHoldInterval => true
  | .trip _ _ => true
  | .errorContainmentStep unit => decide (unit < 11)
  | .obsErrqPop _ _ => true
  | .mcWatchdogExpiry => true
  | .fence _ c => decide (c < 24)
  | .retest _ c => decide (c < 24)
  | .retestEnd c _ => decide (c < 24)
  | .conservationCheck => true
  | .getInfo _ => true
  | .getCerts _ => true
  | .getMeas _ => true
  | .extend _ => true
  | .attest _ => true
  | .keyRelease _ => true
  | .domainAuth _ => true
  | .sessionClose _ => true
  | .domainPurge _ => true
  | .domainKeygen _ => true
  | .sessionTimeout k => decide (k < 4)
  | .authorisationLapse _ => true
  | .fwBegin _ => true
  | .fwWrite _ => true
  | .fwVerify _ => true
  | .fwActivate _ => true
  | .fwAbort _ => true
  | .fwCommit _ => true
  | .fwUnitRunning image => decide (image < 5)
  | .activationTimeout image => decide (image < 5)
  | .fwSessionIdleTimeout => true
  | .flashOperationComplete => true
  | .settingsWrite _ => true
  | .setMinSvn _ => true
  | .aliasCertIssue => true
  | .chalkUnitFlush b => decide (b < 16)
  | .chalkGap b => decide (b < 16)
  | .chalkHostStart _ b => decide (b < 16)
  | .chalkHostStop _ b => decide (b < 16)
  | .chalkHostTrigger _ b => decide (b < 16)
  | .obsChalkCfgWrite _ b _ => decide (b < 16)
  | .obsChalkHeadWrite _ b _ => decide (b < 16)
  | .nanTrapRearm _ => true
  | .freezePin _ _ => true
  | .swFreeze _ _ => true
  | .clearChalk _ => true
  | .obsRoDataRead _ => true
  | .ppsEdge _ => true
  | .i3cOffsetWrite _ => true
  | .i3cRead => true
  | .illegalInstruction c q _ => queueOk c q
  | .bar0Read _ _ size => size == 4 || size == 8
  | .configurationSpaceWrite _ _ => true
  | .dataObjectExchange _ _ => true
  | .hostReadCompletion _ _ _ => true
  | .internalFault u => faultNamed u
  | .railSlewComplete => true
  | .pwrEnHoldExpiry => true
  | .standbySupplyStop _ => true
  | .ppsSeenExpiry => true
  | .domainPurgeComplete d => decide (d < 64)
  | .fwVerifyComplete => true

end Sys2Proof
end

