-- ==== Sys2Proof/Safety.lean ====
section
/-! DEFINITION. What counts as a safe step, the invariant of the state's maps that every command keeps, and the conditions under which a
command has its own effect. -/

namespace Sys2Proof.Machine

/-- The step goes on: it neither faults nor is refused. -/
def Safe (s : State) : Prop := ∃ t, step s = .next t

/-- The command completes: exec answers a next state, and that state satisfies `P`. -/
def gives (i : Instr) (s : State) (P : State → Prop) : Prop := ∃ t, exec i s = .next t ∧ P t

/-- The registers of every core queue are in rising order of number. -/
def queuesTidy (m : SMap CoreQ) : Bool := m.all (fun e => SMap.rising e.2.g && SMap.rising e.2.a)

/-- The requesters of every arbiter are in rising order of number. -/
def arbitersTidy (m : SMap Arbiter) : Bool := m.all (fun e => SMap.rising e.2.reqs)

/-- The mailbox buffers and the firmware states of the thimble are in rising order. -/
def secTidy (x : Security) : Bool := SMap.rising x.mailA.buf && SMap.rising x.mailB.buf && SMap.rising x.fw

/-- The invariant of the data: memory is in its canonical form, and the sets of units are kept in rising order of number. -/
def State.tidy (s : State) : Bool :=
  Memory.wf s.mem && SMap.rising s.regs && SMap.rising s.granules && SMap.rising s.hubs && SMap.rising s.channels &&
  SMap.rising s.blockLinks && SMap.rising s.arbiters && arbitersTidy s.arbiters && SMap.rising s.queues && queuesTidy s.queues &&
  SMap.rising s.hostqs &&
  SMap.rising s.cores && SMap.rising s.tacks && SMap.rising s.scopes && SMap.rising s.gctr && SMap.rising s.ctx &&
  SMap.rising s.chalk && SMap.rising s.engines && SMap.rising s.link.ports && secTidy s.sec

/-! ### What a report leaves in the state -/

/-- A host port without what an event, an interrupt or an error report changes of it: its event ring's position, its vectors and its AER
status. -/
def Port.eventless (x : Port) : Port := { x with evqTail := 0, evqPhase := true, msix := [], msixSent := [] }
def Port.errorless (x : Port) : Port := { x.eventless with aerUnc := 0, aerCor := 0 }

/-- The state without what raising events and interrupts changes (R408 to R412): events held, the event rings in host memory, their
positions, vectors and the count of bytes written to host memory. Two states with equal `eventless` differ in those alone. -/
def State.eventless (s : State) : State :=
  { s with ha := s.ha.eventless, hb := s.hb.eventless, mem := s.mem.filter (fun e => decide (e.1 < 2 ^ 63)),
           gctr := s.gctr.filter (fun e => e.1 != 851 && e.1 != 855), evBuf := [], evLost := 0 }

/-- The state without what an error report changes as well (R458 to R467, R530 to R543): the error queue, AER status, chalk records with
the freeze that a trigger may begin, and the domain's counts of records and errors. -/
def State.errorless (s : State) : State :=
  { s.eventless with ha := s.ha.errorless, hb := s.hb.errorless, errq := {}, chalk := [], chalkQ := [], freeze := {},
                     ctx := s.ctx.filter (fun e => e.1 % 16 != 10 && e.1 % 16 != 11), link := { s.link with sentFlits := [] } }

/-- Event `code` with `payload` has been raised between `s` and `t` and no other (R412): it is the newest held, or written, or counted as
lost. -/
def raisedEvent (s t : State) (code payload : Nat) : Prop := t.evBuf = (s.raiseEvent code payload).evBuf ∧
  t.evLost = (s.raiseEvent code payload).evLost

/-! ### When a host's access is served -/

/-- R417, R414, R429: an access of port `p` is served as it arrives: the module is ready and not frozen, the link is up, the function is
not in D3hot, a Secure stream carries it where IDE is required, and no earlier access of the port waits. -/
def State.serves (s : State) (p : HostPort) : Prop :=
  s.ready = true ∧ (s.port p).linkUp = true ∧ (s.port p).d3hot = false ∧ (s.port p).barred = false ∧ s.freeze.frozen = false ∧
  ((s.port p).waiting = [] ∨ (s.port p).draining = true)

/-- R413, R461: an access of port `p` to BAR0 offset `off` is served as it arrives: the offset lies in BAR0, and no activation of the management
controller holds it. -/
def State.reaches (s : State) (p : HostPort) (off : Nat) : Prop :=
  s.serves p ∧ off < 0x04000000 ∧ (managed off = true → s.activating 1 = false)

/-- An access of port `p`, the command `i`, waits at the port behind what waits there, and nothing else changes. -/
def State.keeps (s t : State) (p : HostPort) (i : Instr) : Prop :=
  t = s.modPort p (fun x => { x with draining := false, waiting := x.waiting ++ [i] })

/-- A served access of port `p` leaves `x` as the port's transaction, and nothing else of it but the end of its wait. -/
def State.txnLeft (s t : State) (p : HostPort) (x : Txn) : Prop := t = s.modPort p (fun y => { y with txn := x, draining := false })

/-! ### When the thimble serves a request -/

/-- R508, R509, R512, R544: the thimble takes up the request `op` of port `p`, and the port's role, or recovery, permits it. -/
def State.grants (s : State) (p : HostPort) (op : Nat) : Prop := s.takes p op = true ∧ s.opPermitted p op = true

/-- R508: the request of port `p` has been answered, from `u`: the response is at the start of the buffer and its length and status are set, busy is
over, and nothing else differs. -/
def answered (u t : State) (p : HostPort) (status : Nat) (resp : List Byte) : Prop :=
  t = u.setMail p { u.mail p with busy := false, status := status, resp := (resp.length + 7) / 8, buf := (t.mail p).buf } ∧
  ∀ k, SMap.get 0 (t.mail p).buf k = if k < resp.length then resp.getD k 0 else SMap.get 0 (u.mail p).buf k

/-! ### When a core queue's word runs -/

/-- R209, R245: it is the turn of queue `q` of core `c`, and the `n` words from its pc on pass their fetch checks. -/
def State.runs (s : State) (c q n : Nat) : Prop :=
  c < 24 ∧ q < 8 ∧ s.turn (8 * c + q) = true ∧ (s.took (8 * c + q)).fetchFault (8 * c + q) n = none

/-- R206: the wide command that the words `ws` spell has dispatched: it is among the queue's dispatched commands, in cseq order. -/
def State.dispatched (s : State) (qi : Nat) (ws : Words) : State :=
  let w := (s.took qi).newWide qi ws
  (s.took qi).modQueue qi (fun q => { q with cseq := w.cseq, pc := q.pc + 32, inflight := insertWide q.inflight w })

/-- The command `x` of words `ws` that passed its check, recorded and not yet issued. -/
def State.accepts (s : State) (qi : Nat) (ws : Words) (x : Wide) : State := (s.dispatched qi ws).modWide qi x.cseq (fun _ => x)

/-- R184, R191, R206, R208, R215, R245: it is the turn of queue `q` of core `c`; its words at pc are `ws`, a wide command that lies within the
submission and passes its fetch checks, is not one that kept running, is not held by a boundary, and passes resolution and check, as `x`; its
stream is active, and the norm slot that it fills is free. -/
def State.passes (s : State) (c q : Nat) (ws : Words) (x : Wide) : Prop :=
  let qi := 8 * c + q
  let w := (s.took qi).newWide qi ws
  let u := s.dispatched qi ws
  let w' := u.taken w
  s.runs c q 1 ∧ fld ws.w0.toNat 63 60 = 15 ∧ (s.took qi).wordsLeft qi 4 = true ∧ (s.took qi).fetchFault qi 4 = none ∧
  (s.took qi).wide qi w.cseq = none ∧ w.opcode ≠ 0 ∧ w.opcode ≤ 12 ∧
  u.badDesc qi w = none ∧ u.poisonedDesc w = false ∧ (u.adaptHeld && w.namesAdapt) = false ∧
  ∃ ops y, u.allOps w' = some ops ∧ w'.tackBad = false ∧ u.checkOp (u.serving qi) { w' with ops := ops } = .pass y ∧
    x = u.settled { w' with ops := ops } ops y ∧ (s.accepts qi ws x).lapsed x = false

/-- R206, R532: a recorded command `x` as it issues: issued at this time, with its BEGIN record. -/
def State.begins (s : State) (qi : Nat) (x : Wide) : State :=
  (s.modWide qi x.cseq (fun w => { w with stage := .issued, issueTime := s.now })).chalkBegin x.opcode (s.serving qi) x.domain
    (seqWord qi x.cseq) (x.fmts + put x.emask 19 16 + put (b2n x.replayed) 20 20)

/-- R206, R532: the command `x` of words `ws` as it issues, just recorded. -/
def State.begun (s : State) (qi : Nat) (ws : Words) (x : Wide) : State := (s.accepts qi ws x).begins qi x

/-- The exact value of an ALU operation in integers, before it is cut to 64 bits (R212). -/
def aluExact (op : AluOp) (x y : Word) : Int :=
  match op with
  | .add => (x.toNat : Int) + y.toNat
  | .sub => (x.toNat : Int) - y.toNat
  | .and => ((x.toNat &&& y.toNat : Nat) : Int)
  | .or => ((x.toNat ||| y.toNat : Nat) : Int)
  | .xor => ((x.toNat ^^^ y.toNat : Nat) : Int)
  | .sll => (x.toNat : Int) * 2 ^ (y.toNat % 64)
  | .srl => (x.toNat : Int) / 2 ^ (y.toNat % 64)
  | .sra => x.toInt / 2 ^ (y.toNat % 64)
  | .mul => (x.toNat : Int) * y.toNat
  | .mulhu => (x.toNat : Int) * y.toNat / 2 ^ 64
  | .min => min x.toInt y.toInt
  | .max => max x.toInt y.toInt
  | .minu => min (x.toNat : Int) y.toNat
  | .maxu => max (x.toNat : Int) y.toNat
  | .slt => if x.toInt < y.toInt then 1 else 0
  | .sltu => if x.toNat < y.toNat then 1 else 0

/-- The comparison of a branch, on integers (R212). -/
def branchTaken (op : BranchOp) (x y : Word) : Prop :=
  match op with
  | .beq => x = y
  | .bne => x ≠ y
  | .blt => x.toInt < y.toInt
  | .bge => y.toInt ≤ x.toInt
  | .bltu => x.toNat < y.toNat
  | .bgeu => y.toNat ≤ x.toNat

/-- What one scalar instruction of queue `qi` leaves: `t` differs from `s` in that queue alone, whose other state than the registers,
the return stack, the pc and trap_on_status stands, and in the sequencer's memory of the context it served. -/
def scalarFrame (s t : State) (qi : Nat) : Prop :=
  t = { s with queues := t.queues, cores := (s.took qi).cores } ∧ (∀ k, k ≠ qi → t.queue k = s.queue k) ∧
  t.queue qi = { s.queue qi with g := (t.queue qi).g, a := (t.queue qi).a, pc := (t.queue qi).pc, rstack := (t.queue qi).rstack,
                                 trapOnStatus := (t.queue qi).trapOnStatus }

/-- g[r] after g[rd] has been written with `v` (R205: g0 ignores writes). -/
def gWritten (x y : CoreQ) (rd : Nat) (v : Word) : Prop :=
  ∀ r, y.getG r = if r % 32 ≠ 0 ∧ r % 32 = rd % 32 then v else x.getG r

/-- a[r] after a[rd] has been written with `v`. -/
def aWritten (x y : CoreQ) (rd : Nat) (v : Word) : Prop := ∀ r, y.getA r = if r % 16 = rd % 16 then v else x.getA r

/-- The queue of a scalar trap afterwards: it holds the trap, at the pc of the word, and its registers, pc and return stack stand. -/
def trapsWith (x y : CoreQ) (cause code : Nat) : Prop :=
  ∃ r, y = { x with trap := some { cause := cause, code := code, pc := x.pc, recorded := r }, recs := y.recs } ∧
    (x.inflight = [] → r = true)

end Sys2Proof.Machine
end

