-- ==== Sys2Proof/Certificates/Slice0/Obligations.lean ====
section
/-! DEFINITION. The statements. Each says what rows of the table of operations do, for every state and all operands that meet its hypotheses:
the next state that the row gives, and what it leaves. -/

section

open Sys2Proof Sys2Proof.Machine

/-! ### The queue of commands -/

/-- A step takes the command at the front of the queue and runs it with the rest.
The model's choices here: log 1 and 2. -/
def Obligations.StepRunsFront : Prop :=
  ∀ (i : Instr) (rest : List Instr) (s : State), step { s with pending := i :: rest } = exec i { s with pending := rest }

/-- What reset leaves (R21, R432, R492): no power, memory that reads zero everywhere, no command waiting, every tack, queue, engine and
hub at reset, MOD_POWER_CTL and OBS_ERRQ_CTL at their reset values.
The model's choices here: log 8 and 9. -/
def Obligations.ResetState : Prop :=
  State.reset.power.pwrGood = false ∧ (∀ a, State.reset.memByte a = 0) ∧ State.reset.pending = [] ∧ State.reset.now = 0 ∧
  (∀ q, (State.reset.queue q).cseq = 0 ∧ (State.reset.queue q).sub = none ∧ (State.reset.queue q).trapOnStatus = true) ∧
  (∀ n, (State.reset.tack n).value = 0) ∧ (∀ e, (State.reset.engine e).mode = 0xFFFFFFFC) ∧
  State.reset.reg 0x40 = 0x07081400 ∧ State.reset.reg 0x03B00020 = 0x40000000 ∧
  State.reset.reg (coreReg 5 0x0F20) = 0x44444444 ∧ State.reset.reg (hubReg 7 0x28) = 0x80180000

/-- The invariant of the data holds at reset.
The model's choices here: log 7. -/
def Obligations.TidyAtReset : Prop := State.reset.tidy = true

/-- Every well-formed command is carried out, in every state: exec answers a next state. Every step keeps the invariant of the data:
memory in its canonical form, and every set of units in rising order.
The model's choices here: log 7. -/
def Obligations.TidyKept : Prop :=
  (∀ (i : Instr) (s : State), wellFormed i = true → ∃ t, exec i s = .next t) ∧
  (∀ s t : State, s.tidy = true → step s = .next t → t.tidy = true)

/-- The encoding of R211 and R212 loses nothing: a well-formed scalar instruction has a 64-bit word, and in its queue that word decodes to
it.
The model's choices here: log 19. -/
def Obligations.ScalarRoundTrip : Prop :=
  ∀ (c q : Nat) (i : Instr), scalarQueue i = some (c, q) → wellFormed i = true →
    ∃ w, encodeScalar i = some w ∧ w < 2 ^ 64 ∧ decodeScalar c q w = some i

/-! ### Scalar instructions -/

/-- R212: the ALU and address instructions, and NOP. With the turn and its word fetched, each writes its one register with the low 64 bits of
the exact result, moves the pc past its word, and leaves all else; the submission then ends where the pc has left its words (R245).
The model's choices here: log 18 and 20. -/
def Obligations.ScalarRegisterResults : Prop :=
  ∀ (s : State) (c q : Nat), s.tidy = true → s.runs c q 1 →
    let qi := 8 * c + q
    let x := s.queue qi
    (∀ op rd rs1 rs2, ∃ u : State, exec (.aluRegister c q op rd rs1 rs2) s = .next (u.checkExhausted qi) ∧ scalarFrame s u qi ∧
      (u.queue qi).pc = x.pc + 8 ∧ (u.queue qi).a = x.a ∧ (u.queue qi).rstack = x.rstack ∧ (u.queue qi).trapOnStatus = x.trapOnStatus ∧
      gWritten x (u.queue qi) rd (BitVec.ofInt 64 (aluExact op (x.getG rs1) (x.getG rs2)))) ∧
    (∀ op rd rs1 imm, ∃ u : State, exec (.aluImmediate c q op rd rs1 imm) s = .next (u.checkExhausted qi) ∧ scalarFrame s u qi ∧
      (u.queue qi).pc = x.pc + 8 ∧ (u.queue qi).a = x.a ∧ (u.queue qi).rstack = x.rstack ∧ (u.queue qi).trapOnStatus = x.trapOnStatus ∧
      gWritten x (u.queue qi) rd (BitVec.ofInt 64 (aluExact op (x.getG rs1) (imm.signExtend 64)))) ∧
    (∀ rd imm, ∃ u : State, exec (.li c q rd imm) s = .next (u.checkExhausted qi) ∧ scalarFrame s u qi ∧
      (u.queue qi).pc = x.pc + 8 ∧ (u.queue qi).a = x.a ∧ (u.queue qi).rstack = x.rstack ∧ (u.queue qi).trapOnStatus = x.trapOnStatus ∧
      gWritten x (u.queue qi) rd (BitVec.ofInt 64 imm.toInt)) ∧
    (∀ rd imm, ∃ u : State, exec (.lih c q rd imm) s = .next (u.checkExhausted qi) ∧ scalarFrame s u qi ∧
      (u.queue qi).pc = x.pc + 8 ∧ (u.queue qi).a = x.a ∧ (u.queue qi).rstack = x.rstack ∧ (u.queue qi).trapOnStatus = x.trapOnStatus ∧
      gWritten x (u.queue qi) rd (BitVec.ofNat 64 (imm.toNat * 2 ^ 32 + (x.getG rd).toNat % 2 ^ 32))) ∧
    (∀ rd rs1, ∃ u : State, exec (.gmov c q rd rs1) s = .next (u.checkExhausted qi) ∧ scalarFrame s u qi ∧
      (u.queue qi).pc = x.pc + 8 ∧ (u.queue qi).a = x.a ∧ (u.queue qi).rstack = x.rstack ∧ (u.queue qi).trapOnStatus = x.trapOnStatus ∧
      gWritten x (u.queue qi) rd (x.getA rs1)) ∧
    (∀ rd rs1, ∃ u : State, exec (.amov c q rd rs1) s = .next (u.checkExhausted qi) ∧ scalarFrame s u qi ∧
      (u.queue qi).pc = x.pc + 8 ∧ (u.queue qi).g = x.g ∧ (u.queue qi).rstack = x.rstack ∧ (u.queue qi).trapOnStatus = x.trapOnStatus ∧
      aWritten x (u.queue qi) rd (x.getG rs1)) ∧
    (∀ rd rs1 rs2 imm, ∃ u : State, exec (.aadd c q rd rs1 rs2 imm) s = .next (u.checkExhausted qi) ∧ scalarFrame s u qi ∧
      (u.queue qi).pc = x.pc + 8 ∧ (u.queue qi).g = x.g ∧ (u.queue qi).rstack = x.rstack ∧ (u.queue qi).trapOnStatus = x.trapOnStatus ∧
      aWritten x (u.queue qi) rd (BitVec.ofInt 64 ((x.getA rs1).toNat + (x.getG rs2).toNat + imm.toInt))) ∧
    (∃ u : State, exec (.nop c q) s = .next (u.checkExhausted qi) ∧ scalarFrame s u qi ∧ u.queue qi = { x with pc := x.pc + 8 })

/-- R212, R309: a load that is aligned, mapped and in the queue's domain, and whose units are not poisoned, writes g[rd] with the bytes of
memory, least significant first, zero- or sign-extended, and leaves memory as it was.
The model's choices here: log 18 and 20. -/
def Obligations.LoadResult : Prop :=
  ∀ (s : State) (c q : Nat) (op : LoadOp) (rd rs1 : Nat) (imm : Imm), s.tidy = true → s.runs c q 1 →
    let qi := 8 * c + q
    let x := s.queue qi
    let a := (BitVec.ofInt 64 ((x.getA rs1).toNat + imm.toInt)).toNat
    a % op.bytes = 0 → s.accessOk (s.sequencerOf qi) (s.queueDomain qi) a op.bytes = true → s.poisoned a op.bytes = false →
    ∃ u : State, exec (.load c q op rd rs1 imm) s = .next (u.checkExhausted qi) ∧
      u = { s with queues := u.queues, cores := (s.took qi).cores, gctr := u.gctr, ctx := u.ctx } ∧
      (∀ k, k ≠ qi → u.queue k = s.queue k) ∧ u.queue qi = { x with g := (u.queue qi).g, pc := x.pc + 8 } ∧
      gWritten x (u.queue qi) rd (BitVec.ofInt 64 (
        if op.signed then (BitVec.ofNat (8 * op.bytes) (ofLe (s.rawBytes a op.bytes))).toInt else (ofLe (s.rawBytes a op.bytes) : Int)))

/-- R212: a store that is aligned, mapped and in the queue's domain writes the low bytes of g[rs2] at its address, least significant first,
and changes no other byte of memory and no register.
The model's choices here: log 18 and 20. -/
def Obligations.StoreResult : Prop :=
  ∀ (s : State) (c q : Nat) (op : StoreOp) (rs1 rs2 : Nat) (imm : Imm), s.tidy = true → s.runs c q 1 →
    let qi := 8 * c + q
    let x := s.queue qi
    let a := (BitVec.ofInt 64 ((x.getA rs1).toNat + imm.toInt)).toNat
    a % op.bytes = 0 → s.accessOk (s.sequencerOf qi) (s.queueDomain qi) a op.bytes = true →
    ∃ u : State, exec (.store c q op rs1 rs2 imm) s = .next (u.checkExhausted qi) ∧
      u = { s with queues := u.queues, cores := (s.took qi).cores, mem := u.mem, poison := u.poison, covered := u.covered, gctr := u.gctr, ctx := u.ctx } ∧
      (∀ k, k ≠ qi → u.queue k = s.queue k) ∧ u.queue qi = { x with pc := x.pc + 8 } ∧
      (∀ b, b < a ∨ a + op.bytes ≤ b → u.memByte b = s.memByte b) ∧
      (∀ i, i < op.bytes → s.unreachable (a + i) = false → u.memByte (a + i) = BitVec.ofNat 8 ((x.getG rs2).toNat / 256 ^ i))

/-- R212, R251: the branches and jumps, CALL and RET where the return stack allows them, END and TRAP: each branch, jump, CALL and RET sets the pc
as its row says, CALL pushes and RET pops, and nothing else of the queue changes; END ends the submission (R245); TRAP stops the queue at itself
with the cause SOFTWARE and its immediate as the code.
The model's choices here: log 18 and 20. -/
def Obligations.ScalarControlResults : Prop :=
  ∀ (s : State) (c q : Nat), s.tidy = true → s.runs c q 1 →
    let qi := 8 * c + q
    let x := s.queue qi
    let dest := fun (imm : Imm) => BitVec.ofInt 64 (x.pc.toNat + 8 * imm.toInt)
    (∀ op rs1 rs2 imm, ∃ u : State, exec (.branch c q op rs1 rs2 imm) s = .next (u.checkExhausted qi) ∧ scalarFrame s u qi ∧
      (branchTaken op (x.getG rs1) (x.getG rs2) → u.queue qi = { x with pc := dest imm }) ∧
      (¬ branchTaken op (x.getG rs1) (x.getG rs2) → u.queue qi = { x with pc := x.pc + 8 })) ∧
    (∀ imm, ∃ u : State, exec (.jmp c q imm) s = .next (u.checkExhausted qi) ∧ scalarFrame s u qi ∧ u.queue qi = { x with pc := dest imm }) ∧
    (∀ imm, x.rstack.length < 16 → ∃ u : State, exec (.call c q imm) s = .next (u.checkExhausted qi) ∧ scalarFrame s u qi ∧
      u.queue qi = { x with rstack := (x.pc + 8) :: x.rstack, pc := dest imm }) ∧
    (∀ r rs, x.rstack = r :: rs → ∃ u : State, exec (.ret c q) s = .next (u.checkExhausted qi) ∧ scalarFrame s u qi ∧
      u.queue qi = { x with rstack := rs, pc := r }) ∧
    (∃ u : State, exec (.endSub c q) s = .next ((u.checkEnd qi).checkExhausted qi) ∧
      u = { s with queues := u.queues, cores := (s.took qi).cores } ∧ (∀ k, k ≠ qi → u.queue k = s.queue k) ∧
      u.queue qi = { x with pc := x.pc + 8, sub := x.sub.map (fun y => { y with ended := true }) }) ∧
    ((∀ b, x.sub = some b → (s.hostq b.hostq).underHandling = false) →
      ∀ imm, gives (.trap c q imm) s (fun t => trapsWith x (t.queue qi) 5 (imm.toNat % 65536) ∧ (∀ k, k ≠ qi → t.queue k = s.queue k) ∧
        t.tacks = s.tacks ∧ t.regs = s.regs ∧ ∀ a, a < 2 ^ 63 → t.memByte a = s.memByte a))

/-- R213: RDSR reads each special register of the table, and WRSR writes TRAP_CTL, whose bit 0 is trap_on_status. Any other number traps with
ILLEGAL, as a WRSR to a register that is read only does. -/
def Obligations.SpecialRegisters : Prop :=
  ∀ (s : State) (c q : Nat), s.tidy = true → s.runs c q 1 →
    let qi := 8 * c + q
    let x := s.queue qi
    (∀ (rd : Nat) (imm : Imm) (v : Nat),
      ((specialNo imm = 0 ∧ v = s.serving qi) ∨ (specialNo imm = 1 ∧ v = q) ∨
       (specialNo imm = 2 ∧ v = fld (s.reg 0x03100000) 13 0 + 2 ^ 63 * b2n (bit (s.reg 0x03100000) 31)) ∨
       (specialNo imm = 3 ∧ v = x.cseq) ∨ (specialNo imm = 4 ∧ v = x.rseq) ∨
       (specialNo imm = 5 ∧ v = x.lastStatus + 256 * x.lastOutcome) ∨ (specialNo imm = 6 ∧ v = s.tailor.step) ∨
       (specialNo imm = 7 ∧ v = s.now) ∨
       (specialNo imm = 8 ∧ ∃ b, x.sub = some b ∧ v = (match b.port with | .ha => 0 | .hb => 64) + b.hq) ∨
       (specialNo imm = 9 ∧ ∃ b, x.sub = some b ∧ v = b.userTag) ∨
       (specialNo imm = 0x100 ∧ v = if x.trapOnStatus then 1 else 0)) →
      ∃ u : State, exec (.rdsr c q rd imm) s = .next (u.checkExhausted qi) ∧ scalarFrame s u qi ∧
        u.queue qi = { x with g := (u.queue qi).g, pc := x.pc + 8 } ∧ gWritten x (u.queue qi) rd (BitVec.ofNat 64 v)) ∧
    (∀ (rs1 : Nat) (imm : Imm), specialNo imm = 0x100 →
      ∃ u : State, exec (.wrsr c q rs1 imm) s = .next (u.checkExhausted qi) ∧ scalarFrame s u qi ∧
        u.queue qi = { x with pc := x.pc + 8, trapOnStatus := (x.getG rs1).getLsbD 0 }) ∧
    ((∀ b, x.sub = some b → (s.hostq b.hostq).underHandling = false) →
      (∀ rd imm, 9 < specialNo imm → specialNo imm ≠ 0x100 → ∃ t : State, exec (.rdsr c q rd imm) s = .next t ∧ trapsWith x (t.queue qi) 1 0) ∧
      (∀ rs1 imm, specialNo imm ≠ 0x100 → ∃ t : State, exec (.wrsr c q rs1 imm) s = .next t ∧ trapsWith x (t.queue qi) 1 0))

/-- R212, R251, R309: where a scalar instruction traps, its registers, pc and return stack stand: a reserved class or op, an unaligned access,
an access outside the queue's reach, a load of poison, CALL with a full return stack, and RET with an empty one.
The model's choices here: log 23. -/
def Obligations.ScalarTraps : Prop :=
  ∀ (s : State) (c q : Nat), s.tidy = true → s.runs c q 1 →
    let qi := 8 * c + q
    let x := s.queue qi
    (∀ b, x.sub = some b → (s.hostq b.hostq).underHandling = false) →
    (∀ w : Word, w.toNat / 2 ^ 60 ≠ 15 → decodeScalar c q w.toNat = none →
      ∃ t : State, exec (.illegalInstruction c q w) s = .next t ∧ trapsWith x (t.queue qi) 1 0) ∧
    (∀ op rd rs1 imm, let a := (x.getA rs1 + imm.signExtend 64).toNat
      let traps := fun (cause : Nat) => ∃ t : State, exec (.load c q op rd rs1 imm) s = .next t ∧ trapsWith x (t.queue qi) cause 0
      let ok := s.accessOk (s.sequencerOf qi) (s.queueDomain qi) a op.bytes
      (a % op.bytes ≠ 0 → traps 2) ∧ (a % op.bytes = 0 → ok = false → traps 3) ∧
        (a % op.bytes = 0 → ok = true → s.poisoned a op.bytes = true → traps 7)) ∧
    (∀ op rs1 rs2 imm, let a := (x.getA rs1 + imm.signExtend 64).toNat
      let traps := fun (cause : Nat) => ∃ t : State, exec (.store c q op rs1 rs2 imm) s = .next t ∧ trapsWith x (t.queue qi) cause 0
      (a % op.bytes ≠ 0 → traps 2) ∧
        (a % op.bytes = 0 → s.accessOk (s.sequencerOf qi) (s.queueDomain qi) a op.bytes = false → traps 3)) ∧
    (∀ imm, 16 ≤ x.rstack.length → ∃ t : State, exec (.call c q imm) s = .next t ∧ trapsWith x (t.queue qi) 4 0) ∧
    (x.rstack = [] → ∃ t : State, exec (.ret c q) s = .next t ∧ trapsWith x (t.queue qi) 4 0)

/-! ### Host queues, traps, tacks and counters, as hosts reach them -/

/-- R249, R250: a doorbell of an enabled queue moves its tail; HOST_QCFG starts a disabled queue with its indices and phase reset, and
disables one that runs nothing; HOST_QCHEAD takes the head, and one that would make the ring hold more than it may is dropped and logged.
The model's choices here: log 15. -/
def Obligations.HostQueueRegisters : Prop :=
  ∀ (s : State) (p : HostPort) (n v : Nat), s.tidy = true → n < 64 → s.serves p →
    let u := s.undrain p
    let hq := 64 * portNum p + n
    let h := s.hostq hq
    (s.power.state = .active → h.enable = true → (v % 65536 + 65536 - h.shead) % 65536 ≤ 2 ^ h.sizeLog2 - 1 →
      gives (.hostQdoorbell p n v) s (fun t => t = { u with hostqs := t.hostqs } ∧ t.hostq hq = { h with tail := v % 65536 } ∧
        ∀ k, k ≠ hq → t.hostq k = s.hostq k)) ∧
    (h.enable = false → h.stopping = false → h.underHandling = false → bit v 31 = true → fld v 30 29 ≤ 1 →
      6 ≤ fld v 20 16 → fld v 20 16 ≤ 16 → fld v 28 24 ≤ 23 →
      gives (.hostQcfgWrite p n v) s (fun t => t = { u with hostqs := t.hostqs } ∧ (∀ k, k ≠ hq → t.hostq k = s.hostq k) ∧
        t.hostq hq = { h with enable := true, lostPolicy := fld v 30 29, core := fld v 28 24, cq := fld v 23 21, sizeLog2 := fld v 20 16,
                              vec := fld v 10 0, tail := 0, shead := 0, ctail := 0, head := 0, phase := true, lost := none })) ∧
    (h.enable = true → (∀ e ∈ s.queues, ∀ b, e.2.sub = some b → b.hostq ≠ hq) → bit v 31 = false → fld v 30 29 ≤ 1 → v < 2 ^ 32 →
      gives (.hostQcfgWrite p n v) s (fun t => t = { u with hostqs := t.hostqs } ∧ (∀ k, k ≠ hq → t.hostq k = s.hostq k) ∧
        t.hostq hq = { h with enable := false, stopping := false, lostPolicy := fld v 30 29, vec := fld v 10 0 })) ∧
    ((∀ e ∈ s.queues, e.2.recs = []) → (h.ctail + 65536 - v % 65536) % 65536 ≤ 2 ^ h.sizeLog2 - 1 →
      gives (.hostQcheadWrite p n v) s (fun t => t = { u with hostqs := t.hostqs } ∧ t.hostq hq = { h with head := v % 65536 } ∧
        ∀ k, k ≠ hq → t.hostq k = s.hostq k)) ∧
    (2 ^ h.sizeLog2 - 1 < (h.ctail + 65536 - v % 65536) % 65536 →
      gives (.hostQcheadWrite p n v) s (fun t => t.errorless = u.errorless ∧ t.errq.raised = s.errq.raised + 1))

/-- R253, R256: what the host that owns a trapped submission, or the steward, makes of it. With a scalar instruction trapped, RETRY resumes at
it, and SKIP passes it; with a wide command held, RETRY checks it again, and SKIP retires it with the status it holds, once its record
has room. ABORT ends the submission. trap_on_status is written with each.
The model's choices here: log 21 and 24. -/
def Obligations.TrapResolution : Prop :=
  ∀ (s : State) (p : HostPort) (c q v : Nat), s.tidy = true → c < 24 → q < 8 → s.serves p → v < 2 ^ 32 →
    let qi := 8 * c + q
    let x := s.queue qi
    let u := s.undrain p
    x.trapped = true → s.mayResume p qi = true →
    let y : CoreQ := { x with trapOnStatus := bit v 31, trap := none }
    (x.heldWide = none →
      gives (.retry p c q v) s (fun t => t = { u with queues := t.queues } ∧ t.queue qi = y ∧ ∀ k, k ≠ qi → t.queue k = s.queue k)) ∧
    (∀ w, x.heldWide = some w →
      let z := (u.setQueue qi y)
      let w' := z.freshWide qi w
      gives (.retry p c q v) s (fun t =>
        t = ((z.modWide qi w.cseq (fun _ => w')).afterDispatch qi w' (z.heldShort qi w)).rearm qi ∧
        w'.cseq = w.cseq ∧ w'.w = w.w ∧ w'.stage = .dispatched ∧ w'.held = none)) ∧
    (∀ r, x.heldWide = none → x.trap = some r →
      gives (.skip p c q v) s (fun t => ∃ z : State, t = z.checkExhausted qi ∧ z = { u with queues := z.queues } ∧
        z.queue qi = { y with pc := r.pc + 8 } ∧ ∀ k, k ≠ qi → z.queue k = s.queue k)) ∧
    (∀ w rest b, x.inflight = w :: rest → w.held ≠ none → (∀ e ∈ rest, e.held = none ∧ e.cseq ≠ w.cseq) → w.cseq ≤ x.cseq → x.sub = some b →
      let w' : Wide := { w with
        held := none, stage := .complete, status := if w.held = some 6 then w.status else 5, skipped := true,
        failedCheck := w.failedCheck || w.stage == .dispatched }
      let z := u.setQueue qi { y with inflight := w' :: rest }
      (s.recRoom qi = true → gives (.skip p c q v) s (fun t => t = (z.retire qi w').checkExhausted qi)) ∧
      (s.recRoom qi = false → gives (.skip p c q v) s (fun t => t = z.checkExhausted qi))) ∧
    (∀ b, x.sub = some b →
      gives (.abort p c q v) s (fun t => (t.queue qi).sub = none ∧ (t.queue qi).trap = none ∧ (t.queue qi).inflight = [] ∧
        (t.queue qi).stopped = false ∧ (t.queue qi).g = x.g ∧ (t.queue qi).trapOnStatus = bit v 31))

/-- R258, R260, R272: TCK_HOST_OP sets a tack or adds to it modulo 2^32, and the waiters whose condition is then met leave; TCK_CFG replaces
its binding. -/
def Obligations.HostTackOperations : Prop :=
  ∀ (s : State) (p : HostPort) (n v : Nat), s.tidy = true → n < 16384 → s.serves p →
    let u := s.undrain p
    let x := s.tack n
    gives (.hostTackSet p n v) s (fun t => t = { u with tacks := t.tacks, queues := t.queues } ∧ (∀ k, k ≠ n → t.tack k = s.tack k) ∧
      t.tack n = { x with value := v % 2 ^ 32, arrivals := 0, arriveN := 0, mismatch := false, sourceLost := false,
                          waiters := x.waiters.filter (fun w => !w.met (v % 2 ^ 32)) }) ∧
    gives (.hostTackAdd p n v) s (fun t => t = { u with tacks := t.tacks, queues := t.queues } ∧ (∀ k, k ≠ n → t.tack k = s.tack k) ∧
      t.tack n = { x with value := (x.value + v % 2 ^ 32) % 2 ^ 32,
                          waiters := x.waiters.filter (fun w => !w.met ((x.value + v % 2 ^ 32) % 2 ^ 32)) }) ∧
    (fld v 62 61 ≠ 3 → (fld v 62 61 = 2 → fld v 60 55 = 0) →
      let y := { x with remoteOk := bit v 63, srcKind := fld v 62 61, srcId := fld v 60 47, domain := fld v 46 41, sourceLost := false }
      (s.link.lost.any (s.boundTo y) = false →
        gives (.tckCfgWrite p n v) s (fun t => t = { u with tacks := t.tacks } ∧ t.tack n = y ∧ ∀ k, k ≠ n → t.tack k = s.tack k)) ∧
      (s.link.lost.any (s.boundTo y) = true →
        gives (.tckCfgWrite p n v) s (fun t => t = { u with tacks := t.tacks, queues := t.queues } ∧
          t.tack n = { y with sourceLost := true, waiters := [] } ∧ ∀ k, k ≠ n → t.tack k = s.tack k)))

/-- R262: the timeout of a WAIT: the waiter leaves, its command is complete with ST_TIMEOUT, and no earlier than its deadline.
The model's choices here: log 5. -/
def Obligations.WaitTimeout : Prop :=
  ∀ (s : State) (n c q d : Nat) (x : Waiter), s.tidy = true → n < 16384 → c < 24 → q < 8 → s.freeze.frozen = false →
    (s.tack n).waiters.find? (fun w => w.queue == 8 * c + q) = some x → x.deadline = some d →
    gives (.tackWaitTimeout n c q) s (fun t => t = { s with now := max s.now d, tacks := t.tacks, queues := t.queues } ∧
      t.tack n = { s.tack n with waiters := (s.tack n).waiters.filter (fun w => !(w.queue == 8 * c + q && w.cseq == x.cseq)) } ∧
      (∀ k, k ≠ n → t.tack k = s.tack k) ∧ (∀ k, k ≠ 8 * c + q → t.queue k = s.queue k) ∧
      t.queue (8 * c + q) = { s.queue (8 * c + q) with inflight := (s.queue (8 * c + q)).inflight.map (fun w =>
        if w.cseq == x.cseq then (if w.stage = .complete then w else { w with stage := .complete, status := 9 }) else w) })

/-- R288, R289, R528: a read of X_LIVE or X_SNAP gives the value and latches the sequence word that belongs to it for this reader alone; a read of
its _SEQ register gives the latched word and releases it, or the current word where none is latched. -/
def Obligations.ScopedCounterReads : Prop :=
  ∀ (s : State) (x : ScopedCtr), s.tidy = true → ctrOk x = true →
    let k := ctrIndex x
    let y := s.scope k
    (∀ p : HostPort, s.serves p → s.mayCount p = true →
      let r := match p with | .ha => Reader.ha | .hb => Reader.hb
      let reads := fun (v : Nat) (z : Scoped) (t : State) => t = { s with ha := t.ha, hb := t.hb, scopes := t.scopes } ∧
        t.port p = { s.port p with lastRead := v, lastAbort := false, draining := false } ∧ t.port (otherPort p) = s.port (otherPort p) ∧
        t.scope k = z ∧ ∀ j, j ≠ k → t.scope j = s.scope j
      gives (.counterLiveRead r ⟨x, false⟩) s (reads y.live { y with latchLive := SMap.set none y.latchLive (portNum p) (some y.liveSeq) }) ∧
      gives (.counterSnapRead r ⟨x, false⟩) s (reads y.snap { y with latchSnap := SMap.set none y.latchSnap (portNum p) (some y.snapSeq) }) ∧
      gives (.counterLiveRead r ⟨x, true⟩) s (reads ((SMap.get none y.latchLive (portNum p)).getD y.liveSeq)
        { y with latchLive := SMap.set none y.latchLive (portNum p) none }) ∧
      gives (.counterSnapRead r ⟨x, true⟩) s (reads ((SMap.get none y.latchSnap (portNum p)).getD y.snapSeq)
        { y with latchSnap := SMap.set none y.latchSnap (portNum p) none })) ∧
    (s.power.pwrGood = true →
      let reads := fun (v : Nat) (z : Scoped) (t : State) => t = { s with scopes := t.scopes, mcRead := v } ∧
        t.scope k = z ∧ ∀ j, j ≠ k → t.scope j = s.scope j
      gives (.counterLiveRead .mc ⟨x, false⟩) s (reads y.live { y with latchLive := SMap.set none y.latchLive 2 (some y.liveSeq) }) ∧
      gives (.counterSnapRead .mc ⟨x, false⟩) s (reads y.snap { y with latchSnap := SMap.set none y.latchSnap 2 (some y.snapSeq) }) ∧
      gives (.counterLiveRead .mc ⟨x, true⟩) s (reads ((SMap.get none y.latchLive 2).getD y.liveSeq)
        { y with latchLive := SMap.set none y.latchLive 2 none }) ∧
      gives (.counterSnapRead .mc ⟨x, true⟩) s (reads ((SMap.get none y.latchSnap 2).getD y.snapSeq)
        { y with latchSnap := SMap.set none y.latchSnap 2 none }))

/-! ### Host ports, roles and links -/

/-- R416 to R418: the steward's heartbeat is taken and ends GRACE; a peer's is dropped and logged; supervision opens GRACE when
misses × period_ms have passed, and OPEN follows when GRACE ends.
The model's choices here: log 5 and 15. -/
def Obligations.StewardSupervision : Prop :=
  (∀ (s : State) (p : HostPort) (v : Nat), s.serves p →
    (s.roles.steward = some p →
      gives (.hostHeartbeat p v) s (fun t => t = { s.passArb .role (portNum p) with ha := t.ha, hb := t.hb, roles := t.roles } ∧
        t.port p = { s.port p with heartbeat := v % 2 ^ 32, draining := false } ∧ t.port (otherPort p) = s.port (otherPort p) ∧
        t.roles = { s.roles with lastHb := s.now, claim := 0, silence := 0, upAt := none })) ∧
    (s.roles.steward ≠ some p →
      gives (.hostHeartbeat p v) s (fun t => t.errorless = (s.undrain p).errorless ∧ t.errq.raised = s.errq.raised + 1))) ∧
  (∀ (s : State) (q : HostPort), s.ready = true → s.freeze.frozen = false → s.roles.steward = some q → s.roles.claim = 0 →
    let cfg := s.reg (perPort q 0x3018)
    let now := max s.now (s.roles.lastHb + fld cfg 63 48 * fld cfg 47 44 * 1000000)
    gives .stewardSilent s (fun t => t = { s with
      now := now, roles := { s.roles with claim := 1, silence := 2, graceEnds := now + fld cfg 31 16 * 1000000 } })) ∧
  (∀ s : State, s.ready = true → s.freeze.frozen = false → s.roles.claim = 1 →
    gives .graceEnd s (fun t => t = { s with now := max s.now s.roles.graceEnds, roles := { s.roles with claim := 2 } }))

/-- R418, R420, R421: CLAIM while claim_state is OPEN makes its port the steward, and the other port's queues come under lost-host
handling with cause 3; while it is not OPEN it answers ST_NOT_READY. HANDOVER gives stewardship to the other port while its link is up.
The model's choices here: log 56 and 66. -/
def Obligations.StewardshipChanges : Prop :=
  ∀ (s : State) (p : HostPort), s.serves p →
    (s.roles.steward ≠ some p → s.roles.claim = 2 →
      gives (.claim p) s (fun t => ∃ u, t = State.beginLost u (otherPort p) 3 ∧
        u.roles = { s.roles with assigned := true, steward := some p, claim := 0, silence := 0, lastHb := s.now, upAt := none } ∧
        (u.port p).claimResult = 0 ∧ u.arbiters = (s.passArb .role (portNum p)).arbiters ∧
        ((s.port (otherPort p)).txn.state ≠ .sewing → (u.port (otherPort p)).txn.state = .idle))) ∧
    (s.roles.steward ≠ some p → s.roles.claim ≠ 2 →
      gives (.claim p) s (fun t => t = { s.passArb .role (portNum p) with ha := t.ha, hb := t.hb } ∧ t.port (otherPort p) = s.port (otherPort p) ∧
        t.port p = { s.port p with claimResult := 7, draining := false })) ∧
    (s.roles.steward = some p →
      gives (.claim p) s (fun t => t = { s.passArb .role (portNum p) with ha := t.ha, hb := t.hb } ∧ t.port (otherPort p) = s.port (otherPort p) ∧
        t.port p = { s.port p with claimResult := 2, draining := false })) ∧
    (s.roles.steward = some p → (s.port (otherPort p)).linkUp = true →
      gives (.handover p) s (fun t => (t.port p).claimResult = 0 ∧ t.queues = s.queues ∧ t.hostqs = s.hostqs ∧ t.regs = s.regs ∧
        t.roles = { s.roles with assigned := true, steward := some (otherPort p), claim := 0, silence := 0, lastHb := s.now, upAt := none } ∧
        t.arbiters = (s.passArb .role (portNum p)).arbiters ∧
        (t.port p).txn.state = (if (s.port p).txn.state = .opened ∧ (s.port p).txn.staged.any (fun e => !peerMayStage e.1)
          then .doomed else (s.port p).txn.state))) ∧
    ((s.roles.steward ≠ some p ∨ (s.port (otherPort p)).linkUp = false) →
      gives (.handover p) s (fun t => t = { s.passArb .role (portNum p) with ha := t.ha, hb := t.hb } ∧ t.port (otherPort p) = s.port (otherPort p) ∧
        t.port p = { s.port p with claimResult := 2, draining := false }))

/-- R403, R415, R421, R427: a link that comes up may make its port the steward; one that goes down, PERST and a Function Level Reset lose the
port: its transaction is unpicked with ST_CONTAINED, the steward's silence opens GRACE, and its queues come under lost-host handling.
The model's choices here: log 53, 55 and 56. -/
def Obligations.HostLinkEvents : Prop :=
  ∀ (s : State) (p : HostPort), s.power.pwrGood = true →
    let x := s.port p
    let lost := fun (cause silence : Nat) (t : State) => ∃ u : State, t = (if s.ready then u.beginLost p cause else u) ∧
      u.queues = s.queues ∧ u.hostqs = s.hostqs ∧ u.mem = s.mem ∧ u.port (otherPort p) = s.port (otherPort p) ∧
      (u.port p).txn.state = (if x.txn.state = .opened ∨ x.txn.state = .doomed then .idle else x.txn.state) ∧
      (u.roles.claim, u.roles.silence) = (if s.roles.steward = some p ∧ s.roles.claim = 0 then (1, silence) else (s.roles.claim, s.roles.silence)) ∧
      (silence ≠ 4 → (u.port p).linkUp = false) ∧ (silence = 4 → (u.port p).linkUp = x.linkUp) ∧
      (silence ≠ 1 → (u.port p).evqEnable = false ∧ (u.port p).msix = [] ∧ (u.port p).bar2Log2 = 36 ∧ (u.port p).d3hot = false)
    (∀ width rate, x.perst = false → x.heldDown = false → x.linkUp = false →
      gives (.hostLinkUp p width rate) s (fun t =>
        (t.port p).linkUp = true ∧
        ((t.port p).width ∈ [1, 2, 4, 8, 16] ∧ (1 ≤ width → (t.port p).width ≤ width) ∧ ∀ w ∈ [1, 2, 4, 8, 16], w ≤ width → w ≤ (t.port p).width) ∧
        ((t.port p).rate ∈ [2, 5, 8, 16, 32] ∧ (2 ≤ rate → (t.port p).rate ≤ rate) ∧ ∀ r ∈ [2, 5, 8, 16, 32], r ≤ rate → r ≤ (t.port p).rate) ∧
        t.queues = s.queues ∧ t.hostqs = s.hostqs ∧ t.regs = s.regs ∧
        t.roles = (if s.ready = true ∧ s.roles.assigned = true ∧ (s.roles.steward = none ∨ (s.roles.upAt = some s.now ∧ p = s.preferred))
          then { s.roles with steward := some p, claim := 0, silence := 0, lastHb := s.now, upAt := some s.now } else s.roles))) ∧
    (x.linkUp = true → gives (.hostLinkDown p) s (lost 0 1)) ∧
    gives (.perst p true) s (lost 1 3) ∧
    gives (.perst p false) s (fun t => t = { s with ha := t.ha, hb := t.hb } ∧ t.port (otherPort p) = s.port (otherPort p) ∧
      t.port p = { x with perst := false }) ∧
    (x.linkUp = true → gives (.functionLevelReset p) s (lost 2 4))

/-- R407, R413, R423: the drain limit of a queue under handling turns it to CANCEL, marked converted; a read of host memory that times out is
reported and its command fails with ST_TIMEOUT; a completion brings its data to the command that asked, and one that no read awaits, or
that is malformed, is reported.
The model's choices here: log 5 and 55. -/
def Obligations.HostReadsAndDrains : Prop :=
  ∀ (s : State) (p : HostPort), s.tidy = true →
    (∀ n l, n < 64 → s.freeze.frozen = false → (s.hostq (64 * portNum p + n)).lost = some l → l.settled = false → l.cancel = false →
      l.deadline ≠ 0 →
      gives (.drainLimitExpiry p n) s (fun t => ∃ u, t = State.cancelNow u (64 * portNum p + n) ∧
        u = { s with now := max s.now l.deadline, hostqs := u.hostqs } ∧
        u.hostq (64 * portNum p + n) = { s.hostq (64 * portNum p + n) with lost := some { l with cancel := true, converted := true } })) ∧
    (∀ tag r, s.ready = true → s.freeze.frozen = false → (s.port p).reads.find? (fun r => r.tag == tag) = some r →
      gives (.completionTimeout p tag) s (fun t => ∃ u, t = (State.hostFail u r.queue r.cseq 9).modPort p (fun x => x.sendReads u.now) ∧ u.now = max s.now r.deadline ∧
        (u.port p).reads = (s.port p).reads.filter (fun r => r.tag != tag) ∧ u.queues = s.queues ∧ u.mem.filter (fun e => decide (e.1 < 2 ^ 63)) = s.mem.filter (fun e => decide (e.1 < 2 ^ 63)))) ∧
    (∀ tag bytes r, s.ready = true → (s.port p).linkUp = true → s.freeze.frozen = false →
      (s.port p).reads.find? (fun r => r.tag == tag) = some r →
      gives (.hostReadCompletion p tag (.data bytes false)) s (fun t => ∃ u, t = State.hostData u p r bytes false ∧
        u = { s with ha := u.ha, hb := u.hb } ∧ u.port (otherPort p) = s.port (otherPort p) ∧
        u.port p = Port.sendReads { s.port p with reads := (s.port p).reads.filter (fun r => r.tag != tag), draining := false } s.now)) ∧
    (∀ tag, s.ready = true → (s.port p).linkUp = true → s.freeze.frozen = false →
      gives (.hostReadCompletion p tag .unexpected) s (fun t => t.errorless = (s.undrain p).errorless ∧ t.errq.raised = s.errq.raised + 1) ∧
      gives (.hostReadCompletion p tag .malformed) s (fun t => t.errorless = (s.undrain p).errorless ∧ t.errq.raised = s.errq.raised + 1))

/-- R405 to R407: a BAR2 access that its apertures map into memory of an allowed domain without a key. A read returns the bytes, and says
whether a unit was poisoned; a write stores them, and no byte outside its pieces changes; one that is not mapped so is answered as a
Completer Abort, and a write of it is dropped.
The model's choices here: log 17 and 54. -/
def Obligations.Bar2Accesses : Prop :=
  ∀ (s : State) (p : HostPort) (off : Nat), s.tidy = true → s.serves p → s.power.state = .active →
    (∀ len ps, (s.undrain p).bar2Map p off len = some ps →
      gives (.bar2Read p off len) s (fun t => t = { s with ha := t.ha, hb := t.hb, gctr := t.gctr, ctx := t.ctx } ∧
        t.port (otherPort p) = s.port (otherPort p) ∧
        t.port p = { s.port p with lastBytes := ps.flatMap (fun x => s.readBytes x.1 x.2), lastEp := ps.any (fun x => s.poisoned x.1 x.2),
                                   lastAbort := false, draining := false })) ∧
    (∀ len, (s.undrain p).bar2Map p off len = none →
      gives (.bar2Read p off len) s (fun t => t.mem.filter (fun e => decide (e.1 < 2 ^ 63)) = s.mem.filter (fun e => decide (e.1 < 2 ^ 63)) ∧
        (t.port p).lastAbort = true ∧ t.errq.raised = s.errq.raised + 1)) ∧
    (∀ bytes ps, (s.undrain p).bar2Map p off bytes.length = some ps →
      gives (.bar2Write p off bytes false) s (fun t =>
        t = { s with ha := t.ha, hb := t.hb, mem := t.mem, poison := t.poison, covered := t.covered, gctr := t.gctr, ctx := t.ctx } ∧
        t.port p = { s.port p with draining := false } ∧ t.port (otherPort p) = s.port (otherPort p) ∧
        (∀ b, (∀ x ∈ ps, b < x.1 ∨ x.1 + x.2 ≤ b) → t.memByte b = s.memByte b) ∧
        (∀ a, ps = [(a, bytes.length)] → ∀ i, i < bytes.length → s.unreachable (a + i) = false → t.memByte (a + i) = bytes.getD i 0))) ∧
    (∀ bytes ep, (s.undrain p).bar2Map p off bytes.length = none →
      gives (.bar2Write p off bytes ep) s (fun t => t.errorless = (s.undrain p).errorless ∧ t.errq.raised = s.errq.raised + 1))

/-- R3, R20, R402, R405, R408, R411, R412: HOST_EVQ_CFG sets an event ring up, with 0 for a reserved size, a head write lets held events go on, and configuration-space writes
set the BAR2 size, the power state, MSI-X and other registers, and leave the port's identifiers.
The model's choices here: log 10 and 53. -/
def Obligations.PortConfiguration : Prop :=
  ∀ (s : State) (p : HostPort),
    (∀ v, s.serves p → (s.port p).evqEnable = false → bit v 63 = true → 6 ≤ fld v 62 58 → fld v 62 58 ≤ 16 →
      gives (.hostEvqCfgWrite p v) s (fun t =>
        t.eventless = State.eventless ((s.undrain p).modPort p (fun x => { x with
          evqEnable := true, evqSize := fld v 62 58, evqVec := fld v 57 47, evqHead := fld v 31 16 })))) ∧
    (∀ v, s.serves p → (s.port p).evqEnable = false → bit v 63 = false →
      ((fld v 62 58 = 0 ∨ (6 ≤ fld v 62 58 ∧ fld v 62 58 ≤ 16)) →
        gives (.hostEvqCfgWrite p v) s (fun t => t = (s.undrain p).modPort p (fun x => { x with
          evqSize := fld v 62 58, evqVec := fld v 57 47, evqHead := fld v 31 16 }))) ∧
      (fld v 62 58 ≠ 0 → ¬(6 ≤ fld v 62 58 ∧ fld v 62 58 ≤ 16) →
        gives (.hostEvqCfgWrite p v) s (fun t => (t.port p).evqSize = 0 ∧ (t.port p).evqEnable = false ∧ (t.port p).evqHead = fld v 31 16 ∧
          t.errq.raised = s.errq.raised + 1))) ∧
    (∀ head, s.serves p →
      gives (.eventQueueHeadWrite p head) s (fun t =>
        t.eventless = State.eventless ((s.undrain p).modPort p (fun x => { x with evqHead := head % 65536 })))) ∧
    (s.power.pwrGood = true → (s.port p).linkUp = true →
      (∀ n, 30 ≤ n → n ≤ 42 → gives (.configurationSpaceWrite p (.bar2Size n)) s (fun t => t = s.modPort p (fun x => { x with bar2Log2 := n }))) ∧
      (∀ d, gives (.configurationSpaceWrite p (.powerState d)) s (fun t => t = s.modPort p (fun x => { x with d3hot := d }))) ∧
      (∀ e m, gives (.configurationSpaceWrite p (.msixControl e m)) s (fun t =>
        t.eventless = State.eventless (s.modPort p (fun x => { x with msixEnable := e, msixMask := m })))) ∧
      (∀ v, gives (.configurationSpaceWrite p (.other 0x104 v)) s (fun t =>
        t = s.modPort p (fun x => { x with aerUnc := x.aerUnc &&& (2 ^ 32 - 1 - v % 2 ^ 32) }))) ∧
      (∀ v, gives (.configurationSpaceWrite p (.other 0x110 v)) s (fun t =>
        t = s.modPort p (fun x => { x with aerCor := x.aerCor &&& (2 ^ 32 - 1 - v % 2 ^ 32) }))) ∧
      (∀ off v, s.pciId off = none → off ∉ [0x44, 0x50, 0x68, 0x88, 0x104, 0x110, 0x158] → s.capReg (s.port p) off = none →
        capHead capList false off = none → capHead extCapList true off = none →
        gives (.configurationSpaceWrite p (.other off v)) s (fun t => t = s.modPort p (fun x => { x with cfg := SMap.set 0 x.cfg off v }))) ∧
      (∀ off v, (off = 0 ∨ off = 8 ∨ off = 0x2C) →
        gives (.configurationSpaceWrite p (.other off v)) s (fun t => t = s ∧
          t.cfgRead p 0 = 0x6E101F6D ∧ t.cfgRead p 8 = 0x12000011 ∧ t.cfgRead p 0x2C = s.subsystem * 2 ^ 16 + 0x1F6D)))

/-- R429, R544, R546: in freeze a doorbell, a tack operation, a BAR2 read, a CLAIM and a write of a register that R546 does not accept wait at
their port, behind what waits there; nothing else changes.
The model's choices here: log 52. -/
def Obligations.FreezeHoldsAccesses : Prop :=
  ∀ (s : State) (p : HostPort), s.ready = true → s.freeze.frozen = true → (s.port p).linkUp = true → (s.port p).d3hot = false →
    (s.port p).barred = false →
    let keeps := fun (i : Instr) (t : State) => s.keeps t p i
    (∀ n v, n < 64 → gives (.hostQdoorbell p n v) s (keeps (.hostQdoorbell p n v))) ∧
    (∀ n v, n < 16384 → gives (.hostTackAdd p n v) s (keeps (.hostTackAdd p n v))) ∧
    (∀ off size v, (size = 4 ∨ size = 8) → frozenWrite off = false → 0x1000 ≤ off → off < 0x04000000 →
      gives (.registerWrite p off size v) s (keeps (.registerWrite p off size v))) ∧
    (∀ off len, s.power.state ≠ .rest → s.power.state ≠ .entering → gives (.bar2Read p off len) s (keeps (.bar2Read p off len))) ∧
    (gives (.claim p) s (keeps (.claim p)))

/-! ### Registers (chapter 1) and the time base -/

/-- R18, R19, R22, R23: what reads of BAR0 return. UPD_LR and the priority registers of a hub read as they stand; an access that is not 4 or 8
bytes on its own size reads all ones and is logged, as the other port's mailbox does without the log; RC fields clear with the half that is
read; OBS_TIME_LO latches the high half for its reader.
The model's choices here: log 11 and 83. -/
def Obligations.RegisterReads : Prop :=
  ∀ (s : State) (p : HostPort), s.tidy = true → s.serves p →
    let answered := fun (v : Nat) (u t : State) => t = { u with ha := t.ha, hb := t.hb } ∧ t.port (otherPort p) = s.port (otherPort p) ∧
      t.port p = { s.port p with lastRead := v, lastAbort := false, draining := false }
    (∀ k, k < 64 → gives (.bar0Read p (0x02800100 + 8 * k) 8) s (answered (s.reg (0x02800100 + 8 * k) % 2 ^ 64) s)) ∧
    (∀ h, h < 8 → gives (.bar0Read p (0x02000030 + 0x100000 * h) 8) s (answered (s.reg (hubReg h 0x30) % 2 ^ 64) s)) ∧
    (∀ off size, (size ≠ 4 ∧ size ≠ 8) ∨ off % size ≠ 0 → s.reaches p off →
      gives (.bar0Read p off size) s (fun t => (t.port p).lastRead = 2 ^ (8 * size) - 1 ∧ t.errq.raised = s.errq.raised + 1 ∧
        t.queues = s.queues ∧ t.regs = s.regs)) ∧
    (∀ k, k < 32 → gives (.bar0Read p (0x03C00000 + 0x100 * portNum (otherPort p) + 8 * k) 8) s (answered (2 ^ 64 - 1) s)) ∧
    (∀ h, h < 8 →
      gives (.rcRegisterRead p (0x02000020 + 0x100000 * h) 8) s (fun t =>
        answered ((fld (s.hub h).corrected 31 0 * 2 ^ 32 + fld (s.hub h).uncorrectable 31 0)) { s with hubs := t.hubs } t ∧
        t.hub h = { s.hub h with corrected := 0, uncorrectable := 0 } ∧ ∀ k, k ≠ h → t.hub k = s.hub k) ∧
      gives (.rcRegisterRead p (0x02000020 + 0x100000 * h) 4) s (fun t =>
        answered (fld (s.hub h).uncorrectable 31 0) { s with hubs := t.hubs } t ∧
        t.hub h = { s.hub h with uncorrectable := 0 } ∧ ∀ k, k ≠ h → t.hub k = s.hub k)) ∧
    gives (.rcRegisterRead p 0x03B00030 8) s (fun t =>
      t = { s with ha := t.ha, hb := t.hb, errq := { s.errq with replayMismatch := 0, storeMismatch := 0, tokenRestores := 0, rebuilds := 0 } } ∧
      (t.port p).lastRead = s.errq.conserveReg % 2 ^ 64) ∧
    (let r := match p with | .ha => Reader.ha | .hb => Reader.hb
     gives (.obsTimeLoRead r 8) s (answered (s.now % 2 ^ 64) s) ∧
     gives (.obsTimeLoRead r 4) s (answered (s.now % 2 ^ 32) { s with hiLatch := SMap.set none s.hiLatch (portNum p) (some (s.now / 2 ^ 32 % 2 ^ 32)) }))

/-- R20, R22, R416, R528: what writes of BAR0 leave. UPD_LR takes its value; OBS_CTL takes its bit 31 from the steward alone, a peer's write
being dropped and logged; a write that is not 4 or 8 bytes on its own size, to an offset no block has, or to the other port's mailbox, is
dropped and logged.
The model's choices here: log 12 and 14. -/
def Obligations.RegisterWrites : Prop :=
  ∀ (s : State) (p : HostPort), s.tidy = true → s.serves p →
    let u := s.undrain p
    (∀ k v, k < 64 → gives (.registerWrite p (0x02800100 + 8 * k) 8 v) s (fun t => t = { u with regs := t.regs } ∧
      t.reg (0x02800100 + 8 * k) = v % 2 ^ 64 ∧ ∀ off, off ≠ 0x02800100 + 8 * k → t.reg off = s.reg off)) ∧
    (∀ v, s.roles.steward = some p →
      gives (.registerWrite p 0x03800008 4 v) s (fun t => t = { u with regs := t.regs } ∧
        t.reg 0x03800008 = (if v.testBit 31 then 2 ^ 31 else 0) ∧ ∀ off, off ≠ 0x03800008 → t.reg off = s.reg off)) ∧
    (∀ v, s.roles.steward ≠ some p →
      gives (.registerWrite p 0x03800008 4 v) s (fun t => t.errorless = u.errorless ∧ t.errq.raised = s.errq.raised + 1)) ∧
    (∀ off size v, (off < 0x1000 ∨ 0x1200 ≤ off) → (managed off = true → s.activating 1 = false) →
      ((size ≠ 4 ∧ size ≠ 8) ∨ off % size ≠ 0 ∨ decoded (off / 8 * 8) = false ∨ otherMailbox p (off / 8 * 8) = true) →
      gives (.registerWrite p off size v) s (fun t => t.errorless = u.errorless ∧ t.errq.raised = s.errq.raised + 1)) ∧
    gives (.nanTrapRearm p) s (fun t => t = { u with nanTrap := { info := 0, seq := 0, pos := 0, time := 0, count := 0 } })

/-! ### Chalk, freeze and read-out (chapter 15) -/

/-- R534, R536, R538, R539, R541: the chalk registers and the chalk writer. START makes an enabled buffer with storage RECORDING from its
first position; STOP stops it; TRIGGER sets triggered unless it is STOPPED; OBS_CHALK_CFG configures a STOPPED buffer, and clearing enable
stops one; a head write under STOP frees positions; a unit of waiting records is written to its place; the GAP record owed is made.
The model's choices here: log 5 and 51. -/
def Obligations.ChalkBuffers : Prop :=
  ∀ (s : State) (p : HostPort) (b : Nat), s.tidy = true → b < 16 →
    let u := s.undrain p
    let c := s.buffer b
    (s.serves p → s.chalkMay p c.cfg = true → bit c.cfg 63 = true → s.chalkPlaced c = true →
      gives (.chalkHostStart p b) s (fun t => t = { u with chalk := t.chalk } ∧ (∀ k, k ≠ b → t.buffer k = s.buffer k) ∧
        t.buffer b = { c with next := 0, wrapped := false, triggered := false, state := .recording, trigPos := 0, count := 0, post := 0 })) ∧
    (s.serves p → s.chalkMay p c.cfg = true →
      gives (.chalkHostStop p b) s (fun t => t = { u with chalk := t.chalk } ∧ (∀ k, k ≠ b → t.buffer k = s.buffer k) ∧
        t.buffer b = { c with state := .stopped })) ∧
    (s.serves p → s.chalkMay p c.cfg = true → c.state ≠ .stopped →
      gives (.chalkHostTrigger p b) s (fun t => t.errorless = u.errorless ∧ (t.buffer b).triggered = true)) ∧
    (∀ v, s.serves p → s.chalkMay p v = true → v < 2 ^ 64 → fld v 47 42 = 0 → fld v 29 24 = 0 → fld v 62 61 ≠ 3 → 11 ≤ fld v 52 48 →
      fld v 52 48 ≤ 27 → c.state = .stopped →
      gives (.obsChalkCfgWrite p b v) s (fun t => t = { u with chalk := t.chalk } ∧ (∀ k, k ≠ b → t.buffer k = s.buffer k) ∧
        t.buffer b = { c with cfg := v })) ∧
    (∀ v, s.serves p → s.chalkMay p v = true → chalkCfgBad v = false → bit v 63 = false →
      gives (.obsChalkCfgWrite p b v) s (fun t => t = { u with chalk := t.chalk } ∧ (t.buffer b).state = .stopped)) ∧
    (∀ v, s.serves p → c.policy = 1 → c.pending = 0 →
      gives (.obsChalkHeadWrite p b v) s (fun t => t = { u with chalk := t.chalk } ∧ (∀ k, k ≠ b → t.buffer k = s.buffer k) ∧
        t.buffer b = { c with head := v % 2 ^ 28, count := (c.next + c.size - v % 2 ^ 28 % c.size) % c.size })) ∧
    (∀ r rs, s.ready = true → s.freeze.frozen = false → s.unitRecs b = r :: rs →
      gives (.chalkUnitFlush b) s (fun t =>
        t = { s with now := (if rs.length < 7 then max s.now (r.time + 2000) else s.now), mem := t.mem, poison := t.poison, covered := t.covered, gctr := t.gctr,
                     chalkQ := s.chalkQ.filter (fun x => !decide (x ∈ r :: rs)) } ∧
        (∀ a, (∀ x ∈ r :: rs, a < c.base + 32 * x.pos ∨ c.base + 32 * x.pos + x.bytes.length ≤ a) → t.memByte a = s.memByte a) ∧
        (rs = [] → ∀ i, i < r.bytes.length → s.unreachable (c.base + 32 * r.pos + i) = false →
          t.memByte (c.base + 32 * r.pos + i) = r.bytes.getD i 0))) ∧
    (s.ready = true → s.gapDue b = true →
      gives (.chalkGap b) s (fun t => t.errorless = s.errorless ∧ (t.buffer b).pending = 0 ∧
        t.chalkQ = s.chalkQ ++ [ChalkWait.mk b c.next (chalkBytes s.now 5 0 0xFF 0 0 c.pending) s.now]))

/-- R537, R542 to R544: FREEZE_N low for 1 µs, or the steward's sw_freeze, freezes a ready module, and every UP port sends HOLD; with the last
source gone the module goes on, its deadlines moved on by the time it was frozen. Only the steward may set or clear.
The model's choices here: log 49. -/
def Obligations.FreezeControl : Prop :=
  ∀ (s : State) (p : HostPort), s.ready = true →
    let frozenNow := fun (f : Freeze) (t : State) =>
      t.freeze = { f with frozen := true, holding := (upto 48).any (fun k => (s.fport k).state == .up), holdExpired := false,
                          freezes := min (s.freeze.freezes + 1) (2 ^ 16 - 1), began := s.now, frozenMs := 0 } ∧
      t.link = { s.link with sentFlits := s.link.sentFlits ++
        ((upto 48).filter (fun k => (s.fport k).state == .up)).map (fun k =>
          (k, Flit.mk (3 * 2 ^ 61) (List.replicate 240 0) (flitCrc (3 * 2 ^ 61) (List.replicate 240 0) 0))) }
    let goesOn := fun (u : State) (t : State) => ∃ v : State, t = v.endHold.chalkFreezeRecords s.freeze.began ∧
      v.freeze = { u.freeze with frozen := false, holding := false, frozenMs := min ((s.now - s.freeze.began) / 1000000) (2 ^ 32 - 1) } ∧
      v.roles = { s.roles with lastHb := s.now, graceEnds := s.roles.graceEnds + (s.now - s.freeze.began) } ∧ v.mem = s.mem ∧ v.queues = s.queues
    (∀ ns, 1000 ≤ ns → s.freeze.pinEnable = true → s.freeze.frozen = false →
      gives (.freezePin true ns) s (fun t => frozenNow { s.freeze with pin := true } t ∧
        t = { s with power := { s.power with frzLow := true }, freeze := t.freeze, link := t.link })) ∧
    (∀ ns, s.freeze.frozen = true → s.freeze.sw = false → s.freeze.chalk = false →
      gives (.freezePin false ns) s (goesOn { s with freeze := { s.freeze with pin := false } })) ∧
    (s.serves p → s.roles.steward = some p →
      gives (.swFreeze p true) s (fun t => frozenNow { s.freeze with sw := true } t ∧ t = { s.undrain p with freeze := t.freeze, link := t.link })) ∧
    (s.bar0Gate p 0x03800010 true = .served → s.roles.steward = some p → s.freeze.frozen = true → s.freeze.pin = false → s.freeze.chalk = false →
      gives (.swFreeze p false) s (goesOn { s with freeze := { s.freeze with sw := false } })) ∧
    (s.bar0Gate p 0x03800010 true = .served → s.roles.steward = some p → s.freeze.frozen = true → s.freeze.pin = false → s.freeze.sw = false →
      gives (.clearChalk p) s (goesOn { s with freeze := { s.freeze with chalk := false } })) ∧
    (s.bar0Gate p 0x03800010 true = .served → s.roles.steward ≠ some p → ∀ on,
      gives (.swFreeze p on) s (fun t => t.errorless = (s.undrain p).errorless ∧ t.errq.raised = s.errq.raised + 1))

/-- R547, R548: in freeze the steward reads a core store's bytes through OBS_RO_DATA, with the offset moving on by 8, a confidential
domain's as zero; a read that may not be answered returns all ones and sets ro_error. -/
def Obligations.StateReadOut : Prop :=
  ∀ (s : State) (c off : Nat), s.freeze.frozen = true → c < 24 → off < 0x2000000 → off % 8 = 0 → s.freeze.roSel = c * 2 ^ 52 + off →
    (∀ p : HostPort, s.bar0Gate p 0x03800028 false = .served →
      let r := match p with | .ha => Reader.ha | .hb => Reader.hb
      (s.roles.steward = some p →
        gives (.obsRoDataRead r) s (fun t =>
          (t.port p).lastRead = (if s.confidential (s.core c).sramDomain then 0 else ofLe (s.rawBytes (0x0D0000000000 + 0x2000000 * c + off) 8)) ∧
          t.freeze.roSel = c * 2 ^ 52 + off + 8 ∧ t = { s with ha := t.ha, hb := t.hb, freeze := { s.freeze with roSel := t.freeze.roSel } })) ∧
      (s.roles.steward ≠ some p →
        gives (.obsRoDataRead r) s (fun t => (t.port p).lastRead = 2 ^ 64 - 1 ∧
          t = { s with ha := t.ha, hb := t.hb, freeze := { s.freeze with roError := true } }))) ∧
    (s.power.pwrGood = true →
      gives (.obsRoDataRead .mc) s (fun t => t = { s with mcRead := 2 ^ 64 - 1, freeze := { s.freeze with roError := true } }))

/-! ### Supply, bring-up, power states, capping and temperatures (chapters 12 and 16) -/

/-- R436, R454, R560 to R562: the standby supply, PWR_EN, cut-offs and trips. Where the rails go, every memory of the module reads zero, the
queues and registers are at reset, host memory and the flash images stand, and MOD_SUPPLY shows why.
R431 to R435: with the rails ramping, PWR_GOOD rises and bring-up ends READY, with stage 10, or in RECOVERY; a step at its maximum time
ends in RECOVERY.
The model's choices here: log 57 and 59. -/
def Obligations.SupplyAndBringUp : Prop :=
  (∀ s : State, s.tidy = true →
    let off := fun (supply : Nat) (latched : Bool) (t : State) =>
      t.power.pwrGood = false ∧ t.power.supply = supply ∧ t.power.latchedOff = latched ∧ t.power.goodFell = s.power.pwrGood ∧
      t.power.standby = s.power.standby ∧ t.now = 0 ∧ t.queues = [] ∧ t.regs = [] ∧ t.tacks = [] ∧ t.ha.linkUp = false ∧ t.hb.linkUp = false ∧
      t.ha.perst = s.ha.perst ∧ t.hb.perst = s.hb.perst ∧ (∀ a, a < 2 ^ 63 → t.memByte a = 0) ∧ (∀ a, 2 ^ 63 ≤ a → t.memByte a = s.memByte a) ∧
      t.sec.files = s.sec.files ∧ t.sec.selectors = s.sec.selectors ∧ t.sec.sessions = [] ∧ t.sec.keySlots = []
    (∀ r, s.power.standby = false →
      gives (.inputStandbyUp r) s (fun t => t = { s with power := {
        s.power with standby := true, supply := 0, goodFell := false, heldRise := false, vin := min r.vin (2 ^ 16 - 1), iin := min r.iin (2 ^ 12 - 1), tIn := min r.coolIn (2 ^ 8 - 1), tOut := min r.coolOut (2 ^ 8 - 1) } })) ∧
    (s.power.standby = true → s.power.pwrEn = false → s.power.goodFell = false →
      gives .pwrEnRise s (fun t => t = { s with power := { s.power with pwrEn := true, latchedOff := false, supply := 1 } })) ∧
    (s.power.standby = true → s.power.pwrEn = false → s.power.goodFell = true →
      gives .pwrEnRise s (fun t => t = { s with power := { s.power with pwrEn := true, heldRise := true } })) ∧
    (s.power.goodFell = true → s.power.heldRise = true → s.power.pwrEn = true → s.power.latchedOff = false →
      gives .pwrEnHoldExpiry s (fun t => t = { s with power := { s.power with goodFell := false, heldRise := false, supply := 1 } })) ∧
    (s.power.goodFell = true → s.power.heldRise = false →
      gives .pwrEnHoldExpiry s (fun t => t = { s with power := { s.power with goodFell := false } })) ∧
    (s.power.pwrEn = true → (s.power.supply = 1 ∨ s.power.supply = 2) →
      gives .pwrEnFall s (fun t => off 0 false t ∧ t.power.pwrEn = false)) ∧
    (∀ high v, s.power.standby = true → (s.power.supply = 1 ∨ s.power.supply = 2) →
      gives (.supplyCutoff high v) s (fun t => off (if high then 4 else 3) true t ∧ t.power.vin = min v (2 ^ 16 - 1))) ∧
    (∀ die ps, s.power.pwrGood = true → (115 ≤ die ∨ 125 ≤ ps) → gives (.trip die ps) s (off 5 true)) ∧
    (∀ v, s.power.standby = true → s.power.supply ≠ 1 → s.power.supply ≠ 2 →
      gives (.standbySupplyStop v) s (fun t => t = { s with power := { s.power with standby := false, vin := min v (2 ^ 16 - 1) } }))) ∧
  (∀ s : State, s.power.standby = true → s.power.pwrEn = true → s.power.supply = 1 → s.power.pwrGood = false → s.bring.state = 0 →
    (∀ cores ucie channels hubs links,
      gives (.pwrGoodRise cores ucie channels hubs links) s (fun t => t.power.pwrGood = true ∧ t.power.supply = 2 ∧
        ((t.bring.state = 1 ∧ t.bring.stage = 10) ∨ t.bring.state = 2))) ∧
    (∀ stage, 2 ≤ stage → stage ≤ 10 →
      gives (.stageTimeout stage) s (fun t => t.power.pwrGood = true ∧ t.power.supply = 2 ∧ t.bring.state = 2 ∧
        (t.bring.fault = 6 → t.bring.stage = stage ∧ ∀ p, (t.fport p).state = .down))))

/-- R448 to R450: MOD_POWER_CTL takes the steward's request, cap and target at the next 1 ms window; with REST requested and nothing to do the
module begins to enter REST, its rail moving to 550 mV, and is in REST once it is there; back in ACTIVE its rail stands where the limits ask.
The model's choices here: log 60 and 61. -/
def Obligations.PowerStates : Prop :=
  (∀ (s : State) (p : HostPort) (v : Nat), s.tidy = true → s.serves p → s.roles.steward = some p → fld v 31 30 ≤ 1 → 1000 ≤ fld v 26 16 →
    fld v 26 16 ≤ 1800 → fld v 13 8 ≤ 40 →
    gives (.modPowerCtlWrite p v) s (fun t => t = { s.undrain p with regs := t.regs } ∧ (∀ o, o ≠ 0x40 → t.reg o = s.reg o) ∧
      t.reg 0x40 = fld v 31 30 * 2 ^ 30 + fld v 26 16 * 2 ^ 16 + fld v 13 8 * 2 ^ 8)) ∧
  (∀ s : State, s.alive = true → s.power.restReq = true → s.quiet = true →
    gives .restEntry s (fun t => t = { s with power := t.power } ∧ t.power.targetMv = 550 ∧
      t.power.state = (if t.power.railMv = 550 then .rest else .entering))) ∧
  (∀ s : State, s.ready = true → s.power.state = .exiting →
    gives .restExit s (fun t => t = { s with now := t.now, power := t.power } ∧ s.now ≤ t.now ∧ t.power.state = .active ∧
      t.power.railMv = t.power.targetMv ∧ t.power.targetMv = max 650 (min s.power.vTargetMv (min s.power.vCap s.power.vTherm)))) ∧
  (∀ (s : State) (watts : Nat) (r : SupplyReading), s.ready = true → s.power.standby = true →
    let v := s.reg 0x40
    let x := s.power
    let cap := if x.capW < watts then max 650 (State.railNow { s with now := (s.now / 1000000 + 1) * 1000000 } - 5 * min 10 ((watts - x.capW + 24) / 25))
      else if watts + 25 < x.capW ∧ x.vCap < 850 then x.vCap + 5 else x.vCap
    gives (.powerWindow watts r) s (fun t => t = { s with now := (s.now / 1000000 + 1) * 1000000, power := t.power } ∧ t.power.vCap = cap ∧
      t.power.inputW = watts ∧ t.power.capW = fld v 26 16 ∧ t.power.vTargetMv = 650 + 5 * fld v 13 8 ∧
      (t.power.restReq = true ↔ fld v 31 30 = 1) ∧ (t.power.capUnmet = true ↔ cap = 650 ∧ x.capW < watts) ∧
      t.power.vin = min r.vin (2 ^ 16 - 1))) ∧
  (∀ (s : State) (watts : Nat), s.ready = true → s.power.fastArmed = true → s.power.capW + 150 < watts →
    gives (.powerFastInterval watts) s (fun t => t = { s with power := t.power } ∧
      t.power.vCap = max 650 (min s.power.vCap s.railNow - 25))) ∧
  (∀ s : State, s.power.pwrGood = true → s.power.capUnmet = true →
    gives .capUnmetAlert s (fun t => t = { s with now := max s.now (s.power.capUnmetSince + 100000000), power := { s.power with capAlert := true } } ∧
      (s.power.standby = true → t.alertAsserted = true))) ∧
  (∀ s : State, s.power.pwrGood = true → s.power.railMv ≠ s.power.targetMv →
    gives .railSlewComplete s (fun t => t = { s with now := t.now, power := { s.power with
        railMv := s.power.targetMv, fastArmed := true,
        state := if s.power.state = .entering ∧ s.power.targetMv = 550 then .rest else s.power.state } } ∧
      (s.power.railMv ≤ s.power.targetMv → t.now = max s.now (s.power.slewFrom + 1000 * (s.power.targetMv - s.power.railMv)))))

/-- R453, R454: a thermal reading moves v_therm by 5 mV, halves a hub at 95 °C until it is below 92 °C, and begins thermal hold at 105 °C,
with its count and its report, and ends it below 100 °C; in hold the waves are withheld in alternate intervals.
The model's choices here: log 60 and 62. -/
def Obligations.ThermalControl : Prop :=
  (∀ (s : State) (die hub ps : Nat) (hubs : List Nat), s.tidy = true → s.ready = true →
    gives (.thermalRead die hub ps hubs) s (fun t => t.errorless = State.errorless { s with power := t.power, hubs := t.hubs } ∧
      t.power.tjDie = die ∧ t.power.tjHub = hub ∧ t.power.tPs = ps ∧
      t.power.vTherm = (if 95 ≤ die then max 650 (s.power.vTherm - 5) else if die < 92 then min 850 (s.power.vTherm + 5) else s.power.vTherm) ∧
      (t.power.hold = true ↔ (105 ≤ die ∨ (s.power.hold = true ∧ 100 ≤ die))) ∧
      (s.power.hold = false → 105 ≤ die → t.power.holds = min (s.power.holds + 1) 255 ∧ t.errq.raised = s.errq.raised + 1) ∧
      (∀ h x, h < 8 → hubs[h]? = some x → t.hub h = { s.hub h with halved := if 95 ≤ x then true else if x < 92 then false else (s.hub h).halved }))) ∧
  (∀ s : State, s.power.pwrGood = true → s.power.hold = true →
    gives .thermalHoldInterval s (fun t => t = { s with power := { s.power with holdPhase := !s.power.holdPhase } }))

/-- R54, R399, R400, R559, R563: the PPS input and the management bus: an edge in its window is taken, and lost after 1.5 s without one; an
I3C read returns the identity and status page at the offset last written and moves on by 8, all ones where nothing responds.
The model's choices here: log 5, 11 and 48. -/
def Obligations.PinsAndManagementBus : Prop :=
  ∀ s : State,
    (∀ e, s.power.pwrGood = true →
      (s.power.ppsSeen = false ∨ 1500000000 < e - s.power.ppsLast ∨ (999000000 ≤ e - s.power.ppsLast ∧ e - s.power.ppsLast ≤ 1001000000)) →
      gives (.ppsEdge e) s (fun t => t.now = max s.now e ∧ t.power = { s.power with ppsSeen := true, ppsLast := e } ∧
        t = { s with now := t.now, power := t.power, link := { s.link with time := { s.link.time with slew := t.link.time.slew, slewFrom := t.link.time.slewFrom } } })) ∧
    (s.power.pwrGood = true → s.power.ppsSeen = true →
      gives .ppsSeenExpiry s (fun t => t = { s with now := max s.now (s.power.ppsLast + 1500000000), power := { s.power with ppsSeen := false } })) ∧
    (s.power.standby = true →
      (∀ off, gives (.i3cOffsetWrite off) s (fun t => t = { s with power := { s.power with i3cOff := off % 65536 } })) ∧
      (s.power.i3cOff = 0x58 → gives .i3cRead s (fun t => t = { s with power := { s.power with i3cOff := 0x60, i3cData := s.power.supplyReg } })) ∧
      (s.power.pwrGood = true → s.power.i3cOff = 0x10 →
        gives .i3cRead s (fun t => t = { s with power := { s.power with i3cOff := 0x18, i3cData := s.modStatus } })) ∧
      (s.power.pwrGood = true → s.power.i3cOff = 0x18 →
        gives .i3cRead s (fun t => t = { s with bring := { s.bring with earlyR0 := 0, earlyW0 := 0, earlyR2 := 0, earlyW2 := 0 },
                                                power := { s.power with i3cOff := 0x20, i3cData := s.bring.earlyAccess } })) ∧
      (s.power.i3cOff % 8 ≠ 0 →
        gives .i3cRead s (fun t => t = { s with power := { s.power with i3cOff := (s.power.i3cOff + 8) % 65536, i3cData := 2 ^ 64 - 1 } })))

/-! ### Configuration transactions (R438 to R447) -/

/-- R438, R444, R445: BASTE opens a transaction of its port with its idle timeout; TOUCH restarts its timer; UNPICK, and the idle timer,
discard what it staged and end it with ST_OK, ST_CONFLICT or ST_TIMEOUT. Each leaves everything but the port's transaction. -/
def Obligations.TransactionLifecycle : Prop :=
  ∀ (s : State) (p : HostPort),
    let x := (s.port p).txn
    let ended := fun (status cause : Nat) => { x with state := .idle, staged := [], released := false, status := status, endCause := cause }
    (s.serves p → s.activating 1 = false →
      (∀ v, x.state = .idle → fld v 15 0 ≤ 6000 →
        gives (.baste p v) s (fun t => s.txnLeft t p { x with
          state := .opened, staged := [], released := false, lastTouch := s.now, seq := (x.seq + 1) % 2 ^ 32,
          idleNs := if fld v 15 0 = 0 then 1000000000 else 10000000 * fld v 15 0 })) ∧
      (∀ v, x.state = .idle → 6000 < fld v 15 0 →
        gives (.baste p v) s (fun t => t.errq.raised = s.errq.raised + 1 ∧ (t.port p).txn = { x with
          state := .opened, staged := [], released := false, lastTouch := s.now, seq := (x.seq + 1) % 2 ^ 32, idleNs := 1000000000 })) ∧
      (∀ v, x.state ≠ .idle → gives (.baste p v) s (fun t => s.txnLeft t p { x with lastTouch := s.now })) ∧
      (x.state ≠ .idle → gives (.touch p) s (fun t => s.txnLeft t p { x with lastTouch := s.now })) ∧
      (x.state = .idle → gives (.touch p) s (fun t => s.txnLeft t p x)) ∧
      (x.state = .opened → gives (.unpick p) s (fun t => s.txnLeft t p (ended 0 1))) ∧
      (x.state = .doomed → gives (.unpick p) s (fun t => s.txnLeft t p (ended 2 2))) ∧
      (x.state = .idle ∨ x.state = .sewing → gives (.unpick p) s (fun t => s.txnLeft t p x))) ∧
    (s.serves p → s.activating 1 = true →
      (∀ v, gives (.baste p v) s (fun t => s.keeps t p (.baste p v))) ∧ gives (.touch p) s (fun t => s.keeps t p (.touch p)) ∧
      gives (.unpick p) s (fun t => s.keeps t p (.unpick p))) ∧
    (s.ready = true → s.freeze.frozen = false → (x.state = .opened ∨ x.state = .doomed) →
      gives (.transactionIdleTimeout p) s (fun t =>
        t = State.modPort { s with now := max s.now (x.lastTouch + x.idleNs) } p (fun y => { y with txn := ended 9 3 })))

/-- R20, R22, R438 to R442: a staged write. A value that every field's table defines is staged and claims its register, a later one replacing
an earlier, requests of HUB_DMAP_WRITE accumulating, up to 1,024; without a transaction it is dropped and logged; a doomed one drops it;
a register that the peer may not stage dooms the peer's transaction; a claimed register dooms the peer's, whichever port writes, but for a SEW
that has passed its check. No register in force changes.
The model's choices here: log 12, 13 and 69. -/
def Obligations.StagedWrites : Prop :=
  ∀ (s : State) (p : HostPort) (off size v : Nat), s.serves p → (managed off = true → s.activating 1 = false) →
    (aligned off size = false →
      gives (.stagedWrite p off size v) s (fun t => t.errq.raised = s.errq.raised + 1 ∧ t.errorless = (s.undrain p).errorless)) ∧
    (off % 8 = 0 → stWide off = true →
      exec (.stagedWrite p off 4 v) s = exec (.stagedWrite p off 8 (s.stHalf p off / 2 ^ 32 * 2 ^ 32 + v % 2 ^ 32)) s ∧
      exec (.stagedWrite p (off + 4) 4 v) s = exec (.stagedWrite p off 8 (s.stHalf p off % 2 ^ 32 + v % 2 ^ 32 * 2 ^ 32)) s) ∧
    (off % 8 = 0 → stWide off = false → (s.port p).waiting = [] →
      ∀ t, exec (.stagedWrite p off 4 v) s = .next t → t.freeze.frozen = false →
        exec (.stagedWrite p off 8 v) s = exec (.stagedWrite p (off + 4) 4 (v / 2 ^ 32)) t) ∧
    ∀ fs, stFields off = some fs → ((size = 8 ∧ off % 8 = 0 ∧ stWide off = true) ∨ (size = 4 ∧ off % 4 = 0 ∧ stWide (off / 8 * 8) = false)) →
    let x := (s.port p).txn
    let y := (s.port (otherPort p)).txn
    let row := Instr.stagedWrite p off size v
    let legal := ∀ f ∈ fs, f.least ≤ fld (v % 2 ^ (8 * size)) f.hi f.lo ∧ fld (v % 2 ^ (8 * size)) f.hi f.lo ≤ f.most
    let w := (fs.map (fun f => fld (v % 2 ^ (8 * size)) f.hi f.lo * 2 ^ f.lo)).sum
    let claimed := y.state ≠ .idle ∧ y.released = false ∧ off ∈ y.staged.map Prod.fst
    let repeated := off ∈ x.staged.map Prod.fst ∧ off ≠ 0x02810008
    (x.state = .opened → (s.roles.steward = some p ∨ peerMayStage off = true) → legal → ¬claimed → repeated →
      gives row s (fun t => s.txnLeft t p { x with
        lastTouch := s.now, staged := x.staged.map (fun e => if e.1 = off then (off, w) else e) })) ∧
    (x.state = .opened → (s.roles.steward = some p ∨ peerMayStage off = true) → legal → ¬claimed → ¬repeated → x.staged.length < 1024 →
      gives row s (fun t => s.txnLeft t p { x with lastTouch := s.now, staged := x.staged ++ [(off, w)] })) ∧
    (x.state = .opened → (s.roles.steward = some p ∨ peerMayStage off = true) → legal → ¬claimed → ¬repeated → 1024 ≤ x.staged.length →
      gives row s (fun t => s.txnLeft t p { x with lastTouch := s.now, state := .doomed })) ∧
    (x.state = .opened → s.roles.steward = some p → legal → claimed → ¬repeated → x.staged.length < 1024 →
      gives row s (fun t => t = { s with ha := t.ha, hb := t.hb } ∧
        (t.port p).txn = { x with lastTouch := s.now, staged := x.staged ++ [(off, w)] } ∧
        (t.port (otherPort p)).txn = if y.state = .sewing then y else { y with state := .doomed, released := true })) ∧
    (x.state = .opened → s.roles.steward ≠ some p → peerMayStage off = true → legal → claimed →
      gives row s (fun t => s.txnLeft t p { x with state := .doomed })) ∧
    (x.state = .opened → s.roles.steward ≠ some p → peerMayStage off = false →
      gives row s (fun t => s.txnLeft t p { x with state := .doomed })) ∧
    (x.state = .doomed → gives row s (fun t => s.txnLeft t p x)) ∧
    (x.state = .idle ∨ x.state = .sewing →
      gives row s (fun t => t.errq.raised = s.errq.raised + 1 ∧ t.errorless = (s.undrain p).errorless))

/-- R443: SEW and SEW_END complete. SEW of an OPENED transaction passes the arbiter; one that passes its check puts every staged value of a plain
register in force and is SEWING; one that staged nothing, or one value of such a register, passes; one that fails a check ends with ST_CONFLICT and
applies nothing, as one that was doomed does. SEW_END, once the follow-on actions are complete, ends it with ST_OK, the granules it assigned
reading zero.
The model's choices here: log 66, 69 and 70. -/
def Obligations.SewTransactions : Prop :=
  ∀ (s : State) (p : HostPort),
    let x := (s.port p).txn
    let ended := fun (y : Txn) (status cause : Nat) =>
      { y with state := .idle, staged := [], released := false, status := status, endCause := cause }
    (s.serves p → s.activating 1 = false →
      let u := (s.undrain p).passArb .sew (portNum p)
      (x.state = .opened → u.sewOk x = true →
        ∃ t, exec (.sew p) s = .next t ∧ (t.port p).txn.state = .sewing ∧ (t.port p).txn.staged = x.staged ∧ t.arbiters = u.arbiters ∧
          t.granules = (u.runMap x).granules) ∧
      (x.state = .opened → x.staged = [] →
        ∃ t, exec (.sew p) s = .next t ∧ t = u.modPort p (fun y => { y with txn := { x with state := .sewing, filling := [], retrain := [] } })) ∧
      (∀ c v, x.state = .opened → c < 24 → x.staged = [(0x01000F00 + 0x10000 * c, v)] →
        ∃ t, exec (.sew p) s = .next t ∧ (t.port p).txn.state = .sewing ∧
          t.regs = (s.setReg (0x01000F00 + 0x10000 * c) (s.reg (0x01000F00 + 0x10000 * c) / 256 * 256 + v % 256)).regs) ∧
      (x.state = .opened → u.sewOk x = false → gives (.sew p) s (fun t => u.txnLeft t p (ended x 2 5))) ∧
      (x.state = .doomed → gives (.sew p) s (fun t => s.txnLeft t p (ended x 2 2))) ∧
      (x.state = .idle ∨ x.state = .sewing → gives (.sew p) s (fun t => s.txnLeft t p x))) ∧
    (s.serves p → s.activating 1 = true → gives (.sew p) s (fun t => s.keeps t p (.sew p))) ∧
    (s.tidy = true → s.ready = true → s.freeze.frozen = false → x.state = .sewing → s.sramDone x = true → x.retrain.all s.trained = true →
      ∃ t, exec (.sewEnd p) s = .next t ∧ (t.port p).txn = { ended x 0 0 with filling := [], retrain := [] } ∧
        (∀ f ∈ x.filling, ∀ a, f.1 * 2097152 ≤ a → a < (f.1 + f.2) * 2097152 → t.memByte a = 0) ∧
        (∀ a, (∀ f ∈ x.filling, a < f.1 * 2097152 ∨ (f.1 + f.2) * 2097152 ≤ a) → t.memByte a = s.memByte a)) ∧
    (s.ready = true → s.freeze.frozen = false → x.state = .sewing → x.staged = [] → x.filling = [] → x.retrain = [] →
      ∃ t, exec (.sewEnd p) s = .next t ∧ t = s.modPort p (fun y => { y with txn := ended x 0 0 }))

/-! ### Wide commands (chapters 6 and 7): a command that passes its check -/

/-- R206, R215, R241, R242: MM, QUANT and PRESS that pass their check issue into the tile queue of their core, in order, or wait, recorded and
not issued, while it holds 32 commands; one with no output tile is complete at once. Of the rest of the state only the queue, the chalk
records of the issue and the end of an exhausted submission change.
R116, R125, R224, R225, R242: LOADW issues on a pleat that is idle for its queue's priority, and its load joins the engine's queue of loads
where the pleat's configuration serves it; SEAM waits on the engines of its mask, or is complete at once for an empty mask; either waits
while it cannot issue. A STREAM_CLOSE that waits comes to wait for a command of its stream too (R184).
The model's choices here: log 18 and 22. -/
def Obligations.ArrayCommands : Prop :=
  (∀ (s : State) (c q : Nat) (ws : Words) (x : Wide) (i : Instr), s.tidy = true → s.passes c q ws x →
    ((x.opcode = 1 ∧ i = .mm c q ws) ∨ (x.opcode = 4 ∧ i = .quant c q ws) ∨
     (x.opcode = 5 ∧ isReduction x.pressOp = false ∧ x.pressOp ≠ 0x40 ∧ i = .pressElementwise c q ws) ∨
     (x.opcode = 5 ∧ isReduction x.pressOp = true ∧ i = .pressReduction c q ws) ∨
     (x.opcode = 5 ∧ x.pressOp = 0x40 ∧ i = .normAcc c q ws)) →
    let qi := 8 * c + q
    let u := s.begun qi ws x
    let core := s.serving qi
    (x.tiles ≠ 0 → (s.core core).tileQ.length < 32 →
      gives i s (fun t => t = ((u.modCore core (fun y => { y with tileQ := y.tileQ ++ [(qi, x.cseq)] })).joinClose qi x).checkExhausted qi ∧
        (t.core core).tileQ = (s.core core).tileQ ++ [(qi, (s.queue qi).cseq + 1)] ∧ (t.queue qi).cseq = (s.queue qi).cseq + 1 ∧
        (t.queue qi).pc = (s.queue qi).pc + 32 ∧ (t.queue qi).g = (s.queue qi).g ∧ (t.queue qi).a = (s.queue qi).a ∧
        (∀ a, a < 2 ^ 63 → t.memByte a = s.memByte a))) ∧
    (x.tiles ≠ 0 → 32 ≤ (s.core core).tileQ.length →
      gives i s (fun t => t = (s.accepts qi ws x).checkExhausted qi ∧ (t.core core).tileQ = (s.core core).tileQ)) ∧
    (x.tiles = 0 → gives i s (fun t => t = ((u.complete qi x.cseq 0).joinClose qi x).checkExhausted qi))) ∧
  (∀ (s : State) (c q : Nat) (ws : Words) (x : Wide), s.tidy = true → s.passes c q ws x →
    let qi := 8 * c + q
    let u := s.begun qi ws x
    let core := s.serving qi
    (x.opcode = 2 →
      let e := 4 * core + fld x.n0 23 22
      let p := fld x.n0 31 28
      (u.pleatIdle (u.engine e) p (s.queuePrio qi) = true →
        gives (.loadw c q ws) s (fun t =>
          t.engine e = { (s.engine e).setPleat p { (s.engine e).pleat p with
            run := some { queue := qi, cseq := x.cseq, otile := 0, tile := 0, rows := 0, loadw := true } } with
            loadQ := if (s.engine e).configured p x true then (s.engine e).loadQ ++ [p] else (s.engine e).loadQ } ∧
          (∀ k, k ≠ e → t.engine k = s.engine k) ∧ t.cores = u.cores ∧ (∀ a, a < 2 ^ 63 → t.memByte a = s.memByte a))) ∧
      (u.pleatIdle (u.engine e) p (s.queuePrio qi) = false →
        gives (.loadw c q ws) s (fun t => t = (s.accepts qi ws x).checkExhausted qi))) ∧
    (x.opcode = 3 →
      let es := emaskEngines core (fld x.n0 31 28)
      let w : SeamWait := { queue := qi, cseq := x.cseq, map := x.n1, modes := x.n2 % 2 ^ 32 }
      (es ≠ [] → (∀ e ∈ es, (s.engine e).seam = none) →
        gives (.seam c q ws) s (fun t => (∀ e ∈ es, t.engine e = { s.engine e with seam := some w }) ∧
          (∀ k, k ∉ es → t.engine k = s.engine k) ∧ (∀ a, a < 2 ^ 63 → t.memByte a = s.memByte a))) ∧
      ((∃ e ∈ es, (s.engine e).seam ≠ none) → gives (.seam c q ws) s (fun t => t = (s.accepts qi ws x).checkExhausted qi)) ∧
      (es = [] → gives (.seam c q ws) s (fun t => t = (u.complete qi x.cseq 0).checkExhausted qi))))

/-- R100, R229, R506: COPY, CONVERT, DECRYPT and FILL issue on a free shuttle of their core, the lower-numbered first, and wait while both work.
One whose source lies in host memory asks the host for it; another runs at once, and where its destination is no ring its shuttle is free
again, and COPY, FILL and DECRYPT have left every byte of module memory outside the destination as it was; FILL of a view without a stride
has left its pattern in every byte of it. Where the host of an operand is gone the command has failed and no byte has changed (R422).
The model's choices here: log 32 and 55. -/
def Obligations.ShuttleCommands : Prop :=
  ∀ (s : State) (c q : Nat) (ws : Words) (x : Wide) (i : Instr), s.tidy = true → s.passes c q ws x → x.opcode = 6 →
    ((x.op = 0 ∧ i = .shuttleCopy c q ws) ∨ (x.op = 1 ∧ i = .convert c q ws) ∨ (x.op = 2 ∧ i = .decrypt c q ws) ∨ (x.op = 3 ∧ i = .fill c q ws)) →
    let qi := 8 * c + q
    let core := s.serving qi
    let d := x.shDst.desc
    ((s.core core).shuttle0 ≠ none → (s.core core).shuttle1 ≠ none →
      gives i s (fun t => t = (s.accepts qi ws x).checkExhausted qi)) ∧
    (∀ k, (s.core core).freeShuttle = some k → s.hostGone x = false →
      let u := ((s.begun qi ws x).modCore core (fun y => y.setShuttle k (some (qi, x.cseq)))).scopeBegin (2 * core + k) (seqWord qi x.cseq)
      (s.hostSource x = none →
        gives i s (fun t => t = ((u.runShuttle core k qi x).joinClose qi x).checkExhausted qi ∧
          (d.isRing = false → (t.core core).shuttle k = none) ∧
          ((x.op = 0 ∨ x.op = 2 ∨ x.op = 3) → d.isRing = false →
            ∀ a, a < 2 ^ 63 → (∀ r ∈ d.ranges x.shDst.f x.heritage, a < r.1 ∨ r.1 + r.2 ≤ a) → t.memByte a = s.memByte a) ∧
          (x.op = 3 → d.isRing = false → d.stride = 0 → ∀ j, j < d.lines * packed d.lineLen x.shDst.f.width → d.data + j < 2 ^ 63 →
            s.unreachable (d.data + j) = false → t.memByte (d.data + j) = BitVec.ofNat 8 (x.n1 / 256 ^ (j % 8))))) ∧
      (∀ p, s.hostSource x = some p →
        let rs := x.shSrc.desc.ranges x.shSrc.f x.heritage
        (rs.map Prod.snd).sum ≠ 0 →
        gives i s (fun t => (t.core core).shuttle k = some (qi, x.cseq) ∧
          t.port p = Port.sendReads { s.port p with asks := (s.port p).asks ++
            (rs.flatMap (fun r => readPieces (s.port p).readSize r.1 r.2)).map (fun r => HostRead.mk 0 qi x.cseq 0 r.1 r.2) } s.now ∧
          (∀ a, a < 2 ^ 63 → t.memByte a = s.memByte a)))) ∧
    (∀ k, (s.core core).freeShuttle = some k → s.hostGone x = true →
      gives i s (fun t => (t.core core).shuttle k = none ∧ (∃ y, t.wide qi x.cseq = some y ∧ y.stage = .complete ∧ y.status = 5) ∧
        (∀ a, a < 2 ^ 63 → t.memByte a = s.memByte a)))

/-- R230 to R232, R260 to R262, R264: TACK. SET, ADD and ARRIVE with nothing earlier unretired take effect as the command retires; a remote ADD
leaves this module's tacks; a WAIT completes at once where its condition holds, or with ST_SOURCE_LOST where the tack has lost its source, and
waits otherwise.
The model's choices here: log 25 and 26. -/
def Obligations.TackCommands : Prop :=
  ∀ (s : State) (c q : Nat) (ws : Words) (x : Wide), s.tidy = true → s.passes c q ws x → x.opcode = 7 →
    let qi := 8 * c + q
    let u := s.begun qi ws x
    let n := fld x.n0 27 14
    let v := fld x.n1 31 0
    let k := s.tack n
    let alone := (s.queue qi).inflight = [] ∧ (s.queue qi).stopped = false ∧ x.recBit = false ∧ ∃ y, (s.queue qi).sub = some y ∧ y.recAll = false
    let one := if x.retEn ∧ x.retTack = n then 1 else 0
    let retired := fun (t : State) => (t.queue qi).rseq = (s.queue qi).cseq + 1 ∧ (t.queue qi).inflight = [] ∧
      (∀ m, m ≠ n → m ≠ x.retTack → t.tack m = s.tack m) ∧ (∀ a, a < 2 ^ 63 → t.memByte a = s.memByte a)
    (x.op = 0 → alone →
      gives (.tackCmdSet c q ws) s (fun t => retired t ∧ (t.tack n).value = (v + one) % 2 ^ 32 ∧ (t.tack n).arrivals = 0 ∧
        (t.tack n).arriveN = 0 ∧ (t.tack n).mismatch = false ∧ (t.tack n).sourceLost = false)) ∧
    (x.op = 1 → bit x.n0 13 = false → alone →
      gives (.tackCmdAdd c q ws) s (fun t => retired t ∧ (t.tack n).value = (k.value + v + one) % 2 ^ 32 ∧ (t.tack n).arrivals = k.arrivals)) ∧
    (x.op = 1 → bit x.n0 13 = true → alone → x.retEn = false →
      gives (.tackCmdAdd c q ws) s (fun t => (t.queue qi).rseq = (s.queue qi).cseq + 1 ∧
        (fld x.n1 63 50 = s.fabricId → (t.tack n).value = (k.value + v) % 2 ^ 32) ∧
        (fld x.n1 63 50 ≠ s.fabricId → t.tacks = s.tacks) ∧
        (fld x.n1 63 50 ≠ s.fabricId → s.fabricValid = true → s.isLost (fld x.n1 63 50) = false →
          t.remoteSent = (s.remoteSent + 1) % 2 ^ 64))) ∧
    (x.op = 4 → alone → x.retEn = false →
      let m := if k.arriveN = 0 then v else k.arriveN
      gives (.tackCmdArrive c q ws) s (fun t =>
        (k.arrivals + 1 = m → (t.tack n).value = (k.value + 1) % 2 ^ 32 ∧ (t.tack n).arrivals = 0 ∧ (t.tack n).arriveN = 0) ∧
        (k.arrivals + 1 ≠ m → (t.tack n).value = k.value ∧ (t.tack n).arrivals = k.arrivals + 1 ∧ (t.tack n).arriveN = m) ∧
        ((t.tack n).mismatch = true ↔ (k.mismatch = true ∨ m ≠ v)))) ∧
    (∀ i, (x.op = 2 ∧ i = .tackCmdWaitGe c q ws) ∨ (x.op = 3 ∧ i = .tackCmdWaitEq c q ws) →
      let y : Waiter := {
        queue := qi, cseq := x.cseq, eq := x.op == 3, operand := v,
        deadline := if fld x.n1 49 34 = 0 then none else some (s.now + 100000 * fld x.n1 49 34) }
      (y.met k.value = true → gives i s (fun t => t = (u.complete qi x.cseq 0).checkExhausted qi)) ∧
      (y.met k.value = false → k.sourceLost = true → gives i s (fun t => t = (u.complete qi x.cseq 6).checkExhausted qi)) ∧
      (y.met k.value = false → k.sourceLost = false →
        gives i s (fun t => t = (u.setTack n { k with waiters := k.waiters ++ [y] }).checkExhausted qi)))

/-- R234, R236, R282, R383, R390: a COLL that passes its check takes the communicator's next collective number and begins in this member, behind the
collectives of the module, while fewer than 32 (24 with a slice at fault) are in progress, and waits otherwise; on a communicator that has lost
a member, or that JOB-FATAL has ended, it is complete with ST_PEER_LOST or ST_CONTAINED.
The model's choices here: log 40. -/
def Obligations.CollectiveCommands : Prop :=
  ∀ (s : State) (c q : Nat) (ws : Words) (x : Wide) (i : Instr), s.passes c q ws x → x.opcode = 8 →
    ((x.op = 0 ∧ i = .allreduce c q ws) ∨ (x.op = 1 ∧ i = .reduceScatter c q ws) ∨ (x.op = 2 ∧ i = .allgather c q ws) ∨
     (x.op = 3 ∧ i = .broadcast c q ws) ∨ (x.op = 4 ∧ i = .reduce c q ws) ∨ (x.op = 5 ∧ i = .collNorm c q ws)) →
    let qi := 8 * c + q
    let u := s.begun qi ws x
    let m := s.comm x.coComm
    let limit := if s.link.sliceFaults = [] then 32 else 24
    let running := (s.link.colls.filter (fun y => y.endedAs.isNone)).length
    (m.fatal = false → m.lost = none → running < limit →
      let y : Coll := { u.collOf qi x with k := m.nextK }
      gives i s (fun t => ∃ v : State, t = (((v.placeColl y).beginColl y (x.operand 2).desc.data).joinClose qi x).checkExhausted qi ∧
        y.kind = collKind x.op ∧ y.comm = x.coComm ∧ y.queue = qi ∧ y.cseq = x.cseq ∧
        v.link.colls = s.link.colls ∧ v.link.comms = SMap.set {} s.link.comms x.coComm { m with nextK := (m.nextK + 1) % 2 ^ 24 } ∧
        (∀ a, a < 2 ^ 63 → v.memByte a = s.memByte a) ∧ v.tacks = s.tacks ∧
        ∃ w, v.wide qi x.cseq = some w ∧ w.stage = .issued ∧ w.coll = some (x.coComm, m.nextK))) ∧
    (m.fatal = false → m.lost = none → limit ≤ running → gives i s (fun t => t = (s.accepts qi ws x).checkExhausted qi)) ∧
    (x.op ≠ 5 → m.fatal = true → gives i s (fun t => t = ((u.complete qi x.cseq 5).joinClose qi x).checkExhausted qi)) ∧
    (x.op ≠ 5 → m.fatal = false → m.lost ≠ none → gives i s (fun t => t = ((u.complete qi x.cseq 1).joinClose qi x).checkExhausted qi)) ∧
    (x.op = 5 → (m.fatal = true ∨ m.lost ≠ none) →
      gives i s (fun t => ∃ v : State, t = ((v.endNorm (u.collOf qi x) (if m.fatal then 5 else 1)).joinClose qi x).checkExhausted qi ∧
        v.link = u.link ∧ v.mem = u.mem))

/-- R236, R341, R344, R347: a UPD with its norm record is taken by its hub's update engine while that holds fewer than 16, by the fall-back
path where the command or an inactive engine asks for it, and waits otherwise; one without its record waits.
R195, R329, R330, R335, R341: a step of the oldest UPD of its engine: a shard whose state shows an interrupted or poisoned update ends it with
ST_CONTAINED; one that its norm record or its step size stops leaves the shard as it was but for its status; otherwise the next block group is
done and counted in the shard's state, and after the last one the shard's state closes and the UPD is complete, where its copies' scales
did not have to wait for the amax.
The model's choices here: log 39. -/
def Obligations.Updates : Prop :=
  (∀ (s : State) (c q : Nat) (ws : Words) (x : Wide), s.passes c q ws x → x.opcode = 9 →
    let qi := 8 * c + q
    let h := x.updHub
    let rest := fun (t : State) => t.tacks = s.tacks ∧ t.regs = s.regs ∧
      (∀ a, a < 2 ^ 63 → t.memByte a = s.memByte a)
    (x.normRec = none → gives (.upd c q ws) s (fun t => t = (s.accepts qi ws x).checkExhausted qi)) ∧
    (x.normRec ≠ none → x.updPath = false → s.updActive h = true → (s.accepted h).length < 16 →
      gives (.upd c q ws) s (fun t => rest t ∧ t.upd.fallback = s.upd.fallback ∧
        t.upd.accepted = SMap.set [] s.upd.accepted h (s.accepted h ++ [(qi, x.cseq)]))) ∧
    (x.normRec ≠ none → x.updPath = false → s.updActive h = true → 16 ≤ (s.accepted h).length →
      gives (.upd c q ws) s (fun t => t = (s.accepts qi ws x).checkExhausted qi)) ∧
    (x.normRec ≠ none → (x.updPath = true ∨ s.updActive h = false) →
      gives (.upd c q ws) s (fun t => rest t ∧ t.upd.accepted = s.upd.accepted ∧ t.upd.fallback = s.upd.fallback ++ [(qi, x.cseq)] ∧
        t.upd.redirected = (if x.updPath then s.upd.redirected else min (s.upd.redirected + 1) (2 ^ 32 - 1))))) ∧
  (∀ (s : State) (c q cseq : Nat) (w : Wide) (d : UpdDesc) (r : List Byte), c < 24 → q < 8 → s.alive = true →
    let qi := 8 * c + q
    s.wide qi cseq = some w → w.upd = some d → w.normRec = some r → w.opcode = 9 → w.stage = .issued → s.updFirst qi w = true →
    let row := Instr.updBlockGroup c q cseq
    let fresh := w.done ≠ 0 ∨ (s.readLe (d.state + 8) 8 = 0 ∧ s.poisoned d.state 64 = false)
    (¬fresh → gives row s (fun t => t = (s.markPoisoned qi w.cseq (s.poisoned d.state 64)).updEnd qi w.cseq 5 0)) ∧
    (fresh → (updOutcome r).1 = false →
      gives row s (fun t => t = (s.writeShard d w false (updOutcome r).2.1 (updOutcome r).2.2 0).updEnd qi w.cseq (updOutcome r).2.1 (updOutcome r).2.2 ∧
        (s.tidy = true → ∀ a, (a < d.state + 0x10 ∨ d.state + 0x1E ≤ a) → t.memByte a = s.memByte a))) ∧
    (fresh → (updOutcome r).1 = true → badLr w.lr = true →
      gives row s (fun t => t = (s.writeShard d w false 2 0 0).updEnd qi w.cseq 2 0)) ∧
    let split := (w.operand 1).toJit && (d.trainEn || d.genEn)
    let u := (s.blockGroup qi d w (normScale r) ((updOutcome r).2.2 == 0x81) split w.done).modWide qi w.cseq (fun w => { w with done := w.done + 1 })
    (fresh → (updOutcome r).1 = true → badLr w.lr = false → d.groups ≤ w.done + 1 → split = false →
      let y := (u.wide qi w.cseq).getD w
      let st := if (u.wide qi w.cseq).any (fun x => x.poisoned) then 5 else 0
      gives row s (fun t => t = (u.writeShard d y true st (updOutcome r).2.2 y.amax).updEnd qi w.cseq st (updOutcome r).2.2)) ∧
    (fresh → (updOutcome r).1 = true → badLr w.lr = false → w.done + 1 < d.groups →
      gives row s (fun t => t = u ∧
        (s.tidy = true → d.state + 16 < 2 ^ 63 → (∀ j, j < 8 → s.unreachable (d.state + 8 + j) = false) →
          ∀ j, j < 8 → t.memByte (d.state + 8 + j) = BitVec.ofNat 8 ((w.done + 1) / 256 ^ j)))))

/-- R149 step 1, R150, R167, R181 to R184: MEASURE. STEP_END opens a boundary and takes the next collective number of its communicator, and its place
behind the collectives, once fewer than 32 (24 with a slice at fault) are in progress; LOAD_FIT begins; SAVE_FIT and SAVE_STATS write their image and are complete; all four wait while a boundary or a
LOAD_FIT is in progress, or while the tailor unit's grant is another queue's. STREAM_OPEN of an
active key is refused with ST_DUP_STREAM, of a free one completes; STREAM_CLOSE completes once no issued command names its stream.
R149 steps 2 to 8, R150 to R153: a boundary. With no measured conversion of its step in flight its records are merged and their reduction
begins, or, on a communicator that has lost a member or that JOB-FATAL has ended, ends with that reason; after the reduction, decisions are
applied and the step number advances, or, where the reduction failed or the records disagree, no entry changes and STEP_END is complete with
the reason.
The model's choices here: log 37 and 86. -/
def Obligations.MeasureCommands : Prop :=
  (∀ (s : State) (c q : Nat) (ws : Words) (x : Wide), s.tidy = true → s.passes c q ws x → x.opcode = 0xA →
    let qi := 8 * c + q
    let u := s.begun qi ws x
    let done := fun (st : Nat) (v t : State) => t = (v.complete qi x.cseq st).checkExhausted qi
    let opening := s.allWide.filter (fun y => y.2.opening none)
    let a := s.accepts qi ws x
    let round := a.tailorRound qi
    let v := round.2.begins qi x
    let unitRow := fun i => (x.op = 0 ∧ i = Instr.stepEnd c q ws) ∨ (x.op = 1 ∧ i = .loadFit c q ws) ∨ (x.op = 2 ∧ i = .saveFit c q ws) ∨
      (x.op = 3 ∧ i = .saveStats c q ws)
    (a.boundaryBusy = true → ∀ i, unitRow i → gives i s (fun t => t = a.checkExhausted qi)) ∧
    (a.boundaryBusy = false → (∀ k ∈ a.tailorAsks, k = qi) → (SMap.get {} (SMap.get ({} : Arbiter) s.arbiters (arbKey .tailor)).reqs qi).wait = 0 →
      round.1 = true ∧ round.2 = { a with arbiters := round.2.arbiters, tailor := { a.tailor with grant := round.2.tailor.grant } }) ∧
    (round.1 = false → ∀ i, unitRow i → gives i s (fun t => t = round.2.checkExhausted qi)) ∧
    (round.1 = true →
      let dead := (s.comm x.msComm).fatal = true ∨ (s.comm x.msComm).lost ≠ none
      let full := (if s.link.sliceFaults = [] then 32 else 24) ≤ (s.link.colls.filter (fun y => y.endedAs.isNone)).length
      (x.op = 0 → ¬dead → full → gives (.stepEnd c q ws) s (fun t => t = a.checkExhausted qi)) ∧
      (x.op = 0 → (dead ∨ ¬full) →
        let b : Boundary := { queue := qi, cseq := x.cseq, comm := x.msComm, step := s.tailor.step, k := (s.comm x.msComm).nextK }
        gives (.stepEnd c q ws) s (fun t => t.tailor = { s.tailor with boundary := some b, reduction := none, grant := t.tailor.grant } ∧
          t.link.comms = SMap.set {} s.link.comms x.msComm { s.comm x.msComm with nextK := ((s.comm x.msComm).nextK + 1) % 2 ^ 24 } ∧
          t.link.colls = s.link.colls ++ [v.boundaryColl b] ∧
          (∀ a, a < 2 ^ 63 → t.memByte a = s.memByte a))) ∧
      (x.op = 1 →
        let b : Boundary := { queue := qi, cseq := x.cseq, comm := 0, step := s.tailor.step, load := true }
        gives (.loadFit c q ws) s (fun t => t = (State.settleLoad { v with tailor := { v.tailor with boundary := some b } }).checkExhausted qi)) ∧
      (∀ i bs, ((x.op = 2 ∧ bs = v.fitImage ∧ i = .saveFit c q ws) ∨ (x.op = 3 ∧ bs = v.statsImage ∧ i = .saveStats c q ws)) →
        gives i s (fun t => done 0 ((v.writeBytes x.imgAddr bs).countBytes (some x.domain) false x.imgAddr bs.length) t ∧
          (∀ a, a < 2 ^ 63 → a < x.imgAddr ∨ x.imgAddr + bs.length ≤ a → t.memByte a = s.memByte a)))) ∧
    (x.op = 4 → (s.seedOf x.msK0 ≠ none ∨ ∃ y ∈ opening, y.2.msK0 = x.msK0) →
      gives (.streamOpen c q ws) s (fun t => t.registry = { s.registry with dupRejects := min (s.registry.dupRejects + 1) 255 } ∧
        (∀ a, a < 2 ^ 63 → t.memByte a = s.memByte a))) ∧
    (x.op = 4 → s.seedOf x.msK0 = none → (∀ y ∈ opening, y.2.msK0 ≠ x.msK0) →
      gives (.streamOpen c q ws) s (done (if 2048 ≤ s.registry.keys.length + opening.length then 2 else 0) u)) ∧
    (x.op = 5 →
      let ns := (s.allWide.filter (fun y => y.2.stage != .dispatched && !y.2.failedCheck && s.namesStream y.2 x.msK0)).map (fun y => (y.1, y.2.cseq))
      (ns = [] → gives (.streamClose c q ws) s (done 0 u)) ∧
      (ns ≠ [] → gives (.streamClose c q ws) s (fun t => t = (u.modWide qi x.cseq (fun w => { w with waits := ns })).checkExhausted qi)))) ∧
  (∀ (s : State) (b : Boundary), s.alive = true → s.tailor.boundary = some b → b.load = false → b.ended = false →
    let m := s.comm b.comm
    let merged := fun (v : State) => v.tailor.slots = [] ∧ v.tailor.boundary = some { b with merged := true } ∧ v.tailor.step = s.tailor.step ∧
      v.mem = s.mem ∧ v.queues = s.queues ∧ v.link = s.link
    (∀ y, b.merged = false → s.measuredInFlight b.step = false → m.fatal = false → m.lost = none → s.coll b.comm b.k = some y →
      gives .stepEndMerge s (fun t => ∃ v : State, t = v.beginColl { y with unbegun := false, startedAt := s.now } 0 ∧ merged v)) ∧
    (∀ y, b.merged = false → s.measuredInFlight b.step = false → (m.fatal = true ∨ m.lost ≠ none) → s.coll b.comm b.k = some y →
      gives .stepEndMerge s (fun t => ∃ v : State, t = v.endColl { y with unbegun := false } (if m.fatal then 5 else 1) ∧ merged v)) ∧
    (b.merged = false → s.measuredInFlight b.step = true → gives .stepEndMerge s (fun t => t = s)) ∧
    (∀ st, b.merged = true → s.tailor.reduction = some st → (st ≠ 0 ∨ s.statsDisagree = true) →
      let st' := if st = 0 then 2 else st
      gives .stepEndDecide s (fun t =>
        t.tailor = { s.tailor with boundary := some { b with ended := true }, reduction := none, diverged := false,
                                   lastResult := if st' = 1 then 1 else if st' = 2 then 2 else 3 } ∧
        t = State.complete { s with tailor := t.tailor } b.queue b.cseq st')) ∧
    (b.merged = true → s.tailor.reduction = some 0 → s.statsDisagree = false →
      gives .stepEndDecide s (fun t => t.tailor.step = (s.tailor.step + 1) % 2 ^ 64 ∧ t.tailor.bank = !s.tailor.bank ∧ t.tailor.table = [] ∧
        t.tailor.boundary = some { b with ended := true } ∧ t.tailor.reduction = none ∧ t.tailor.lastResult = 0 ∧ t.regs = s.regs ∧ t.tacks = s.tacks ∧
        (∀ a, a < 2 ^ 63 → t.memByte a = s.memByte a))))

/-- R238 to R240, R533, R534: CHALK is complete when the chalk unit takes it: START puts an enabled buffer with storage in RECORDING, and leaves
one without storage STOPPED with ST_CONTAINED; STOP leaves it STOPPED; MARK records and TRIGGER fires. FENCE is complete at once with nothing
earlier to wait for, and waits otherwise.
The model's choices here: log 51. -/
def Obligations.ChalkAndFenceCommands : Prop :=
  ∀ (s : State) (c q : Nat) (ws : Words) (x : Wide), s.tidy = true → s.passes c q ws x →
    let qi := 8 * c + q
    let u := s.begun qi ws x
    let b := fld x.n0 27 24
    let done := fun (v t : State) => t = (v.complete qi x.cseq 0).checkExhausted qi
    (x.opcode = 0xB →
      (x.op = 0 → gives (.chalkMark c q ws) s (done (u.chalkMark b (s.serving qi) x.domain (seqWord qi x.cseq) x.n1))) ∧
      (x.op = 1 → gives (.chalkTrigger c q ws) s (done (u.chalkTrigger b 0 0))) ∧
      (x.op = 2 → (s.buffer b).enabled = true → u.chalkPlaced (u.buffer b) = true →
        gives (.chalkStart c q ws) s (fun t => done (u.setBuffer b (u.buffer b).start) t ∧ (t.buffer b).state = .recording ∧
          (t.buffer b).next = 0 ∧ (t.buffer b).wrapped = false ∧ (t.buffer b).triggered = false)) ∧
      (x.op = 2 → (s.buffer b).enabled = true → u.chalkPlaced (u.buffer b) = false →
        gives (.chalkStart c q ws) s (fun t => t.errq.raised = u.errq.raised + 1)) ∧
      (x.op = 2 → (s.buffer b).enabled = false → gives (.chalkStart c q ws) s (done u)) ∧
      (x.op = 3 → gives (.chalkStop c q ws) s (fun t => done (u.modBuffer b (fun y => { y with state := .stopped })) t ∧
        (t.buffer b).state = .stopped))) ∧
    (x.opcode = 0xC →
      (∀ i, (x.op = 0 ∧ i = .fenceQueue c q ws) ∨ (x.op = 1 ∧ i = .fenceCore c q ws) →
        (x.waits = [] → gives i s (done u)) ∧
        (x.waits ≠ [] → gives i s (fun t => t = u.checkExhausted qi))) ∧
      (x.op = 0 → (x.waits = [] ↔ (s.queue qi).inflight.filter (fun y => decide (y.cseq < x.cseq)) = [])))

/-! ### Issue, retirement, submissions, boundaries, arbiters -/

/-- R206, R151: a command that waited is offered to its unit again, or, held by a boundary, resolved and checked once no boundary is in progress. An
MM, QUANT or PRESS so issued takes its place in the tile queue; one whose stream or norm slot has gone since its check fails it (R184, R191).
R206, R249, R251, R277: the head of a queue retires when it is complete: its number and status become the queue's last, its tack is incremented,
a STREAM_OPEN's key becomes active and a STREAM_CLOSE's leaves; with trap_on_status a status other than ST_OK traps instead, and while the
host's ring has no room for a record it waits.
The model's choices here: log 22 and 24. -/
def Obligations.IssueAndRetirement : Prop :=
  (∀ (s : State) (c q : Nat) (w : Wide), c < 24 → q < 8 →
    let qi := 8 * c + q
    let core := s.serving qi
    s.alive = true → (s.queue qi).stopped = false → (s.core core).fence = .inService → (s.queue qi).unissued = some w →
    (w.unchecked = false → gives (.commandIssue c q) s (fun t => t = s.tryIssue qi w)) ∧
    (w.unchecked = true → s.adaptHeld = false → gives (.commandIssue c q) s (fun t => t = s.checkAndIssue qi w)) ∧
    (w.unchecked = true → s.adaptHeld = true → gives (.commandIssue c q) s (fun t => t = s)) ∧
    (w.unchecked = false → s.lapsed w = true → gives (.commandIssue c q) s (fun t => t = s.failCheck qi w 2)) ∧
    (s.tidy = true → w.unchecked = false → s.lapsed w = false → (w.opcode = 1 ∨ w.opcode = 4 ∨ w.opcode = 5) → w.tiles ≠ 0 → (s.core core).tileQ.length < 32 →
      gives (.commandIssue c q) s (fun t => (t.core core).tileQ = (s.core core).tileQ ++ [(qi, w.cseq)] ∧
        (∀ k, k ≠ core → t.core k = s.core k) ∧ (t.queue qi).cseq = (s.queue qi).cseq ∧ (t.queue qi).pc = (s.queue qi).pc ∧
        (∀ a, a < 2 ^ 63 → t.memByte a = s.memByte a)))) ∧
  (∀ (s : State) (c q : Nat) (w : Wide) (rest : List Wide) (x : Submission), c < 24 → q < 8 → s.tidy = true → s.alive = true →
    (∀ b, s.tailor.boundary = some b → b.load = false) →
    let qi := 8 * c + q
    let k := s.queue qi
    k.inflight = w :: rest → (∀ u ∈ rest, u.cseq ≠ w.cseq) → k.sub = some x → w.stage = .complete → w.held = none → k.stopped = false → k.trap = none →
    w.cseq ≤ k.cseq →
    let row := Instr.commandRetire c q
    let trapping := w.status ≠ 0 ∧ k.trapOnStatus = true ∧ w.skipped = false
    let room := s.recRoom qi = true
    (trapping → gives row s (fun t => t = s.trapWide qi w.cseq 6 w.status ∧ (t.queue qi).rseq = k.rseq ∧
      (t.tack w.retTack).value = (s.tack w.retTack).value)) ∧
    (¬trapping → ¬room → gives row s (fun t => t = s)) ∧
    (¬trapping → room →
      gives row s (fun t => (t.queue qi).rseq = w.cseq ∧ (t.queue qi).lastStatus = w.status ∧ (t.queue qi).lastOutcome = w.outcome ∧
        (t.queue qi).cseq = k.cseq ∧ (t.queue qi).pc = k.pc ∧ (t.queue qi).g = k.g ∧ (t.queue qi).a = k.a ∧
        (t.queue qi).inflight.map Wide.cseq = rest.map Wide.cseq ∧
        (w.opcode ≠ 7 → w.retEn = true → (t.tack w.retTack).value = ((s.tack w.retTack).value + 1) % 2 ^ 32) ∧
        (w.opcode ≠ 7 → ∀ n, (w.retEn = false ∨ n ≠ w.retTack) → t.tack n = s.tack n) ∧
        (w.opcode = 0xA → w.op = 4 → w.status = 0 → t.registry.keys = s.registry.keys ++ [(w.msK0, w.msSeed)]) ∧
        (w.opcode = 0xA → w.op = 5 → w.status = 0 → t.registry.keys = s.registry.keys.filter (fun e => e.1 != w.msK0)) ∧
        ((w.opcode ≠ 0xA ∨ w.status ≠ 0) → t.registry = s.registry) ∧
        (∀ a, a < 2 ^ 63 → t.memByte a = s.memByte a))))

/-- R244 to R246, R250: an idle core queue takes the next submission of the host queues that feed it: the first after the one last served. It reads
the entry at the head of that queue's ring, in host memory. Its pc is the stream's first word, its registers and return stack are clear, and
the host queue's head moves on.
The model's choices here: log 18 and 86. -/
def Obligations.SubmissionStarts : Prop :=
  ∀ (s : State) (c q n : Nat) (e : SubEntry), c < 24 → q < 8 → s.tidy = true → s.alive = true →
    let qi := 8 * c + q
    let k := s.queue qi
    let first := e.stream % 2 ^ 64 / 8 * 8
    let words := e.words % 2 ^ 32
    (s.core (s.serving qi)).fence = .inService → k.sub = none → k.stopped = false → k.trap = none → k.recs = [] → words ≠ 0 →
    first + 8 * words < 2 ^ 64 →
    (s.nextHostq qi = some n ↔ ((s.hostq n).serves qi = true ∧ n < 128 ∧
      ∀ m, m < 128 → (s.hostq m).serves qi = true → (if k.lastHq ≤ n then n else n + 128) ≤ (if k.lastHq ≤ m then m else m + 128))) ∧
    (s.nextHostq qi = some n →
      let h := s.hostq n
      let a := 2 ^ 63 + 2 ^ 62 * portNum (portOf (n / 64)) + h.sring + 32 * (h.shead % 2 ^ h.sizeLog2)
      gives (.submissionStart c q e) s (fun t =>
        t.queue qi = { k with g := [], a := [], rstack := [], replayTo := 0, pc := BitVec.ofNat 64 first, sub := some {
          port := portOf (n / 64), hq := n % 64, userTag := e.userTag % 2 ^ 32, recAll := bit e.flags 0, irq := bit e.flags 1,
          onHost := bit e.stream 0, base := first, words := words } } ∧
        (∀ j, j ≠ qi → t.queue j = s.queue j) ∧ (t.hostq n).shead = (h.shead + 1) % 65536 ∧
        (∀ m, m ≠ n → t.hostq m = s.hostq m) ∧ t = { s with queues := t.queues, hostqs := t.hostqs, gctr := t.gctr, mem := t.mem } ∧
        leAt (t.rawBytes a 32) 0 8 = e.stream % 2 ^ 64 ∧ leAt (t.rawBytes a 32) 8 4 = words ∧ leAt (t.rawBytes a 32) 12 4 = e.userTag % 2 ^ 32 ∧
        leAt (t.rawBytes a 32) 16 4 = e.flags % 2 ^ 32 ∧ (∀ b, b < a ∨ a + 32 ≤ b → t.memByte b = s.memByte b))) ∧
    (s.nextHostq qi = none → gives (.submissionStart c q e) s (fun t => t = s))

/-- R319 to R322, R326, R364, R369, R370: a decision point of an arbiter. The owner that asks alone is granted in place; else, of the candidates of the
highest priority, the first after the last winner is granted, and the others count a loss and wait 1, 2, 4, up to 256 rounds; waits run down by
one. A masked requester's losses and wait are cleared, and its request. What a grant does: at a hub each block of a burst, of eight at
most, takes a token and waits to be carried out, over the next live UCIe module; at a fabric port the first flit of the virtual channel
leaves, of VC3 the CTRL flits before the messages; elsewhere no more than the grant.
The model's choices here: log 66. -/
def Obligations.ArbiterRounds : Prop :=
  ∀ (s : State) (p : ArbPort) (req : List Nat), s.tidy = true → s.arbRuns p = true → arbOk p = true → req ≠ [] →
    (∀ r ∈ req, r < arbWidth p ∧ s.arbAsks p r = true) →
    let x := SMap.get ({} : Arbiter) s.arbiters (arbKey p)
    let masked := s.arbMasked p
    let at0 := fun r => if masked r then ({} : Requester) else SMap.get {} x.reqs r
    let cand := fun r => r ∈ req ∧ masked r = false ∧ (at0 r).wait = 0
    let turnOf := fun r => if x.lastWinner < r then r else r + 256
    let now := fun (t : State) => SMap.get ({} : Arbiter) t.arbiters (arbKey p)
    let parked := (∀ r ∈ req, masked r = false → r = x.owner) ∧ cand x.owner
    let row := Instr.arbiterGrant p req
    let granted := fun (w : Nat) (t : State) => match p with
      | .hubIngress h =>
        let y := s.hub h
        let n := min (min (burstMost p) (req.filter (· == w)).length) (64 - SMap.get 0 y.tokens w)
        t = { s with arbiters := t.arbiters, hubs := t.hubs } ∧ (∀ k, k ≠ h → t.hub k = s.hub k) ∧
          t.hub h = { y with tokens := SMap.set 0 y.tokens w (SMap.get 0 y.tokens w + n), requests := y.requests ++ List.replicate n w,
                             ucieNext := nextUcie y.ucieLive y.ucieNext }
      | .egress k =>
        let y := s.fport k
        t = { s with arbiters := t.arbiters, link := t.link, gctr := t.gctr } ∧ (t.fport k).txSeq = (y.txSeq + 1) % 4096 ∧
          (∀ j, j ≠ k → t.fport j = s.fport j) ∧
          ∃ hd pl, t.link.sentFlits = s.link.sentFlits ++ [(k, Flit.mk hd (pad240 pl) (flitCrc hd (pad240 pl) y.txSeq))] ∧
            (t.fport k).replay = y.replay ++ [Kept.mk y.txSeq hd (pad240 pl)] ∧
            (∀ c cs, w = 3 → y.ctrlq = c :: cs → fld hd 63 59 = 11 ∧ pl = y.ctrlPayload s.now c ∧ (t.fport k).ctrlq = cs ∧ (t.fport k).outq = y.outq) ∧
            (∀ f fs, (w ≠ 3 ∨ y.ctrlq = []) → SMap.get [] y.outq w = f :: fs → f.header < 2 ^ 37 →
              fld hd 63 59 = 4 + w ∧ pl = f.payload ∧ (t.fport k).outq = SMap.set [] y.outq w fs ∧ (t.fport k).ctrlq = y.ctrlq)
      | _ => t = { s with arbiters := t.arbiters }
    (parked → gives row s (fun t => granted x.owner t ∧ (now t).granted = x.owner + 1 ∧ (now t).owner = x.owner ∧
      (now t).lastWinner = x.lastWinner ∧ ∀ r, SMap.get {} (now t).reqs r = at0 r)) ∧
    (¬parked → (∀ r, ¬cand r) → gives row s (fun t => t = { s with arbiters := t.arbiters } ∧ (now t).granted = x.granted ∧
      (now t).owner = x.owner ∧ ∀ r, SMap.get {} (now t).reqs r = { at0 r with wait := (at0 r).wait - 1 })) ∧
    (∀ w, ¬parked → cand w → (∀ r, cand r → s.arbPrio p r ≤ s.arbPrio p w) →
      (∀ r, cand r → s.arbPrio p r = s.arbPrio p w → turnOf w ≤ turnOf r) →
      gives row s (fun t => granted w t ∧ (now t).granted = w + 1 ∧ (now t).owner = w ∧ (now t).lastWinner = w ∧
        SMap.get {} (now t).reqs w = {} ∧
        (∀ r, r ≠ w → cand r → SMap.get {} (now t).reqs r =
          { losses := min ((at0 r).losses + 1) 9, wait := min (2 ^ (min ((at0 r).losses + 1) 9 - 1)) 256 }) ∧
        (∀ r, ¬cand r → SMap.get {} (now t).reqs r = { at0 r with wait := (at0 r).wait - 1 })))

/-! ### The memory system (chapter 8) -/

/-- R302, R305 to R310, R319: a hub's access of a unit, which waits while its channel is held and takes the oldest granted request off with its
token. One read without errors leaves the memory; a correctable one is counted, logged as CORRECTED and leaves the memory; an uncorrectable
one is counted, logged as CONTAINED, and its unit reads as poison; a write of a whole unit stores its bytes and clears the unit's
poison. A scrub read without errors moves the scrubber on by one page.
The model's choices here: log 5, 36 and 63. -/
def Obligations.HubUnits : Prop :=
  ∀ (s : State) (h off : Nat), s.tidy = true → h < 8 → s.hubWorks h = true →
    let ch := (s.dramOf h off).1
    let page := (s.dramOf h off).2.1
    let held := s.channel ch
    let now := if held.heldFrom ≤ s.now then max s.now held.heldUntil else s.now
    let z := State.tokenBack { s with now := now } h
    (z = { s with now := now, hubs := z.hubs } ∧ (∀ k, k ≠ h → z.hub k = s.hub k) ∧ ((s.hub h).requests = [] → z.hub h = s.hub h) ∧
      ∀ r rs, (s.hub h).requests = r :: rs → z.hub h = { s.hub h with
        requests := rs, tokens := SMap.set 0 (s.hub h).tokens r (SMap.get 0 (s.hub h).tokens r - 1) }) ∧
    (∀ a, s.moduleAddr h off = some a → (s.channel ch).fenced = false →
      let unit := a / 256 * 256
      (gives (.hubChannelAccess h off none []) s (fun t => t = { z with gctr := t.gctr })) ∧
      (∀ err i v left, decodeErrors err = (.corrected i v, left) → (∀ x ∈ left, x = 0) →
        gives (.hubChannelAccess h off none err) s (fun t => t.now = now ∧ (t.hub h).corrected = min ((s.hub h).corrected + 1) (2 ^ 32 - 1) ∧
          s.errq.raised + 1 ≤ t.errq.raised ∧ t.poison = s.poison ∧ (∀ a, a < 2 ^ 63 → t.memByte a = s.memByte a) ∧
          ((SMap.get {} (s.channel ch).pages page).lastCorrected = none →
            t.errorless = State.errorless { z with hubs := t.hubs, channels := t.channels, gctr := t.gctr } ∧
            t.errq.raised = s.errq.raised + 1))) ∧
      (∀ err left, decodeErrors err = (.uncorrectable, left) →
        gives (.hubChannelAccess h off none err) s (fun t => t.now = now ∧ s.errq.raised + 1 ≤ t.errq.raised ∧ unit / 256 ∈ t.poison ∧
          (∀ u ∈ t.poison, u ∈ s.poison ∨ u = unit / 256) ∧ t.poisoned unit 256 = true ∧
          (t.hub h).uncorrectable = min ((s.hub h).uncorrectable + 1) (2 ^ 32 - 1) ∧
          (t.channel ch).pages = SMap.set {} (s.channel ch).pages page { SMap.get {} (s.channel ch).pages page with uncorrectableAt := some now } ∧
          (∀ a, a < 2 ^ 63 → t.memByte a = s.memByte a))) ∧
      (∀ bs err, a % 256 = 0 → bs.length = 256 →
        gives (.hubChannelAccess h off (some bs) err) s (fun t => t = { z with mem := t.mem, poison := t.poison, covered := t.covered, gctr := t.gctr } ∧
          (∀ j, j < 256 → s.unreachable (a + j) = false → t.memByte (a + j) = bs.getD j 0) ∧ a / 256 ∉ t.poison ∧
          (∀ x, x < a ∨ a + 256 ≤ x → t.memByte x = s.memByte x)))) ∧
    (∀ k p, k < 48 → bit (s.reg (hubReg h 0x28)) 31 = true → s.scrubNext h = (48 * h + k, p) →
      let n := (s.liveList h).length * s.rawPages
      gives (.scrubRead h k p []) s (fun t => t = { s with hubs := t.hubs, gctr := t.gctr } ∧ (∀ j, j ≠ h → t.hub j = s.hub j) ∧
        t.hub h = (if n ≤ (s.hub h).scrubPos + 1 then { s.hub h with scrubPos := 0, scrubPasses := ((s.hub h).scrubPasses + 1) % 256 }
          else { s.hub h with scrubPos := (s.hub h).scrubPos + 1 })))

/-- R303, R305, R310, R512: the upkeep of a hub, with no retune while its controller restarts: a channel whose delay has moved by more than 3% of a unit interval is retuned and held for at most
1.5 µs for each pair, others stay; a retune that fails twice in a row is logged; MR4 sets the refresh rate every 32 ms, and ZQ
calibration is latched every 32 ms. R318, R474, R480: the change of a core's SRAM domain that a transaction asked for waits until no queue of the
core has an unretired command; then the core store and the bobbins read zero, the rest of memory unchanged; the core is scrubbing until the
fill is complete.
The model's choices here: log 5, 63, 65 and 76. -/
def Obligations.HubUpkeepAndSramDomains : Prop :=
  (∀ (s : State) (h : Nat), s.tidy = true → h < 8 → (s.hub h).lost = false →
    (s.unitRestarts 2 30000000 h = true → ∀ drift, gives (.dqRetune h drift) s (fun t => t = s)) ∧
    (s.hubWorks h = true → ∀ k d, k < 48 →
      let ch := 48 * h + k
      let now := max s.now ((s.hub h).lastRetune + 256000000)
      let c := s.channel ch
      let moved := 30 < (d - c.delay).natAbs
      (¬moved → ∀ ok, gives (.dqRetune h [(k, d, ok)]) s (fun t => t = { s with now := now, hubs := t.hubs } ∧
        t.hub h = { s.hub h with lastRetune := now })) ∧
      (moved → c.fenced = false → gives (.dqRetune h [(k, d, true)]) s (fun t =>
        t.channel ch = { c with delay := d, heldFrom := now, heldUntil := now + 1500, failedRetunes := 0 } ∧ (∀ j, j ≠ ch → t.channel j = s.channel j) ∧
        (t.hub h).lastRetune = now ∧ t = { s with now := now, hubs := t.hubs, channels := t.channels, sec := t.sec })) ∧
      (moved → c.fenced = false → 1 ≤ c.failedRetunes → gives (.dqRetune h [(k, d, false)]) s (fun t =>
        t.channel ch = { c with heldFrom := now, heldUntil := now + 1500, failedRetunes := c.failedRetunes + 1 } ∧ t.errq.raised = s.errq.raised + 1))) ∧
    (s.ready = true →
      (∀ rate, gives (.mr4Read h rate) s (fun t => t = { s with now := t.now, hubs := t.hubs } ∧
        t.now = max s.now ((s.hub h).lastMr4 + 32000000) ∧ t.hub h = { s.hub h with refreshRate := rate % 32, lastMr4 := t.now })) ∧
      (∀ k, k < 48 → gives (.zqCalibrationLatch h k) s (fun t => t = { s with now := t.now, channels := t.channels } ∧
        t.now = max s.now ((s.channel (48 * h + k)).zqAt + 32000000) ∧
        t.channel (48 * h + k) = { s.channel (48 * h + k) with zqAt := t.now })))) ∧
  (∀ (s : State) (c : Nat), s.tidy = true → c < 24 → s.alive = true →
    let k := s.core c
    let inside := fun (a : Nat) => (0x0D0000000000 + 0x2000000 * c ≤ a ∧ a < 0x0D0000000000 + 0x2000000 * (c + 1)) ∨
      ∃ e, e < 4 ∧ 0x0D1000000000 + 0x400000 * (4 * c + e) ≤ a ∧ a < 0x0D1000000000 + 0x400000 * (4 * c + e) + 0x200000
    (∀ d, k.sramPending = some d → s.coreQuiet c = true →
      gives (.sramDomainChange c) s (fun t => t = { s with cores := t.cores, mem := t.mem, poison := t.poison, covered := t.covered } ∧
        t.core c = { k with sramDomain := d, sramPending := none, scrubBusy := true, blocksScrub := 512 - k.blocksOut } ∧
        (∀ j, j ≠ c → t.core j = s.core j) ∧ (∀ a, inside a → t.memByte a = 0) ∧ (∀ a, ¬inside a → t.memByte a = s.memByte a))) ∧
    (s.coreQuiet c = false → gives (.sramDomainChange c) s (fun t => t = s)) ∧
    (k.scrubBusy = true → gives (.sramZeroFillComplete c) s (fun t => t = { s with cores := t.cores } ∧
      t.core c = { k with scrubBusy := false, blocksScrub := 0 })) ∧
    (k.scrubBusy = false → k.fence = .scrubbing → gives (.sramZeroFillComplete c) s (fun t => t = { s with cores := t.cores } ∧
      t.core c = { k with fence := .testing, blocksScrub := 0 })))

/-- R323 to R327, R459: a block that passes its check is accepted in sequence, kept by its sender until acknowledged; a positive acknowledgement that it carries
frees what it covers of what the other way had kept, a negative one nothing; a sender whose replay buffer is full sends none; one that fails its check is dropped, counted and logged,
and what follows it in flight is dropped; an acknowledgement sent alone frees the blocks accepted; a UCIe module whose resends are
exhausted retrains.
The model's choices here: log 64. -/
def Obligations.BlockStreams : Prop :=
  ∀ s : State, s.tidy = true → s.alive = true →
    (∀ b blk, streamExists b = true →
      let x := s.blockLink b
      (blockPasses blk x.expected = true → s.replayRoom b = true → blk.ack = none →
        gives (.blockReceive b blk) s (fun t => t = { s with blockLinks := t.blockLinks } ∧
          t.blockLink b = { x with expected := (x.expected + 1) % 65536, nextSeq := (x.expected + 1) % 65536, replay := x.replay ++ [(x.expected, blk)],
                                   resends := 0, ackOwed := true, nackSent := false, ahead := 0 } ∧
          (∀ k, k ≠ blockStreamKey b → SMap.get {} t.blockLinks k = SMap.get ({} : BlockLink) s.blockLinks k))) ∧
      (∀ ok k, blockPasses blk x.expected = true → s.replayRoom b = true → blk.ack = some (ok, k) →
        let y := s.blockLink (reverseOf b)
        let left := (y.nextSeq + 65536 - (k + 1)) % 65536
        gives (.blockReceive b blk) s (fun t => t = { s with blockLinks := t.blockLinks } ∧
          t.blockLink (reverseOf b) = (if ok then { y with replay := y.replay.drop (y.replay.length - left) } else y) ∧
          (t.blockLink b).expected = (x.expected + 1) % 65536)) ∧
      (blockPasses blk x.expected = true → s.replayRoom b = false → gives (.blockReceive b blk) s (fun t => t = s)) ∧
      (blockPasses blk x.expected = false → x.nackSent = true → x.inFlight blk = true →
        gives (.blockReceive b blk) s (fun t => t = s.setBlockLink b { x with ahead := max x.ahead ((laterBy blk x.expected).getD 0) })) ∧
      (blockPasses blk x.expected = false → (x.nackSent = false ∨ x.inFlight blk = false) →
        gives (.blockReceive b blk) s (fun t => t.blockLink b =
            { x with resends := x.resends + 1, nackSent := true, ahead := (laterBy blk x.expected).getD 0 } ∧
          t.errorless = State.errorless { s with blockLinks := t.blockLinks, hubs := t.hubs } ∧
          (x.resends < 4 → t.errq.raised = s.errq.raised + 1)))) ∧
    (∀ b, streamExists b = true → (s.blockLink b).ackOwed = true →
      gives (.blockAckTimer b) s (fun t => t = { s with blockLinks := t.blockLinks } ∧
        t.blockLink b = { s.blockLink b with ackOwed := false, replay := [] })) ∧
    (∀ h m ok, h < 8 → m < 6 → bit (s.hub h).ucieLive m = true →
      (4 < (s.blockLink (.ucie h m true)).resends ∨ 4 < (s.blockLink (.ucie h m false)).resends) →
      gives (.ucieRetrain h m ok) s (fun t => (t.blockLink (.ucie h m true)).resends = 0 ∧ (t.blockLink (.ucie h m false)).resends = 0 ∧
        (t.hub h).retrains = min ((s.hub h).retrains + 1) 255 ∧ t.errq.raised = s.errq.raised + 1 ∧
        t.errorless = State.errorless { s with blockLinks := t.blockLinks, hubs := t.hubs }))

/-! ### The fabric link and transport (chapter 10) -/

/-- R356 to R359, R365, R392, R512: a port's life, where link control of its slice does not restart: its training ends well or not and is tried
again after 1 s; it sends INIT while it trains and comes UP once both ends are ready; a received INIT is taken, fails the port with cause 6, or fences a duplicate; a lane fault, a RECOVERY that does not
end, or an INIT on an UP port takes it DOWN, and its third retrain within an hour leaves it FENCED.
The model's choices here: log 5, 43 and 76. -/
def Obligations.PortLifecycle : Prop :=
  ∀ (s : State) (p : Nat), s.tidy = true → p < 48 → s.linkLive = true →
    let x := s.fport p
    let only := fun (t : State) (y : FabPort) => t = s.setFport p y
    let lastFlit := fun (t : State) (header : Nat) (payload : List Byte) (seq : Nat) =>
      t.link.sentFlits = s.link.sentFlits ++ [(p, Flit.mk header payload (flitCrc header payload seq))]
    (s.linkRestarts p = true → ∀ ok pol, ∀ i ∈ [Instr.portTraining p ok pol, .trainingRetryTimer p, .initSendTimer p, .recoveryTimeout p],
      gives i s (fun t => t = s)) ∧
    (s.linkRestarts p = false → bit (s.reg (fportReg p 0)) 31 = true → ((x.state = .down ∧ x.retryAt ≤ s.now) ∨ (x.state = .training ∧ x.step = 0)) → ∀ pol,
      gives (.portTraining p true pol) s (fun t => only t { x with state := .training, step := 4, polarity := pol % 16 }) ∧
      gives (.portTraining p false pol) s (fun t => only t { x with state := .down, step := 0, cause := 2, retryAt := s.now + 1000000000 })) ∧
    (s.linkRestarts p = false → bit (s.reg (fportReg p 0)) 31 = true → x.state = .down → x.retryAt ≠ 0 →
      gives (.trainingRetryTimer p) s (fun t => t.now = max s.now x.retryAt ∧ t.fport p = { x with state := .training, step := 0, retryAt := 0 } ∧
        t = { s with now := t.now, link := t.link })) ∧
    (s.linkRestarts p = false → x.state = .training → 4 ≤ x.step →
      gives (.initSendTimer p) s (fun t => lastFlit t (4 * 2 ^ 61) (pad240 (s.initPayload p)) 0 ∧ t = { s with link := t.link } ∧
        t.fport p = FabPort.tryUp { x with sentReady := x.sentReady || x.ownReady } ∧
        (x.partnerReady = true → (x.sentReady = true ∨ x.ownReady = true) → (t.fport p).state = .up ∧ (t.fport p).txSeq = 0 ∧ (t.fport p).rxSeq = 0))) ∧
    (∀ f : Flit, f.kind = 4 → f.passes 0 = true → x.state = .training → 4 ≤ x.step →
      let y := { x with
        partnerSwitch := leAt f.payload 1 1 == 1, partnerId := leAt f.payload 2 2 % 2 ^ 14,
        depths := (List.range 4).map (fun v => leAt f.payload (8 + 2 * v) 2), replayDepth := leAt f.payload 16 2 }
      (s.initDuplicate f.payload = true →
        gives (.init p f) s (fun t => (t.fport p).state = .fenced ∧ (t.fport p).duplicate = true ∧ t.errq.raised = s.errq.raised + 1)) ∧
      (s.initDuplicate f.payload = false → s.initOk f.payload = true →
        gives (.init p f) s (fun t => only t (FabPort.tryUp { y with step := 5, ownReady := true, partnerReady := bit (leAt f.payload 7 1) 0 }))) ∧
      (s.initDuplicate f.payload = false → s.initOk f.payload = false →
        gives (.init p f) s (fun t => only t (y.dropped .down 6 s.now)))) ∧
    (let again := fun (cause : Nat) (t : State) (now : Nat) =>
      let times := x.retrainTimes.filter (fun e => decide (now ≤ e + 3600000000000)) ++ [now]
      (t.fport p).cause = cause ∧ (t.fport p).state = (if 3 ≤ times.length then .fenced else .down) ∧ (t.fport p).retrainTimes = times ∧
        (t.fport p).replay = [] ∧ (t.fport p).inq = []
     (∀ f : Flit, f.kind = 4 → f.passes 0 = true → x.linked = true → gives (.init p f) s (fun t => again 6 t s.now)) ∧
     (s.linkRestarts p = false → x.state = .recovery → gives (.recoveryTimeout p) s (fun t => again 3 t (max s.now (x.since + 50000)) ∧ s.errq.raised + 1 ≤ t.errq.raised))) ∧
    ((x.linked = true ∨ x.state = .training) →
      gives (.lossOfSignal p) s (fun t => (t.fport p).state = .down ∧ (t.fport p).cause = 1 ∧ (t.fport p).since = s.now ∧
        (∀ k, k ≠ p → { t.fport k with outq := [] } = { s.fport k with outq := [] }) ∧ ((x.partnerSwitch = true ∨ x.linked = false) → only t (x.dropped .down 1 s.now))))

/-- R361 to R369, R395, R398: what a flit received on an UP port does. IDLE gives its acknowledgement; HOLD puts the port in HELD; a sequenced flit with
the next expected sequence is accepted, with its credits: a message's last flit makes it wait to be served, CREDIT, AUDIT, TIME_REQ and
TIME_RESP free their buffer and act; one that fails its check changes no more than the port's count, and is nacked once.
The model's choices here: log 42, 44, 45 and 48. -/
def Obligations.FlitReception : Prop :=
  ∀ (s : State) (p : Nat) (f : Flit), s.tidy = true → p < 48 → s.linkLive = true → (s.fport p).state = .up →
    let x := s.fport p
    let y := FabPort.takeCredits { x.setBook f.vc { x.book f.vc with occ := (x.book f.vc).occ + 1 } with
      rxSeq := (x.rxSeq + 1) % 4096, nackOpen := false, unacked := x.unacked + 1 } f
    let only := fun (t : State) (z : FabPort) => t = { s with link := t.link, gctr := t.gctr } ∧ t.fport p = z ∧ ∀ k, k ≠ p → t.fport k = s.fport k
    let plain := f.passes x.rxSeq = true ∧ f.ackValid = false ∧ x.unacked + 1 < 64
    (f.kind = 0 → f.passes 0 = true → f.ackValid = true → f.nack = false →
      gives (.idle p f) s (fun t => t = s.setFport p { x with
        replay := x.replay.filter (fun k => decide (2048 ≤ (f.ackSeq + 4096 - k.seq) % 4096)) })) ∧
    (f.kind = 0 → f.passes 0 = false → gives (.idle p f) s (fun t => t = s)) ∧
    (f.kind = 0 → f.passes 0 = true → f.ackValid = true → f.nack = true →
      gives (.idle p f) s (fun t => (t.fport p).replays = min (x.replays + 1) (2 ^ 32 - 1) ∧ (t.fport p).nackedSeq = f.ackSeq ∧
        s.errq.raised + 1 ≤ t.errq.raised ∧ t.queues = s.queues)) ∧
    (f.kind = 3 → f.passes 0 = true → f.ackValid = false →
      gives (.hold p f) s (fun t => t = s.setFport p { x with state := .held, since := s.now, holds := min (x.holds + 1) 255 })) ∧
    (f.kind = 1 → f.passes x.rxSeq = false →
      gives (.data p f) s (fun t => t.fport p = { x with crcFail := min (x.crcFail + 1) 65535, nackOpen := true } ∧
        t.errorless = State.errorless { s with link := t.link } ∧ t.errq.raised = (if x.nackOpen then s.errq.raised else s.errq.raised + 1))) ∧
    (f.kind = 1 → plain → f.isFirst = true → f.isLast = true → s.power.state = .active →
      let m := Msg.ofWire f.payload
      (1 ≤ m.mkind ∧ m.mkind ≤ 0xE → gives (.data p f) s (fun t => only t { y with
        assembling := SMap.set [] y.assembling f.vc [], inq := y.inq ++ [(f.vc, 1, m)] })) ∧
      (m.mkind = 0 ∨ 0xE < m.mkind → gives (.data p f) s (fun t => t.errq.raised = s.errq.raised + 1 ∧ (t.fport p).inq = x.inq ∧
        (t.fport p).rxSeq = (x.rxSeq + 1) % 4096))) ∧
    (f.kind = 1 → plain → f.isLast = false →
      gives (.data p f) s (fun t => only t { y with
        assembling := SMap.set [] y.assembling f.vc ((if f.isFirst then [] else SMap.get [] x.assembling f.vc) ++ f.payload) })) ∧
    (f.kind = 2 → plain →
      (leAt f.payload 0 1 = 1 → gives (.credit p f) s (fun t => only t (y.freeBuffers f.vc 1))) ∧
      (leAt f.payload 0 1 = 2 →
        let sums := (List.range 4).map (fun v => (y.auditSum f.payload v, rxDepth v))
        ((∀ e ∈ sums, e.1 = e.2) → gives (.audit p f) s (fun t => only t (y.freeBuffers f.vc 1) ∧ t.link.audits = (s.link.audits + 1) % 2 ^ 32 ∧
          t.link.deficits = s.link.deficits ∧ t.link.surpluses = s.link.surpluses)) ∧
        ((∃ e ∈ sums, e.2 < e.1) → gives (.audit p f) s (fun t => t.link.surpluses = min (s.link.surpluses + 1) 65535 ∧ (t.fport p).cause = 4 ∧
          ((t.fport p).state = .down ∨ (t.fport p).state = .fenced) ∧ s.errq.raised + 1 ≤ t.errq.raised)) ∧
        ((∀ e ∈ sums, e.1 ≤ e.2) → (∃ e ∈ sums, e.1 < e.2) → gives (.audit p f) s (fun t => t.link.deficits = min (s.link.deficits + 1) 65535 ∧
          (t.fport p).state = .up ∧ s.errq.raised + 1 ≤ t.errq.raised ∧
          (t.fport p).auditFixes = min (x.auditFixes + (sums.map (fun e => e.2 - e.1)).sum) 255 ∧ x.ctrlq.length < (t.fport p).ctrlq.length))) ∧
      (leAt f.payload 0 1 = 3 → gives (.timeReq p f) s (fun t => only t { y.freeBuffers f.vc 1 with
        ctrlq := x.ctrlq ++ [.timeResp (leAt f.payload 1 8) s.now] })) ∧
      (leAt f.payload 0 1 = 4 →
        let t1 : Int := leAt f.payload 1 8
        let t2 : Int := leAt f.payload 9 8
        let t3 : Int := leAt f.payload 17 8
        let corr := sext 64 (leAt f.payload 25 8)
        gives (.timeResp p f) s (fun t => (t.fport p).delay = some (((s.now : Int) - t1 - (t3 - t2)) * 65536 - corr) ∧
          (t.fport p).rxSeq = (x.rxSeq + 1) % 4096 ∧ (∀ a, a < 2 ^ 63 → t.memByte a = s.memByte a) ∧
          (s.isGm = true → t.now = s.now ∧ t.link.time = s.link.time))))

/-- R364 to R370, R375, R397 to R399: the link's timers: a nack is repeated while one is open, and an acknowledgement owed is sent alone, in RECOVERY too;
CREDIT flits for freed buffers, AUDIT and TIME_REQ ask for VC3 of an UP port; a grandmaster announces itself on every UP port, unkept to a
switch, and to a module on the management controller's stream.
The model's choices here: log 44, 45 and 84. -/
def Obligations.LinkTimers : Prop :=
  ∀ (s : State) (p : Nat), s.tidy = true → p < 48 → s.linkLive = true →
    let x := s.fport p
    let sends := fun (t : State) (header : Nat) => t.link.sentFlits = s.link.sentFlits ++ [(p, Flit.mk header (pad240 []) (flitCrc header (pad240 []) 0))]
    let asks := fun (c : Ctrl) (t : State) => t = s.setFport p { x with ctrlq := x.ctrlq ++ [c] }
    ((x.state = .up ∨ x.state = .recovery) → x.nackOpen = true → x.rxSeq < 4096 →
      gives (.nackRepeatTimer p) s (fun t => t = { s with link := t.link } ∧ sends t (3 * 2 ^ 57 + x.rxSeq * 2 ^ 45))) ∧
    ((x.state = .up ∨ x.state = .recovery) → x.unacked ≠ 0 →
      gives (.ackTimer p) s (fun t => t = { s with link := t.link } ∧ t.fport p = { x with unacked := 0 } ∧
        sends t (2 ^ 58 + (x.rxSeq + 4095) % 4096 * 2 ^ 45))) ∧
    (∀ v n, x.state = .up → x.owedVc = some (v, n) →
      (.credit v ∉ x.ctrlq → gives (.creditReturnTimer p) s (asks (.credit v))) ∧
      (.credit v ∈ x.ctrlq → gives (.creditReturnTimer p) s (fun t => t = s))) ∧
    (x.state = .up → gives (.auditTimer p) s (asks .audit)) ∧
    (x.state = .up → gives (.timeReqTimer p) s (asks .timeReq)) ∧
    (s.isGm = true →
      let ups := (List.range 48).filter (fun q => (s.fport q).state == .up)
      let msg := fun (id mseq : Nat) => Msg.mk (msgT0 id s.fabricId 0xE 0 1) (448 * 2 ^ 48 + mseq % 2 ^ 24 * 2 ^ 24) 0 (b2n s.ownPps + s.fabricId * 2) []
      ((∀ q ∈ ups, (s.fport q).partnerSwitch = true) →
        gives .timeAnnounceTimer s (fun t => t = { s with link := t.link } ∧
          t.link.sentMsgs = s.link.sentMsgs ++ ups.map (fun q => (q, msg (s.fport q).partnerId 0)))) ∧
      (ups = [p] → x.partnerSwitch = false → s.isLost x.partnerId = false →
        let st := s.stream x.partnerId 448
        let m := msg x.partnerId st.nextMseq
        st.waiting = [] → st.unacked.length < 4096 → s.transportRoom m = true →
        gives .timeAnnounceTimer s (fun t => t = { s with link := t.link } ∧ t.link.sentMsgs = s.link.sentMsgs ++ [(p, m)] ∧
          t.stream x.partnerId 448 = { st with nextMseq := (st.nextMseq + 1) % 2 ^ 24, unacked := st.unacked ++ [SentMsg.mk st.nextMseq m p s.now 0] })))

/-- R269, R367, R371 to R377, R383 to R388, R393, R396, R399: what a message received whole does as it is served: its buffers are freed, and, from a live
module to this one and in its turn, PUT stores its bytes, GET and ATOMIC answer, TACK_ADD adds, ACK frees the copies it covers, a
collective message reaches its collective; GET_RESP and ATOMIC_RESP do no more. PEER_DOWN declares a module lost and TIME_ANNOUNCE is heard,
without a turn where they come from a switch or a lost module.
The model's choices here: log 42, 46 and 84. -/
def Obligations.Messages : Prop :=
  ∀ (s : State) (p : Nat) (m : Msg) (vc n : Nat), s.tidy = true → p < 48 → s.linkLive = true → (s.resting = false ∨ m.mkind = 0xE) →
    (s.fport p).inq.find? (fun e => e.2.2 == m) = some (vc, n, m) →
    let u := s.modFport p (fun x => { x.freeBuffers vc n with inq := x.inq.eraseP (fun e => e.2.2 == m) })
    let live := m.dst = s.fabricId ∧ s.isLost m.src = false
    let st := s.stream m.src m.streamNo
    let inTurn := m.mseq = st.expected ∧ st.reorder = []
    let v := u.setStream m.src m.streamNo { st with expected := (m.mseq + 1) % 2 ^ 24 }
    (live → inTurn →
      (m.mkind = 1 → s.remoteMay m = true →
        gives (.put p m) s (fun t => t = ((v.writeBytes m.t2 m.data).countBytes none false m.t2 m.data.length).sendAck m 0 ∧
          (∀ j, j < m.data.length → s.unreachable (m.t2 + j) = false → t.memByte (m.t2 + j) = m.data.getD j 0) ∧
          (∀ a, a < m.t2 ∨ m.t2 + m.data.length ≤ a → t.memByte a = s.memByte a))) ∧
      (m.mkind = 1 → s.remoteMay m = false →
        gives (.put p m) s (fun t => t.errq.raised = s.errq.raised + 1 ∧ ∀ a, a < 2 ^ 63 → t.memByte a = s.memByte a)) ∧
      (m.mkind = 2 → s.remoteMay m = true → s.poisoned m.t2 m.t3 = false →
        gives (.get p m) s (fun t => t = (State.respond (v.countBytes none true m.t2 m.t3) m 3 ((List.range m.t3).map (fun j => s.memByte (m.t2 + j)))).sendAck m 0 ∧
          t.mem = s.mem)) ∧
      (m.mkind = 4 → m.atomicOp ≠ 3 → s.remoteMay m = true → s.poisoned (m.t2 / 8 * 8) 8 = false →
        let a := m.t2 / 8 * 8
        let old := ofLe ((List.range 8).map (fun j => s.memByte (a + j)))
        let new := if m.atomicOp = 0 then (old + m.t3) % 2 ^ 64 else if m.atomicOp = 1 then m.t3 % 2 ^ 64
          else if old = leAt m.data 0 8 then m.t3 % 2 ^ 64 else old
        gives (.atomic p m) s (fun t => (∀ j, j < 8 → s.unreachable (a + j) = false → t.memByte (a + j) = BitVec.ofNat 8 (new / 256 ^ j)) ∧
          (∀ b, b < a ∨ a + 8 ≤ b → t.memByte b = s.memByte b) ∧ t.tacks = s.tacks)) ∧
      (m.mkind = 6 →
        let k := m.t2 % 2 ^ 14
        ((s.tack k).remoteOk = true → gives (.tackAdd p m) s (fun t => (t.tack k).value = ((s.tack k).value + m.t3 % 2 ^ 32) % 2 ^ 32 ∧
          (∀ j, j ≠ k → t.tack j = s.tack j) ∧ t.remoteApplied = (s.remoteApplied + 1) % 2 ^ 64 ∧ t.mem = s.mem)) ∧
        ((s.tack k).remoteOk = false → gives (.tackAdd p m) s (fun t => t.tacks = s.tacks ∧ t.remoteRejected = (s.remoteRejected + 1) % 2 ^ 64 ∧
          t.errq.raised = s.errq.raised + 1))) ∧
      (∀ i, (m.mkind = 8 ∧ i = .collReady p m) ∨ (m.mkind = 9 ∧ i = .collGet p m) ∨ (m.mkind = 10 ∧ i = .collData p m) ∨ (m.mkind = 11 ∧ i = .collPut p m) ∨
          (m.mkind = 12 ∧ i = .collAbort p m) →
        gives i s (fun t => t = ((v.addCtx m.domain 6 (256 * m.flits)).collMsg p m).sendAck m 0 ∧
          (s.coll m.comm m.k = none → s.notReached m.comm m.k = true → m.mkind ≠ 10 → (m.mkind = 12 → m.t3 % 256 ≠ stPeerLost) →
            (s.comm m.comm).lost = none → t.link.held = s.link.held ++ [(p, m)] ∧ t.mem = s.mem)))) ∧
    (live → m.mkind = 7 →
      let w := u.setStream m.src m.streamNo { st with unacked := st.unacked.filter (fun k => decide (2 ^ 23 ≤ (m.mseq + 2 ^ 24 - k.mseq) % 2 ^ 24)) }
      gives (.ack p m) s (fun t => t = w.drainStreams ∧ ((∀ e ∈ s.link.streams, e.2.waiting = []) → t = w))) ∧
    (∀ i, (m.mkind = 3 ∧ i = .getResp p m) ∨ (m.mkind = 5 ∧ i = .atomicResp p m) → gives i s (fun t => t = u)) ∧
    let direct := ¬(live ∧ m.streamNo = 448)
    (m.mkind = 13 → (direct ∨ inTurn) → gives (.peerDown p m) s (fun t => (direct → t = u.declareLost (m.t3 % 2 ^ 14)) ∧
      (¬direct → t = (v.declareLost (m.t3 % 2 ^ 14)).sendAck m 0) ∧ (m.t3 % 2 ^ 14 ≠ s.fabricId → m.t3 % 2 ^ 14 ∈ t.link.lost))) ∧
    (m.mkind = 14 → (direct ∨ inTurn) → gives (.timeAnnounce p m) s (fun t => t = { s with link := t.link } ∧
      (s.link.time.gmId = none → t.link.time.gmId = some (fld m.t3 14 1) ∧ t.link.time.gmPps = bit m.t3 0 ∧ t.link.time.heardAt = s.now)))

/-- R375, R393, R395, R396, R482, R483: the transport's timers and the record of lost modules: a message unacknowledged for 50 µs is resent where a
port reaches, and after eight resends its destination is lost; ports HELD for 500 ms, and those of a module frozen for 500 ms, go DOWN; a wait of a collective is reported up to
eight times; lost bits are cleared with their streams.
The model's choices here: log 5, 41 and 47. -/
def Obligations.TransportTimers : Prop :=
  (∀ (s : State) (dst n q : Nat) (k : SentMsg), dst < 16384 → n < 449 → s.linkLive = true →
    (s.stream dst n).unacked.find? (fun e => e.mseq == q) = some k →
    let now := max s.now (k.sentAt + 50000)
    let kept := fun (k' : SentMsg) => State.setStream { s with now := now } dst n { s.stream dst n with
      unacked := (s.stream dst n).unacked.map (fun e => if e.mseq == q then k' else e) }
    (s.choosePort dst k.port = none → gives (.transportResendTimeout dst n q) s (fun t => t = kept { k with sentAt := now })) ∧
    (∀ j, s.choosePort dst k.port = some j →
      (8 ≤ k.resends → gives (.transportResendTimeout dst n q) s (fun t => t = State.declareLost { s with now := now } dst)) ∧
      (k.resends < 8 →
        let u := kept { k with resends := k.resends + 1, sentAt := now, port := j }
        gives (.transportResendTimeout dst n q) s (fun t => t = (if k.port = 48 then u.countSent k.msg else u).dispatchMsg j k.msg)))) ∧
  (∀ s : State, s.tidy = true → s.ready = true →
    (s.freeze.frozen = true → s.freeze.holding = true →
      gives .holdLimitExpiry s (fun t => t.now = max s.now (s.freeze.began + 500000000) ∧ t.freeze = { s.freeze with holding := false, holdExpired := true } ∧
        (∀ p, p < 48 → (s.fport p).linked = true → (t.fport p).state = .down ∧ (t.fport p).cause = 5) ∧
        (∀ p, p < 48 → (s.fport p).linked = false → t.fport p = s.fport p))) ∧
    (s.freeze.frozen = false → ∀ p, p < 48 → (s.fport p).state = .held → (∀ q, q < 48 → (s.fport q).state = .held → (s.fport p).since ≤ (s.fport q).since) →
      gives .holdLimitExpiry s (fun t => t.now = max s.now ((s.fport p).since + 500000000) ∧ (t.fport p).state = .down ∧ (t.fport p).cause = 5 ∧
        (∀ q, q < 48 → (s.fport q).state ≠ .held → { t.fport q with outq := [] } = { s.fport q with outq := [] })))) ∧
  (∀ (s : State) (c k : Nat) (y : Coll) (older younger : List Await) (a : Await), c < 256 → s.linkLive = true → fld (s.reg 0x03210008) 15 0 ≠ 0 → s.coll c k = some y →
    y.unbegun = false → y.endedAs = none → y.reports < 8 →
    y.awaits = older ++ a :: younger → (∀ b ∈ older, a.since < b.since) → (∀ b ∈ younger, a.since ≤ b.since) →
    let before := if y.watched = some a.key then y.watchedFor else 0
    gives (.stragglerTimer c k) s (fun t => t.now = max s.now (a.since + 1000000 * fld (s.reg 0x03210008) 15 0 * (before + 1)) ∧
      t.link.colls = (s.setColl { y with reports := y.reports + 1, watched := some a.key, watchedFor := before + 1 }).link.colls ∧
      t.tacks = s.tacks ∧ t.queues = s.queues)) ∧
  (∀ (s : State) (p : HostPort) (w v : Nat), w < 256 → s.serves p →
    gives (.lnkPeerLostClear p w v) s (fun t => t = { s.undrain p with link := t.link } ∧
      (∀ id, id ∈ t.link.lost ↔ (id ∈ s.link.lost ∧ ¬(id / 64 = w ∧ bit v (id % 64) = true))) ∧
      (∀ e ∈ t.link.streams, e ∈ s.link.streams ∧ ¬(e.1 / 512 ∈ s.link.lost ∧ e.1 / 512 / 64 = w ∧ bit v (e.1 / 512 % 64) = true))))

/-! ### The weave engines (chapters 2 and 3) -/

/-- R37, R46, R95, R97, R108, R115, R116, R119, R122, R124 to R127, R147, R242, R243, R454: the steps of a weave engine of a core in service. A wave
counts and latches the column of each row in flight, unless it is withheld; a rate window ends; the engine or its press unit takes the
lowest untaken tile of the tile queue's command of the highest priority; a warp load begins when the port is free and takes the port for the
rectangle's height and width; a pleat drains, and after its drain the new configuration is in force; a shadow sample is charged while no
PRESS work waits (R148).
The model's choices here: log 31, 79 and 81. -/
def Obligations.EngineSteps : Prop :=
  (∀ (s : State) (g n : Nat), g < 96 → s.monitorRuns g = true →
    let ends := (s.engine g).rateFrom + 16000
    gives (.waveRateWindowEnd g n) s (fun t => t = State.setEngine { s with now := max s.now ends } g { s.engine g with
      rateValid := true, rateSeq := ((s.engine g).rateSeq + 1) % 2 ^ 14, rate := n / 16 % 2 ^ 16, rateFrom := ends })) ∧
  (∀ (s : State) (g : Nat), s.tidy = true → g < 96 → s.alive = true →
    let core := g / 4
    let e := s.engine g
    (s.core core).fence = .inService →
    (s.thermalWithheld = true → gives (.wave g) s (fun t => t = s)) ∧
    (s.thermalWithheld = false →
      let u := (s.epilogue g).pumpExpand g
      let x := u.engine g
      ((x.hemFull = true ∨ (u.anyRow x = false ∧ x.busy = false)) → gives (.wave g) s (fun t => t = u.pumpShuttles core)) ∧
      (x.hemFull = false → (u.anyRow x = true ∨ x.busy = true) →
        gives (.wave g) s (fun t => (t.engine g).wave = x.wave + 1 ∧ (t.engine g).map = x.map ∧ (t.engine g).mode = x.mode ∧
          (∀ f r n, x.flight = [f] → x.regions = [r] → (r.queue, r.cseq, r.otile) = (f.queue, f.cseq, f.otile) → f.column x.wave = some n →
            (t.engine g).regions = [r.latch (u.mmOf f.queue f.cseq) f n])))) ∧
    (∀ qi w, s.pick (s.qualified core (fun q v => s.mmQualifies g q v)) = some (qi, w) →
      gives (.engineTakeTile g false) s (fun t => t = s.takeMm g qi w ∧
        (t.engine g).regions = e.regions ++ [{ w.mmRegion qi w.taken e with nextTile := 1 }] ∧
        (t.core core).tileQ = (if w.taken + 1 = w.tiles then (s.core core).tileQ.filter (fun y => y != (qi, w.cseq)) else (s.core core).tileQ) ∧
        (∀ k, k ≠ g → t.engine k = s.engine k) ∧ (∀ a, a < 2 ^ 63 → t.memByte a = s.memByte a))) ∧
    (∀ qi w, s.pick (s.qualified core (fun _ v => pressQualifies g v)) = some (qi, w) → (w.opcode ≠ 5 ∨ w.pressOp ≠ 0x40) →
      gives (.engineTakeTile g true) s (fun t => t = ((s.takeTile core qi w).pressTile g qi w w.taken).pressTileDone g qi w.cseq)) ∧
    (s.pick (s.qualified core (fun q v => s.mmQualifies g q v)) = none → gives (.engineTakeTile g false) s (fun t => t = s)) ∧
    (∀ p run, p < 16 → (e.pleat p).run = some run → run.loadAt = none → e.loadQ.head? = some p → e.portFree ≤ e.wave →
      ((e.pleat p).lastEntry < e.wave ∨ (e.pleat p).lastEntry = 0) → (e.pleat p).draining = false → s.configured e p run = true →
      let w := s.mmOf run.queue run.cseq
      let r := e.rect p
      let hc := r.h / (e.modeOf p).edge
      let wc := r.w / (e.modeOf p).edge
      let wide := run.loadw = false ∧ w.mmWide = true
      let k0 := fld w.n2 63 32
      let fill := if run.loadw then s.warpFill w (w.operand 0) hc wc k0 (w.n2 % 2 ^ 32) else run.fill
      gives (.warpLoadStart g p) s (fun t => (t.engine g).portFree = e.wave + (r.h + r.w - 1) ∧ (t.engine g).loadQ = e.loadQ.drop 1 ∧
        (t.engine g).pleats = (e.setPleat p { e.pleat p with
          codes := unpackCodes (hc * wc / 8 + 1) (w.operand 0).f.width fill.warp, scales := fill.scales.map BitVec.toNat, resident := none,
          off := if run.loadw then k0 % 32 else run.tile * hc % 32,
          run := some { run with loadAt := some e.wave, opens := e.wave + (if wide then r.h + r.w - 1 else r.h),
                                 fill := { run.fill with warp := [], scales := [] } } }).pleats ∧
        (∀ a, a < 2 ^ 63 → t.memByte a = s.memByte a))) ∧
    (∀ p run, p < 16 → (e.pleat p).run = some run → run.loadAt = none → (e.pleat p).draining = false → s.needsDrain e p = true →
      ((e.pleat p).lastEntry < e.wave ∨ (e.pleat p).lastEntry = 0) →
      gives (.drainStart g p) s (fun t => t = s.setEngine g (e.setPleat p { e.pleat p with
        draining := true, drainEnd := max e.wave (e.pleat p).lastLatch }))) ∧
    (∀ p run, p < 16 → (∀ x, e.seam = some x → e.seamReady x = false) → e.seamHolds p = false → (e.pleat p).run = some run → e.drained p = true →
      let n := (s.mmOf run.queue run.cseq).needs run.loadw e p
      gives (.newConfigurationInForce g p) s (fun t => t = s.setEngine g { e.setPleat p { e.pleat p with
        draining := false, lastHeritage := n.2, resident := none } with
        mode := setFld e.mode (2 * p + 1) (2 * p) n.1.code, loadQ := e.loadQ ++ [p] })) ∧
    (∀ p x, p < 16 → e.seam = some x → e.seamReady x = true →
      gives (.newConfigurationInForce g p) s (fun t => (t.engine g).map = x.map ∧ (t.engine g).mode = x.modes ∧ (t.engine g).seam = none ∧
        (∀ k, k ≠ g → t.engine k = s.engine k))) ∧
    (∀ x rest, e.samples = x :: rest → x.rows * x.cols ≤ x.narrow.length → s.pressWaits g = false →
      gives (.shadowSampleCharge g) s (fun t => (t.engine g).samples = rest ∧ (t.engine g).wave = e.wave)) ∧
    (∀ x rest, e.samples = x :: rest → (x.narrow.length < x.rows * x.cols ∨ s.pressWaits g = true) →
      gives (.shadowSampleCharge g) s (fun t => t = s)))

/-! ### Errors, containment and recovery (chapter 13) -/

/-- R310, R327, R356, R457, R464, R469, R477, R479: a handling unit's step on the record it works on: it does the record's action and closes it, or goes
on to the action's next step; where it has none it does nothing. JOB-FATAL stops every queue of the domain. R459, R460: an internal fault raises its
error. R461, R512: the watchdog raises 0x0502, and is suspended while TH activates. R467: the steward releases records that are not open. R480, R481: a round of the conservation
checks with everything in balance only counts, and an error queue out of balance is rebuilt and logged.
The model's choices here: log 54, 67 and 68. -/
def Obligations.ErrorHandling : Prop :=
  (∀ (s : State) (unit : Nat), s.tidy = true → unit < 11 → s.ready = true → s.freeze.frozen = false →
    (s.nextRec unit = none → gives (.errorContainmentStep unit) s (fun t => t = s)) ∧
    (∀ r, s.nextRec unit = some r →
      let row := Instr.errorContainmentStep unit
      let closed := fun (t : State) => ∀ x ∈ t.errq.opened, ErrRec.same x r = false
      (r.cls = 1 → r.source ≠ 0x0203 → r.source ≠ 0x0109 → gives row s (fun t => closed t ∧ t = State.beginHold { s with errq := t.errq } ∧
        t.errq.raised = s.errq.raised)) ∧
      (r.cls = 2 → r.kind = .queue → gives row s (fun t => closed t ∧ (t.queue r.domId).stopped = true ∧
        (∀ a, a < 2 ^ 63 → t.memByte a = s.memByte a))) ∧
      (r.cls = 2 → r.kind = .port → gives row s (fun t => (t.fport r.domId).state = .fenced)) ∧
      (r.cls = 2 → r.kind = .channel → (r.source ≠ 0x0204 ∨ r.escalated = true) → gives row s (fun t => (t.channel r.domId).fenced = true ∧
        (∀ a, a < 2 ^ 63 → t.memByte a = s.memByte a))) ∧
      (r.cls = 2 → r.kind = .hub → (r.source ≠ 0x0209 ∨ r.escalated = true) → gives row s (fun t => (t.hub r.domId).lost = true ∧
        (∀ a, a < 2 ^ 63 → t.memByte a = s.memByte a))) ∧
      (r.cls = 2 → r.kind = .core → r.step = 0 → (s.core r.domId).fence = .inService →
        gives row s (fun t => (t.core r.domId).fence = .fencing ∧ (t.core r.domId).source = r.source ∧ (t.core r.domId).tileQ = [] ∧
          (t.core r.domId).shuttle0 = none ∧ (t.core r.domId).shuttle1 = none ∧ t.queues = s.queues ∧ t.mem = s.mem)) ∧
      (r.cls = 2 → r.kind = .core → 5 ≤ r.step → gives row s (fun t => (t.core r.domId).fence = .fenced)) ∧
      (r.cls = 3 → r.kind = .job → gives row s (fun t =>
        ∀ qi, qi < 192 → s.queueDomain qi = r.domId → (t.queue qi).stopped = true)))) ∧
  (∀ (s : State) (p : HostPort) (v : Nat), s.serves p →
    (s.roles.steward = some p → gives (.obsErrqPop p v) s (fun t => t = { s.undrain p with errq := t.errq } ∧
      t.errq.lost = (if bit v 63 then 0 else s.errq.lost) ∧ t.errq.raised = s.errq.raised - (if bit v 63 then s.errq.lost else 0) ∧ t.errq.offQueue = s.errq.offQueue ∧
      (SMap.rising s.errq.slots = true → ∀ k r, SMap.get none t.errq.slots k = some r ↔
        (SMap.get none s.errq.slots k = some r ∧ ¬(r.seq ≤ v % 2 ^ 48 ∧ r.isOpen = false))))) ∧
    (s.roles.steward ≠ some p → gives (.obsErrqPop p v) s (fun t => t.errorless = (s.undrain p).errorless ∧ t.errq.raised = s.errq.raised + 1))) ∧
  (∀ s : State, s.activating 0 = true → gives .mcWatchdogExpiry s (fun t => t = s)) ∧
  (∀ s : State, s.power.pwrGood = true → s.activating 0 = false → gives .mcWatchdogExpiry s (fun t => t.errorless = s.errorless ∧ t.errq.raised = s.errq.raised + 1)) ∧
  (∀ s : State, s.ready = true → s.freeze.frozen = false →
    (∀ p, p < 48 → (s.fport p).linked = true → (s.fport p).state = .recovery ∨ (s.fport p).slotsOk = true) →
    (∀ c, c < 24 → (s.core c).blocksScrub + (s.core c).blocksOut ≤ 512) → (∀ i, i < 128 → (s.hostq i).slotsOk = true) →
    (∀ h, h < 8 → ∀ e ∈ (s.hub h).tokens, e.2 ≤ 64) →
    let q := s.errq
    let sum := q.stored + q.lost + q.merged + q.coalesced
    (q.raised = sum → gives .conservationCheck s (fun t => t = { s with errq := { q with checks := (q.checks + 1) % 2 ^ 32 } })) ∧
    (q.raised ≠ sum → gives .conservationCheck s (fun t => t.errq.raised = sum + 1 ∧ t.errq.rebuilds = min (q.rebuilds + 1) 255 ∧
      t.errq.checks = (q.checks + 1) % 2 ^ 32 ∧ t.errorless = s.errorless))) ∧
  (∀ s : State, s.ready = true →
    (∀ u c, c < 24 → u ∈ [FaultUnit.bobbinDouble c, .arrayCheck c, .coreStoreDouble c, .stateCheck c, .bobbinSingle c, .coreStoreSingle c] →
      gives (.internalFault u) s (fun t => t.errorless = s.errorless ∧ t.errq.raised = s.errq.raised + 1)) ∧
    (∀ q, q < 4 → gives (.internalFault (.slice q)) s (fun t => t.errorless = s.errorless ∧ t.errq.raised = s.errq.raised + 1)) ∧
    (s.tidy = true → ∀ h, h < 8 → (s.hub h).controllerFailed = false → gives (.internalFault (.hubController h)) s (fun t =>
      t.hub h = { s.hub h with controllerFailed := true } ∧ t.errq.raised = s.errq.raised + 1)) ∧
    (∀ h, h < 8 → s.updActive h = true → gives (.internalFault (.updateEngine h)) s (fun t => t.updActive h = false ∧
      t.upd.fallback = s.upd.fallback ++ s.accepted h ∧ t.errq.raised = s.errq.raised + 1)) ∧
    (∀ p, gives (.internalFault (.aerCorrectable p)) s (fun t => t.freeCtr = s.freeCtr + 1 ∧ t.errq.raised = s.errq.raised + 1)) ∧
    (∀ p, gives (.internalFault (.ideCheckFailed p)) s (fun t => t.errorless = s.errorless ∧ t.errq.raised = s.errq.raised + 1)))

/-- R468 to R475: FENCE by the steward fences a core in service: its tile queue, shuttles and engines lose their work, each of its queues moves or
stops, and no byte of module memory changes; RETEST of a fenced core zeroes its SRAM and scrubs it; a retest that passes puts it back in
service, and one that fails leaves it fenced and is logged. Another port's write is dropped and logged.
The model's choices here: log 67 and 79. -/
def Obligations.FencingAndRetest : Prop :=
  ∀ (s : State) (c : Nat), s.tidy = true → c < 24 →
    (∀ p, s.serves p →
      (s.roles.steward = some p → (s.core c).fence = .inService →
        gives (.fence p c) s (fun t => (t.core c).fence = .fenced ∧ (t.core c).bySw = true ∧ (t.core c).source = 0 ∧ (t.core c).tileQ = [] ∧
          (t.core c).shuttle0 = none ∧ (t.core c).shuttle1 = none ∧ (t.core c).withdrawn = false ∧
          (∀ n, n < 8 → (t.queue (8 * c + n)).stopped = true ∨ (t.queue (8 * c + n)).movedTo ≠ 0) ∧
          (∀ a, a < 2 ^ 63 → t.memByte a = s.memByte a) ∧ t.regs = s.regs)) ∧
      (s.roles.steward = some p → (s.core c).fence ≠ .inService → gives (.fence p c) s (fun t => t = s.undrain p)) ∧
      (s.roles.steward = some p → (s.core c).fence = .fenced →
        gives (.retest p c) s (fun t => (t.core c).fence = .scrubbing ∧ (t.core c).blocksScrub = 512 ∧ (t.core c).blocksOut = 0 ∧
          (∀ a, 0x0D0000000000 + 0x2000000 * c ≤ a → a < 0x0D0000000000 + 0x2000000 * (c + 1) → t.memByte a = 0) ∧
          (∀ a, a < 0x0D0000000000 → t.memByte a = s.memByte a) ∧ t.queues = s.queues)) ∧
      (s.roles.steward = some p → (s.core c).fence ≠ .fenced → gives (.retest p c) s (fun t => t = s.undrain p)) ∧
      (s.roles.steward ≠ some p → ∀ i, i = Instr.fence p c ∨ i = .retest p c →
        gives i s (fun t => t.errorless = (s.undrain p).errorless ∧ t.errq.raised = s.errq.raised + 1))) ∧
    (s.alive = true → ((s.core c).fence = .scrubbing ∨ (s.core c).fence = .testing) →
      gives (.retestEnd c true) s (fun t => t.core c = { s.core c with fence := .inService, blocksScrub := 0, withdrawn := false, blocksOut := 0, guests := (t.core c).guests } ∧
        (∀ g, g < 96 → t.engine g = (if g / 4 = c then { s.engine g with rateFrom := max s.now s.power.stableAt } else s.engine g)) ∧
        t.regs = s.regs ∧ (∀ a, a < 2 ^ 63 → t.memByte a = s.memByte a)) ∧
      gives (.retestEnd c false) s (fun t =>
        t.core c = { s.core c with fence := .fenced, blocksScrub := 0, blocksOut := if (s.core c).withdrawn then 512 else 0 } ∧ t.errq.raised = s.errq.raised + 1 ∧
        t.queues = s.queues ∧ (∀ a, a < 2 ^ 63 → t.memByte a = s.memByte a)))

/-! ### The thimble (chapter 14) -/

/-- R498 to R501, R508, R509: a request that is not submitted, or that the thimble may not take up now, waits; one that the port's role does not permit
returns ST_CONFLICT and changes nothing. GET_INFO, GET_CERTS, GET_MEAS answer the values held; EXTEND extends M11 to M15 alone; ATTEST answers a
quote, and with the session flag it opens the lowest free session, or fails with ST_CONFLICT where none is free; it fails with ST_NOT_READY while the
alias certificate has not been issued.
The model's choices here: log 34, 66, 71 and 72. -/
def Obligations.SecurityMailbox : Prop :=
  ∀ (s : State) (p : HostPort), s.tidy = true →
    let r := s.passArb .mailbox (portNum p)
    (∀ row op, (row, op) ∈ [(Instr.getInfo p, 1), (.getCerts p, 2), (.getMeas p, 3), (.extend p, 4), (.attest p, 5), (.keyRelease p, 6),
        (.domainAuth p, 7), (.sessionClose p, 8), (.domainPurge p, 9), (.domainKeygen p, 0xA), (.fwBegin p, 0x10), (.fwWrite p, 0x11),
        (.fwVerify p, 0x12), (.fwActivate p, 0x13), (.fwAbort p, 0x14), (.fwCommit p, 0x15), (.settingsWrite p, 0x20), (.setMinSvn p, 0x21)] →
      (s.takes p op = false → gives row s (fun t => t = s)) ∧
      (s.takes p op = true → s.recovery = true → op ∉ [1, 0x10, 0x11, 0x12, 0x14, 0x15] → gives row s (fun t => answered r t p stConflict [])) ∧
      (s.takes p op = true → s.recovery = false → (op = 0x15 ∨ (9 ≤ op ∧ s.roles.steward ≠ some p)) →
        gives row s (fun t => answered r t p stConflict []))) ∧
    (s.grants p 1 → gives (.getInfo p) s (fun t => answered r t p stOk (leBytes 8 s.secStatus ++
      (List.range 5).flatMap (fun j => leBytes 8 (s.fwActive j)) ++ (List.range 5).flatMap (fun j => leBytes 8 (s.fwStaged j))))) ∧
    (s.grants p 2 →
      let certs := [Config.certificate 0, Config.certificate 1] ++
        (if s.sec.aliasIssued then [Config.aliasCertificate (s.mreg 1) (s.slotA 0).svn] else [])
      gives (.getCerts p) s (fun t => answered r t p stOk (certs.flatMap (fun c => leBytes 4 c.length ++ c)))) ∧
    (s.grants p 3 → gives (.getMeas p) s (fun t => answered r t p stOk ((List.range 16).flatMap s.mreg))) ∧
    (s.grants p 4 →
      let k := (s.mail p).num 0 8
      (11 ≤ k → k ≤ 15 → gives (.extend p) s (fun t => ∃ u : State, answered u t p stOk [] ∧ u = { r with sec := { s.sec with
        measures := SMap.set [] s.sec.measures k (sha256 (s.mreg k ++ (s.mail p).bytes 8 32)) } })) ∧
      ((k < 11 ∨ 15 < k) → gives (.extend p) s (fun t => answered r t p stConflict []))) ∧
    (s.grants p 5 →
      let m := s.mail p
      let flagged := bit (m.num 64 8) 0 = true
      ((s.sec.identityValid = false ∨ s.sec.aliasIssued = false) → gives (.attest p) s (fun t => answered r t p stNotReady [])) ∧
      (s.sec.identityValid = true → s.sec.aliasIssued = true → ¬flagged → ∃ signature, signature.length = 17088 ∧
        gives (.attest p) s (fun t => answered { r with freeCtr := s.freeCtr + 1 } t p stOk
          (s.quoteHead (m.bytes 0 32) (m.bytes 32 32) none ++ signature))) ∧
      (s.sec.identityValid = true → s.sec.aliasIssued = true → flagged → (∀ i, i < 4 → s.session i ≠ none) →
        gives (.attest p) s (fun t => answered r t p stConflict [])) ∧
      (∀ i, s.sec.identityValid = true → s.sec.aliasIssued = true → flagged → i < 4 → s.session i = none → (∀ j, j < i → s.session j ≠ none) →
        ∃ seed signature, signature.length = 17088 ∧
          let ek := Config.kemEncapsulationKey seed
          let head := s.quoteHead (m.bytes 0 32) (sha256 (ek ++ m.bytes 32 32)) (some i)
          let x : Session := { uid := s.sec.opened, dk := seed, salt := sha256 head, last := s.now }
          ek.length = 1184 ∧ gives (.attest p) s (fun t => ∃ u : State, answered u t p stOk (head ++ signature ++ ek) ∧ u = { r with
            freeCtr := s.freeCtr + 2, sec := { s.sec with opened := s.sec.opened + 1, sessions := SMap.set none s.sec.sessions i (some x) } })))

/-- R501 to R507: keys and sessions. KEY_RELEASE fails with ST_BAD_SIGNATURE on its tag and with ST_CONFLICT on its seq or an item, and installs nothing
then; a success sets the session's seq, flags, AUTH and PSK and installs each item, and the ports' IDE-required state follows the sessions. DOMAIN_AUTH
adds the authorisation it carries. SESSION_CLOSE ends the session and clears its slots. DOMAIN_PURGE stops the domain's queues; its end leaves the
domain's memory zero and unassigned and its keys cleared. DOMAIN_KEYGEN keys a domain. Times end sessions and authorisations.
The model's choices here: log 33, 34, 66, 71, 73 and 74. -/
def Obligations.SessionsAndKeys : Prop :=
  ∀ (s : State) (p : HostPort), s.tidy = true →
    let r := s.passArb .mailbox (portNum p)
    let m := s.mail p
    let i := m.num 0 8
    let ide := fun (t : State) => ∀ q, (t.port q).ideRequired = t.anyFlag (portNum q)
    (s.grants p 6 →
      (s.sec.identityValid = false → gives (.keyRelease p) s (fun t => answered r t p stNotReady [])) ∧
      (s.sec.identityValid = true → s.session i = none → gives (.keyRelease p) s (fun t => answered r t p stConflict [])) ∧
      (∀ x n, s.sec.identityValid = true → s.session i = some x → m.req = 143 + 10 * n → n ≤ 32 →
        let ss := Config.kemDecapsulate x.dk (m.bytes 8 1088)
        let opened := gcmOpen (hkdf x.salt ss (ascii "kr-kek") 32) (m.bytes 1096 12) [] (m.bytes 1108 (16 + 80 * n)) (m.bytes (1124 + 80 * n) 16)
        let later := r.setSession i (some { x with last := s.now })
        (opened = none → gives (.keyRelease p) s (fun t => answered later t p stBadSignature [])) ∧
        (∀ plain, opened = some plain →
          let items := (chunks 80 32 (plain.drop 16)).filter (fun it => it.length == 80)
          let y := { x with seq := leAt plain 0 8, flags := leAt plain 8 8, auth := hkdf x.salt ss (ascii "kr-auth") 32,
                            psk := hkdf x.salt ss (ascii "kr-psk") 32, last := s.now }
          ((leAt plain 0 8 ≤ x.seq ∨ ∃ it ∈ items, later.itemOk x.uid it = false) →
            gives (.keyRelease p) s (fun t => answered later t p stConflict [])) ∧
          (x.seq < leAt plain 0 8 → (∀ it ∈ items, later.itemOk x.uid it = true) →
            gives (.keyRelease p) s (fun t => (t.mail p).busy = false ∧ (t.mail p).status = stOk ∧ ide t ∧
              t.sec.sessions = SMap.set none later.sec.sessions i (some y) ∧ t.granules = s.granules ∧ t.mem = s.mem ∧ t.queues = s.queues ∧
              (items = [] → t.sec.keySlots = s.sec.keySlots ∧ t.sec.domains = s.sec.domains) ∧
              (∀ it, items = [it] → leAt it 0 1 = 1 → t.sec.domains = s.sec.domains ∧ t.sec.keySlots = SMap.set none s.sec.keySlots (leAt it 1 1)
                (some { key := (it.drop 16).take 32, domain := leAt it 2 1, session := x.uid })) ∧
              (∀ it, items = [it] → leAt it 0 1 = 2 → t.sec.keySlots = s.sec.keySlots ∧ t.sec.domains = SMap.set {} s.sec.domains (leAt it 1 1)
                { s.domKey (leAt it 1 1) with keyed := true, holder := x.uid + 1, key := (it.drop 16).take 64 })))))) ∧
    (∀ x, s.session i = some x →
      let later := r.setSession i (some { x with last := s.now })
      let signed := fun n => x.auth ≠ [] ∧ hmac x.auth (m.bytes 0 n) = m.bytes n 32
      (s.grants p 7 →
        (¬signed 48 → gives (.domainAuth p) s (fun t => answered later t p stBadSignature [])) ∧
        (signed 48 → m.num 8 8 ≤ x.seq → gives (.domainAuth p) s (fun t => answered later t p stConflict [])) ∧
        (signed 48 → x.seq < m.num 8 8 → (s.domKey (m.num 24 8)).holder ≠ x.uid + 1 →
          gives (.domainAuth p) s (fun t => answered later t p stConflict [])) ∧
        (signed 48 → x.seq < m.num 8 8 → (s.domKey (m.num 24 8)).holder = x.uid + 1 →
          gives (.domainAuth p) s (fun t => ∃ u : State, answered u t p stOk [] ∧ u = { r with sec := { s.sec with
            sessions := SMap.set none later.sec.sessions i (some { x with seq := m.num 8 8, last := s.now }),
            auths := s.sec.auths ++ [{ session := x.uid, assign := m.num 16 8 != 0, domain := m.num 24 8, first := m.num 32 8, count := m.num 40 8,
                                       time := s.now }] } }))) ∧
      (s.grants p 8 →
        (¬signed 16 → gives (.sessionClose p) s (fun t => answered later t p stBadSignature [])) ∧
        (signed 16 → m.num 8 8 ≤ x.seq → gives (.sessionClose p) s (fun t => answered later t p stConflict [])) ∧
        (signed 16 → x.seq < m.num 8 8 → (∀ d, d < 64 → (s.domKey d).holder ≠ x.uid + 1) →
          gives (.sessionClose p) s (fun t => (t.mail p).busy = false ∧ (t.mail p).status = stOk ∧ ide t ∧
            t.sec.sessions = SMap.set none s.sec.sessions i none ∧ t.sec.domains = s.sec.domains ∧ t.mem = s.mem ∧ t.queues = s.queues ∧
            t.sec.keySlots = SMap.mapVals none (fun _ k => match k with
              | some y => if y.session == x.uid then none else some y
              | none => none) s.sec.keySlots)))) ∧
    (s.grants p 9 →
      (i < 64 → gives (.domainPurge p) s (fun t => (t.mail p).busy = false ∧ (t.mail p).status = stOk ∧ t.granules = s.granules ∧
        t.sec.domains = SMap.set {} s.sec.domains i { s.domKey i with purging := true } ∧ t.sec.keySlots = s.sec.keySlots ∧
        (∀ qi, qi < 192 → s.queueDomain qi = i → (t.queue qi).stopped = true) ∧
        (∀ c, c < 24 → (s.core c).sramDomain = i → ∀ a, 0x0D0000000000 + 0x2000000 * c ≤ a → a < 0x0D0000000000 + 0x2000000 * (c + 1) →
          t.memByte a = 0) ∧
        (∀ a, a < 0x0D0000000000 → t.memByte a = s.memByte a))) ∧
      (64 ≤ i → gives (.domainPurge p) s (fun t => answered r t p stConflict []))) ∧
    (∀ d, d < 64 → s.ready = true → s.freeze.frozen = false → (s.domKey d).purging = true →
      gives (.domainPurgeComplete d) s (fun t => t.granules = s.granules.filter (fun e => e.2 != d + 1) ∧
        t.sec.domains = SMap.set {} s.sec.domains d {} ∧ t.freeCtr = s.freeCtr + 32 ∧ t.queues = s.queues ∧
        (∃ x, x.length = 32 ∧ t.sec.measures = SMap.set [] s.sec.measures 9 (sha256 (s.mreg 9 ++ x))) ∧
        t.sec.keySlots = SMap.mapVals none (fun _ k => match k with | some y => if y.domain == d then none else some y | none => none) s.sec.keySlots ∧
        (∀ a, (∃ g, (g, d + 1) ∈ s.granules ∧ a / granuleSize = g) → t.memByte a = 0) ∧
        (∀ a, (∀ g, (g, d + 1) ∈ s.granules → a / granuleSize ≠ g) → t.memByte a = s.memByte a))) ∧
    (s.grants p 0xA →
      (i < 64 → s.domainAssigned i = false → (s.domKey i).holder = 0 →
        ∃ k, gives (.domainKeygen p) s (fun t => answered { r with freeCtr := s.freeCtr + 1, sec := { s.sec with
          domains := SMap.set {} s.sec.domains i { s.domKey i with keyed := true, key := k } } } t p stOk [])) ∧
      ((64 ≤ i ∨ s.domainAssigned i = true ∨ (s.domKey i).holder ≠ 0) → gives (.domainKeygen p) s (fun t => answered r t p stConflict []))) ∧
    (∀ n x, n < 4 → s.ready = true → s.freeze.frozen = false → s.session n = some x →
      gives (.sessionTimeout n) s (fun t => t.now = max s.now (x.last + 600000000000) ∧ t.sec.sessions = SMap.set none s.sec.sessions n none ∧ ide t ∧
        t.sec.keySlots = s.sec.keySlots ∧ t.sec.domains = s.sec.domains ∧ t.mem = s.mem ∧ t.queues = s.queues)) ∧
    (∀ n x, s.ready = true → s.freeze.frozen = false → s.sec.auths[n]? = some x →
      gives (.authorisationLapse n) s (fun t => t = { s with now := max s.now (x.time + 60000000000), sec := { s.sec with auths := s.sec.auths.eraseIdx n } }))

/-- R489, R491, R510, R513, R517, R520, R521: a firmware session. FW_BEGIN opens it and erases slot B; FW_WRITE takes a block that lies in the image's area
and overlaps no unit written; FW_VERIFY leaves the slot STAGED or INVALID with its status and ends the session; FW_ABORT, and 60 s without a request
in RECOVERY, leave it INVALID; FW_COMMIT writes the boot selector. The end of a flash operation does what the operation is for, training records
after the others; a settings record is laid out and signed, and a training record carries its HMAC. The alias certificate of the running TH is issued once.
The model's choices here: log 34, 66, 71, 72, 75 and 77. -/
def Obligations.FirmwareSessions : Prop :=
  ∀ (s : State) (p : HostPort), s.tidy = true →
    let r := s.passArb .mailbox (portNum p)
    let m := s.mail p
    let j := m.num 0 8
    let served := fun (x : Security) => { r with sec := x }
    let withSec := fun (x : Security) => { s with sec := x }
    let touched := { s.sec with fwSession := s.sec.fwSession.map (fun x => (x.1, s.now)) }
    let setFw := fun (x : Security) (k : Nat) (y : FwImage) => { x with fw := SMap.set {} x.fw k y }
    (s.grants p 0x10 →
      let dev := 1 - (s.fw j).devA
      (j < 5 → s.sec.fwSession = none → gives (.fwBegin p) s (fun t => answered (served { s.sec with
        fwSession := some (j, s.now), files := SMap.set {} s.sec.files (5 * dev + j) { s.file dev j with verified := false },
        fw := SMap.set {} s.sec.fw j { s.fw j with staged := 1, covered := 0 }, flashQ := s.sec.flashQ ++ [.eraseB j] }) t p stOk [])) ∧
      ((5 ≤ j ∨ s.sec.fwSession ≠ none) → gives (.fwBegin p) s (fun t => answered r t p stConflict []))) ∧
    (s.grants p 0x11 →
      let k := m.num 0 1
      let off := m.num 4 4
      let data := m.bytes 8 (8 * m.req - 8)
      let us := chunks 4096 15 data
      (∀ last, s.sec.fwSession = some (k, last) → (s.fw k).staged = 2 → off % 4096 = 0 → data ≠ [] → data.length ≤ 61440 →
        off + data.length ≤ areaSize k → s.blockLenOk k off data = true → (∀ n, n < us.length → (s.slotB k).unit (off / 4096 + n) = []) →
        gives (.fwWrite p) s (fun t => t = served { touched with flashQ := s.sec.flashQ ++ [.program p k (off / 4096) us] })) ∧
      (∀ last, s.sec.fwSession = some (k, last) → (s.fw k).staged = 2 →
        (off % 4096 ≠ 0 ∨ 61440 < data.length ∨ areaSize k < off + data.length ∨ ∃ n, n < us.length ∧ (s.slotB k).unit (off / 4096 + n) ≠ []) →
        gives (.fwWrite p) s (fun t => answered (served touched) t p stConflict [])) ∧
      (s.sec.fwSession = none → gives (.fwWrite p) s (fun t => answered r t p stConflict []))) ∧
    (s.grants p 0x12 →
      (∀ last, s.sec.fwSession = some (j, last) → (s.fw j).staged = 2 →
        gives (.fwVerify p) s (fun t => answered (served (setFw touched j { s.fw j with staged := 3 })) t p stOk [])) ∧
      (s.sec.fwSession = none → gives (.fwVerify p) s (fun t => answered r t p stConflict []))) ∧
    (∀ k last, (s.ready = true ∨ s.recovery = true) → s.freeze.frozen = false → s.sec.fwSession = some (k, last) → (s.fw k).staged = 3 →
      let st := s.verifyImage k (s.slotB k)
      gives .fwVerifyComplete s (fun t => t.sec.fwSession = none ∧ t = withSec t.sec ∧
        t.fw k = { s.fw k with staged := if st = stOk then 4 else 5, lastStatus := st } ∧
        (st ≠ stOk → t.sec.files = s.sec.files) ∧
        (st = stOk → t.sec.files = SMap.set {} s.sec.files (5 * (1 - (s.fw k).devA) + k) (s.slotB k).verifiedBy))) ∧
    (s.grants p 0x14 →
      (∀ last, s.sec.fwSession = some (j, last) → gives (.fwAbort p) s (fun t =>
        answered (served { setFw s.sec j { s.fw j with staged := 5 } with fwSession := none }) t p stOk [])) ∧
      (s.sec.fwSession = none → gives (.fwAbort p) s (fun t => answered r t p stConflict []))) ∧
    (∀ k last, s.recovery = true → s.sec.fwSession = some (k, last) → gives .fwSessionIdleTimeout s (fun t =>
      t = { s with now := max s.now (last + 60000000000), sec := { setFw s.sec k { s.fw k with staged := 5 } with fwSession := none } })) ∧
    (s.recovery = false → gives .fwSessionIdleTimeout s (fun t => t = s)) ∧
    (s.grants p 0x15 →
      (j < 5 → (s.fw j).staged = 4 → gives (.fwCommit p) s (fun t => t = served { s.sec with flashQ := s.sec.flashQ ++ [.selector (some p) j] })) ∧
      ((5 ≤ j ∨ (s.fw j).staged ≠ 4) → gives (.fwCommit p) s (fun t => answered r t p stConflict []))) ∧
    ((s.ready = true ∨ s.recovery = true) → s.freeze.frozen = false →
      let row := Instr.flashOperationComplete
      let done := fun (x : Security) => { x with flashQ := [] }
      (s.sec.flashQ = [] → gives row s (fun t => t = s)) ∧
      (∀ k last, s.sec.flashQ = [.eraseB k] → s.sec.fwSession = some (k, last) → (s.fw k).staged = 1 →
        gives row s (fun t => t = withSec (done { setFw s.sec k { s.fw k with staged := 2 } with
          files := SMap.set {} s.sec.files (5 * (1 - (s.fw k).devA) + k) {} }))) ∧
      (∀ q k u us, s.sec.flashQ = [.program q k u us] → gives row s (fun t => ∃ f : ImageFile, f = { s.slotB k with units := f.units } ∧
        f.units = (List.range us.length).foldl (fun x n => SMap.set [] x (u + n) (us.getD n [])) (s.slotB k).units ∧
        answered (withSec (done { setFw s.sec k { s.fw k with covered := f.units.length } with
          files := SMap.set {} s.sec.files (5 * (1 - (s.fw k).devA) + k) f })) t q stOk [])) ∧
      (∀ k, s.sec.flashQ = [.selector none k] → gives row s (fun t => ∃ dev seq, dev < 2 ∧ t = withSec (done { s.sec with
        selectors := SMap.set {} s.sec.selectors dev { valid := true, seq := seq, map := setFld (s.selector.getD {}).map k k (s.fw k).devA } }))) ∧
      (∀ q k, s.sec.flashQ = [.selector (some q) k] → gives row s (fun t => ∃ dev seq, dev < 2 ∧ answered (withSec (done { s.sec with
        selectors := SMap.set {} s.sec.selectors dev { valid := true, seq := seq, map := setFld (s.selector.getD {}).map k k (1 - (s.fw k).devA) } }))
        t q stOk [])) ∧
      (∀ kind vs b, s.sec.flashQ = [.record kind vs b] → gives row s (fun t => ∃ (dev : Nat) (x : SettingsRec), dev < 2 ∧
        (∀ d, d < 2 → s.recValid kind (s.settingRec d kind) = true → (s.settingRec d kind).seq < x.seq) ∧
        x.magic = 0x53544732 ∧ x.kind = kind ∧ x.format = 1 ∧ x.signer = 0 ∧ x.binding = moduleBinding ∧ x.body = settingBody kind vs ∧
        x.bodyLen = x.body.length ∧ x.sig.length = 7856 ∧
        t = { s with freeCtr := s.freeCtr + 1, sec := done { s.sec with
          records := SMap.set {} s.sec.records (3 * dev + kind) x, settingsBusy := (if b then false else s.sec.settingsBusy), settingsStatus := (if b then stOk else s.sec.settingsStatus) } })) ∧
      (∀ h, s.sec.flashQ = [.training h] → gives row s (fun t => ∃ (dev : Nat) (x : TrainRec), dev < 2 ∧ x.mac = hmac s.sec.trainKey x.bytes ∧ (s.trainRec 0 h).seq < x.seq ∧
        (s.trainRec 1 h).seq < x.seq ∧ x.delays = (List.range 48).map (fun c => (s.channel (48 * h + c)).delay) ∧
        t = withSec (done { s.sec with training := SMap.set {} s.sec.training (8 * dev + h) x }))) ∧
      (∀ m1, s.sec.flashQ = [.aliasCert m1] → gives row s (fun t => t = withSec (done { s.sec with
        aliasFor := SMap.set [] (SMap.set [] s.sec.aliasFor 0 m1) 1 m1 }))) ∧
      (∀ h m1, s.sec.flashQ = [.training h, .aliasCert m1] → gives row s (fun t => t = withSec { s.sec with
        flashQ := [.training h], aliasFor := SMap.set [] (SMap.set [] s.sec.aliasFor 0 m1) 1 m1 }))) ∧
    (s.ready = true → s.freeze.frozen = false → s.sec.identityValid = true → s.sec.aliasIssued = false → s.sec.mode = 1 →
      gives .aliasCertIssue s (fun t => t = withSec { s.sec with aliasIssued := true, flashQ := s.sec.flashQ ++ [.aliasCert (s.mreg 1)] })) ∧
    (s.sec.aliasIssued = true → gives .aliasCertIssue s (fun t => t = s))

/-- R504, R511 to R514, R517: FW_ACTIVATE with no image to activate answers ST_OK; it begins its first image where that fits the images running, and is
refused with ST_INCOMPATIBLE where not. A unit that reports running takes the new image, its measurements and the boot selector following; one that
does not within its hold leaves the slot INVALID with ST_TIMEOUT. SETTINGS_WRITE queues a record of the values in force, one at a time, and
SET_MIN_SVN raises a floor and makes a STAGED slot below it INVALID. The Data Object Exchange mailbox opens an SPDM session where a session holds a
PSK, and then programs keys and starts and stops streams.
The model's choices here: log 66, 71, 76 and 77. -/
def Obligations.ActivationAndSettings : Prop :=
  ∀ (s : State) (p : HostPort), s.tidy = true →
    let r := s.passArb .mailbox (portNum p)
    let m := s.mail p
    let chosen := [4, 2, 3, 1, 0].filter (fun j => bit (m.num 0 8) j && (s.fw j).staged == 4)
    let setFw := fun (k : Nat) (y : FwImage) => { s.sec with fw := SMap.set {} s.sec.fw k y }
    (s.grants p 0x13 →
      (chosen = [] → gives (.fwActivate p) s (fun t => answered r t p stOk [])) ∧
      (∀ j rest, chosen = j :: rest → s.fitsRunning j = false → gives (.fwActivate p) s (fun t =>
        answered { r with sec := { setFw j { s.fw j with lastStatus := stIncompatible } with activation := none } } t p stIncompatible [])) ∧
      (∀ j rest, chosen = j :: rest → s.fitsRunning j = true → (j ≠ 0 ∨ s.anyFlag 2 = false) → gives (.fwActivate p) s (fun t =>
        t = { r with sec := { setFw j { s.fw j with staged := 6 } with mode := if j = 0 then 2 else s.sec.mode, activation := some {
          port := p, rest := rest, cur := j, deadline := if s.mayRun j then s.now + [300000000, 50000000, 240000000, 10000, 80000000].getD j 0 else 0 } } }))) ∧
    (∀ a : Activation, s.ready = true → s.freeze.frozen = false → s.sec.activation = some a → a.cur < 5 →
      (a.rest = [] → a.deadline ≠ 0 → s.mayRun a.cur = true → gives (.fwUnitRunning a.cur) s (fun t =>
        t.fw a.cur = { s.fw a.cur with devA := 1 - (s.fw a.cur).devA, staged := 4, covered := 0, lastStatus := stOk } ∧ t.sec.activation = none ∧
        (t.mail a.port).busy = false ∧ (t.mail a.port).status = stOk ∧
        (a.cur ≠ 1 → let new := (s.slotB a.cur).measure
          t.sec.measures = (((s.setMreg (1 + a.cur) new).extendMeasure 10 (BitVec.ofNat 8 a.cur :: List.replicate 31 0)).extendMeasure 10 new).sec.measures ∧
          t.sec.flashQ = s.sec.flashQ ++ [.selector none a.cur] ∧ t = { s with sec := t.sec }) ∧
        (a.cur = 0 → t.sec.mode = 1 ∧ t.sec.aliasIssued = false ∧ t.sec.aliasSeed = (if s.sec.identityValid then aliasKey (t.mreg 1) else []) ∧ t.sec.sessions = s.sec.sessions ∧ t.sec.domains = s.sec.domains))) ∧
      ((a.deadline = 0 ∨ s.mayRun a.cur = false) → gives (.fwUnitRunning a.cur) s (fun t => t = s) ∧ gives (.activationTimeout a.cur) s (fun t => t = s)) ∧
      (a.deadline ≠ 0 → s.mayRun a.cur = true → gives (.activationTimeout a.cur) s (fun t => ∃ u : State, answered u t a.port stIncompatible [] ∧
        u = { s with now := max s.now a.deadline, sec := { setFw a.cur { s.fw a.cur with staged := 5, lastStatus := stTimeout } with
          activation := none, mode := if a.cur = 0 then 1 else s.sec.mode } }))) ∧
    (s.grants p 0x20 →
      let k := m.num 0 8
      (s.sec.identityValid = true → k < 3 → s.sec.settingsBusy = false → gives (.settingsWrite p) s (fun t => answered { r with sec := { s.sec with
        settingsBusy := true, flashQ := s.sec.flashQ ++ [.record k (s.settingValues k) true] } } t p stOk [])) ∧
      (s.sec.identityValid = true → (3 ≤ k ∨ s.sec.settingsBusy = true) → gives (.settingsWrite p) s (fun t => answered r t p stConflict [])) ∧
      (s.sec.identityValid = false → gives (.settingsWrite p) s (fun t => answered r t p stNotReady []))) ∧
    (s.grants p 0x21 →
      let j := m.num 0 8
      let svn := m.num 8 8
      (s.sec.identityValid = true → (svn < s.floor j ∨ (s.slotA j).svn < svn) → gives (.setMinSvn p) s (fun t => answered r t p stConflict [])) ∧
      (s.sec.identityValid = true → s.sec.settingsBusy = false → j < 5 → s.floor j ≤ svn → svn ≤ (s.slotA j).svn →
        gives (.setMinSvn p) s (fun t => (t.mail p).busy = false ∧ (t.mail p).status = stOk ∧ t.sec.floors = SMap.set 0 s.sec.floors j svn ∧
          t.fw j = { s.fw j with staged := if (s.fw j).staged = 4 ∧ (s.slotB j).svn < svn then 5 else (s.fw j).staged } ∧
          t.sec.settingsBusy = true ∧ t.sec.files = s.sec.files ∧ t = { r with sec := t.sec }))) ∧
    (s.ready = true → (s.port p).linkUp = true → s.freeze.frozen = false →
      let only := fun (f : Port → Port) (t : State) => t = s.modPort p (fun x => f { x with draining := false })
      let row := Instr.dataObjectExchange p
      (s.anyPsk = true → gives (row (.spdmPsk true)) s (only (fun x => { x with spdmPsk := true }))) ∧
      (∀ ok, (s.anyPsk = false ∨ ok = false) → gives (row (.spdmPsk ok)) s (only id)) ∧
      ((s.port p).spdmPsk = true → ∀ k key, k < 5 →
        gives (row (.ideKeyProg k key)) s (only (fun x => { x with ideKeys := SMap.set 0 x.ideKeys k key })) ∧
        ((s.port p).ideKeys.any (fun e => e.1 == k) = true → gives (row (.ideGo k)) s (only (fun x => { x with ideSecure := setIns x.ideSecure k }))) ∧
        gives (row (.ideStop k)) s (only (fun x => { x with ideSecure := setDel x.ideSecure k }))) ∧
      ((s.port p).spdmPsk = false → ∀ k key, gives (row (.ideKeyProg k key)) s (only id) ∧ gives (row (.ideGo k)) s (only id) ∧
        gives (row (.ideStop k)) s (only id)))

end
end

