-- ==== Sys2Proof/Laws/Map.lean ====
section
/-! SUPPORT. The laws of sparse maps: reading what was written, the canonical form and rising keys kept by every operation. -/

namespace Sys2Proof.Machine

variable {α : Type} [DecidableEq α]

omit [DecidableEq α] in
theorem SMap.risingFrom_mono {m : SMap α} {lo lo' : Nat} (h : SMap.risingFrom lo m = true) (hl : lo' ≤ lo) :
    SMap.risingFrom lo' m = true := by
  cases m with
  | nil => rfl
  | cons e m => simp [SMap.risingFrom] at h ⊢; exact ⟨by omega, h.2⟩

theorem SMap.wfFrom_mono {d : α} {m : SMap α} {lo lo' : Nat} (h : SMap.wfFrom d lo m = true) (hl : lo' ≤ lo) :
    SMap.wfFrom d lo' m = true := by
  cases m with
  | nil => rfl
  | cons e m => simp [SMap.wfFrom] at h ⊢; exact ⟨⟨by omega, h.1.2⟩, h.2⟩

/-- The canonical form has rising keys. -/
theorem SMap.rising_of_wf {d : α} {m : SMap α} (h : SMap.wf d m = true) : SMap.rising m = true := by
  suffices ∀ lo, SMap.wfFrom d lo m = true → SMap.risingFrom lo m = true from this 0 h
  clear h
  induction m with
  | nil => intro _ _; rfl
  | cons e m ih => intro lo h; simp [SMap.wfFrom] at h; simp [SMap.risingFrom]; exact ⟨h.1.1, ih _ h.2⟩

omit [DecidableEq α] in
/-- A key below every listed one holds the default. -/
theorem SMap.get_below {d : α} {m : SMap α} {lo k : Nat} (h : SMap.risingFrom lo m = true) (hk : k < lo) : SMap.get d m k = d := by
  cases m with
  | nil => rfl
  | cons e m => simp [SMap.risingFrom] at h; simp [SMap.get]; intro h'; omega

/-- A set key holds its new value. -/
theorem SMap.get_set_same {d : α} {m : SMap α} {k : Nat} {v : α} (h : SMap.rising m = true) :
    SMap.get d (SMap.set d m k v) k = v := by
  suffices ∀ lo, SMap.risingFrom lo m = true → SMap.get d (SMap.set d m k v) k = v from this 0 h
  clear h
  induction m with
  | nil => intro _ _; by_cases hv : v = d <;> simp [SMap.set, SMap.cons, hv, SMap.get]
  | cons e m ih =>
    obtain ⟨j, w⟩ := e
    intro lo h
    simp only [SMap.risingFrom, Bool.and_eq_true, decide_eq_true_eq] at h
    simp only [SMap.set]
    split
    · by_cases hv : v = d
      · simp [SMap.cons, hv, SMap.get]; omega
      · simp [SMap.cons, hv, SMap.get]
    · split
      · subst_vars
        by_cases hv : v = d
        · simp only [SMap.cons, hv, if_true]; exact SMap.get_below h.2 (by omega)
        · simp [SMap.cons, hv, SMap.get]
      · have h1 : ¬ k < j := by omega
        have h2 : ¬ k = j := by omega
        simp only [SMap.get, h1, h2, if_false]; exact ih _ h.2

/-- Setting a key leaves what the others hold. -/
theorem SMap.get_set_other {d d' : α} {m : SMap α} {k k' : Nat} {v : α} (h : SMap.rising m = true) (hk : k' ≠ k) :
    SMap.get d' (SMap.set d m k v) k' = SMap.get d' m k' := by
  suffices ∀ lo, SMap.risingFrom lo m = true → SMap.get d' (SMap.set d m k v) k' = SMap.get d' m k' from this 0 h
  clear h
  induction m with
  | nil => intro _ _; by_cases hv : v = d <;> simp [SMap.set, SMap.cons, hv, SMap.get]; omega
  | cons e m ih =>
    obtain ⟨j, w⟩ := e
    intro lo h
    simp only [SMap.risingFrom, Bool.and_eq_true, decide_eq_true_eq] at h
    simp only [SMap.set]
    split
    · by_cases hv : v = d
      · simp [SMap.cons, hv]
      · simp only [SMap.cons, hv, if_false, SMap.get, hk]
        split
        · split <;> first | rfl | omega
        · rfl
    · split
      · subst_vars
        by_cases hv : v = d
        · simp only [SMap.cons, hv, if_true, SMap.get, hk, if_false]
          split
          · exact SMap.get_below h.2 (by omega)
          · rfl
        · simp [SMap.cons, hv, SMap.get, hk]
      · simp only [SMap.get]; rw [ih _ h.2]

theorem SMap.risingFrom_set {d : α} {m : SMap α} {lo k : Nat} {v : α} (h : SMap.risingFrom lo m = true) (hk : lo ≤ k) :
    SMap.risingFrom lo (SMap.set d m k v) = true := by
  induction m generalizing lo with
  | nil => simp only [SMap.set, SMap.cons]; split <;> simp [SMap.risingFrom, hk]
  | cons e m ih =>
    obtain ⟨j, w⟩ := e
    simp only [SMap.risingFrom, Bool.and_eq_true, decide_eq_true_eq] at h
    simp only [SMap.set, SMap.cons]
    split
    · split
      · simp [SMap.risingFrom, h]
      · simp [SMap.risingFrom, h, hk]; omega
    · split
      · subst_vars; split
        · exact SMap.risingFrom_mono h.2 (by omega)
        · simp [SMap.risingFrom, h]
      · simp [SMap.risingFrom, h]; exact ih h.2 (by omega)

theorem SMap.rising_set {d : α} {m : SMap α} {k : Nat} {v : α} (h : SMap.rising m = true) :
    SMap.rising (SMap.set d m k v) = true := SMap.risingFrom_set h (Nat.zero_le k)

theorem SMap.wfFrom_set {d : α} {m : SMap α} {lo k : Nat} {v : α} (h : SMap.wfFrom d lo m = true) (hk : lo ≤ k) :
    SMap.wfFrom d lo (SMap.set d m k v) = true := by
  induction m generalizing lo with
  | nil => simp only [SMap.set, SMap.cons]; split <;> simp_all [SMap.wfFrom]
  | cons e m ih =>
    obtain ⟨j, w⟩ := e
    simp only [SMap.wfFrom, Bool.and_eq_true, decide_eq_true_eq] at h
    simp only [SMap.set, SMap.cons]
    split
    · split
      · simp [SMap.wfFrom, h]
      · simp_all [SMap.wfFrom] <;> omega
    · split
      · subst_vars; split
        · exact SMap.wfFrom_mono h.2 (by omega)
        · simp_all [SMap.wfFrom]
      · simp [SMap.wfFrom, h]; exact ih h.2 (by omega)

/-- Setting a key keeps the canonical form. -/
theorem SMap.wf_set {d : α} {m : SMap α} {k : Nat} {v : α} (h : SMap.wf d m = true) : SMap.wf d (SMap.set d m k v) = true :=
  SMap.wfFrom_set h (Nat.zero_le k)

theorem SMap.wfFrom_filter {d : α} {m : SMap α} {lo : Nat} {p : Nat × α → Bool} (h : SMap.wfFrom d lo m = true) :
    SMap.wfFrom d lo (m.filter p) = true := by
  induction m generalizing lo with
  | nil => rfl
  | cons e m ih =>
    simp only [SMap.wfFrom, Bool.and_eq_true, decide_eq_true_eq] at h
    simp only [List.filter_cons]; split
    · simp [SMap.wfFrom, h]; exact ih h.2
    · exact SMap.wfFrom_mono (ih h.2) (by omega)

/-- Clearing a range of keys keeps the canonical form. -/
theorem SMap.wf_clear {d : α} {m : SMap α} {lo hi : Nat} (h : SMap.wf d m = true) : SMap.wf d (SMap.clear m lo hi) = true :=
  SMap.wfFrom_filter h

omit [DecidableEq α] in
theorem SMap.risingFrom_filter {m : SMap α} {lo : Nat} {p : Nat × α → Bool} (h : SMap.risingFrom lo m = true) :
    SMap.risingFrom lo (m.filter p) = true := by
  induction m generalizing lo with
  | nil => rfl
  | cons e m ih =>
    simp only [SMap.risingFrom, Bool.and_eq_true, decide_eq_true_eq] at h
    simp only [List.filter_cons]; split
    · simp [SMap.risingFrom, h]; exact ih h.2
    · exact SMap.risingFrom_mono (ih h.2) (by omega)

omit [DecidableEq α] in
theorem SMap.rising_clear {m : SMap α} {lo hi : Nat} (h : SMap.rising m = true) : SMap.rising (SMap.clear m lo hi) = true :=
  SMap.risingFrom_filter h

/-- A cleared key holds the default, the others what they held. -/
theorem SMap.get_filter {α : Type} {d : α} {m : SMap α} {k : Nat} {p : Nat → Bool} (h : SMap.rising m = true) :
    SMap.get d (m.filter (fun e => p e.1)) k = if p k then SMap.get d m k else d := by
  suffices ∀ lo, SMap.risingFrom lo m = true →
      SMap.get d (m.filter (fun e => p e.1)) k = if p k then SMap.get d m k else d from this 0 h
  clear h
  induction m with
  | nil => intro _ _; simp [SMap.get]
  | cons e m ih =>
    obtain ⟨j, w⟩ := e
    intro lo h
    simp only [SMap.risingFrom, Bool.and_eq_true, decide_eq_true_eq] at h
    have ih := ih _ h.2
    simp only [List.filter_cons]
    rcases Nat.lt_trichotomy k j with hk | hk | hk
    · have hb : SMap.get d (m.filter (fun e => p e.1)) k = d := SMap.get_below (SMap.risingFrom_filter h.2) (by omega)
      split <;> simp [SMap.get, hk, hb]
    · subst hk
      have hb : SMap.get d (m.filter (fun e => p e.1)) k = d := SMap.get_below (SMap.risingFrom_filter h.2) (by omega)
      split
      · next hp => simp only [SMap.get, if_true, Nat.lt_irrefl, if_false]
      · next hp => simp only [hb]
    · have h1 : ¬ k < j := by omega
      have h2 : k ≠ j := by omega
      split <;> simp [SMap.get, h1, h2, ih]

theorem SMap.get_clear {α : Type} {d : α} {m : SMap α} {lo hi k : Nat} (h : SMap.rising m = true) :
    SMap.get d (SMap.clear m lo hi) k = if lo ≤ k ∧ k < hi then d else SMap.get d m k := by
  rw [SMap.clear, SMap.get_filter (p := fun k => decide (k < lo) || decide (hi ≤ k)) h]
  by_cases h1 : k < lo <;> by_cases h2 : hi ≤ k <;> simp [h1, h2] <;> omega

theorem SMap.wfFrom_mapVals {d : α} {m : SMap α} {lo : Nat} {f : Nat → α → α} (h : SMap.wfFrom d lo m = true) :
    SMap.wfFrom d lo (SMap.mapVals d f m) = true := by
  induction m generalizing lo with
  | nil => rfl
  | cons e m ih =>
    simp only [SMap.wfFrom, Bool.and_eq_true, decide_eq_true_eq] at h
    simp only [SMap.mapVals, SMap.cons]; split
    · exact SMap.wfFrom_mono (ih h.2) (by omega)
    · simp_all [SMap.wfFrom]

/-- Rewriting the values keeps the canonical form. -/
theorem SMap.wf_mapVals {d : α} {m : SMap α} {f : Nat → α → α} (h : SMap.wf d m = true) : SMap.wf d (SMap.mapVals d f m) = true :=
  SMap.wfFrom_mapVals h

theorem SMap.risingFrom_mapVals {d : α} {m : SMap α} {lo : Nat} {f : Nat → α → α} (h : SMap.risingFrom lo m = true) :
    SMap.risingFrom lo (SMap.mapVals d f m) = true := by
  induction m generalizing lo with
  | nil => rfl
  | cons e m ih =>
    simp only [SMap.risingFrom, Bool.and_eq_true, decide_eq_true_eq] at h
    simp only [SMap.mapVals, SMap.cons]; split
    · exact SMap.risingFrom_mono (ih h.2) (by omega)
    · simp_all [SMap.risingFrom]

theorem SMap.rising_mapVals {d : α} {m : SMap α} {f : Nat → α → α} (h : SMap.rising m = true) :
    SMap.rising (SMap.mapVals d f m) = true := SMap.risingFrom_mapVals h

/-- What a key holds after its value is rewritten. -/
theorem SMap.get_mapVals {d : α} {m : SMap α} {k : Nat} {f : Nat → α → α} (h : SMap.rising m = true) (hd : ∀ k, f k d = d) :
    SMap.get d (SMap.mapVals d f m) k = f k (SMap.get d m k) := by
  suffices ∀ lo, SMap.risingFrom lo m = true → SMap.get d (SMap.mapVals d f m) k = f k (SMap.get d m k) from this 0 h
  clear h
  induction m with
  | nil => intro _ _; simp [SMap.mapVals, SMap.get, hd]
  | cons e m ih =>
    obtain ⟨j, w⟩ := e
    intro lo h
    simp only [SMap.risingFrom, Bool.and_eq_true, decide_eq_true_eq] at h
    simp only [SMap.mapVals, SMap.cons, SMap.get]
    rcases Nat.lt_trichotomy k j with hk | hk | hk
    · split
      · simp only [hd]; exact SMap.get_below (SMap.risingFrom_mapVals h.2) (by omega)
      · simp [SMap.get, hk, hd]
    · subst hk; split
      · simp_all; exact SMap.get_below (SMap.risingFrom_mapVals h.2) (by omega)
      · simp [SMap.get]
    · have h1 : ¬ k < j := by omega
      have h2 : k ≠ j := by omega
      split <;> simp [SMap.get, h1, h2, ih _ h.2]

end Sys2Proof.Machine
end

