-- ==== Sys2Proof/Laws/State.lean ====
section
/-! SUPPORT. What each accessor leaves: one lemma for each field that an update of a unit does not write. -/

namespace Sys2Proof.Machine

variable (s : State)

@[simp] theorem State.setQueue_pending (i q) : (s.setQueue i q).pending = s.pending := rfl
@[simp] theorem State.setQueue_now (i q) : (s.setQueue i q).now = s.now := rfl
@[simp] theorem State.setQueue_freeCtr (i q) : (s.setQueue i q).freeCtr = s.freeCtr := rfl
@[simp] theorem State.setQueue_bring (i q) : (s.setQueue i q).bring = s.bring := rfl
@[simp] theorem State.setQueue_power (i q) : (s.setQueue i q).power = s.power := rfl
@[simp] theorem State.setQueue_regs (i q) : (s.setQueue i q).regs = s.regs := rfl
@[simp] theorem State.setQueue_hiLatch (i q) : (s.setQueue i q).hiLatch = s.hiLatch := rfl
@[simp] theorem State.setQueue_mcRead (i q) : (s.setQueue i q).mcRead = s.mcRead := rfl
@[simp] theorem State.setQueue_mem (i q) : (s.setQueue i q).mem = s.mem := rfl
@[simp] theorem State.setQueue_poison (i q) : (s.setQueue i q).poison = s.poison := rfl
@[simp] theorem State.setQueue_covered (i q) : (s.setQueue i q).covered = s.covered := rfl
@[simp] theorem State.setQueue_granules (i q) : (s.setQueue i q).granules = s.granules := rfl
@[simp] theorem State.setQueue_dmapLast (i q) : (s.setQueue i q).dmapLast = s.dmapLast := rfl
@[simp] theorem State.setQueue_hubs (i q) : (s.setQueue i q).hubs = s.hubs := rfl
@[simp] theorem State.setQueue_channels (i q) : (s.setQueue i q).channels = s.channels := rfl
@[simp] theorem State.setQueue_blockLinks (i q) : (s.setQueue i q).blockLinks = s.blockLinks := rfl
@[simp] theorem State.setQueue_arbiters (i q) : (s.setQueue i q).arbiters = s.arbiters := rfl
@[simp] theorem State.setQueue_ha (i q) : (s.setQueue i q).ha = s.ha := rfl
@[simp] theorem State.setQueue_hb (i q) : (s.setQueue i q).hb = s.hb := rfl
@[simp] theorem State.setQueue_roles (i q) : (s.setQueue i q).roles = s.roles := rfl
@[simp] theorem State.setQueue_evBuf (i q) : (s.setQueue i q).evBuf = s.evBuf := rfl
@[simp] theorem State.setQueue_evLost (i q) : (s.setQueue i q).evLost = s.evLost := rfl
@[simp] theorem State.setQueue_hostqs (i q) : (s.setQueue i q).hostqs = s.hostqs := rfl
@[simp] theorem State.setQueue_cores (i q) : (s.setQueue i q).cores = s.cores := rfl
@[simp] theorem State.setQueue_tacks (i q) : (s.setQueue i q).tacks = s.tacks := rfl
@[simp] theorem State.setQueue_remoteSent (i q) : (s.setQueue i q).remoteSent = s.remoteSent := rfl
@[simp] theorem State.setQueue_remoteApplied (i q) : (s.setQueue i q).remoteApplied = s.remoteApplied := rfl
@[simp] theorem State.setQueue_remoteRejected (i q) : (s.setQueue i q).remoteRejected = s.remoteRejected := rfl
@[simp] theorem State.setQueue_scopes (i q) : (s.setQueue i q).scopes = s.scopes := rfl
@[simp] theorem State.setQueue_gctr (i q) : (s.setQueue i q).gctr = s.gctr := rfl
@[simp] theorem State.setQueue_ctx (i q) : (s.setQueue i q).ctx = s.ctx := rfl
@[simp] theorem State.setQueue_errq (i q) : (s.setQueue i q).errq = s.errq := rfl
@[simp] theorem State.setQueue_chalk (i q) : (s.setQueue i q).chalk = s.chalk := rfl
@[simp] theorem State.setQueue_chalkQ (i q) : (s.setQueue i q).chalkQ = s.chalkQ := rfl
@[simp] theorem State.setQueue_freeze (i q) : (s.setQueue i q).freeze = s.freeze := rfl
@[simp] theorem State.setQueue_engines (i q) : (s.setQueue i q).engines = s.engines := rfl
@[simp] theorem State.setQueue_tailor (i q) : (s.setQueue i q).tailor = s.tailor := rfl
@[simp] theorem State.setQueue_normSlots (i q) : (s.setQueue i q).normSlots = s.normSlots := rfl
@[simp] theorem State.setQueue_lastNorm (i q) : (s.setQueue i q).lastNorm = s.lastNorm := rfl
@[simp] theorem State.setQueue_nanTrap (i q) : (s.setQueue i q).nanTrap = s.nanTrap := rfl
@[simp] theorem State.setQueue_registry (i q) : (s.setQueue i q).registry = s.registry := rfl
@[simp] theorem State.setQueue_upd (i q) : (s.setQueue i q).upd = s.upd := rfl
@[simp] theorem State.setQueue_link (i q) : (s.setQueue i q).link = s.link := rfl
@[simp] theorem State.setQueue_sec (i q) : (s.setQueue i q).sec = s.sec := rfl

@[simp] theorem State.setHostq_pending (i q) : (s.setHostq i q).pending = s.pending := rfl
@[simp] theorem State.setHostq_now (i q) : (s.setHostq i q).now = s.now := rfl
@[simp] theorem State.setHostq_freeCtr (i q) : (s.setHostq i q).freeCtr = s.freeCtr := rfl
@[simp] theorem State.setHostq_bring (i q) : (s.setHostq i q).bring = s.bring := rfl
@[simp] theorem State.setHostq_power (i q) : (s.setHostq i q).power = s.power := rfl
@[simp] theorem State.setHostq_regs (i q) : (s.setHostq i q).regs = s.regs := rfl
@[simp] theorem State.setHostq_hiLatch (i q) : (s.setHostq i q).hiLatch = s.hiLatch := rfl
@[simp] theorem State.setHostq_mcRead (i q) : (s.setHostq i q).mcRead = s.mcRead := rfl
@[simp] theorem State.setHostq_mem (i q) : (s.setHostq i q).mem = s.mem := rfl
@[simp] theorem State.setHostq_poison (i q) : (s.setHostq i q).poison = s.poison := rfl
@[simp] theorem State.setHostq_covered (i q) : (s.setHostq i q).covered = s.covered := rfl
@[simp] theorem State.setHostq_granules (i q) : (s.setHostq i q).granules = s.granules := rfl
@[simp] theorem State.setHostq_dmapLast (i q) : (s.setHostq i q).dmapLast = s.dmapLast := rfl
@[simp] theorem State.setHostq_hubs (i q) : (s.setHostq i q).hubs = s.hubs := rfl
@[simp] theorem State.setHostq_channels (i q) : (s.setHostq i q).channels = s.channels := rfl
@[simp] theorem State.setHostq_blockLinks (i q) : (s.setHostq i q).blockLinks = s.blockLinks := rfl
@[simp] theorem State.setHostq_arbiters (i q) : (s.setHostq i q).arbiters = s.arbiters := rfl
@[simp] theorem State.setHostq_ha (i q) : (s.setHostq i q).ha = s.ha := rfl
@[simp] theorem State.setHostq_hb (i q) : (s.setHostq i q).hb = s.hb := rfl
@[simp] theorem State.setHostq_roles (i q) : (s.setHostq i q).roles = s.roles := rfl
@[simp] theorem State.setHostq_evBuf (i q) : (s.setHostq i q).evBuf = s.evBuf := rfl
@[simp] theorem State.setHostq_evLost (i q) : (s.setHostq i q).evLost = s.evLost := rfl
@[simp] theorem State.setHostq_queues (i q) : (s.setHostq i q).queues = s.queues := rfl
@[simp] theorem State.setHostq_cores (i q) : (s.setHostq i q).cores = s.cores := rfl
@[simp] theorem State.setHostq_tacks (i q) : (s.setHostq i q).tacks = s.tacks := rfl
@[simp] theorem State.setHostq_remoteSent (i q) : (s.setHostq i q).remoteSent = s.remoteSent := rfl
@[simp] theorem State.setHostq_remoteApplied (i q) : (s.setHostq i q).remoteApplied = s.remoteApplied := rfl
@[simp] theorem State.setHostq_remoteRejected (i q) : (s.setHostq i q).remoteRejected = s.remoteRejected := rfl
@[simp] theorem State.setHostq_scopes (i q) : (s.setHostq i q).scopes = s.scopes := rfl
@[simp] theorem State.setHostq_gctr (i q) : (s.setHostq i q).gctr = s.gctr := rfl
@[simp] theorem State.setHostq_ctx (i q) : (s.setHostq i q).ctx = s.ctx := rfl
@[simp] theorem State.setHostq_errq (i q) : (s.setHostq i q).errq = s.errq := rfl
@[simp] theorem State.setHostq_chalk (i q) : (s.setHostq i q).chalk = s.chalk := rfl
@[simp] theorem State.setHostq_chalkQ (i q) : (s.setHostq i q).chalkQ = s.chalkQ := rfl
@[simp] theorem State.setHostq_freeze (i q) : (s.setHostq i q).freeze = s.freeze := rfl
@[simp] theorem State.setHostq_engines (i q) : (s.setHostq i q).engines = s.engines := rfl
@[simp] theorem State.setHostq_tailor (i q) : (s.setHostq i q).tailor = s.tailor := rfl
@[simp] theorem State.setHostq_normSlots (i q) : (s.setHostq i q).normSlots = s.normSlots := rfl
@[simp] theorem State.setHostq_lastNorm (i q) : (s.setHostq i q).lastNorm = s.lastNorm := rfl
@[simp] theorem State.setHostq_nanTrap (i q) : (s.setHostq i q).nanTrap = s.nanTrap := rfl
@[simp] theorem State.setHostq_registry (i q) : (s.setHostq i q).registry = s.registry := rfl
@[simp] theorem State.setHostq_upd (i q) : (s.setHostq i q).upd = s.upd := rfl
@[simp] theorem State.setHostq_link (i q) : (s.setHostq i q).link = s.link := rfl
@[simp] theorem State.setHostq_sec (i q) : (s.setHostq i q).sec = s.sec := rfl

@[simp] theorem State.setCore_pending (c x) : (s.setCore c x).pending = s.pending := rfl
@[simp] theorem State.setCore_now (c x) : (s.setCore c x).now = s.now := rfl
@[simp] theorem State.setCore_freeCtr (c x) : (s.setCore c x).freeCtr = s.freeCtr := rfl
@[simp] theorem State.setCore_bring (c x) : (s.setCore c x).bring = s.bring := rfl
@[simp] theorem State.setCore_power (c x) : (s.setCore c x).power = s.power := rfl
@[simp] theorem State.setCore_regs (c x) : (s.setCore c x).regs = s.regs := rfl
@[simp] theorem State.setCore_hiLatch (c x) : (s.setCore c x).hiLatch = s.hiLatch := rfl
@[simp] theorem State.setCore_mcRead (c x) : (s.setCore c x).mcRead = s.mcRead := rfl
@[simp] theorem State.setCore_mem (c x) : (s.setCore c x).mem = s.mem := rfl
@[simp] theorem State.setCore_poison (c x) : (s.setCore c x).poison = s.poison := rfl
@[simp] theorem State.setCore_covered (c x) : (s.setCore c x).covered = s.covered := rfl
@[simp] theorem State.setCore_granules (c x) : (s.setCore c x).granules = s.granules := rfl
@[simp] theorem State.setCore_dmapLast (c x) : (s.setCore c x).dmapLast = s.dmapLast := rfl
@[simp] theorem State.setCore_hubs (c x) : (s.setCore c x).hubs = s.hubs := rfl
@[simp] theorem State.setCore_channels (c x) : (s.setCore c x).channels = s.channels := rfl
@[simp] theorem State.setCore_blockLinks (c x) : (s.setCore c x).blockLinks = s.blockLinks := rfl
@[simp] theorem State.setCore_arbiters (c x) : (s.setCore c x).arbiters = s.arbiters := rfl
@[simp] theorem State.setCore_ha (c x) : (s.setCore c x).ha = s.ha := rfl
@[simp] theorem State.setCore_hb (c x) : (s.setCore c x).hb = s.hb := rfl
@[simp] theorem State.setCore_roles (c x) : (s.setCore c x).roles = s.roles := rfl
@[simp] theorem State.setCore_evBuf (c x) : (s.setCore c x).evBuf = s.evBuf := rfl
@[simp] theorem State.setCore_evLost (c x) : (s.setCore c x).evLost = s.evLost := rfl
@[simp] theorem State.setCore_queues (c x) : (s.setCore c x).queues = s.queues := rfl
@[simp] theorem State.setCore_hostqs (c x) : (s.setCore c x).hostqs = s.hostqs := rfl
@[simp] theorem State.setCore_tacks (c x) : (s.setCore c x).tacks = s.tacks := rfl
@[simp] theorem State.setCore_remoteSent (c x) : (s.setCore c x).remoteSent = s.remoteSent := rfl
@[simp] theorem State.setCore_remoteApplied (c x) : (s.setCore c x).remoteApplied = s.remoteApplied := rfl
@[simp] theorem State.setCore_remoteRejected (c x) : (s.setCore c x).remoteRejected = s.remoteRejected := rfl
@[simp] theorem State.setCore_scopes (c x) : (s.setCore c x).scopes = s.scopes := rfl
@[simp] theorem State.setCore_gctr (c x) : (s.setCore c x).gctr = s.gctr := rfl
@[simp] theorem State.setCore_ctx (c x) : (s.setCore c x).ctx = s.ctx := rfl
@[simp] theorem State.setCore_errq (c x) : (s.setCore c x).errq = s.errq := rfl
@[simp] theorem State.setCore_chalk (c x) : (s.setCore c x).chalk = s.chalk := rfl
@[simp] theorem State.setCore_chalkQ (c x) : (s.setCore c x).chalkQ = s.chalkQ := rfl
@[simp] theorem State.setCore_freeze (c x) : (s.setCore c x).freeze = s.freeze := rfl
@[simp] theorem State.setCore_engines (c x) : (s.setCore c x).engines = s.engines := rfl
@[simp] theorem State.setCore_tailor (c x) : (s.setCore c x).tailor = s.tailor := rfl
@[simp] theorem State.setCore_normSlots (c x) : (s.setCore c x).normSlots = s.normSlots := rfl
@[simp] theorem State.setCore_lastNorm (c x) : (s.setCore c x).lastNorm = s.lastNorm := rfl
@[simp] theorem State.setCore_nanTrap (c x) : (s.setCore c x).nanTrap = s.nanTrap := rfl
@[simp] theorem State.setCore_registry (c x) : (s.setCore c x).registry = s.registry := rfl
@[simp] theorem State.setCore_upd (c x) : (s.setCore c x).upd = s.upd := rfl
@[simp] theorem State.setCore_link (c x) : (s.setCore c x).link = s.link := rfl
@[simp] theorem State.setCore_sec (c x) : (s.setCore c x).sec = s.sec := rfl

@[simp] theorem State.setTack_pending (n x) : (s.setTack n x).pending = s.pending := rfl
@[simp] theorem State.setTack_now (n x) : (s.setTack n x).now = s.now := rfl
@[simp] theorem State.setTack_freeCtr (n x) : (s.setTack n x).freeCtr = s.freeCtr := rfl
@[simp] theorem State.setTack_bring (n x) : (s.setTack n x).bring = s.bring := rfl
@[simp] theorem State.setTack_power (n x) : (s.setTack n x).power = s.power := rfl
@[simp] theorem State.setTack_regs (n x) : (s.setTack n x).regs = s.regs := rfl
@[simp] theorem State.setTack_hiLatch (n x) : (s.setTack n x).hiLatch = s.hiLatch := rfl
@[simp] theorem State.setTack_mcRead (n x) : (s.setTack n x).mcRead = s.mcRead := rfl
@[simp] theorem State.setTack_mem (n x) : (s.setTack n x).mem = s.mem := rfl
@[simp] theorem State.setTack_poison (n x) : (s.setTack n x).poison = s.poison := rfl
@[simp] theorem State.setTack_covered (n x) : (s.setTack n x).covered = s.covered := rfl
@[simp] theorem State.setTack_granules (n x) : (s.setTack n x).granules = s.granules := rfl
@[simp] theorem State.setTack_dmapLast (n x) : (s.setTack n x).dmapLast = s.dmapLast := rfl
@[simp] theorem State.setTack_hubs (n x) : (s.setTack n x).hubs = s.hubs := rfl
@[simp] theorem State.setTack_channels (n x) : (s.setTack n x).channels = s.channels := rfl
@[simp] theorem State.setTack_blockLinks (n x) : (s.setTack n x).blockLinks = s.blockLinks := rfl
@[simp] theorem State.setTack_arbiters (n x) : (s.setTack n x).arbiters = s.arbiters := rfl
@[simp] theorem State.setTack_ha (n x) : (s.setTack n x).ha = s.ha := rfl
@[simp] theorem State.setTack_hb (n x) : (s.setTack n x).hb = s.hb := rfl
@[simp] theorem State.setTack_roles (n x) : (s.setTack n x).roles = s.roles := rfl
@[simp] theorem State.setTack_evBuf (n x) : (s.setTack n x).evBuf = s.evBuf := rfl
@[simp] theorem State.setTack_evLost (n x) : (s.setTack n x).evLost = s.evLost := rfl
@[simp] theorem State.setTack_queues (n x) : (s.setTack n x).queues = s.queues := rfl
@[simp] theorem State.setTack_hostqs (n x) : (s.setTack n x).hostqs = s.hostqs := rfl
@[simp] theorem State.setTack_cores (n x) : (s.setTack n x).cores = s.cores := rfl
@[simp] theorem State.setTack_remoteSent (n x) : (s.setTack n x).remoteSent = s.remoteSent := rfl
@[simp] theorem State.setTack_remoteApplied (n x) : (s.setTack n x).remoteApplied = s.remoteApplied := rfl
@[simp] theorem State.setTack_remoteRejected (n x) : (s.setTack n x).remoteRejected = s.remoteRejected := rfl
@[simp] theorem State.setTack_scopes (n x) : (s.setTack n x).scopes = s.scopes := rfl
@[simp] theorem State.setTack_gctr (n x) : (s.setTack n x).gctr = s.gctr := rfl
@[simp] theorem State.setTack_ctx (n x) : (s.setTack n x).ctx = s.ctx := rfl
@[simp] theorem State.setTack_errq (n x) : (s.setTack n x).errq = s.errq := rfl
@[simp] theorem State.setTack_chalk (n x) : (s.setTack n x).chalk = s.chalk := rfl
@[simp] theorem State.setTack_chalkQ (n x) : (s.setTack n x).chalkQ = s.chalkQ := rfl
@[simp] theorem State.setTack_freeze (n x) : (s.setTack n x).freeze = s.freeze := rfl
@[simp] theorem State.setTack_engines (n x) : (s.setTack n x).engines = s.engines := rfl
@[simp] theorem State.setTack_tailor (n x) : (s.setTack n x).tailor = s.tailor := rfl
@[simp] theorem State.setTack_normSlots (n x) : (s.setTack n x).normSlots = s.normSlots := rfl
@[simp] theorem State.setTack_lastNorm (n x) : (s.setTack n x).lastNorm = s.lastNorm := rfl
@[simp] theorem State.setTack_nanTrap (n x) : (s.setTack n x).nanTrap = s.nanTrap := rfl
@[simp] theorem State.setTack_registry (n x) : (s.setTack n x).registry = s.registry := rfl
@[simp] theorem State.setTack_upd (n x) : (s.setTack n x).upd = s.upd := rfl
@[simp] theorem State.setTack_link (n x) : (s.setTack n x).link = s.link := rfl
@[simp] theorem State.setTack_sec (n x) : (s.setTack n x).sec = s.sec := rfl

@[simp] theorem State.setScope_pending (i x) : (s.setScope i x).pending = s.pending := rfl
@[simp] theorem State.setScope_now (i x) : (s.setScope i x).now = s.now := rfl
@[simp] theorem State.setScope_freeCtr (i x) : (s.setScope i x).freeCtr = s.freeCtr := rfl
@[simp] theorem State.setScope_bring (i x) : (s.setScope i x).bring = s.bring := rfl
@[simp] theorem State.setScope_power (i x) : (s.setScope i x).power = s.power := rfl
@[simp] theorem State.setScope_regs (i x) : (s.setScope i x).regs = s.regs := rfl
@[simp] theorem State.setScope_hiLatch (i x) : (s.setScope i x).hiLatch = s.hiLatch := rfl
@[simp] theorem State.setScope_mcRead (i x) : (s.setScope i x).mcRead = s.mcRead := rfl
@[simp] theorem State.setScope_mem (i x) : (s.setScope i x).mem = s.mem := rfl
@[simp] theorem State.setScope_poison (i x) : (s.setScope i x).poison = s.poison := rfl
@[simp] theorem State.setScope_covered (i x) : (s.setScope i x).covered = s.covered := rfl
@[simp] theorem State.setScope_granules (i x) : (s.setScope i x).granules = s.granules := rfl
@[simp] theorem State.setScope_dmapLast (i x) : (s.setScope i x).dmapLast = s.dmapLast := rfl
@[simp] theorem State.setScope_hubs (i x) : (s.setScope i x).hubs = s.hubs := rfl
@[simp] theorem State.setScope_channels (i x) : (s.setScope i x).channels = s.channels := rfl
@[simp] theorem State.setScope_blockLinks (i x) : (s.setScope i x).blockLinks = s.blockLinks := rfl
@[simp] theorem State.setScope_arbiters (i x) : (s.setScope i x).arbiters = s.arbiters := rfl
@[simp] theorem State.setScope_ha (i x) : (s.setScope i x).ha = s.ha := rfl
@[simp] theorem State.setScope_hb (i x) : (s.setScope i x).hb = s.hb := rfl
@[simp] theorem State.setScope_roles (i x) : (s.setScope i x).roles = s.roles := rfl
@[simp] theorem State.setScope_evBuf (i x) : (s.setScope i x).evBuf = s.evBuf := rfl
@[simp] theorem State.setScope_evLost (i x) : (s.setScope i x).evLost = s.evLost := rfl
@[simp] theorem State.setScope_queues (i x) : (s.setScope i x).queues = s.queues := rfl
@[simp] theorem State.setScope_hostqs (i x) : (s.setScope i x).hostqs = s.hostqs := rfl
@[simp] theorem State.setScope_cores (i x) : (s.setScope i x).cores = s.cores := rfl
@[simp] theorem State.setScope_tacks (i x) : (s.setScope i x).tacks = s.tacks := rfl
@[simp] theorem State.setScope_remoteSent (i x) : (s.setScope i x).remoteSent = s.remoteSent := rfl
@[simp] theorem State.setScope_remoteApplied (i x) : (s.setScope i x).remoteApplied = s.remoteApplied := rfl
@[simp] theorem State.setScope_remoteRejected (i x) : (s.setScope i x).remoteRejected = s.remoteRejected := rfl
@[simp] theorem State.setScope_gctr (i x) : (s.setScope i x).gctr = s.gctr := rfl
@[simp] theorem State.setScope_ctx (i x) : (s.setScope i x).ctx = s.ctx := rfl
@[simp] theorem State.setScope_errq (i x) : (s.setScope i x).errq = s.errq := rfl
@[simp] theorem State.setScope_chalk (i x) : (s.setScope i x).chalk = s.chalk := rfl
@[simp] theorem State.setScope_chalkQ (i x) : (s.setScope i x).chalkQ = s.chalkQ := rfl
@[simp] theorem State.setScope_freeze (i x) : (s.setScope i x).freeze = s.freeze := rfl
@[simp] theorem State.setScope_engines (i x) : (s.setScope i x).engines = s.engines := rfl
@[simp] theorem State.setScope_tailor (i x) : (s.setScope i x).tailor = s.tailor := rfl
@[simp] theorem State.setScope_normSlots (i x) : (s.setScope i x).normSlots = s.normSlots := rfl
@[simp] theorem State.setScope_lastNorm (i x) : (s.setScope i x).lastNorm = s.lastNorm := rfl
@[simp] theorem State.setScope_nanTrap (i x) : (s.setScope i x).nanTrap = s.nanTrap := rfl
@[simp] theorem State.setScope_registry (i x) : (s.setScope i x).registry = s.registry := rfl
@[simp] theorem State.setScope_upd (i x) : (s.setScope i x).upd = s.upd := rfl
@[simp] theorem State.setScope_link (i x) : (s.setScope i x).link = s.link := rfl
@[simp] theorem State.setScope_sec (i x) : (s.setScope i x).sec = s.sec := rfl

@[simp] theorem State.setHub_pending (h x) : (s.setHub h x).pending = s.pending := rfl
@[simp] theorem State.setHub_now (h x) : (s.setHub h x).now = s.now := rfl
@[simp] theorem State.setHub_freeCtr (h x) : (s.setHub h x).freeCtr = s.freeCtr := rfl
@[simp] theorem State.setHub_bring (h x) : (s.setHub h x).bring = s.bring := rfl
@[simp] theorem State.setHub_power (h x) : (s.setHub h x).power = s.power := rfl
@[simp] theorem State.setHub_regs (h x) : (s.setHub h x).regs = s.regs := rfl
@[simp] theorem State.setHub_hiLatch (h x) : (s.setHub h x).hiLatch = s.hiLatch := rfl
@[simp] theorem State.setHub_mcRead (h x) : (s.setHub h x).mcRead = s.mcRead := rfl
@[simp] theorem State.setHub_mem (h x) : (s.setHub h x).mem = s.mem := rfl
@[simp] theorem State.setHub_poison (h x) : (s.setHub h x).poison = s.poison := rfl
@[simp] theorem State.setHub_covered (h x) : (s.setHub h x).covered = s.covered := rfl
@[simp] theorem State.setHub_granules (h x) : (s.setHub h x).granules = s.granules := rfl
@[simp] theorem State.setHub_dmapLast (h x) : (s.setHub h x).dmapLast = s.dmapLast := rfl
@[simp] theorem State.setHub_channels (h x) : (s.setHub h x).channels = s.channels := rfl
@[simp] theorem State.setHub_blockLinks (h x) : (s.setHub h x).blockLinks = s.blockLinks := rfl
@[simp] theorem State.setHub_arbiters (h x) : (s.setHub h x).arbiters = s.arbiters := rfl
@[simp] theorem State.setHub_ha (h x) : (s.setHub h x).ha = s.ha := rfl
@[simp] theorem State.setHub_hb (h x) : (s.setHub h x).hb = s.hb := rfl
@[simp] theorem State.setHub_roles (h x) : (s.setHub h x).roles = s.roles := rfl
@[simp] theorem State.setHub_evBuf (h x) : (s.setHub h x).evBuf = s.evBuf := rfl
@[simp] theorem State.setHub_evLost (h x) : (s.setHub h x).evLost = s.evLost := rfl
@[simp] theorem State.setHub_queues (h x) : (s.setHub h x).queues = s.queues := rfl
@[simp] theorem State.setHub_hostqs (h x) : (s.setHub h x).hostqs = s.hostqs := rfl
@[simp] theorem State.setHub_cores (h x) : (s.setHub h x).cores = s.cores := rfl
@[simp] theorem State.setHub_tacks (h x) : (s.setHub h x).tacks = s.tacks := rfl
@[simp] theorem State.setHub_remoteSent (h x) : (s.setHub h x).remoteSent = s.remoteSent := rfl
@[simp] theorem State.setHub_remoteApplied (h x) : (s.setHub h x).remoteApplied = s.remoteApplied := rfl
@[simp] theorem State.setHub_remoteRejected (h x) : (s.setHub h x).remoteRejected = s.remoteRejected := rfl
@[simp] theorem State.setHub_scopes (h x) : (s.setHub h x).scopes = s.scopes := rfl
@[simp] theorem State.setHub_gctr (h x) : (s.setHub h x).gctr = s.gctr := rfl
@[simp] theorem State.setHub_ctx (h x) : (s.setHub h x).ctx = s.ctx := rfl
@[simp] theorem State.setHub_errq (h x) : (s.setHub h x).errq = s.errq := rfl
@[simp] theorem State.setHub_chalk (h x) : (s.setHub h x).chalk = s.chalk := rfl
@[simp] theorem State.setHub_chalkQ (h x) : (s.setHub h x).chalkQ = s.chalkQ := rfl
@[simp] theorem State.setHub_freeze (h x) : (s.setHub h x).freeze = s.freeze := rfl
@[simp] theorem State.setHub_engines (h x) : (s.setHub h x).engines = s.engines := rfl
@[simp] theorem State.setHub_tailor (h x) : (s.setHub h x).tailor = s.tailor := rfl
@[simp] theorem State.setHub_normSlots (h x) : (s.setHub h x).normSlots = s.normSlots := rfl
@[simp] theorem State.setHub_lastNorm (h x) : (s.setHub h x).lastNorm = s.lastNorm := rfl
@[simp] theorem State.setHub_nanTrap (h x) : (s.setHub h x).nanTrap = s.nanTrap := rfl
@[simp] theorem State.setHub_registry (h x) : (s.setHub h x).registry = s.registry := rfl
@[simp] theorem State.setHub_upd (h x) : (s.setHub h x).upd = s.upd := rfl
@[simp] theorem State.setHub_link (h x) : (s.setHub h x).link = s.link := rfl
@[simp] theorem State.setHub_sec (h x) : (s.setHub h x).sec = s.sec := rfl

@[simp] theorem State.setChannel_pending (c x) : (s.setChannel c x).pending = s.pending := rfl
@[simp] theorem State.setChannel_now (c x) : (s.setChannel c x).now = s.now := rfl
@[simp] theorem State.setChannel_freeCtr (c x) : (s.setChannel c x).freeCtr = s.freeCtr := rfl
@[simp] theorem State.setChannel_bring (c x) : (s.setChannel c x).bring = s.bring := rfl
@[simp] theorem State.setChannel_power (c x) : (s.setChannel c x).power = s.power := rfl
@[simp] theorem State.setChannel_regs (c x) : (s.setChannel c x).regs = s.regs := rfl
@[simp] theorem State.setChannel_hiLatch (c x) : (s.setChannel c x).hiLatch = s.hiLatch := rfl
@[simp] theorem State.setChannel_mcRead (c x) : (s.setChannel c x).mcRead = s.mcRead := rfl
@[simp] theorem State.setChannel_mem (c x) : (s.setChannel c x).mem = s.mem := rfl
@[simp] theorem State.setChannel_poison (c x) : (s.setChannel c x).poison = s.poison := rfl
@[simp] theorem State.setChannel_covered (c x) : (s.setChannel c x).covered = s.covered := rfl
@[simp] theorem State.setChannel_granules (c x) : (s.setChannel c x).granules = s.granules := rfl
@[simp] theorem State.setChannel_dmapLast (c x) : (s.setChannel c x).dmapLast = s.dmapLast := rfl
@[simp] theorem State.setChannel_hubs (c x) : (s.setChannel c x).hubs = s.hubs := rfl
@[simp] theorem State.setChannel_blockLinks (c x) : (s.setChannel c x).blockLinks = s.blockLinks := rfl
@[simp] theorem State.setChannel_arbiters (c x) : (s.setChannel c x).arbiters = s.arbiters := rfl
@[simp] theorem State.setChannel_ha (c x) : (s.setChannel c x).ha = s.ha := rfl
@[simp] theorem State.setChannel_hb (c x) : (s.setChannel c x).hb = s.hb := rfl
@[simp] theorem State.setChannel_roles (c x) : (s.setChannel c x).roles = s.roles := rfl
@[simp] theorem State.setChannel_evBuf (c x) : (s.setChannel c x).evBuf = s.evBuf := rfl
@[simp] theorem State.setChannel_evLost (c x) : (s.setChannel c x).evLost = s.evLost := rfl
@[simp] theorem State.setChannel_queues (c x) : (s.setChannel c x).queues = s.queues := rfl
@[simp] theorem State.setChannel_hostqs (c x) : (s.setChannel c x).hostqs = s.hostqs := rfl
@[simp] theorem State.setChannel_cores (c x) : (s.setChannel c x).cores = s.cores := rfl
@[simp] theorem State.setChannel_tacks (c x) : (s.setChannel c x).tacks = s.tacks := rfl
@[simp] theorem State.setChannel_remoteSent (c x) : (s.setChannel c x).remoteSent = s.remoteSent := rfl
@[simp] theorem State.setChannel_remoteApplied (c x) : (s.setChannel c x).remoteApplied = s.remoteApplied := rfl
@[simp] theorem State.setChannel_remoteRejected (c x) : (s.setChannel c x).remoteRejected = s.remoteRejected := rfl
@[simp] theorem State.setChannel_scopes (c x) : (s.setChannel c x).scopes = s.scopes := rfl
@[simp] theorem State.setChannel_gctr (c x) : (s.setChannel c x).gctr = s.gctr := rfl
@[simp] theorem State.setChannel_ctx (c x) : (s.setChannel c x).ctx = s.ctx := rfl
@[simp] theorem State.setChannel_errq (c x) : (s.setChannel c x).errq = s.errq := rfl
@[simp] theorem State.setChannel_chalk (c x) : (s.setChannel c x).chalk = s.chalk := rfl
@[simp] theorem State.setChannel_chalkQ (c x) : (s.setChannel c x).chalkQ = s.chalkQ := rfl
@[simp] theorem State.setChannel_freeze (c x) : (s.setChannel c x).freeze = s.freeze := rfl
@[simp] theorem State.setChannel_engines (c x) : (s.setChannel c x).engines = s.engines := rfl
@[simp] theorem State.setChannel_tailor (c x) : (s.setChannel c x).tailor = s.tailor := rfl
@[simp] theorem State.setChannel_normSlots (c x) : (s.setChannel c x).normSlots = s.normSlots := rfl
@[simp] theorem State.setChannel_lastNorm (c x) : (s.setChannel c x).lastNorm = s.lastNorm := rfl
@[simp] theorem State.setChannel_nanTrap (c x) : (s.setChannel c x).nanTrap = s.nanTrap := rfl
@[simp] theorem State.setChannel_registry (c x) : (s.setChannel c x).registry = s.registry := rfl
@[simp] theorem State.setChannel_upd (c x) : (s.setChannel c x).upd = s.upd := rfl
@[simp] theorem State.setChannel_link (c x) : (s.setChannel c x).link = s.link := rfl
@[simp] theorem State.setChannel_sec (c x) : (s.setChannel c x).sec = s.sec := rfl

@[simp] theorem State.setEngine_pending (e x) : (s.setEngine e x).pending = s.pending := rfl
@[simp] theorem State.setEngine_now (e x) : (s.setEngine e x).now = s.now := rfl
@[simp] theorem State.setEngine_freeCtr (e x) : (s.setEngine e x).freeCtr = s.freeCtr := rfl
@[simp] theorem State.setEngine_bring (e x) : (s.setEngine e x).bring = s.bring := rfl
@[simp] theorem State.setEngine_power (e x) : (s.setEngine e x).power = s.power := rfl
@[simp] theorem State.setEngine_regs (e x) : (s.setEngine e x).regs = s.regs := rfl
@[simp] theorem State.setEngine_hiLatch (e x) : (s.setEngine e x).hiLatch = s.hiLatch := rfl
@[simp] theorem State.setEngine_mcRead (e x) : (s.setEngine e x).mcRead = s.mcRead := rfl
@[simp] theorem State.setEngine_mem (e x) : (s.setEngine e x).mem = s.mem := rfl
@[simp] theorem State.setEngine_poison (e x) : (s.setEngine e x).poison = s.poison := rfl
@[simp] theorem State.setEngine_covered (e x) : (s.setEngine e x).covered = s.covered := rfl
@[simp] theorem State.setEngine_granules (e x) : (s.setEngine e x).granules = s.granules := rfl
@[simp] theorem State.setEngine_dmapLast (e x) : (s.setEngine e x).dmapLast = s.dmapLast := rfl
@[simp] theorem State.setEngine_hubs (e x) : (s.setEngine e x).hubs = s.hubs := rfl
@[simp] theorem State.setEngine_channels (e x) : (s.setEngine e x).channels = s.channels := rfl
@[simp] theorem State.setEngine_blockLinks (e x) : (s.setEngine e x).blockLinks = s.blockLinks := rfl
@[simp] theorem State.setEngine_arbiters (e x) : (s.setEngine e x).arbiters = s.arbiters := rfl
@[simp] theorem State.setEngine_ha (e x) : (s.setEngine e x).ha = s.ha := rfl
@[simp] theorem State.setEngine_hb (e x) : (s.setEngine e x).hb = s.hb := rfl
@[simp] theorem State.setEngine_roles (e x) : (s.setEngine e x).roles = s.roles := rfl
@[simp] theorem State.setEngine_evBuf (e x) : (s.setEngine e x).evBuf = s.evBuf := rfl
@[simp] theorem State.setEngine_evLost (e x) : (s.setEngine e x).evLost = s.evLost := rfl
@[simp] theorem State.setEngine_queues (e x) : (s.setEngine e x).queues = s.queues := rfl
@[simp] theorem State.setEngine_hostqs (e x) : (s.setEngine e x).hostqs = s.hostqs := rfl
@[simp] theorem State.setEngine_cores (e x) : (s.setEngine e x).cores = s.cores := rfl
@[simp] theorem State.setEngine_tacks (e x) : (s.setEngine e x).tacks = s.tacks := rfl
@[simp] theorem State.setEngine_remoteSent (e x) : (s.setEngine e x).remoteSent = s.remoteSent := rfl
@[simp] theorem State.setEngine_remoteApplied (e x) : (s.setEngine e x).remoteApplied = s.remoteApplied := rfl
@[simp] theorem State.setEngine_remoteRejected (e x) : (s.setEngine e x).remoteRejected = s.remoteRejected := rfl
@[simp] theorem State.setEngine_scopes (e x) : (s.setEngine e x).scopes = s.scopes := rfl
@[simp] theorem State.setEngine_gctr (e x) : (s.setEngine e x).gctr = s.gctr := rfl
@[simp] theorem State.setEngine_ctx (e x) : (s.setEngine e x).ctx = s.ctx := rfl
@[simp] theorem State.setEngine_errq (e x) : (s.setEngine e x).errq = s.errq := rfl
@[simp] theorem State.setEngine_chalk (e x) : (s.setEngine e x).chalk = s.chalk := rfl
@[simp] theorem State.setEngine_chalkQ (e x) : (s.setEngine e x).chalkQ = s.chalkQ := rfl
@[simp] theorem State.setEngine_freeze (e x) : (s.setEngine e x).freeze = s.freeze := rfl
@[simp] theorem State.setEngine_tailor (e x) : (s.setEngine e x).tailor = s.tailor := rfl
@[simp] theorem State.setEngine_normSlots (e x) : (s.setEngine e x).normSlots = s.normSlots := rfl
@[simp] theorem State.setEngine_lastNorm (e x) : (s.setEngine e x).lastNorm = s.lastNorm := rfl
@[simp] theorem State.setEngine_nanTrap (e x) : (s.setEngine e x).nanTrap = s.nanTrap := rfl
@[simp] theorem State.setEngine_registry (e x) : (s.setEngine e x).registry = s.registry := rfl
@[simp] theorem State.setEngine_upd (e x) : (s.setEngine e x).upd = s.upd := rfl
@[simp] theorem State.setEngine_link (e x) : (s.setEngine e x).link = s.link := rfl
@[simp] theorem State.setEngine_sec (e x) : (s.setEngine e x).sec = s.sec := rfl

@[simp] theorem State.setBuffer_pending (b x) : (s.setBuffer b x).pending = s.pending := rfl
@[simp] theorem State.setBuffer_now (b x) : (s.setBuffer b x).now = s.now := rfl
@[simp] theorem State.setBuffer_freeCtr (b x) : (s.setBuffer b x).freeCtr = s.freeCtr := rfl
@[simp] theorem State.setBuffer_bring (b x) : (s.setBuffer b x).bring = s.bring := rfl
@[simp] theorem State.setBuffer_power (b x) : (s.setBuffer b x).power = s.power := rfl
@[simp] theorem State.setBuffer_regs (b x) : (s.setBuffer b x).regs = s.regs := rfl
@[simp] theorem State.setBuffer_hiLatch (b x) : (s.setBuffer b x).hiLatch = s.hiLatch := rfl
@[simp] theorem State.setBuffer_mcRead (b x) : (s.setBuffer b x).mcRead = s.mcRead := rfl
@[simp] theorem State.setBuffer_mem (b x) : (s.setBuffer b x).mem = s.mem := rfl
@[simp] theorem State.setBuffer_poison (b x) : (s.setBuffer b x).poison = s.poison := rfl
@[simp] theorem State.setBuffer_covered (b x) : (s.setBuffer b x).covered = s.covered := rfl
@[simp] theorem State.setBuffer_granules (b x) : (s.setBuffer b x).granules = s.granules := rfl
@[simp] theorem State.setBuffer_dmapLast (b x) : (s.setBuffer b x).dmapLast = s.dmapLast := rfl
@[simp] theorem State.setBuffer_hubs (b x) : (s.setBuffer b x).hubs = s.hubs := rfl
@[simp] theorem State.setBuffer_channels (b x) : (s.setBuffer b x).channels = s.channels := rfl
@[simp] theorem State.setBuffer_blockLinks (b x) : (s.setBuffer b x).blockLinks = s.blockLinks := rfl
@[simp] theorem State.setBuffer_arbiters (b x) : (s.setBuffer b x).arbiters = s.arbiters := rfl
@[simp] theorem State.setBuffer_ha (b x) : (s.setBuffer b x).ha = s.ha := rfl
@[simp] theorem State.setBuffer_hb (b x) : (s.setBuffer b x).hb = s.hb := rfl
@[simp] theorem State.setBuffer_roles (b x) : (s.setBuffer b x).roles = s.roles := rfl
@[simp] theorem State.setBuffer_evBuf (b x) : (s.setBuffer b x).evBuf = s.evBuf := rfl
@[simp] theorem State.setBuffer_evLost (b x) : (s.setBuffer b x).evLost = s.evLost := rfl
@[simp] theorem State.setBuffer_queues (b x) : (s.setBuffer b x).queues = s.queues := rfl
@[simp] theorem State.setBuffer_hostqs (b x) : (s.setBuffer b x).hostqs = s.hostqs := rfl
@[simp] theorem State.setBuffer_cores (b x) : (s.setBuffer b x).cores = s.cores := rfl
@[simp] theorem State.setBuffer_tacks (b x) : (s.setBuffer b x).tacks = s.tacks := rfl
@[simp] theorem State.setBuffer_remoteSent (b x) : (s.setBuffer b x).remoteSent = s.remoteSent := rfl
@[simp] theorem State.setBuffer_remoteApplied (b x) : (s.setBuffer b x).remoteApplied = s.remoteApplied := rfl
@[simp] theorem State.setBuffer_remoteRejected (b x) : (s.setBuffer b x).remoteRejected = s.remoteRejected := rfl
@[simp] theorem State.setBuffer_scopes (b x) : (s.setBuffer b x).scopes = s.scopes := rfl
@[simp] theorem State.setBuffer_gctr (b x) : (s.setBuffer b x).gctr = s.gctr := rfl
@[simp] theorem State.setBuffer_ctx (b x) : (s.setBuffer b x).ctx = s.ctx := rfl
@[simp] theorem State.setBuffer_errq (b x) : (s.setBuffer b x).errq = s.errq := rfl
@[simp] theorem State.setBuffer_chalkQ (b x) : (s.setBuffer b x).chalkQ = s.chalkQ := rfl
@[simp] theorem State.setBuffer_freeze (b x) : (s.setBuffer b x).freeze = s.freeze := rfl
@[simp] theorem State.setBuffer_engines (b x) : (s.setBuffer b x).engines = s.engines := rfl
@[simp] theorem State.setBuffer_tailor (b x) : (s.setBuffer b x).tailor = s.tailor := rfl
@[simp] theorem State.setBuffer_normSlots (b x) : (s.setBuffer b x).normSlots = s.normSlots := rfl
@[simp] theorem State.setBuffer_lastNorm (b x) : (s.setBuffer b x).lastNorm = s.lastNorm := rfl
@[simp] theorem State.setBuffer_nanTrap (b x) : (s.setBuffer b x).nanTrap = s.nanTrap := rfl
@[simp] theorem State.setBuffer_registry (b x) : (s.setBuffer b x).registry = s.registry := rfl
@[simp] theorem State.setBuffer_upd (b x) : (s.setBuffer b x).upd = s.upd := rfl
@[simp] theorem State.setBuffer_link (b x) : (s.setBuffer b x).link = s.link := rfl
@[simp] theorem State.setBuffer_sec (b x) : (s.setBuffer b x).sec = s.sec := rfl

@[simp] theorem State.setFport_pending (p x) : (s.setFport p x).pending = s.pending := rfl
@[simp] theorem State.setFport_now (p x) : (s.setFport p x).now = s.now := rfl
@[simp] theorem State.setFport_freeCtr (p x) : (s.setFport p x).freeCtr = s.freeCtr := rfl
@[simp] theorem State.setFport_bring (p x) : (s.setFport p x).bring = s.bring := rfl
@[simp] theorem State.setFport_power (p x) : (s.setFport p x).power = s.power := rfl
@[simp] theorem State.setFport_regs (p x) : (s.setFport p x).regs = s.regs := rfl
@[simp] theorem State.setFport_hiLatch (p x) : (s.setFport p x).hiLatch = s.hiLatch := rfl
@[simp] theorem State.setFport_mcRead (p x) : (s.setFport p x).mcRead = s.mcRead := rfl
@[simp] theorem State.setFport_mem (p x) : (s.setFport p x).mem = s.mem := rfl
@[simp] theorem State.setFport_poison (p x) : (s.setFport p x).poison = s.poison := rfl
@[simp] theorem State.setFport_covered (p x) : (s.setFport p x).covered = s.covered := rfl
@[simp] theorem State.setFport_granules (p x) : (s.setFport p x).granules = s.granules := rfl
@[simp] theorem State.setFport_dmapLast (p x) : (s.setFport p x).dmapLast = s.dmapLast := rfl
@[simp] theorem State.setFport_hubs (p x) : (s.setFport p x).hubs = s.hubs := rfl
@[simp] theorem State.setFport_channels (p x) : (s.setFport p x).channels = s.channels := rfl
@[simp] theorem State.setFport_blockLinks (p x) : (s.setFport p x).blockLinks = s.blockLinks := rfl
@[simp] theorem State.setFport_arbiters (p x) : (s.setFport p x).arbiters = s.arbiters := rfl
@[simp] theorem State.setFport_ha (p x) : (s.setFport p x).ha = s.ha := rfl
@[simp] theorem State.setFport_hb (p x) : (s.setFport p x).hb = s.hb := rfl
@[simp] theorem State.setFport_roles (p x) : (s.setFport p x).roles = s.roles := rfl
@[simp] theorem State.setFport_evBuf (p x) : (s.setFport p x).evBuf = s.evBuf := rfl
@[simp] theorem State.setFport_evLost (p x) : (s.setFport p x).evLost = s.evLost := rfl
@[simp] theorem State.setFport_queues (p x) : (s.setFport p x).queues = s.queues := rfl
@[simp] theorem State.setFport_hostqs (p x) : (s.setFport p x).hostqs = s.hostqs := rfl
@[simp] theorem State.setFport_cores (p x) : (s.setFport p x).cores = s.cores := rfl
@[simp] theorem State.setFport_tacks (p x) : (s.setFport p x).tacks = s.tacks := rfl
@[simp] theorem State.setFport_remoteSent (p x) : (s.setFport p x).remoteSent = s.remoteSent := rfl
@[simp] theorem State.setFport_remoteApplied (p x) : (s.setFport p x).remoteApplied = s.remoteApplied := rfl
@[simp] theorem State.setFport_remoteRejected (p x) : (s.setFport p x).remoteRejected = s.remoteRejected := rfl
@[simp] theorem State.setFport_scopes (p x) : (s.setFport p x).scopes = s.scopes := rfl
@[simp] theorem State.setFport_gctr (p x) : (s.setFport p x).gctr = s.gctr := rfl
@[simp] theorem State.setFport_ctx (p x) : (s.setFport p x).ctx = s.ctx := rfl
@[simp] theorem State.setFport_errq (p x) : (s.setFport p x).errq = s.errq := rfl
@[simp] theorem State.setFport_chalk (p x) : (s.setFport p x).chalk = s.chalk := rfl
@[simp] theorem State.setFport_chalkQ (p x) : (s.setFport p x).chalkQ = s.chalkQ := rfl
@[simp] theorem State.setFport_freeze (p x) : (s.setFport p x).freeze = s.freeze := rfl
@[simp] theorem State.setFport_engines (p x) : (s.setFport p x).engines = s.engines := rfl
@[simp] theorem State.setFport_tailor (p x) : (s.setFport p x).tailor = s.tailor := rfl
@[simp] theorem State.setFport_normSlots (p x) : (s.setFport p x).normSlots = s.normSlots := rfl
@[simp] theorem State.setFport_lastNorm (p x) : (s.setFport p x).lastNorm = s.lastNorm := rfl
@[simp] theorem State.setFport_nanTrap (p x) : (s.setFport p x).nanTrap = s.nanTrap := rfl
@[simp] theorem State.setFport_registry (p x) : (s.setFport p x).registry = s.registry := rfl
@[simp] theorem State.setFport_upd (p x) : (s.setFport p x).upd = s.upd := rfl
@[simp] theorem State.setFport_sec (p x) : (s.setFport p x).sec = s.sec := rfl

@[simp] theorem State.setReg_pending (o v) : (s.setReg o v).pending = s.pending := rfl
@[simp] theorem State.setReg_now (o v) : (s.setReg o v).now = s.now := rfl
@[simp] theorem State.setReg_freeCtr (o v) : (s.setReg o v).freeCtr = s.freeCtr := rfl
@[simp] theorem State.setReg_bring (o v) : (s.setReg o v).bring = s.bring := rfl
@[simp] theorem State.setReg_power (o v) : (s.setReg o v).power = s.power := rfl
@[simp] theorem State.setReg_hiLatch (o v) : (s.setReg o v).hiLatch = s.hiLatch := rfl
@[simp] theorem State.setReg_mcRead (o v) : (s.setReg o v).mcRead = s.mcRead := rfl
@[simp] theorem State.setReg_mem (o v) : (s.setReg o v).mem = s.mem := rfl
@[simp] theorem State.setReg_poison (o v) : (s.setReg o v).poison = s.poison := rfl
@[simp] theorem State.setReg_covered (o v) : (s.setReg o v).covered = s.covered := rfl
@[simp] theorem State.setReg_granules (o v) : (s.setReg o v).granules = s.granules := rfl
@[simp] theorem State.setReg_dmapLast (o v) : (s.setReg o v).dmapLast = s.dmapLast := rfl
@[simp] theorem State.setReg_hubs (o v) : (s.setReg o v).hubs = s.hubs := rfl
@[simp] theorem State.setReg_channels (o v) : (s.setReg o v).channels = s.channels := rfl
@[simp] theorem State.setReg_blockLinks (o v) : (s.setReg o v).blockLinks = s.blockLinks := rfl
@[simp] theorem State.setReg_arbiters (o v) : (s.setReg o v).arbiters = s.arbiters := rfl
@[simp] theorem State.setReg_ha (o v) : (s.setReg o v).ha = s.ha := rfl
@[simp] theorem State.setReg_hb (o v) : (s.setReg o v).hb = s.hb := rfl
@[simp] theorem State.setReg_roles (o v) : (s.setReg o v).roles = s.roles := rfl
@[simp] theorem State.setReg_evBuf (o v) : (s.setReg o v).evBuf = s.evBuf := rfl
@[simp] theorem State.setReg_evLost (o v) : (s.setReg o v).evLost = s.evLost := rfl
@[simp] theorem State.setReg_queues (o v) : (s.setReg o v).queues = s.queues := rfl
@[simp] theorem State.setReg_hostqs (o v) : (s.setReg o v).hostqs = s.hostqs := rfl
@[simp] theorem State.setReg_cores (o v) : (s.setReg o v).cores = s.cores := rfl
@[simp] theorem State.setReg_tacks (o v) : (s.setReg o v).tacks = s.tacks := rfl
@[simp] theorem State.setReg_remoteSent (o v) : (s.setReg o v).remoteSent = s.remoteSent := rfl
@[simp] theorem State.setReg_remoteApplied (o v) : (s.setReg o v).remoteApplied = s.remoteApplied := rfl
@[simp] theorem State.setReg_remoteRejected (o v) : (s.setReg o v).remoteRejected = s.remoteRejected := rfl
@[simp] theorem State.setReg_scopes (o v) : (s.setReg o v).scopes = s.scopes := rfl
@[simp] theorem State.setReg_gctr (o v) : (s.setReg o v).gctr = s.gctr := rfl
@[simp] theorem State.setReg_ctx (o v) : (s.setReg o v).ctx = s.ctx := rfl
@[simp] theorem State.setReg_errq (o v) : (s.setReg o v).errq = s.errq := rfl
@[simp] theorem State.setReg_chalk (o v) : (s.setReg o v).chalk = s.chalk := rfl
@[simp] theorem State.setReg_chalkQ (o v) : (s.setReg o v).chalkQ = s.chalkQ := rfl
@[simp] theorem State.setReg_freeze (o v) : (s.setReg o v).freeze = s.freeze := rfl
@[simp] theorem State.setReg_engines (o v) : (s.setReg o v).engines = s.engines := rfl
@[simp] theorem State.setReg_tailor (o v) : (s.setReg o v).tailor = s.tailor := rfl
@[simp] theorem State.setReg_normSlots (o v) : (s.setReg o v).normSlots = s.normSlots := rfl
@[simp] theorem State.setReg_lastNorm (o v) : (s.setReg o v).lastNorm = s.lastNorm := rfl
@[simp] theorem State.setReg_nanTrap (o v) : (s.setReg o v).nanTrap = s.nanTrap := rfl
@[simp] theorem State.setReg_registry (o v) : (s.setReg o v).registry = s.registry := rfl
@[simp] theorem State.setReg_upd (o v) : (s.setReg o v).upd = s.upd := rfl
@[simp] theorem State.setReg_link (o v) : (s.setReg o v).link = s.link := rfl
@[simp] theorem State.setReg_sec (o v) : (s.setReg o v).sec = s.sec := rfl

@[simp] theorem State.addGctr_pending (i n) : (s.addGctr i n).pending = s.pending := rfl
@[simp] theorem State.addGctr_now (i n) : (s.addGctr i n).now = s.now := rfl
@[simp] theorem State.addGctr_freeCtr (i n) : (s.addGctr i n).freeCtr = s.freeCtr := rfl
@[simp] theorem State.addGctr_bring (i n) : (s.addGctr i n).bring = s.bring := rfl
@[simp] theorem State.addGctr_power (i n) : (s.addGctr i n).power = s.power := rfl
@[simp] theorem State.addGctr_regs (i n) : (s.addGctr i n).regs = s.regs := rfl
@[simp] theorem State.addGctr_hiLatch (i n) : (s.addGctr i n).hiLatch = s.hiLatch := rfl
@[simp] theorem State.addGctr_mcRead (i n) : (s.addGctr i n).mcRead = s.mcRead := rfl
@[simp] theorem State.addGctr_mem (i n) : (s.addGctr i n).mem = s.mem := rfl
@[simp] theorem State.addGctr_poison (i n) : (s.addGctr i n).poison = s.poison := rfl
@[simp] theorem State.addGctr_covered (i n) : (s.addGctr i n).covered = s.covered := rfl
@[simp] theorem State.addGctr_granules (i n) : (s.addGctr i n).granules = s.granules := rfl
@[simp] theorem State.addGctr_dmapLast (i n) : (s.addGctr i n).dmapLast = s.dmapLast := rfl
@[simp] theorem State.addGctr_hubs (i n) : (s.addGctr i n).hubs = s.hubs := rfl
@[simp] theorem State.addGctr_channels (i n) : (s.addGctr i n).channels = s.channels := rfl
@[simp] theorem State.addGctr_blockLinks (i n) : (s.addGctr i n).blockLinks = s.blockLinks := rfl
@[simp] theorem State.addGctr_arbiters (i n) : (s.addGctr i n).arbiters = s.arbiters := rfl
@[simp] theorem State.addGctr_ha (i n) : (s.addGctr i n).ha = s.ha := rfl
@[simp] theorem State.addGctr_hb (i n) : (s.addGctr i n).hb = s.hb := rfl
@[simp] theorem State.addGctr_roles (i n) : (s.addGctr i n).roles = s.roles := rfl
@[simp] theorem State.addGctr_evBuf (i n) : (s.addGctr i n).evBuf = s.evBuf := rfl
@[simp] theorem State.addGctr_evLost (i n) : (s.addGctr i n).evLost = s.evLost := rfl
@[simp] theorem State.addGctr_queues (i n) : (s.addGctr i n).queues = s.queues := rfl
@[simp] theorem State.addGctr_hostqs (i n) : (s.addGctr i n).hostqs = s.hostqs := rfl
@[simp] theorem State.addGctr_cores (i n) : (s.addGctr i n).cores = s.cores := rfl
@[simp] theorem State.addGctr_tacks (i n) : (s.addGctr i n).tacks = s.tacks := rfl
@[simp] theorem State.addGctr_remoteSent (i n) : (s.addGctr i n).remoteSent = s.remoteSent := rfl
@[simp] theorem State.addGctr_remoteApplied (i n) : (s.addGctr i n).remoteApplied = s.remoteApplied := rfl
@[simp] theorem State.addGctr_remoteRejected (i n) : (s.addGctr i n).remoteRejected = s.remoteRejected := rfl
@[simp] theorem State.addGctr_scopes (i n) : (s.addGctr i n).scopes = s.scopes := rfl
@[simp] theorem State.addGctr_ctx (i n) : (s.addGctr i n).ctx = s.ctx := rfl
@[simp] theorem State.addGctr_errq (i n) : (s.addGctr i n).errq = s.errq := rfl
@[simp] theorem State.addGctr_chalk (i n) : (s.addGctr i n).chalk = s.chalk := rfl
@[simp] theorem State.addGctr_chalkQ (i n) : (s.addGctr i n).chalkQ = s.chalkQ := rfl
@[simp] theorem State.addGctr_freeze (i n) : (s.addGctr i n).freeze = s.freeze := rfl
@[simp] theorem State.addGctr_engines (i n) : (s.addGctr i n).engines = s.engines := rfl
@[simp] theorem State.addGctr_tailor (i n) : (s.addGctr i n).tailor = s.tailor := rfl
@[simp] theorem State.addGctr_normSlots (i n) : (s.addGctr i n).normSlots = s.normSlots := rfl
@[simp] theorem State.addGctr_lastNorm (i n) : (s.addGctr i n).lastNorm = s.lastNorm := rfl
@[simp] theorem State.addGctr_nanTrap (i n) : (s.addGctr i n).nanTrap = s.nanTrap := rfl
@[simp] theorem State.addGctr_registry (i n) : (s.addGctr i n).registry = s.registry := rfl
@[simp] theorem State.addGctr_upd (i n) : (s.addGctr i n).upd = s.upd := rfl
@[simp] theorem State.addGctr_link (i n) : (s.addGctr i n).link = s.link := rfl
@[simp] theorem State.addGctr_sec (i n) : (s.addGctr i n).sec = s.sec := rfl

@[simp] theorem State.addCtx_pending (d j n) : (s.addCtx d j n).pending = s.pending := rfl
@[simp] theorem State.addCtx_now (d j n) : (s.addCtx d j n).now = s.now := rfl
@[simp] theorem State.addCtx_freeCtr (d j n) : (s.addCtx d j n).freeCtr = s.freeCtr := rfl
@[simp] theorem State.addCtx_bring (d j n) : (s.addCtx d j n).bring = s.bring := rfl
@[simp] theorem State.addCtx_power (d j n) : (s.addCtx d j n).power = s.power := rfl
@[simp] theorem State.addCtx_regs (d j n) : (s.addCtx d j n).regs = s.regs := rfl
@[simp] theorem State.addCtx_hiLatch (d j n) : (s.addCtx d j n).hiLatch = s.hiLatch := rfl
@[simp] theorem State.addCtx_mcRead (d j n) : (s.addCtx d j n).mcRead = s.mcRead := rfl
@[simp] theorem State.addCtx_mem (d j n) : (s.addCtx d j n).mem = s.mem := rfl
@[simp] theorem State.addCtx_poison (d j n) : (s.addCtx d j n).poison = s.poison := rfl
@[simp] theorem State.addCtx_covered (d j n) : (s.addCtx d j n).covered = s.covered := rfl
@[simp] theorem State.addCtx_granules (d j n) : (s.addCtx d j n).granules = s.granules := rfl
@[simp] theorem State.addCtx_dmapLast (d j n) : (s.addCtx d j n).dmapLast = s.dmapLast := rfl
@[simp] theorem State.addCtx_hubs (d j n) : (s.addCtx d j n).hubs = s.hubs := rfl
@[simp] theorem State.addCtx_channels (d j n) : (s.addCtx d j n).channels = s.channels := rfl
@[simp] theorem State.addCtx_blockLinks (d j n) : (s.addCtx d j n).blockLinks = s.blockLinks := rfl
@[simp] theorem State.addCtx_arbiters (d j n) : (s.addCtx d j n).arbiters = s.arbiters := rfl
@[simp] theorem State.addCtx_ha (d j n) : (s.addCtx d j n).ha = s.ha := rfl
@[simp] theorem State.addCtx_hb (d j n) : (s.addCtx d j n).hb = s.hb := rfl
@[simp] theorem State.addCtx_roles (d j n) : (s.addCtx d j n).roles = s.roles := rfl
@[simp] theorem State.addCtx_evBuf (d j n) : (s.addCtx d j n).evBuf = s.evBuf := rfl
@[simp] theorem State.addCtx_evLost (d j n) : (s.addCtx d j n).evLost = s.evLost := rfl
@[simp] theorem State.addCtx_queues (d j n) : (s.addCtx d j n).queues = s.queues := rfl
@[simp] theorem State.addCtx_hostqs (d j n) : (s.addCtx d j n).hostqs = s.hostqs := rfl
@[simp] theorem State.addCtx_cores (d j n) : (s.addCtx d j n).cores = s.cores := rfl
@[simp] theorem State.addCtx_tacks (d j n) : (s.addCtx d j n).tacks = s.tacks := rfl
@[simp] theorem State.addCtx_remoteSent (d j n) : (s.addCtx d j n).remoteSent = s.remoteSent := rfl
@[simp] theorem State.addCtx_remoteApplied (d j n) : (s.addCtx d j n).remoteApplied = s.remoteApplied := rfl
@[simp] theorem State.addCtx_remoteRejected (d j n) : (s.addCtx d j n).remoteRejected = s.remoteRejected := rfl
@[simp] theorem State.addCtx_scopes (d j n) : (s.addCtx d j n).scopes = s.scopes := rfl
@[simp] theorem State.addCtx_gctr (d j n) : (s.addCtx d j n).gctr = s.gctr := rfl
@[simp] theorem State.addCtx_errq (d j n) : (s.addCtx d j n).errq = s.errq := rfl
@[simp] theorem State.addCtx_chalk (d j n) : (s.addCtx d j n).chalk = s.chalk := rfl
@[simp] theorem State.addCtx_chalkQ (d j n) : (s.addCtx d j n).chalkQ = s.chalkQ := rfl
@[simp] theorem State.addCtx_freeze (d j n) : (s.addCtx d j n).freeze = s.freeze := rfl
@[simp] theorem State.addCtx_engines (d j n) : (s.addCtx d j n).engines = s.engines := rfl
@[simp] theorem State.addCtx_tailor (d j n) : (s.addCtx d j n).tailor = s.tailor := rfl
@[simp] theorem State.addCtx_normSlots (d j n) : (s.addCtx d j n).normSlots = s.normSlots := rfl
@[simp] theorem State.addCtx_lastNorm (d j n) : (s.addCtx d j n).lastNorm = s.lastNorm := rfl
@[simp] theorem State.addCtx_nanTrap (d j n) : (s.addCtx d j n).nanTrap = s.nanTrap := rfl
@[simp] theorem State.addCtx_registry (d j n) : (s.addCtx d j n).registry = s.registry := rfl
@[simp] theorem State.addCtx_upd (d j n) : (s.addCtx d j n).upd = s.upd := rfl
@[simp] theorem State.addCtx_link (d j n) : (s.addCtx d j n).link = s.link := rfl
@[simp] theorem State.addCtx_sec (d j n) : (s.addCtx d j n).sec = s.sec := rfl

@[simp] theorem State.setByte_pending (a b) : (s.setByte a b).pending = s.pending := rfl
@[simp] theorem State.setByte_now (a b) : (s.setByte a b).now = s.now := rfl
@[simp] theorem State.setByte_freeCtr (a b) : (s.setByte a b).freeCtr = s.freeCtr := rfl
@[simp] theorem State.setByte_bring (a b) : (s.setByte a b).bring = s.bring := rfl
@[simp] theorem State.setByte_power (a b) : (s.setByte a b).power = s.power := rfl
@[simp] theorem State.setByte_regs (a b) : (s.setByte a b).regs = s.regs := rfl
@[simp] theorem State.setByte_hiLatch (a b) : (s.setByte a b).hiLatch = s.hiLatch := rfl
@[simp] theorem State.setByte_mcRead (a b) : (s.setByte a b).mcRead = s.mcRead := rfl
@[simp] theorem State.setByte_poison (a b) : (s.setByte a b).poison = s.poison := rfl
@[simp] theorem State.setByte_covered (a b) : (s.setByte a b).covered = s.covered := rfl
@[simp] theorem State.setByte_granules (a b) : (s.setByte a b).granules = s.granules := rfl
@[simp] theorem State.setByte_dmapLast (a b) : (s.setByte a b).dmapLast = s.dmapLast := rfl
@[simp] theorem State.setByte_hubs (a b) : (s.setByte a b).hubs = s.hubs := rfl
@[simp] theorem State.setByte_channels (a b) : (s.setByte a b).channels = s.channels := rfl
@[simp] theorem State.setByte_blockLinks (a b) : (s.setByte a b).blockLinks = s.blockLinks := rfl
@[simp] theorem State.setByte_arbiters (a b) : (s.setByte a b).arbiters = s.arbiters := rfl
@[simp] theorem State.setByte_ha (a b) : (s.setByte a b).ha = s.ha := rfl
@[simp] theorem State.setByte_hb (a b) : (s.setByte a b).hb = s.hb := rfl
@[simp] theorem State.setByte_roles (a b) : (s.setByte a b).roles = s.roles := rfl
@[simp] theorem State.setByte_evBuf (a b) : (s.setByte a b).evBuf = s.evBuf := rfl
@[simp] theorem State.setByte_evLost (a b) : (s.setByte a b).evLost = s.evLost := rfl
@[simp] theorem State.setByte_queues (a b) : (s.setByte a b).queues = s.queues := rfl
@[simp] theorem State.setByte_hostqs (a b) : (s.setByte a b).hostqs = s.hostqs := rfl
@[simp] theorem State.setByte_cores (a b) : (s.setByte a b).cores = s.cores := rfl
@[simp] theorem State.setByte_tacks (a b) : (s.setByte a b).tacks = s.tacks := rfl
@[simp] theorem State.setByte_remoteSent (a b) : (s.setByte a b).remoteSent = s.remoteSent := rfl
@[simp] theorem State.setByte_remoteApplied (a b) : (s.setByte a b).remoteApplied = s.remoteApplied := rfl
@[simp] theorem State.setByte_remoteRejected (a b) : (s.setByte a b).remoteRejected = s.remoteRejected := rfl
@[simp] theorem State.setByte_scopes (a b) : (s.setByte a b).scopes = s.scopes := rfl
@[simp] theorem State.setByte_gctr (a b) : (s.setByte a b).gctr = s.gctr := rfl
@[simp] theorem State.setByte_ctx (a b) : (s.setByte a b).ctx = s.ctx := rfl
@[simp] theorem State.setByte_errq (a b) : (s.setByte a b).errq = s.errq := rfl
@[simp] theorem State.setByte_chalk (a b) : (s.setByte a b).chalk = s.chalk := rfl
@[simp] theorem State.setByte_chalkQ (a b) : (s.setByte a b).chalkQ = s.chalkQ := rfl
@[simp] theorem State.setByte_freeze (a b) : (s.setByte a b).freeze = s.freeze := rfl
@[simp] theorem State.setByte_engines (a b) : (s.setByte a b).engines = s.engines := rfl
@[simp] theorem State.setByte_tailor (a b) : (s.setByte a b).tailor = s.tailor := rfl
@[simp] theorem State.setByte_normSlots (a b) : (s.setByte a b).normSlots = s.normSlots := rfl
@[simp] theorem State.setByte_lastNorm (a b) : (s.setByte a b).lastNorm = s.lastNorm := rfl
@[simp] theorem State.setByte_nanTrap (a b) : (s.setByte a b).nanTrap = s.nanTrap := rfl
@[simp] theorem State.setByte_registry (a b) : (s.setByte a b).registry = s.registry := rfl
@[simp] theorem State.setByte_upd (a b) : (s.setByte a b).upd = s.upd := rfl
@[simp] theorem State.setByte_link (a b) : (s.setByte a b).link = s.link := rfl
@[simp] theorem State.setByte_sec (a b) : (s.setByte a b).sec = s.sec := rfl

@[simp] theorem State.clearPoison_pending (a n) : (s.clearPoison a n).pending = s.pending := rfl
@[simp] theorem State.clearPoison_now (a n) : (s.clearPoison a n).now = s.now := rfl
@[simp] theorem State.clearPoison_freeCtr (a n) : (s.clearPoison a n).freeCtr = s.freeCtr := rfl
@[simp] theorem State.clearPoison_bring (a n) : (s.clearPoison a n).bring = s.bring := rfl
@[simp] theorem State.clearPoison_power (a n) : (s.clearPoison a n).power = s.power := rfl
@[simp] theorem State.clearPoison_regs (a n) : (s.clearPoison a n).regs = s.regs := rfl
@[simp] theorem State.clearPoison_hiLatch (a n) : (s.clearPoison a n).hiLatch = s.hiLatch := rfl
@[simp] theorem State.clearPoison_mcRead (a n) : (s.clearPoison a n).mcRead = s.mcRead := rfl
@[simp] theorem State.clearPoison_mem (a n) : (s.clearPoison a n).mem = s.mem := rfl
@[simp] theorem State.clearPoison_granules (a n) : (s.clearPoison a n).granules = s.granules := rfl
@[simp] theorem State.clearPoison_dmapLast (a n) : (s.clearPoison a n).dmapLast = s.dmapLast := rfl
@[simp] theorem State.clearPoison_hubs (a n) : (s.clearPoison a n).hubs = s.hubs := rfl
@[simp] theorem State.clearPoison_channels (a n) : (s.clearPoison a n).channels = s.channels := rfl
@[simp] theorem State.clearPoison_blockLinks (a n) : (s.clearPoison a n).blockLinks = s.blockLinks := rfl
@[simp] theorem State.clearPoison_arbiters (a n) : (s.clearPoison a n).arbiters = s.arbiters := rfl
@[simp] theorem State.clearPoison_ha (a n) : (s.clearPoison a n).ha = s.ha := rfl
@[simp] theorem State.clearPoison_hb (a n) : (s.clearPoison a n).hb = s.hb := rfl
@[simp] theorem State.clearPoison_roles (a n) : (s.clearPoison a n).roles = s.roles := rfl
@[simp] theorem State.clearPoison_evBuf (a n) : (s.clearPoison a n).evBuf = s.evBuf := rfl
@[simp] theorem State.clearPoison_evLost (a n) : (s.clearPoison a n).evLost = s.evLost := rfl
@[simp] theorem State.clearPoison_queues (a n) : (s.clearPoison a n).queues = s.queues := rfl
@[simp] theorem State.clearPoison_hostqs (a n) : (s.clearPoison a n).hostqs = s.hostqs := rfl
@[simp] theorem State.clearPoison_cores (a n) : (s.clearPoison a n).cores = s.cores := rfl
@[simp] theorem State.clearPoison_tacks (a n) : (s.clearPoison a n).tacks = s.tacks := rfl
@[simp] theorem State.clearPoison_remoteSent (a n) : (s.clearPoison a n).remoteSent = s.remoteSent := rfl
@[simp] theorem State.clearPoison_remoteApplied (a n) : (s.clearPoison a n).remoteApplied = s.remoteApplied := rfl
@[simp] theorem State.clearPoison_remoteRejected (a n) : (s.clearPoison a n).remoteRejected = s.remoteRejected := rfl
@[simp] theorem State.clearPoison_scopes (a n) : (s.clearPoison a n).scopes = s.scopes := rfl
@[simp] theorem State.clearPoison_gctr (a n) : (s.clearPoison a n).gctr = s.gctr := rfl
@[simp] theorem State.clearPoison_ctx (a n) : (s.clearPoison a n).ctx = s.ctx := rfl
@[simp] theorem State.clearPoison_errq (a n) : (s.clearPoison a n).errq = s.errq := rfl
@[simp] theorem State.clearPoison_chalk (a n) : (s.clearPoison a n).chalk = s.chalk := rfl
@[simp] theorem State.clearPoison_chalkQ (a n) : (s.clearPoison a n).chalkQ = s.chalkQ := rfl
@[simp] theorem State.clearPoison_freeze (a n) : (s.clearPoison a n).freeze = s.freeze := rfl
@[simp] theorem State.clearPoison_engines (a n) : (s.clearPoison a n).engines = s.engines := rfl
@[simp] theorem State.clearPoison_tailor (a n) : (s.clearPoison a n).tailor = s.tailor := rfl
@[simp] theorem State.clearPoison_normSlots (a n) : (s.clearPoison a n).normSlots = s.normSlots := rfl
@[simp] theorem State.clearPoison_lastNorm (a n) : (s.clearPoison a n).lastNorm = s.lastNorm := rfl
@[simp] theorem State.clearPoison_nanTrap (a n) : (s.clearPoison a n).nanTrap = s.nanTrap := rfl
@[simp] theorem State.clearPoison_registry (a n) : (s.clearPoison a n).registry = s.registry := rfl
@[simp] theorem State.clearPoison_upd (a n) : (s.clearPoison a n).upd = s.upd := rfl
@[simp] theorem State.clearPoison_link (a n) : (s.clearPoison a n).link = s.link := rfl
@[simp] theorem State.clearPoison_sec (a n) : (s.clearPoison a n).sec = s.sec := rfl

@[simp] theorem State.poisonUnits_pending (a n) : (s.poisonUnits a n).pending = s.pending := rfl
@[simp] theorem State.poisonUnits_now (a n) : (s.poisonUnits a n).now = s.now := rfl
@[simp] theorem State.poisonUnits_freeCtr (a n) : (s.poisonUnits a n).freeCtr = s.freeCtr := rfl
@[simp] theorem State.poisonUnits_bring (a n) : (s.poisonUnits a n).bring = s.bring := rfl
@[simp] theorem State.poisonUnits_power (a n) : (s.poisonUnits a n).power = s.power := rfl
@[simp] theorem State.poisonUnits_regs (a n) : (s.poisonUnits a n).regs = s.regs := rfl
@[simp] theorem State.poisonUnits_hiLatch (a n) : (s.poisonUnits a n).hiLatch = s.hiLatch := rfl
@[simp] theorem State.poisonUnits_mcRead (a n) : (s.poisonUnits a n).mcRead = s.mcRead := rfl
@[simp] theorem State.poisonUnits_mem (a n) : (s.poisonUnits a n).mem = s.mem := rfl
@[simp] theorem State.poisonUnits_granules (a n) : (s.poisonUnits a n).granules = s.granules := rfl
@[simp] theorem State.poisonUnits_dmapLast (a n) : (s.poisonUnits a n).dmapLast = s.dmapLast := rfl
@[simp] theorem State.poisonUnits_hubs (a n) : (s.poisonUnits a n).hubs = s.hubs := rfl
@[simp] theorem State.poisonUnits_channels (a n) : (s.poisonUnits a n).channels = s.channels := rfl
@[simp] theorem State.poisonUnits_blockLinks (a n) : (s.poisonUnits a n).blockLinks = s.blockLinks := rfl
@[simp] theorem State.poisonUnits_arbiters (a n) : (s.poisonUnits a n).arbiters = s.arbiters := rfl
@[simp] theorem State.poisonUnits_ha (a n) : (s.poisonUnits a n).ha = s.ha := rfl
@[simp] theorem State.poisonUnits_hb (a n) : (s.poisonUnits a n).hb = s.hb := rfl
@[simp] theorem State.poisonUnits_roles (a n) : (s.poisonUnits a n).roles = s.roles := rfl
@[simp] theorem State.poisonUnits_evBuf (a n) : (s.poisonUnits a n).evBuf = s.evBuf := rfl
@[simp] theorem State.poisonUnits_evLost (a n) : (s.poisonUnits a n).evLost = s.evLost := rfl
@[simp] theorem State.poisonUnits_queues (a n) : (s.poisonUnits a n).queues = s.queues := rfl
@[simp] theorem State.poisonUnits_hostqs (a n) : (s.poisonUnits a n).hostqs = s.hostqs := rfl
@[simp] theorem State.poisonUnits_cores (a n) : (s.poisonUnits a n).cores = s.cores := rfl
@[simp] theorem State.poisonUnits_tacks (a n) : (s.poisonUnits a n).tacks = s.tacks := rfl
@[simp] theorem State.poisonUnits_remoteSent (a n) : (s.poisonUnits a n).remoteSent = s.remoteSent := rfl
@[simp] theorem State.poisonUnits_remoteApplied (a n) : (s.poisonUnits a n).remoteApplied = s.remoteApplied := rfl
@[simp] theorem State.poisonUnits_remoteRejected (a n) : (s.poisonUnits a n).remoteRejected = s.remoteRejected := rfl
@[simp] theorem State.poisonUnits_scopes (a n) : (s.poisonUnits a n).scopes = s.scopes := rfl
@[simp] theorem State.poisonUnits_gctr (a n) : (s.poisonUnits a n).gctr = s.gctr := rfl
@[simp] theorem State.poisonUnits_ctx (a n) : (s.poisonUnits a n).ctx = s.ctx := rfl
@[simp] theorem State.poisonUnits_errq (a n) : (s.poisonUnits a n).errq = s.errq := rfl
@[simp] theorem State.poisonUnits_chalk (a n) : (s.poisonUnits a n).chalk = s.chalk := rfl
@[simp] theorem State.poisonUnits_chalkQ (a n) : (s.poisonUnits a n).chalkQ = s.chalkQ := rfl
@[simp] theorem State.poisonUnits_freeze (a n) : (s.poisonUnits a n).freeze = s.freeze := rfl
@[simp] theorem State.poisonUnits_engines (a n) : (s.poisonUnits a n).engines = s.engines := rfl
@[simp] theorem State.poisonUnits_tailor (a n) : (s.poisonUnits a n).tailor = s.tailor := rfl
@[simp] theorem State.poisonUnits_normSlots (a n) : (s.poisonUnits a n).normSlots = s.normSlots := rfl
@[simp] theorem State.poisonUnits_lastNorm (a n) : (s.poisonUnits a n).lastNorm = s.lastNorm := rfl
@[simp] theorem State.poisonUnits_nanTrap (a n) : (s.poisonUnits a n).nanTrap = s.nanTrap := rfl
@[simp] theorem State.poisonUnits_registry (a n) : (s.poisonUnits a n).registry = s.registry := rfl
@[simp] theorem State.poisonUnits_upd (a n) : (s.poisonUnits a n).upd = s.upd := rfl
@[simp] theorem State.poisonUnits_link (a n) : (s.poisonUnits a n).link = s.link := rfl
@[simp] theorem State.poisonUnits_sec (a n) : (s.poisonUnits a n).sec = s.sec := rfl

@[simp] theorem State.modQueue_pending (i f) : (s.modQueue i f).pending = s.pending := rfl
@[simp] theorem State.modQueue_now (i f) : (s.modQueue i f).now = s.now := rfl
@[simp] theorem State.modQueue_freeCtr (i f) : (s.modQueue i f).freeCtr = s.freeCtr := rfl
@[simp] theorem State.modQueue_bring (i f) : (s.modQueue i f).bring = s.bring := rfl
@[simp] theorem State.modQueue_power (i f) : (s.modQueue i f).power = s.power := rfl
@[simp] theorem State.modQueue_regs (i f) : (s.modQueue i f).regs = s.regs := rfl
@[simp] theorem State.modQueue_hiLatch (i f) : (s.modQueue i f).hiLatch = s.hiLatch := rfl
@[simp] theorem State.modQueue_mcRead (i f) : (s.modQueue i f).mcRead = s.mcRead := rfl
@[simp] theorem State.modQueue_mem (i f) : (s.modQueue i f).mem = s.mem := rfl
@[simp] theorem State.modQueue_poison (i f) : (s.modQueue i f).poison = s.poison := rfl
@[simp] theorem State.modQueue_covered (i f) : (s.modQueue i f).covered = s.covered := rfl
@[simp] theorem State.modQueue_granules (i f) : (s.modQueue i f).granules = s.granules := rfl
@[simp] theorem State.modQueue_dmapLast (i f) : (s.modQueue i f).dmapLast = s.dmapLast := rfl
@[simp] theorem State.modQueue_hubs (i f) : (s.modQueue i f).hubs = s.hubs := rfl
@[simp] theorem State.modQueue_channels (i f) : (s.modQueue i f).channels = s.channels := rfl
@[simp] theorem State.modQueue_blockLinks (i f) : (s.modQueue i f).blockLinks = s.blockLinks := rfl
@[simp] theorem State.modQueue_arbiters (i f) : (s.modQueue i f).arbiters = s.arbiters := rfl
@[simp] theorem State.modQueue_ha (i f) : (s.modQueue i f).ha = s.ha := rfl
@[simp] theorem State.modQueue_hb (i f) : (s.modQueue i f).hb = s.hb := rfl
@[simp] theorem State.modQueue_roles (i f) : (s.modQueue i f).roles = s.roles := rfl
@[simp] theorem State.modQueue_evBuf (i f) : (s.modQueue i f).evBuf = s.evBuf := rfl
@[simp] theorem State.modQueue_evLost (i f) : (s.modQueue i f).evLost = s.evLost := rfl
@[simp] theorem State.modQueue_hostqs (i f) : (s.modQueue i f).hostqs = s.hostqs := rfl
@[simp] theorem State.modQueue_cores (i f) : (s.modQueue i f).cores = s.cores := rfl
@[simp] theorem State.modQueue_tacks (i f) : (s.modQueue i f).tacks = s.tacks := rfl
@[simp] theorem State.modQueue_remoteSent (i f) : (s.modQueue i f).remoteSent = s.remoteSent := rfl
@[simp] theorem State.modQueue_remoteApplied (i f) : (s.modQueue i f).remoteApplied = s.remoteApplied := rfl
@[simp] theorem State.modQueue_remoteRejected (i f) : (s.modQueue i f).remoteRejected = s.remoteRejected := rfl
@[simp] theorem State.modQueue_scopes (i f) : (s.modQueue i f).scopes = s.scopes := rfl
@[simp] theorem State.modQueue_gctr (i f) : (s.modQueue i f).gctr = s.gctr := rfl
@[simp] theorem State.modQueue_ctx (i f) : (s.modQueue i f).ctx = s.ctx := rfl
@[simp] theorem State.modQueue_errq (i f) : (s.modQueue i f).errq = s.errq := rfl
@[simp] theorem State.modQueue_chalk (i f) : (s.modQueue i f).chalk = s.chalk := rfl
@[simp] theorem State.modQueue_chalkQ (i f) : (s.modQueue i f).chalkQ = s.chalkQ := rfl
@[simp] theorem State.modQueue_freeze (i f) : (s.modQueue i f).freeze = s.freeze := rfl
@[simp] theorem State.modQueue_engines (i f) : (s.modQueue i f).engines = s.engines := rfl
@[simp] theorem State.modQueue_tailor (i f) : (s.modQueue i f).tailor = s.tailor := rfl
@[simp] theorem State.modQueue_normSlots (i f) : (s.modQueue i f).normSlots = s.normSlots := rfl
@[simp] theorem State.modQueue_lastNorm (i f) : (s.modQueue i f).lastNorm = s.lastNorm := rfl
@[simp] theorem State.modQueue_nanTrap (i f) : (s.modQueue i f).nanTrap = s.nanTrap := rfl
@[simp] theorem State.modQueue_registry (i f) : (s.modQueue i f).registry = s.registry := rfl
@[simp] theorem State.modQueue_upd (i f) : (s.modQueue i f).upd = s.upd := rfl
@[simp] theorem State.modQueue_link (i f) : (s.modQueue i f).link = s.link := rfl
@[simp] theorem State.modQueue_sec (i f) : (s.modQueue i f).sec = s.sec := rfl

@[simp] theorem State.modHostq_pending (i f) : (s.modHostq i f).pending = s.pending := rfl
@[simp] theorem State.modHostq_now (i f) : (s.modHostq i f).now = s.now := rfl
@[simp] theorem State.modHostq_freeCtr (i f) : (s.modHostq i f).freeCtr = s.freeCtr := rfl
@[simp] theorem State.modHostq_bring (i f) : (s.modHostq i f).bring = s.bring := rfl
@[simp] theorem State.modHostq_power (i f) : (s.modHostq i f).power = s.power := rfl
@[simp] theorem State.modHostq_regs (i f) : (s.modHostq i f).regs = s.regs := rfl
@[simp] theorem State.modHostq_hiLatch (i f) : (s.modHostq i f).hiLatch = s.hiLatch := rfl
@[simp] theorem State.modHostq_mcRead (i f) : (s.modHostq i f).mcRead = s.mcRead := rfl
@[simp] theorem State.modHostq_mem (i f) : (s.modHostq i f).mem = s.mem := rfl
@[simp] theorem State.modHostq_poison (i f) : (s.modHostq i f).poison = s.poison := rfl
@[simp] theorem State.modHostq_covered (i f) : (s.modHostq i f).covered = s.covered := rfl
@[simp] theorem State.modHostq_granules (i f) : (s.modHostq i f).granules = s.granules := rfl
@[simp] theorem State.modHostq_dmapLast (i f) : (s.modHostq i f).dmapLast = s.dmapLast := rfl
@[simp] theorem State.modHostq_hubs (i f) : (s.modHostq i f).hubs = s.hubs := rfl
@[simp] theorem State.modHostq_channels (i f) : (s.modHostq i f).channels = s.channels := rfl
@[simp] theorem State.modHostq_blockLinks (i f) : (s.modHostq i f).blockLinks = s.blockLinks := rfl
@[simp] theorem State.modHostq_arbiters (i f) : (s.modHostq i f).arbiters = s.arbiters := rfl
@[simp] theorem State.modHostq_ha (i f) : (s.modHostq i f).ha = s.ha := rfl
@[simp] theorem State.modHostq_hb (i f) : (s.modHostq i f).hb = s.hb := rfl
@[simp] theorem State.modHostq_roles (i f) : (s.modHostq i f).roles = s.roles := rfl
@[simp] theorem State.modHostq_evBuf (i f) : (s.modHostq i f).evBuf = s.evBuf := rfl
@[simp] theorem State.modHostq_evLost (i f) : (s.modHostq i f).evLost = s.evLost := rfl
@[simp] theorem State.modHostq_queues (i f) : (s.modHostq i f).queues = s.queues := rfl
@[simp] theorem State.modHostq_cores (i f) : (s.modHostq i f).cores = s.cores := rfl
@[simp] theorem State.modHostq_tacks (i f) : (s.modHostq i f).tacks = s.tacks := rfl
@[simp] theorem State.modHostq_remoteSent (i f) : (s.modHostq i f).remoteSent = s.remoteSent := rfl
@[simp] theorem State.modHostq_remoteApplied (i f) : (s.modHostq i f).remoteApplied = s.remoteApplied := rfl
@[simp] theorem State.modHostq_remoteRejected (i f) : (s.modHostq i f).remoteRejected = s.remoteRejected := rfl
@[simp] theorem State.modHostq_scopes (i f) : (s.modHostq i f).scopes = s.scopes := rfl
@[simp] theorem State.modHostq_gctr (i f) : (s.modHostq i f).gctr = s.gctr := rfl
@[simp] theorem State.modHostq_ctx (i f) : (s.modHostq i f).ctx = s.ctx := rfl
@[simp] theorem State.modHostq_errq (i f) : (s.modHostq i f).errq = s.errq := rfl
@[simp] theorem State.modHostq_chalk (i f) : (s.modHostq i f).chalk = s.chalk := rfl
@[simp] theorem State.modHostq_chalkQ (i f) : (s.modHostq i f).chalkQ = s.chalkQ := rfl
@[simp] theorem State.modHostq_freeze (i f) : (s.modHostq i f).freeze = s.freeze := rfl
@[simp] theorem State.modHostq_engines (i f) : (s.modHostq i f).engines = s.engines := rfl
@[simp] theorem State.modHostq_tailor (i f) : (s.modHostq i f).tailor = s.tailor := rfl
@[simp] theorem State.modHostq_normSlots (i f) : (s.modHostq i f).normSlots = s.normSlots := rfl
@[simp] theorem State.modHostq_lastNorm (i f) : (s.modHostq i f).lastNorm = s.lastNorm := rfl
@[simp] theorem State.modHostq_nanTrap (i f) : (s.modHostq i f).nanTrap = s.nanTrap := rfl
@[simp] theorem State.modHostq_registry (i f) : (s.modHostq i f).registry = s.registry := rfl
@[simp] theorem State.modHostq_upd (i f) : (s.modHostq i f).upd = s.upd := rfl
@[simp] theorem State.modHostq_link (i f) : (s.modHostq i f).link = s.link := rfl
@[simp] theorem State.modHostq_sec (i f) : (s.modHostq i f).sec = s.sec := rfl

@[simp] theorem State.modCore_pending (c f) : (s.modCore c f).pending = s.pending := rfl
@[simp] theorem State.modCore_now (c f) : (s.modCore c f).now = s.now := rfl
@[simp] theorem State.modCore_freeCtr (c f) : (s.modCore c f).freeCtr = s.freeCtr := rfl
@[simp] theorem State.modCore_bring (c f) : (s.modCore c f).bring = s.bring := rfl
@[simp] theorem State.modCore_power (c f) : (s.modCore c f).power = s.power := rfl
@[simp] theorem State.modCore_regs (c f) : (s.modCore c f).regs = s.regs := rfl
@[simp] theorem State.modCore_hiLatch (c f) : (s.modCore c f).hiLatch = s.hiLatch := rfl
@[simp] theorem State.modCore_mcRead (c f) : (s.modCore c f).mcRead = s.mcRead := rfl
@[simp] theorem State.modCore_mem (c f) : (s.modCore c f).mem = s.mem := rfl
@[simp] theorem State.modCore_poison (c f) : (s.modCore c f).poison = s.poison := rfl
@[simp] theorem State.modCore_covered (c f) : (s.modCore c f).covered = s.covered := rfl
@[simp] theorem State.modCore_granules (c f) : (s.modCore c f).granules = s.granules := rfl
@[simp] theorem State.modCore_dmapLast (c f) : (s.modCore c f).dmapLast = s.dmapLast := rfl
@[simp] theorem State.modCore_hubs (c f) : (s.modCore c f).hubs = s.hubs := rfl
@[simp] theorem State.modCore_channels (c f) : (s.modCore c f).channels = s.channels := rfl
@[simp] theorem State.modCore_blockLinks (c f) : (s.modCore c f).blockLinks = s.blockLinks := rfl
@[simp] theorem State.modCore_arbiters (c f) : (s.modCore c f).arbiters = s.arbiters := rfl
@[simp] theorem State.modCore_ha (c f) : (s.modCore c f).ha = s.ha := rfl
@[simp] theorem State.modCore_hb (c f) : (s.modCore c f).hb = s.hb := rfl
@[simp] theorem State.modCore_roles (c f) : (s.modCore c f).roles = s.roles := rfl
@[simp] theorem State.modCore_evBuf (c f) : (s.modCore c f).evBuf = s.evBuf := rfl
@[simp] theorem State.modCore_evLost (c f) : (s.modCore c f).evLost = s.evLost := rfl
@[simp] theorem State.modCore_queues (c f) : (s.modCore c f).queues = s.queues := rfl
@[simp] theorem State.modCore_hostqs (c f) : (s.modCore c f).hostqs = s.hostqs := rfl
@[simp] theorem State.modCore_tacks (c f) : (s.modCore c f).tacks = s.tacks := rfl
@[simp] theorem State.modCore_remoteSent (c f) : (s.modCore c f).remoteSent = s.remoteSent := rfl
@[simp] theorem State.modCore_remoteApplied (c f) : (s.modCore c f).remoteApplied = s.remoteApplied := rfl
@[simp] theorem State.modCore_remoteRejected (c f) : (s.modCore c f).remoteRejected = s.remoteRejected := rfl
@[simp] theorem State.modCore_scopes (c f) : (s.modCore c f).scopes = s.scopes := rfl
@[simp] theorem State.modCore_gctr (c f) : (s.modCore c f).gctr = s.gctr := rfl
@[simp] theorem State.modCore_ctx (c f) : (s.modCore c f).ctx = s.ctx := rfl
@[simp] theorem State.modCore_errq (c f) : (s.modCore c f).errq = s.errq := rfl
@[simp] theorem State.modCore_chalk (c f) : (s.modCore c f).chalk = s.chalk := rfl
@[simp] theorem State.modCore_chalkQ (c f) : (s.modCore c f).chalkQ = s.chalkQ := rfl
@[simp] theorem State.modCore_freeze (c f) : (s.modCore c f).freeze = s.freeze := rfl
@[simp] theorem State.modCore_engines (c f) : (s.modCore c f).engines = s.engines := rfl
@[simp] theorem State.modCore_tailor (c f) : (s.modCore c f).tailor = s.tailor := rfl
@[simp] theorem State.modCore_normSlots (c f) : (s.modCore c f).normSlots = s.normSlots := rfl
@[simp] theorem State.modCore_lastNorm (c f) : (s.modCore c f).lastNorm = s.lastNorm := rfl
@[simp] theorem State.modCore_nanTrap (c f) : (s.modCore c f).nanTrap = s.nanTrap := rfl
@[simp] theorem State.modCore_registry (c f) : (s.modCore c f).registry = s.registry := rfl
@[simp] theorem State.modCore_upd (c f) : (s.modCore c f).upd = s.upd := rfl
@[simp] theorem State.modCore_link (c f) : (s.modCore c f).link = s.link := rfl
@[simp] theorem State.modCore_sec (c f) : (s.modCore c f).sec = s.sec := rfl

@[simp] theorem State.modHub_pending (h f) : (s.modHub h f).pending = s.pending := rfl
@[simp] theorem State.modHub_now (h f) : (s.modHub h f).now = s.now := rfl
@[simp] theorem State.modHub_freeCtr (h f) : (s.modHub h f).freeCtr = s.freeCtr := rfl
@[simp] theorem State.modHub_bring (h f) : (s.modHub h f).bring = s.bring := rfl
@[simp] theorem State.modHub_power (h f) : (s.modHub h f).power = s.power := rfl
@[simp] theorem State.modHub_regs (h f) : (s.modHub h f).regs = s.regs := rfl
@[simp] theorem State.modHub_hiLatch (h f) : (s.modHub h f).hiLatch = s.hiLatch := rfl
@[simp] theorem State.modHub_mcRead (h f) : (s.modHub h f).mcRead = s.mcRead := rfl
@[simp] theorem State.modHub_mem (h f) : (s.modHub h f).mem = s.mem := rfl
@[simp] theorem State.modHub_poison (h f) : (s.modHub h f).poison = s.poison := rfl
@[simp] theorem State.modHub_covered (h f) : (s.modHub h f).covered = s.covered := rfl
@[simp] theorem State.modHub_granules (h f) : (s.modHub h f).granules = s.granules := rfl
@[simp] theorem State.modHub_dmapLast (h f) : (s.modHub h f).dmapLast = s.dmapLast := rfl
@[simp] theorem State.modHub_channels (h f) : (s.modHub h f).channels = s.channels := rfl
@[simp] theorem State.modHub_blockLinks (h f) : (s.modHub h f).blockLinks = s.blockLinks := rfl
@[simp] theorem State.modHub_arbiters (h f) : (s.modHub h f).arbiters = s.arbiters := rfl
@[simp] theorem State.modHub_ha (h f) : (s.modHub h f).ha = s.ha := rfl
@[simp] theorem State.modHub_hb (h f) : (s.modHub h f).hb = s.hb := rfl
@[simp] theorem State.modHub_roles (h f) : (s.modHub h f).roles = s.roles := rfl
@[simp] theorem State.modHub_evBuf (h f) : (s.modHub h f).evBuf = s.evBuf := rfl
@[simp] theorem State.modHub_evLost (h f) : (s.modHub h f).evLost = s.evLost := rfl
@[simp] theorem State.modHub_queues (h f) : (s.modHub h f).queues = s.queues := rfl
@[simp] theorem State.modHub_hostqs (h f) : (s.modHub h f).hostqs = s.hostqs := rfl
@[simp] theorem State.modHub_cores (h f) : (s.modHub h f).cores = s.cores := rfl
@[simp] theorem State.modHub_tacks (h f) : (s.modHub h f).tacks = s.tacks := rfl
@[simp] theorem State.modHub_remoteSent (h f) : (s.modHub h f).remoteSent = s.remoteSent := rfl
@[simp] theorem State.modHub_remoteApplied (h f) : (s.modHub h f).remoteApplied = s.remoteApplied := rfl
@[simp] theorem State.modHub_remoteRejected (h f) : (s.modHub h f).remoteRejected = s.remoteRejected := rfl
@[simp] theorem State.modHub_scopes (h f) : (s.modHub h f).scopes = s.scopes := rfl
@[simp] theorem State.modHub_gctr (h f) : (s.modHub h f).gctr = s.gctr := rfl
@[simp] theorem State.modHub_ctx (h f) : (s.modHub h f).ctx = s.ctx := rfl
@[simp] theorem State.modHub_errq (h f) : (s.modHub h f).errq = s.errq := rfl
@[simp] theorem State.modHub_chalk (h f) : (s.modHub h f).chalk = s.chalk := rfl
@[simp] theorem State.modHub_chalkQ (h f) : (s.modHub h f).chalkQ = s.chalkQ := rfl
@[simp] theorem State.modHub_freeze (h f) : (s.modHub h f).freeze = s.freeze := rfl
@[simp] theorem State.modHub_engines (h f) : (s.modHub h f).engines = s.engines := rfl
@[simp] theorem State.modHub_tailor (h f) : (s.modHub h f).tailor = s.tailor := rfl
@[simp] theorem State.modHub_normSlots (h f) : (s.modHub h f).normSlots = s.normSlots := rfl
@[simp] theorem State.modHub_lastNorm (h f) : (s.modHub h f).lastNorm = s.lastNorm := rfl
@[simp] theorem State.modHub_nanTrap (h f) : (s.modHub h f).nanTrap = s.nanTrap := rfl
@[simp] theorem State.modHub_registry (h f) : (s.modHub h f).registry = s.registry := rfl
@[simp] theorem State.modHub_upd (h f) : (s.modHub h f).upd = s.upd := rfl
@[simp] theorem State.modHub_link (h f) : (s.modHub h f).link = s.link := rfl
@[simp] theorem State.modHub_sec (h f) : (s.modHub h f).sec = s.sec := rfl

@[simp] theorem State.modChannel_pending (c f) : (s.modChannel c f).pending = s.pending := rfl
@[simp] theorem State.modChannel_now (c f) : (s.modChannel c f).now = s.now := rfl
@[simp] theorem State.modChannel_freeCtr (c f) : (s.modChannel c f).freeCtr = s.freeCtr := rfl
@[simp] theorem State.modChannel_bring (c f) : (s.modChannel c f).bring = s.bring := rfl
@[simp] theorem State.modChannel_power (c f) : (s.modChannel c f).power = s.power := rfl
@[simp] theorem State.modChannel_regs (c f) : (s.modChannel c f).regs = s.regs := rfl
@[simp] theorem State.modChannel_hiLatch (c f) : (s.modChannel c f).hiLatch = s.hiLatch := rfl
@[simp] theorem State.modChannel_mcRead (c f) : (s.modChannel c f).mcRead = s.mcRead := rfl
@[simp] theorem State.modChannel_mem (c f) : (s.modChannel c f).mem = s.mem := rfl
@[simp] theorem State.modChannel_poison (c f) : (s.modChannel c f).poison = s.poison := rfl
@[simp] theorem State.modChannel_covered (c f) : (s.modChannel c f).covered = s.covered := rfl
@[simp] theorem State.modChannel_granules (c f) : (s.modChannel c f).granules = s.granules := rfl
@[simp] theorem State.modChannel_dmapLast (c f) : (s.modChannel c f).dmapLast = s.dmapLast := rfl
@[simp] theorem State.modChannel_hubs (c f) : (s.modChannel c f).hubs = s.hubs := rfl
@[simp] theorem State.modChannel_blockLinks (c f) : (s.modChannel c f).blockLinks = s.blockLinks := rfl
@[simp] theorem State.modChannel_arbiters (c f) : (s.modChannel c f).arbiters = s.arbiters := rfl
@[simp] theorem State.modChannel_ha (c f) : (s.modChannel c f).ha = s.ha := rfl
@[simp] theorem State.modChannel_hb (c f) : (s.modChannel c f).hb = s.hb := rfl
@[simp] theorem State.modChannel_roles (c f) : (s.modChannel c f).roles = s.roles := rfl
@[simp] theorem State.modChannel_evBuf (c f) : (s.modChannel c f).evBuf = s.evBuf := rfl
@[simp] theorem State.modChannel_evLost (c f) : (s.modChannel c f).evLost = s.evLost := rfl
@[simp] theorem State.modChannel_queues (c f) : (s.modChannel c f).queues = s.queues := rfl
@[simp] theorem State.modChannel_hostqs (c f) : (s.modChannel c f).hostqs = s.hostqs := rfl
@[simp] theorem State.modChannel_cores (c f) : (s.modChannel c f).cores = s.cores := rfl
@[simp] theorem State.modChannel_tacks (c f) : (s.modChannel c f).tacks = s.tacks := rfl
@[simp] theorem State.modChannel_remoteSent (c f) : (s.modChannel c f).remoteSent = s.remoteSent := rfl
@[simp] theorem State.modChannel_remoteApplied (c f) : (s.modChannel c f).remoteApplied = s.remoteApplied := rfl
@[simp] theorem State.modChannel_remoteRejected (c f) : (s.modChannel c f).remoteRejected = s.remoteRejected := rfl
@[simp] theorem State.modChannel_scopes (c f) : (s.modChannel c f).scopes = s.scopes := rfl
@[simp] theorem State.modChannel_gctr (c f) : (s.modChannel c f).gctr = s.gctr := rfl
@[simp] theorem State.modChannel_ctx (c f) : (s.modChannel c f).ctx = s.ctx := rfl
@[simp] theorem State.modChannel_errq (c f) : (s.modChannel c f).errq = s.errq := rfl
@[simp] theorem State.modChannel_chalk (c f) : (s.modChannel c f).chalk = s.chalk := rfl
@[simp] theorem State.modChannel_chalkQ (c f) : (s.modChannel c f).chalkQ = s.chalkQ := rfl
@[simp] theorem State.modChannel_freeze (c f) : (s.modChannel c f).freeze = s.freeze := rfl
@[simp] theorem State.modChannel_engines (c f) : (s.modChannel c f).engines = s.engines := rfl
@[simp] theorem State.modChannel_tailor (c f) : (s.modChannel c f).tailor = s.tailor := rfl
@[simp] theorem State.modChannel_normSlots (c f) : (s.modChannel c f).normSlots = s.normSlots := rfl
@[simp] theorem State.modChannel_lastNorm (c f) : (s.modChannel c f).lastNorm = s.lastNorm := rfl
@[simp] theorem State.modChannel_nanTrap (c f) : (s.modChannel c f).nanTrap = s.nanTrap := rfl
@[simp] theorem State.modChannel_registry (c f) : (s.modChannel c f).registry = s.registry := rfl
@[simp] theorem State.modChannel_upd (c f) : (s.modChannel c f).upd = s.upd := rfl
@[simp] theorem State.modChannel_link (c f) : (s.modChannel c f).link = s.link := rfl
@[simp] theorem State.modChannel_sec (c f) : (s.modChannel c f).sec = s.sec := rfl

@[simp] theorem State.modEngine_pending (e f) : (s.modEngine e f).pending = s.pending := rfl
@[simp] theorem State.modEngine_now (e f) : (s.modEngine e f).now = s.now := rfl
@[simp] theorem State.modEngine_freeCtr (e f) : (s.modEngine e f).freeCtr = s.freeCtr := rfl
@[simp] theorem State.modEngine_bring (e f) : (s.modEngine e f).bring = s.bring := rfl
@[simp] theorem State.modEngine_power (e f) : (s.modEngine e f).power = s.power := rfl
@[simp] theorem State.modEngine_regs (e f) : (s.modEngine e f).regs = s.regs := rfl
@[simp] theorem State.modEngine_hiLatch (e f) : (s.modEngine e f).hiLatch = s.hiLatch := rfl
@[simp] theorem State.modEngine_mcRead (e f) : (s.modEngine e f).mcRead = s.mcRead := rfl
@[simp] theorem State.modEngine_mem (e f) : (s.modEngine e f).mem = s.mem := rfl
@[simp] theorem State.modEngine_poison (e f) : (s.modEngine e f).poison = s.poison := rfl
@[simp] theorem State.modEngine_covered (e f) : (s.modEngine e f).covered = s.covered := rfl
@[simp] theorem State.modEngine_granules (e f) : (s.modEngine e f).granules = s.granules := rfl
@[simp] theorem State.modEngine_dmapLast (e f) : (s.modEngine e f).dmapLast = s.dmapLast := rfl
@[simp] theorem State.modEngine_hubs (e f) : (s.modEngine e f).hubs = s.hubs := rfl
@[simp] theorem State.modEngine_channels (e f) : (s.modEngine e f).channels = s.channels := rfl
@[simp] theorem State.modEngine_blockLinks (e f) : (s.modEngine e f).blockLinks = s.blockLinks := rfl
@[simp] theorem State.modEngine_arbiters (e f) : (s.modEngine e f).arbiters = s.arbiters := rfl
@[simp] theorem State.modEngine_ha (e f) : (s.modEngine e f).ha = s.ha := rfl
@[simp] theorem State.modEngine_hb (e f) : (s.modEngine e f).hb = s.hb := rfl
@[simp] theorem State.modEngine_roles (e f) : (s.modEngine e f).roles = s.roles := rfl
@[simp] theorem State.modEngine_evBuf (e f) : (s.modEngine e f).evBuf = s.evBuf := rfl
@[simp] theorem State.modEngine_evLost (e f) : (s.modEngine e f).evLost = s.evLost := rfl
@[simp] theorem State.modEngine_queues (e f) : (s.modEngine e f).queues = s.queues := rfl
@[simp] theorem State.modEngine_hostqs (e f) : (s.modEngine e f).hostqs = s.hostqs := rfl
@[simp] theorem State.modEngine_cores (e f) : (s.modEngine e f).cores = s.cores := rfl
@[simp] theorem State.modEngine_tacks (e f) : (s.modEngine e f).tacks = s.tacks := rfl
@[simp] theorem State.modEngine_remoteSent (e f) : (s.modEngine e f).remoteSent = s.remoteSent := rfl
@[simp] theorem State.modEngine_remoteApplied (e f) : (s.modEngine e f).remoteApplied = s.remoteApplied := rfl
@[simp] theorem State.modEngine_remoteRejected (e f) : (s.modEngine e f).remoteRejected = s.remoteRejected := rfl
@[simp] theorem State.modEngine_scopes (e f) : (s.modEngine e f).scopes = s.scopes := rfl
@[simp] theorem State.modEngine_gctr (e f) : (s.modEngine e f).gctr = s.gctr := rfl
@[simp] theorem State.modEngine_ctx (e f) : (s.modEngine e f).ctx = s.ctx := rfl
@[simp] theorem State.modEngine_errq (e f) : (s.modEngine e f).errq = s.errq := rfl
@[simp] theorem State.modEngine_chalk (e f) : (s.modEngine e f).chalk = s.chalk := rfl
@[simp] theorem State.modEngine_chalkQ (e f) : (s.modEngine e f).chalkQ = s.chalkQ := rfl
@[simp] theorem State.modEngine_freeze (e f) : (s.modEngine e f).freeze = s.freeze := rfl
@[simp] theorem State.modEngine_tailor (e f) : (s.modEngine e f).tailor = s.tailor := rfl
@[simp] theorem State.modEngine_normSlots (e f) : (s.modEngine e f).normSlots = s.normSlots := rfl
@[simp] theorem State.modEngine_lastNorm (e f) : (s.modEngine e f).lastNorm = s.lastNorm := rfl
@[simp] theorem State.modEngine_nanTrap (e f) : (s.modEngine e f).nanTrap = s.nanTrap := rfl
@[simp] theorem State.modEngine_registry (e f) : (s.modEngine e f).registry = s.registry := rfl
@[simp] theorem State.modEngine_upd (e f) : (s.modEngine e f).upd = s.upd := rfl
@[simp] theorem State.modEngine_link (e f) : (s.modEngine e f).link = s.link := rfl
@[simp] theorem State.modEngine_sec (e f) : (s.modEngine e f).sec = s.sec := rfl

@[simp] theorem State.modBuffer_pending (b f) : (s.modBuffer b f).pending = s.pending := rfl
@[simp] theorem State.modBuffer_now (b f) : (s.modBuffer b f).now = s.now := rfl
@[simp] theorem State.modBuffer_freeCtr (b f) : (s.modBuffer b f).freeCtr = s.freeCtr := rfl
@[simp] theorem State.modBuffer_bring (b f) : (s.modBuffer b f).bring = s.bring := rfl
@[simp] theorem State.modBuffer_power (b f) : (s.modBuffer b f).power = s.power := rfl
@[simp] theorem State.modBuffer_regs (b f) : (s.modBuffer b f).regs = s.regs := rfl
@[simp] theorem State.modBuffer_hiLatch (b f) : (s.modBuffer b f).hiLatch = s.hiLatch := rfl
@[simp] theorem State.modBuffer_mcRead (b f) : (s.modBuffer b f).mcRead = s.mcRead := rfl
@[simp] theorem State.modBuffer_mem (b f) : (s.modBuffer b f).mem = s.mem := rfl
@[simp] theorem State.modBuffer_poison (b f) : (s.modBuffer b f).poison = s.poison := rfl
@[simp] theorem State.modBuffer_covered (b f) : (s.modBuffer b f).covered = s.covered := rfl
@[simp] theorem State.modBuffer_granules (b f) : (s.modBuffer b f).granules = s.granules := rfl
@[simp] theorem State.modBuffer_dmapLast (b f) : (s.modBuffer b f).dmapLast = s.dmapLast := rfl
@[simp] theorem State.modBuffer_hubs (b f) : (s.modBuffer b f).hubs = s.hubs := rfl
@[simp] theorem State.modBuffer_channels (b f) : (s.modBuffer b f).channels = s.channels := rfl
@[simp] theorem State.modBuffer_blockLinks (b f) : (s.modBuffer b f).blockLinks = s.blockLinks := rfl
@[simp] theorem State.modBuffer_arbiters (b f) : (s.modBuffer b f).arbiters = s.arbiters := rfl
@[simp] theorem State.modBuffer_ha (b f) : (s.modBuffer b f).ha = s.ha := rfl
@[simp] theorem State.modBuffer_hb (b f) : (s.modBuffer b f).hb = s.hb := rfl
@[simp] theorem State.modBuffer_roles (b f) : (s.modBuffer b f).roles = s.roles := rfl
@[simp] theorem State.modBuffer_evBuf (b f) : (s.modBuffer b f).evBuf = s.evBuf := rfl
@[simp] theorem State.modBuffer_evLost (b f) : (s.modBuffer b f).evLost = s.evLost := rfl
@[simp] theorem State.modBuffer_queues (b f) : (s.modBuffer b f).queues = s.queues := rfl
@[simp] theorem State.modBuffer_hostqs (b f) : (s.modBuffer b f).hostqs = s.hostqs := rfl
@[simp] theorem State.modBuffer_cores (b f) : (s.modBuffer b f).cores = s.cores := rfl
@[simp] theorem State.modBuffer_tacks (b f) : (s.modBuffer b f).tacks = s.tacks := rfl
@[simp] theorem State.modBuffer_remoteSent (b f) : (s.modBuffer b f).remoteSent = s.remoteSent := rfl
@[simp] theorem State.modBuffer_remoteApplied (b f) : (s.modBuffer b f).remoteApplied = s.remoteApplied := rfl
@[simp] theorem State.modBuffer_remoteRejected (b f) : (s.modBuffer b f).remoteRejected = s.remoteRejected := rfl
@[simp] theorem State.modBuffer_scopes (b f) : (s.modBuffer b f).scopes = s.scopes := rfl
@[simp] theorem State.modBuffer_gctr (b f) : (s.modBuffer b f).gctr = s.gctr := rfl
@[simp] theorem State.modBuffer_ctx (b f) : (s.modBuffer b f).ctx = s.ctx := rfl
@[simp] theorem State.modBuffer_errq (b f) : (s.modBuffer b f).errq = s.errq := rfl
@[simp] theorem State.modBuffer_chalkQ (b f) : (s.modBuffer b f).chalkQ = s.chalkQ := rfl
@[simp] theorem State.modBuffer_freeze (b f) : (s.modBuffer b f).freeze = s.freeze := rfl
@[simp] theorem State.modBuffer_engines (b f) : (s.modBuffer b f).engines = s.engines := rfl
@[simp] theorem State.modBuffer_tailor (b f) : (s.modBuffer b f).tailor = s.tailor := rfl
@[simp] theorem State.modBuffer_normSlots (b f) : (s.modBuffer b f).normSlots = s.normSlots := rfl
@[simp] theorem State.modBuffer_lastNorm (b f) : (s.modBuffer b f).lastNorm = s.lastNorm := rfl
@[simp] theorem State.modBuffer_nanTrap (b f) : (s.modBuffer b f).nanTrap = s.nanTrap := rfl
@[simp] theorem State.modBuffer_registry (b f) : (s.modBuffer b f).registry = s.registry := rfl
@[simp] theorem State.modBuffer_upd (b f) : (s.modBuffer b f).upd = s.upd := rfl
@[simp] theorem State.modBuffer_link (b f) : (s.modBuffer b f).link = s.link := rfl
@[simp] theorem State.modBuffer_sec (b f) : (s.modBuffer b f).sec = s.sec := rfl

@[simp] theorem State.modFport_pending (p f) : (s.modFport p f).pending = s.pending := rfl
@[simp] theorem State.modFport_now (p f) : (s.modFport p f).now = s.now := rfl
@[simp] theorem State.modFport_freeCtr (p f) : (s.modFport p f).freeCtr = s.freeCtr := rfl
@[simp] theorem State.modFport_bring (p f) : (s.modFport p f).bring = s.bring := rfl
@[simp] theorem State.modFport_power (p f) : (s.modFport p f).power = s.power := rfl
@[simp] theorem State.modFport_regs (p f) : (s.modFport p f).regs = s.regs := rfl
@[simp] theorem State.modFport_hiLatch (p f) : (s.modFport p f).hiLatch = s.hiLatch := rfl
@[simp] theorem State.modFport_mcRead (p f) : (s.modFport p f).mcRead = s.mcRead := rfl
@[simp] theorem State.modFport_mem (p f) : (s.modFport p f).mem = s.mem := rfl
@[simp] theorem State.modFport_poison (p f) : (s.modFport p f).poison = s.poison := rfl
@[simp] theorem State.modFport_covered (p f) : (s.modFport p f).covered = s.covered := rfl
@[simp] theorem State.modFport_granules (p f) : (s.modFport p f).granules = s.granules := rfl
@[simp] theorem State.modFport_dmapLast (p f) : (s.modFport p f).dmapLast = s.dmapLast := rfl
@[simp] theorem State.modFport_hubs (p f) : (s.modFport p f).hubs = s.hubs := rfl
@[simp] theorem State.modFport_channels (p f) : (s.modFport p f).channels = s.channels := rfl
@[simp] theorem State.modFport_blockLinks (p f) : (s.modFport p f).blockLinks = s.blockLinks := rfl
@[simp] theorem State.modFport_arbiters (p f) : (s.modFport p f).arbiters = s.arbiters := rfl
@[simp] theorem State.modFport_ha (p f) : (s.modFport p f).ha = s.ha := rfl
@[simp] theorem State.modFport_hb (p f) : (s.modFport p f).hb = s.hb := rfl
@[simp] theorem State.modFport_roles (p f) : (s.modFport p f).roles = s.roles := rfl
@[simp] theorem State.modFport_evBuf (p f) : (s.modFport p f).evBuf = s.evBuf := rfl
@[simp] theorem State.modFport_evLost (p f) : (s.modFport p f).evLost = s.evLost := rfl
@[simp] theorem State.modFport_queues (p f) : (s.modFport p f).queues = s.queues := rfl
@[simp] theorem State.modFport_hostqs (p f) : (s.modFport p f).hostqs = s.hostqs := rfl
@[simp] theorem State.modFport_cores (p f) : (s.modFport p f).cores = s.cores := rfl
@[simp] theorem State.modFport_tacks (p f) : (s.modFport p f).tacks = s.tacks := rfl
@[simp] theorem State.modFport_remoteSent (p f) : (s.modFport p f).remoteSent = s.remoteSent := rfl
@[simp] theorem State.modFport_remoteApplied (p f) : (s.modFport p f).remoteApplied = s.remoteApplied := rfl
@[simp] theorem State.modFport_remoteRejected (p f) : (s.modFport p f).remoteRejected = s.remoteRejected := rfl
@[simp] theorem State.modFport_scopes (p f) : (s.modFport p f).scopes = s.scopes := rfl
@[simp] theorem State.modFport_gctr (p f) : (s.modFport p f).gctr = s.gctr := rfl
@[simp] theorem State.modFport_ctx (p f) : (s.modFport p f).ctx = s.ctx := rfl
@[simp] theorem State.modFport_errq (p f) : (s.modFport p f).errq = s.errq := rfl
@[simp] theorem State.modFport_chalk (p f) : (s.modFport p f).chalk = s.chalk := rfl
@[simp] theorem State.modFport_chalkQ (p f) : (s.modFport p f).chalkQ = s.chalkQ := rfl
@[simp] theorem State.modFport_freeze (p f) : (s.modFport p f).freeze = s.freeze := rfl
@[simp] theorem State.modFport_engines (p f) : (s.modFport p f).engines = s.engines := rfl
@[simp] theorem State.modFport_tailor (p f) : (s.modFport p f).tailor = s.tailor := rfl
@[simp] theorem State.modFport_normSlots (p f) : (s.modFport p f).normSlots = s.normSlots := rfl
@[simp] theorem State.modFport_lastNorm (p f) : (s.modFport p f).lastNorm = s.lastNorm := rfl
@[simp] theorem State.modFport_nanTrap (p f) : (s.modFport p f).nanTrap = s.nanTrap := rfl
@[simp] theorem State.modFport_registry (p f) : (s.modFport p f).registry = s.registry := rfl
@[simp] theorem State.modFport_upd (p f) : (s.modFport p f).upd = s.upd := rfl
@[simp] theorem State.modFport_sec (p f) : (s.modFport p f).sec = s.sec := rfl

@[simp] theorem State.setPort_pending (p x) : (s.setPort p x).pending = s.pending := by cases p <;> rfl
@[simp] theorem State.setPort_now (p x) : (s.setPort p x).now = s.now := by cases p <;> rfl
@[simp] theorem State.setPort_freeCtr (p x) : (s.setPort p x).freeCtr = s.freeCtr := by cases p <;> rfl
@[simp] theorem State.setPort_bring (p x) : (s.setPort p x).bring = s.bring := by cases p <;> rfl
@[simp] theorem State.setPort_power (p x) : (s.setPort p x).power = s.power := by cases p <;> rfl
@[simp] theorem State.setPort_regs (p x) : (s.setPort p x).regs = s.regs := by cases p <;> rfl
@[simp] theorem State.setPort_hiLatch (p x) : (s.setPort p x).hiLatch = s.hiLatch := by cases p <;> rfl
@[simp] theorem State.setPort_mcRead (p x) : (s.setPort p x).mcRead = s.mcRead := by cases p <;> rfl
@[simp] theorem State.setPort_mem (p x) : (s.setPort p x).mem = s.mem := by cases p <;> rfl
@[simp] theorem State.setPort_poison (p x) : (s.setPort p x).poison = s.poison := by cases p <;> rfl
@[simp] theorem State.setPort_covered (p x) : (s.setPort p x).covered = s.covered := by cases p <;> rfl
@[simp] theorem State.setPort_granules (p x) : (s.setPort p x).granules = s.granules := by cases p <;> rfl
@[simp] theorem State.setPort_dmapLast (p x) : (s.setPort p x).dmapLast = s.dmapLast := by cases p <;> rfl
@[simp] theorem State.setPort_hubs (p x) : (s.setPort p x).hubs = s.hubs := by cases p <;> rfl
@[simp] theorem State.setPort_channels (p x) : (s.setPort p x).channels = s.channels := by cases p <;> rfl
@[simp] theorem State.setPort_blockLinks (p x) : (s.setPort p x).blockLinks = s.blockLinks := by cases p <;> rfl
@[simp] theorem State.setPort_arbiters (p x) : (s.setPort p x).arbiters = s.arbiters := by cases p <;> rfl
@[simp] theorem State.setPort_roles (p x) : (s.setPort p x).roles = s.roles := by cases p <;> rfl
@[simp] theorem State.setPort_evBuf (p x) : (s.setPort p x).evBuf = s.evBuf := by cases p <;> rfl
@[simp] theorem State.setPort_evLost (p x) : (s.setPort p x).evLost = s.evLost := by cases p <;> rfl
@[simp] theorem State.setPort_queues (p x) : (s.setPort p x).queues = s.queues := by cases p <;> rfl
@[simp] theorem State.setPort_hostqs (p x) : (s.setPort p x).hostqs = s.hostqs := by cases p <;> rfl
@[simp] theorem State.setPort_cores (p x) : (s.setPort p x).cores = s.cores := by cases p <;> rfl
@[simp] theorem State.setPort_tacks (p x) : (s.setPort p x).tacks = s.tacks := by cases p <;> rfl
@[simp] theorem State.setPort_remoteSent (p x) : (s.setPort p x).remoteSent = s.remoteSent := by cases p <;> rfl
@[simp] theorem State.setPort_remoteApplied (p x) : (s.setPort p x).remoteApplied = s.remoteApplied := by cases p <;> rfl
@[simp] theorem State.setPort_remoteRejected (p x) : (s.setPort p x).remoteRejected = s.remoteRejected := by cases p <;> rfl
@[simp] theorem State.setPort_scopes (p x) : (s.setPort p x).scopes = s.scopes := by cases p <;> rfl
@[simp] theorem State.setPort_gctr (p x) : (s.setPort p x).gctr = s.gctr := by cases p <;> rfl
@[simp] theorem State.setPort_ctx (p x) : (s.setPort p x).ctx = s.ctx := by cases p <;> rfl
@[simp] theorem State.setPort_errq (p x) : (s.setPort p x).errq = s.errq := by cases p <;> rfl
@[simp] theorem State.setPort_chalk (p x) : (s.setPort p x).chalk = s.chalk := by cases p <;> rfl
@[simp] theorem State.setPort_chalkQ (p x) : (s.setPort p x).chalkQ = s.chalkQ := by cases p <;> rfl
@[simp] theorem State.setPort_freeze (p x) : (s.setPort p x).freeze = s.freeze := by cases p <;> rfl
@[simp] theorem State.setPort_engines (p x) : (s.setPort p x).engines = s.engines := by cases p <;> rfl
@[simp] theorem State.setPort_tailor (p x) : (s.setPort p x).tailor = s.tailor := by cases p <;> rfl
@[simp] theorem State.setPort_normSlots (p x) : (s.setPort p x).normSlots = s.normSlots := by cases p <;> rfl
@[simp] theorem State.setPort_lastNorm (p x) : (s.setPort p x).lastNorm = s.lastNorm := by cases p <;> rfl
@[simp] theorem State.setPort_nanTrap (p x) : (s.setPort p x).nanTrap = s.nanTrap := by cases p <;> rfl
@[simp] theorem State.setPort_registry (p x) : (s.setPort p x).registry = s.registry := by cases p <;> rfl
@[simp] theorem State.setPort_upd (p x) : (s.setPort p x).upd = s.upd := by cases p <;> rfl
@[simp] theorem State.setPort_link (p x) : (s.setPort p x).link = s.link := by cases p <;> rfl
@[simp] theorem State.setPort_sec (p x) : (s.setPort p x).sec = s.sec := by cases p <;> rfl
@[simp] theorem State.modPort_pending (p f) : (s.modPort p f).pending = s.pending := by cases p <;> rfl
@[simp] theorem State.modPort_now (p f) : (s.modPort p f).now = s.now := by cases p <;> rfl
@[simp] theorem State.modPort_freeCtr (p f) : (s.modPort p f).freeCtr = s.freeCtr := by cases p <;> rfl
@[simp] theorem State.modPort_bring (p f) : (s.modPort p f).bring = s.bring := by cases p <;> rfl
@[simp] theorem State.modPort_power (p f) : (s.modPort p f).power = s.power := by cases p <;> rfl
@[simp] theorem State.modPort_regs (p f) : (s.modPort p f).regs = s.regs := by cases p <;> rfl
@[simp] theorem State.modPort_hiLatch (p f) : (s.modPort p f).hiLatch = s.hiLatch := by cases p <;> rfl
@[simp] theorem State.modPort_mcRead (p f) : (s.modPort p f).mcRead = s.mcRead := by cases p <;> rfl
@[simp] theorem State.modPort_mem (p f) : (s.modPort p f).mem = s.mem := by cases p <;> rfl
@[simp] theorem State.modPort_poison (p f) : (s.modPort p f).poison = s.poison := by cases p <;> rfl
@[simp] theorem State.modPort_covered (p f) : (s.modPort p f).covered = s.covered := by cases p <;> rfl
@[simp] theorem State.modPort_granules (p f) : (s.modPort p f).granules = s.granules := by cases p <;> rfl
@[simp] theorem State.modPort_dmapLast (p f) : (s.modPort p f).dmapLast = s.dmapLast := by cases p <;> rfl
@[simp] theorem State.modPort_hubs (p f) : (s.modPort p f).hubs = s.hubs := by cases p <;> rfl
@[simp] theorem State.modPort_channels (p f) : (s.modPort p f).channels = s.channels := by cases p <;> rfl
@[simp] theorem State.modPort_blockLinks (p f) : (s.modPort p f).blockLinks = s.blockLinks := by cases p <;> rfl
@[simp] theorem State.modPort_arbiters (p f) : (s.modPort p f).arbiters = s.arbiters := by cases p <;> rfl
@[simp] theorem State.modPort_roles (p f) : (s.modPort p f).roles = s.roles := by cases p <;> rfl
@[simp] theorem State.modPort_evBuf (p f) : (s.modPort p f).evBuf = s.evBuf := by cases p <;> rfl
@[simp] theorem State.modPort_evLost (p f) : (s.modPort p f).evLost = s.evLost := by cases p <;> rfl
@[simp] theorem State.modPort_queues (p f) : (s.modPort p f).queues = s.queues := by cases p <;> rfl
@[simp] theorem State.modPort_hostqs (p f) : (s.modPort p f).hostqs = s.hostqs := by cases p <;> rfl
@[simp] theorem State.modPort_cores (p f) : (s.modPort p f).cores = s.cores := by cases p <;> rfl
@[simp] theorem State.modPort_tacks (p f) : (s.modPort p f).tacks = s.tacks := by cases p <;> rfl
@[simp] theorem State.modPort_remoteSent (p f) : (s.modPort p f).remoteSent = s.remoteSent := by cases p <;> rfl
@[simp] theorem State.modPort_remoteApplied (p f) : (s.modPort p f).remoteApplied = s.remoteApplied := by cases p <;> rfl
@[simp] theorem State.modPort_remoteRejected (p f) : (s.modPort p f).remoteRejected = s.remoteRejected := by cases p <;> rfl
@[simp] theorem State.modPort_scopes (p f) : (s.modPort p f).scopes = s.scopes := by cases p <;> rfl
@[simp] theorem State.modPort_gctr (p f) : (s.modPort p f).gctr = s.gctr := by cases p <;> rfl
@[simp] theorem State.modPort_ctx (p f) : (s.modPort p f).ctx = s.ctx := by cases p <;> rfl
@[simp] theorem State.modPort_errq (p f) : (s.modPort p f).errq = s.errq := by cases p <;> rfl
@[simp] theorem State.modPort_chalk (p f) : (s.modPort p f).chalk = s.chalk := by cases p <;> rfl
@[simp] theorem State.modPort_chalkQ (p f) : (s.modPort p f).chalkQ = s.chalkQ := by cases p <;> rfl
@[simp] theorem State.modPort_freeze (p f) : (s.modPort p f).freeze = s.freeze := by cases p <;> rfl
@[simp] theorem State.modPort_engines (p f) : (s.modPort p f).engines = s.engines := by cases p <;> rfl
@[simp] theorem State.modPort_tailor (p f) : (s.modPort p f).tailor = s.tailor := by cases p <;> rfl
@[simp] theorem State.modPort_normSlots (p f) : (s.modPort p f).normSlots = s.normSlots := by cases p <;> rfl
@[simp] theorem State.modPort_lastNorm (p f) : (s.modPort p f).lastNorm = s.lastNorm := by cases p <;> rfl
@[simp] theorem State.modPort_nanTrap (p f) : (s.modPort p f).nanTrap = s.nanTrap := by cases p <;> rfl
@[simp] theorem State.modPort_registry (p f) : (s.modPort p f).registry = s.registry := by cases p <;> rfl
@[simp] theorem State.modPort_upd (p f) : (s.modPort p f).upd = s.upd := by cases p <;> rfl
@[simp] theorem State.modPort_link (p f) : (s.modPort p f).link = s.link := by cases p <;> rfl
@[simp] theorem State.modPort_sec (p f) : (s.modPort p f).sec = s.sec := by cases p <;> rfl
@[simp] theorem State.draw_pending : s.draw.2.pending = s.pending := rfl
@[simp] theorem State.draw_now : s.draw.2.now = s.now := rfl
@[simp] theorem State.draw_bring : s.draw.2.bring = s.bring := rfl
@[simp] theorem State.draw_power : s.draw.2.power = s.power := rfl
@[simp] theorem State.draw_regs : s.draw.2.regs = s.regs := rfl
@[simp] theorem State.draw_hiLatch : s.draw.2.hiLatch = s.hiLatch := rfl
@[simp] theorem State.draw_mcRead : s.draw.2.mcRead = s.mcRead := rfl
@[simp] theorem State.draw_mem : s.draw.2.mem = s.mem := rfl
@[simp] theorem State.draw_poison : s.draw.2.poison = s.poison := rfl
@[simp] theorem State.draw_covered : s.draw.2.covered = s.covered := rfl
@[simp] theorem State.draw_granules : s.draw.2.granules = s.granules := rfl
@[simp] theorem State.draw_dmapLast : s.draw.2.dmapLast = s.dmapLast := rfl
@[simp] theorem State.draw_hubs : s.draw.2.hubs = s.hubs := rfl
@[simp] theorem State.draw_channels : s.draw.2.channels = s.channels := rfl
@[simp] theorem State.draw_blockLinks : s.draw.2.blockLinks = s.blockLinks := rfl
@[simp] theorem State.draw_arbiters : s.draw.2.arbiters = s.arbiters := rfl
@[simp] theorem State.draw_ha : s.draw.2.ha = s.ha := rfl
@[simp] theorem State.draw_hb : s.draw.2.hb = s.hb := rfl
@[simp] theorem State.draw_roles : s.draw.2.roles = s.roles := rfl
@[simp] theorem State.draw_evBuf : s.draw.2.evBuf = s.evBuf := rfl
@[simp] theorem State.draw_evLost : s.draw.2.evLost = s.evLost := rfl
@[simp] theorem State.draw_queues : s.draw.2.queues = s.queues := rfl
@[simp] theorem State.draw_hostqs : s.draw.2.hostqs = s.hostqs := rfl
@[simp] theorem State.draw_cores : s.draw.2.cores = s.cores := rfl
@[simp] theorem State.draw_tacks : s.draw.2.tacks = s.tacks := rfl
@[simp] theorem State.draw_remoteSent : s.draw.2.remoteSent = s.remoteSent := rfl
@[simp] theorem State.draw_remoteApplied : s.draw.2.remoteApplied = s.remoteApplied := rfl
@[simp] theorem State.draw_remoteRejected : s.draw.2.remoteRejected = s.remoteRejected := rfl
@[simp] theorem State.draw_scopes : s.draw.2.scopes = s.scopes := rfl
@[simp] theorem State.draw_gctr : s.draw.2.gctr = s.gctr := rfl
@[simp] theorem State.draw_ctx : s.draw.2.ctx = s.ctx := rfl
@[simp] theorem State.draw_errq : s.draw.2.errq = s.errq := rfl
@[simp] theorem State.draw_chalk : s.draw.2.chalk = s.chalk := rfl
@[simp] theorem State.draw_chalkQ : s.draw.2.chalkQ = s.chalkQ := rfl
@[simp] theorem State.draw_freeze : s.draw.2.freeze = s.freeze := rfl
@[simp] theorem State.draw_engines : s.draw.2.engines = s.engines := rfl
@[simp] theorem State.draw_tailor : s.draw.2.tailor = s.tailor := rfl
@[simp] theorem State.draw_normSlots : s.draw.2.normSlots = s.normSlots := rfl
@[simp] theorem State.draw_lastNorm : s.draw.2.lastNorm = s.lastNorm := rfl
@[simp] theorem State.draw_nanTrap : s.draw.2.nanTrap = s.nanTrap := rfl
@[simp] theorem State.draw_registry : s.draw.2.registry = s.registry := rfl
@[simp] theorem State.draw_upd : s.draw.2.upd = s.upd := rfl
@[simp] theorem State.draw_link : s.draw.2.link = s.link := rfl
@[simp] theorem State.draw_sec : s.draw.2.sec = s.sec := rfl
@[simp] theorem State.undrain_pending (p) : (s.undrain p).pending = s.pending := by cases p <;> rfl
@[simp] theorem State.undrain_now (p) : (s.undrain p).now = s.now := by cases p <;> rfl
@[simp] theorem State.undrain_freeCtr (p) : (s.undrain p).freeCtr = s.freeCtr := by cases p <;> rfl
@[simp] theorem State.undrain_bring (p) : (s.undrain p).bring = s.bring := by cases p <;> rfl
@[simp] theorem State.undrain_power (p) : (s.undrain p).power = s.power := by cases p <;> rfl
@[simp] theorem State.undrain_regs (p) : (s.undrain p).regs = s.regs := by cases p <;> rfl
@[simp] theorem State.undrain_hiLatch (p) : (s.undrain p).hiLatch = s.hiLatch := by cases p <;> rfl
@[simp] theorem State.undrain_mcRead (p) : (s.undrain p).mcRead = s.mcRead := by cases p <;> rfl
@[simp] theorem State.undrain_mem (p) : (s.undrain p).mem = s.mem := by cases p <;> rfl
@[simp] theorem State.undrain_poison (p) : (s.undrain p).poison = s.poison := by cases p <;> rfl
@[simp] theorem State.undrain_covered (p) : (s.undrain p).covered = s.covered := by cases p <;> rfl
@[simp] theorem State.undrain_granules (p) : (s.undrain p).granules = s.granules := by cases p <;> rfl
@[simp] theorem State.undrain_dmapLast (p) : (s.undrain p).dmapLast = s.dmapLast := by cases p <;> rfl
@[simp] theorem State.undrain_hubs (p) : (s.undrain p).hubs = s.hubs := by cases p <;> rfl
@[simp] theorem State.undrain_channels (p) : (s.undrain p).channels = s.channels := by cases p <;> rfl
@[simp] theorem State.undrain_blockLinks (p) : (s.undrain p).blockLinks = s.blockLinks := by cases p <;> rfl
@[simp] theorem State.undrain_arbiters (p) : (s.undrain p).arbiters = s.arbiters := by cases p <;> rfl
@[simp] theorem State.undrain_roles (p) : (s.undrain p).roles = s.roles := by cases p <;> rfl
@[simp] theorem State.undrain_evBuf (p) : (s.undrain p).evBuf = s.evBuf := by cases p <;> rfl
@[simp] theorem State.undrain_evLost (p) : (s.undrain p).evLost = s.evLost := by cases p <;> rfl
@[simp] theorem State.undrain_queues (p) : (s.undrain p).queues = s.queues := by cases p <;> rfl
@[simp] theorem State.undrain_hostqs (p) : (s.undrain p).hostqs = s.hostqs := by cases p <;> rfl
@[simp] theorem State.undrain_cores (p) : (s.undrain p).cores = s.cores := by cases p <;> rfl
@[simp] theorem State.undrain_tacks (p) : (s.undrain p).tacks = s.tacks := by cases p <;> rfl
@[simp] theorem State.undrain_remoteSent (p) : (s.undrain p).remoteSent = s.remoteSent := by cases p <;> rfl
@[simp] theorem State.undrain_remoteApplied (p) : (s.undrain p).remoteApplied = s.remoteApplied := by cases p <;> rfl
@[simp] theorem State.undrain_remoteRejected (p) : (s.undrain p).remoteRejected = s.remoteRejected := by cases p <;> rfl
@[simp] theorem State.undrain_scopes (p) : (s.undrain p).scopes = s.scopes := by cases p <;> rfl
@[simp] theorem State.undrain_gctr (p) : (s.undrain p).gctr = s.gctr := by cases p <;> rfl
@[simp] theorem State.undrain_ctx (p) : (s.undrain p).ctx = s.ctx := by cases p <;> rfl
@[simp] theorem State.undrain_errq (p) : (s.undrain p).errq = s.errq := by cases p <;> rfl
@[simp] theorem State.undrain_chalk (p) : (s.undrain p).chalk = s.chalk := by cases p <;> rfl
@[simp] theorem State.undrain_chalkQ (p) : (s.undrain p).chalkQ = s.chalkQ := by cases p <;> rfl
@[simp] theorem State.undrain_freeze (p) : (s.undrain p).freeze = s.freeze := by cases p <;> rfl
@[simp] theorem State.undrain_engines (p) : (s.undrain p).engines = s.engines := by cases p <;> rfl
@[simp] theorem State.undrain_tailor (p) : (s.undrain p).tailor = s.tailor := by cases p <;> rfl
@[simp] theorem State.undrain_normSlots (p) : (s.undrain p).normSlots = s.normSlots := by cases p <;> rfl
@[simp] theorem State.undrain_lastNorm (p) : (s.undrain p).lastNorm = s.lastNorm := by cases p <;> rfl
@[simp] theorem State.undrain_nanTrap (p) : (s.undrain p).nanTrap = s.nanTrap := by cases p <;> rfl
@[simp] theorem State.undrain_registry (p) : (s.undrain p).registry = s.registry := by cases p <;> rfl
@[simp] theorem State.undrain_upd (p) : (s.undrain p).upd = s.upd := by cases p <;> rfl
@[simp] theorem State.undrain_link (p) : (s.undrain p).link = s.link := by cases p <;> rfl
@[simp] theorem State.undrain_sec (p) : (s.undrain p).sec = s.sec := by cases p <;> rfl

end Sys2Proof.Machine
end

