-- ==== Sys2Proof/Laws/Units.lean ====
section
/-! SUPPORT. Reading a unit after a unit of its set has been written. -/

namespace Sys2Proof.Machine

variable {s : State}

theorem State.queue_setQueue {i : Nat} {x : CoreQ} (h : SMap.rising s.queues = true) : (s.setQueue i x).queue i = x := SMap.get_set_same h
theorem State.queue_setQueue_ne {i j : Nat} {x : CoreQ} (h : SMap.rising s.queues = true) (hj : j ≠ i) : (s.setQueue i x).queue j = s.queue j :=
  SMap.get_set_other h hj
theorem State.queue_modQueue {i : Nat} {f : CoreQ → CoreQ} (h : SMap.rising s.queues = true) : (s.modQueue i f).queue i = f (s.queue i) :=
  SMap.get_set_same h
theorem State.queue_modQueue_ne {i j : Nat} {f : CoreQ → CoreQ} (h : SMap.rising s.queues = true) (hj : j ≠ i) : (s.modQueue i f).queue j = s.queue j :=
  SMap.get_set_other h hj

theorem State.hostq_setHostq {i : Nat} {x : HostQ} (h : SMap.rising s.hostqs = true) : (s.setHostq i x).hostq i = x := SMap.get_set_same h
theorem State.hostq_setHostq_ne {i j : Nat} {x : HostQ} (h : SMap.rising s.hostqs = true) (hj : j ≠ i) : (s.setHostq i x).hostq j = s.hostq j :=
  SMap.get_set_other h hj
theorem State.hostq_modHostq {i : Nat} {f : HostQ → HostQ} (h : SMap.rising s.hostqs = true) : (s.modHostq i f).hostq i = f (s.hostq i) :=
  SMap.get_set_same h
theorem State.hostq_modHostq_ne {i j : Nat} {f : HostQ → HostQ} (h : SMap.rising s.hostqs = true) (hj : j ≠ i) : (s.modHostq i f).hostq j = s.hostq j :=
  SMap.get_set_other h hj

theorem State.core_setCore {i : Nat} {x : Core} (h : SMap.rising s.cores = true) : (s.setCore i x).core i = x := SMap.get_set_same h
theorem State.core_setCore_ne {i j : Nat} {x : Core} (h : SMap.rising s.cores = true) (hj : j ≠ i) : (s.setCore i x).core j = s.core j :=
  SMap.get_set_other h hj
theorem State.core_modCore {i : Nat} {f : Core → Core} (h : SMap.rising s.cores = true) : (s.modCore i f).core i = f (s.core i) :=
  SMap.get_set_same h
theorem State.core_modCore_ne {i j : Nat} {f : Core → Core} (h : SMap.rising s.cores = true) (hj : j ≠ i) : (s.modCore i f).core j = s.core j :=
  SMap.get_set_other h hj

theorem State.tack_setTack {i : Nat} {x : Tack} (h : SMap.rising s.tacks = true) : (s.setTack i x).tack i = x := SMap.get_set_same h
theorem State.tack_setTack_ne {i j : Nat} {x : Tack} (h : SMap.rising s.tacks = true) (hj : j ≠ i) : (s.setTack i x).tack j = s.tack j :=
  SMap.get_set_other h hj

theorem State.scope_setScope {i : Nat} {x : Scoped} (h : SMap.rising s.scopes = true) : (s.setScope i x).scope i = x := SMap.get_set_same h
theorem State.scope_setScope_ne {i j : Nat} {x : Scoped} (h : SMap.rising s.scopes = true) (hj : j ≠ i) : (s.setScope i x).scope j = s.scope j :=
  SMap.get_set_other h hj

theorem State.hub_setHub {i : Nat} {x : Hub} (h : SMap.rising s.hubs = true) : (s.setHub i x).hub i = x := SMap.get_set_same h
theorem State.hub_setHub_ne {i j : Nat} {x : Hub} (h : SMap.rising s.hubs = true) (hj : j ≠ i) : (s.setHub i x).hub j = s.hub j :=
  SMap.get_set_other h hj
theorem State.hub_modHub {i : Nat} {f : Hub → Hub} (h : SMap.rising s.hubs = true) : (s.modHub i f).hub i = f (s.hub i) :=
  SMap.get_set_same h
theorem State.hub_modHub_ne {i j : Nat} {f : Hub → Hub} (h : SMap.rising s.hubs = true) (hj : j ≠ i) : (s.modHub i f).hub j = s.hub j :=
  SMap.get_set_other h hj

theorem State.channel_setChannel {i : Nat} {x : Channel} (h : SMap.rising s.channels = true) : (s.setChannel i x).channel i = x := SMap.get_set_same h
theorem State.channel_setChannel_ne {i j : Nat} {x : Channel} (h : SMap.rising s.channels = true) (hj : j ≠ i) : (s.setChannel i x).channel j = s.channel j :=
  SMap.get_set_other h hj
theorem State.channel_modChannel {i : Nat} {f : Channel → Channel} (h : SMap.rising s.channels = true) : (s.modChannel i f).channel i = f (s.channel i) :=
  SMap.get_set_same h
theorem State.channel_modChannel_ne {i j : Nat} {f : Channel → Channel} (h : SMap.rising s.channels = true) (hj : j ≠ i) : (s.modChannel i f).channel j = s.channel j :=
  SMap.get_set_other h hj

theorem State.engine_setEngine {i : Nat} {x : Engine} (h : SMap.rising s.engines = true) : (s.setEngine i x).engine i = x := SMap.get_set_same h
theorem State.engine_setEngine_ne {i j : Nat} {x : Engine} (h : SMap.rising s.engines = true) (hj : j ≠ i) : (s.setEngine i x).engine j = s.engine j :=
  SMap.get_set_other h hj
theorem State.engine_modEngine {i : Nat} {f : Engine → Engine} (h : SMap.rising s.engines = true) : (s.modEngine i f).engine i = f (s.engine i) :=
  SMap.get_set_same h
theorem State.engine_modEngine_ne {i j : Nat} {f : Engine → Engine} (h : SMap.rising s.engines = true) (hj : j ≠ i) : (s.modEngine i f).engine j = s.engine j :=
  SMap.get_set_other h hj

theorem State.buffer_setBuffer {i : Nat} {x : Chalk} (h : SMap.rising s.chalk = true) : (s.setBuffer i x).buffer i = x := SMap.get_set_same h
theorem State.buffer_setBuffer_ne {i j : Nat} {x : Chalk} (h : SMap.rising s.chalk = true) (hj : j ≠ i) : (s.setBuffer i x).buffer j = s.buffer j :=
  SMap.get_set_other h hj
theorem State.buffer_modBuffer {i : Nat} {f : Chalk → Chalk} (h : SMap.rising s.chalk = true) : (s.modBuffer i f).buffer i = f (s.buffer i) :=
  SMap.get_set_same h
theorem State.buffer_modBuffer_ne {i j : Nat} {f : Chalk → Chalk} (h : SMap.rising s.chalk = true) (hj : j ≠ i) : (s.modBuffer i f).buffer j = s.buffer j :=
  SMap.get_set_other h hj

theorem State.fport_setFport {i : Nat} {x : FabPort} (h : SMap.rising s.link.ports = true) : (s.setFport i x).fport i = x := SMap.get_set_same h
theorem State.fport_setFport_ne {i j : Nat} {x : FabPort} (h : SMap.rising s.link.ports = true) (hj : j ≠ i) : (s.setFport i x).fport j = s.fport j :=
  SMap.get_set_other h hj
theorem State.fport_modFport {i : Nat} {f : FabPort → FabPort} (h : SMap.rising s.link.ports = true) : (s.modFport i f).fport i = f (s.fport i) :=
  SMap.get_set_same h
theorem State.fport_modFport_ne {i j : Nat} {f : FabPort → FabPort} (h : SMap.rising s.link.ports = true) (hj : j ≠ i) : (s.modFport i f).fport j = s.fport j :=
  SMap.get_set_other h hj

theorem State.reg_setReg {o v : Nat} (h : SMap.rising s.regs = true) : (s.setReg o v).reg o = v := SMap.get_set_same h

theorem State.reg_setReg_ne {o k v : Nat} (h : SMap.rising s.regs = true) (hk : k ≠ o) : (s.setReg o v).reg k = s.reg k :=
  SMap.get_set_other h hk

@[simp] theorem State.port_setPort (s : State) (p : HostPort) (x : Port) : (s.setPort p x).port p = x := by cases p <;> rfl
@[simp] theorem State.port_modPort (s : State) (p : HostPort) (f : Port → Port) : (s.modPort p f).port p = f (s.port p) := by
  cases p <;> rfl
theorem State.port_setPort_ne (s : State) {p q : HostPort} (x : Port) (h : q ≠ p) : (s.setPort p x).port q = s.port q := by
  cases p <;> cases q <;> first | rfl | exact absurd rfl h
theorem State.port_modPort_ne (s : State) {p q : HostPort} (f : Port → Port) (h : q ≠ p) : (s.modPort p f).port q = s.port q :=
  State.port_setPort_ne s _ h

/-! ### The invariant, part by part -/

theorem State.tidy_mem (h : s.tidy = true) : Memory.wf s.mem = true := by simp [State.tidy] at h; simp [h]
theorem State.tidy_regs (h : s.tidy = true) : SMap.rising s.regs = true := by simp [State.tidy] at h; simp [h]
theorem State.tidy_granules (h : s.tidy = true) : SMap.rising s.granules = true := by simp [State.tidy] at h; simp [h]
theorem State.tidy_hubs (h : s.tidy = true) : SMap.rising s.hubs = true := by simp [State.tidy] at h; simp [h]
theorem State.tidy_channels (h : s.tidy = true) : SMap.rising s.channels = true := by simp [State.tidy] at h; simp [h]
theorem State.tidy_blockLinks (h : s.tidy = true) : SMap.rising s.blockLinks = true := by simp [State.tidy] at h; simp [h]
theorem State.tidy_arbiters (h : s.tidy = true) : SMap.rising s.arbiters = true := by simp [State.tidy] at h; simp [h]
theorem State.tidy_queues (h : s.tidy = true) : SMap.rising s.queues = true := by simp [State.tidy] at h; simp [h]
theorem State.tidy_queuesTidy (h : s.tidy = true) : queuesTidy s.queues = true := by simp [State.tidy] at h; simp [h]
theorem State.tidy_hostqs (h : s.tidy = true) : SMap.rising s.hostqs = true := by simp [State.tidy] at h; simp [h]
theorem State.tidy_cores (h : s.tidy = true) : SMap.rising s.cores = true := by simp [State.tidy] at h; simp [h]
theorem State.tidy_tacks (h : s.tidy = true) : SMap.rising s.tacks = true := by simp [State.tidy] at h; simp [h]
theorem State.tidy_scopes (h : s.tidy = true) : SMap.rising s.scopes = true := by simp [State.tidy] at h; simp [h]
theorem State.tidy_gctr (h : s.tidy = true) : SMap.rising s.gctr = true := by simp [State.tidy] at h; simp [h]
theorem State.tidy_ctx (h : s.tidy = true) : SMap.rising s.ctx = true := by simp [State.tidy] at h; simp [h]
theorem State.tidy_chalk (h : s.tidy = true) : SMap.rising s.chalk = true := by simp [State.tidy] at h; simp [h]
theorem State.tidy_engines (h : s.tidy = true) : SMap.rising s.engines = true := by simp [State.tidy] at h; simp [h]
theorem State.tidy_ports (h : s.tidy = true) : SMap.rising s.link.ports = true := by simp [State.tidy] at h; simp [h]

end Sys2Proof.Machine
end

