-- ==== Sys2Proof/Laws/Memory.lean ====
section
/-! SUPPORT. Memory: its canonical form is kept by every operation over it and held at reset; what a read gives after a write; what the
operations leave. -/

namespace Sys2Proof.Machine

variable {s : State}

theorem Memory.wf_reset : Memory.wf State.reset.mem = true := rfl

theorem State.setByte_wf (a : Nat) (b : Byte) (h : Memory.wf s.mem = true) : Memory.wf (s.setByte a b).mem = true := SMap.wf_set h

theorem State.setBytes_wf (a : Nat) (bs : List Byte) (h : Memory.wf s.mem = true) : Memory.wf (s.setBytes a bs).mem = true := by
  induction bs generalizing s a with
  | nil => exact h
  | cons b bs ih => exact ih (a + 1) (State.setByte_wf a b h)

theorem State.putBytes_wf (a : Nat) (bs : List Byte) (h : Memory.wf s.mem = true) : Memory.wf (s.putBytes a bs).mem = true := by
  induction bs generalizing s a with
  | nil => exact h
  | cons b bs ih =>
    simp only [State.putBytes]; split
    · exact ih (a + 1) h
    · exact ih (a + 1) (State.setByte_wf a b h)

theorem State.writeBytes_wf (a : Nat) (bs : List Byte) (h : Memory.wf s.mem = true) : Memory.wf (s.writeBytes a bs).mem = true :=
  State.putBytes_wf a bs h

theorem State.writeLe_wf (a n v : Nat) (h : Memory.wf s.mem = true) : Memory.wf (s.writeLe a n v).mem = true := State.writeBytes_wf a _ h

theorem State.zeroFill_wf (a n : Nat) (h : Memory.wf s.mem = true) : Memory.wf (s.zeroFill a n).mem = true := SMap.wf_clear h

theorem State.writeHost_wf (p : HostPort) (a : Nat) (bs : List Byte) (h : Memory.wf s.mem = true) :
    Memory.wf (s.writeHost p a bs).mem = true := State.setBytes_wf _ bs h

/-! ### What the operations change -/

theorem State.setBytes_eq (a : Nat) (bs : List Byte) : s.setBytes a bs = { s with mem := (s.setBytes a bs).mem } := by
  induction bs generalizing s a with
  | nil => rfl
  | cons b bs ih => simp only [State.setBytes]; rw [ih]; rfl

theorem State.putBytes_eq (a : Nat) (bs : List Byte) : s.putBytes a bs = { s with mem := (s.putBytes a bs).mem } := by
  induction bs generalizing s a with
  | nil => rfl
  | cons b bs ih => simp only [State.putBytes]; rw [ih]; split <;> rfl

/-- A write of memory changes memory, its poison and the account of what has covered it alone. -/
theorem State.writeBytes_eq (a : Nat) (bs : List Byte) :
    s.writeBytes a bs =
      { s with mem := (s.writeBytes a bs).mem, poison := (s.writeBytes a bs).poison, covered := (s.writeBytes a bs).covered } := by
  simp only [State.writeBytes, State.clearPoison]; rw [State.putBytes_eq]

/-- A write of host memory changes memory and the counter of host traffic alone. -/
theorem State.writeHost_eq (p : HostPort) (a : Nat) (bs : List Byte) :
    s.writeHost p a bs = { s with mem := (s.writeHost p a bs).mem, gctr := (s.writeHost p a bs).gctr } := by
  simp only [State.writeHost, State.addGctr]; rw [State.setBytes_eq]

/-- Traffic is counted in the counters alone. -/
theorem State.countBytes_eq (d : Option Nat) (rd : Bool) (a n : Nat) :
    s.countBytes d rd a n = { s with gctr := (s.countBytes d rd a n).gctr, ctx := (s.countBytes d rd a n).ctx } := by
  unfold State.countBytes
  split
  · cases d <;> rfl
  · rfl
  · cases d <;> rfl
  · split
    · cases d <;> simp only [] <;> split <;> rfl
    · rfl
  · rfl

/-! ### What a read gives after a write -/

theorem State.memByte_setByte (h : Memory.wf s.mem = true) (a : Nat) (b : Byte) : (s.setByte a b).memByte a = b :=
  SMap.get_set_same (SMap.rising_of_wf h)

theorem State.memByte_setByte_ne (h : Memory.wf s.mem = true) {a x : Nat} (b : Byte) (hx : x ≠ a) :
    (s.setByte a b).memByte x = s.memByte x := SMap.get_set_other (SMap.rising_of_wf h) hx

/-- A write leaves every byte outside it. -/
theorem State.memByte_putBytes_out (h : Memory.wf s.mem = true) {a x : Nat} {bs : List Byte} (hx : x < a ∨ a + bs.length ≤ x) :
    (s.putBytes a bs).memByte x = s.memByte x := by
  induction bs generalizing s a with
  | nil => rfl
  | cons b bs ih =>
    simp only [List.length_cons] at hx
    simp only [State.putBytes]; split
    · exact ih h (by omega)
    · rw [ih (State.setByte_wf a b h) (by omega)]; exact State.memByte_setByte_ne h b (by omega)

/-- Where a byte can be reached does not depend on memory. -/
theorem State.unreachable_setByte (a : Nat) (b : Byte) (x : Nat) : (s.setByte a b).unreachable x = s.unreachable x := rfl

/-- A write of a reachable byte is read back. -/
theorem State.memByte_putBytes_in (h : Memory.wf s.mem = true) {a i : Nat} {bs : List Byte} (hi : i < bs.length)
    (hr : s.unreachable (a + i) = false) : (s.putBytes a bs).memByte (a + i) = bs.getD i 0 := by
  induction bs generalizing s a i with
  | nil => simp at hi
  | cons b bs ih =>
    simp only [State.putBytes]
    cases i with
    | zero =>
      simp only [Nat.add_zero] at hr ⊢
      rw [if_neg (by simp [hr]), State.memByte_putBytes_out (State.setByte_wf a b h) (by omega), State.memByte_setByte h]; rfl
    | succ i =>
      simp only [List.length_cons] at hi
      have e : a + (i + 1) = a + 1 + i := by omega
      rw [e] at hr ⊢
      split
      · rw [ih h (by omega) hr]; simp
      · rw [ih (State.setByte_wf a b h) (by omega) (by rw [State.unreachable_setByte]; exact hr)]; simp

theorem leBytes_length (n v : Nat) : (leBytes n v).length = n := by
  induction n generalizing v with
  | zero => rfl
  | succ n ih => simp [leBytes, ih]

theorem leBytes_getD (n v i : Nat) (h : i < n) : (leBytes n v).getD i 0 = BitVec.ofNat 8 (v / 256 ^ i) := by
  induction n generalizing v i with
  | zero => omega
  | succ n ih =>
    cases i with
    | zero => simp [leBytes]
    | succ i => simp only [leBytes, List.getD_cons_succ]; rw [ih _ _ (by omega), Nat.div_div_eq_div_mul, Nat.pow_succ', Nat.mul_comm 256]

/-- What a little-endian write leaves, and what a byte of it reads as. -/
theorem State.memByte_writeLe_out (h : Memory.wf s.mem = true) {a n v x : Nat} (hx : x < a ∨ a + n ≤ x) :
    (s.writeLe a n v).memByte x = s.memByte x :=
  State.memByte_putBytes_out (bs := leBytes n v) h (by rw [leBytes_length]; exact hx)

theorem State.memByte_writeLe_in (h : Memory.wf s.mem = true) {a n v i : Nat} (hi : i < n) (hr : s.unreachable (a + i) = false) :
    (s.writeLe a n v).memByte (a + i) = BitVec.ofNat 8 (v / 256 ^ i) := by
  rw [← leBytes_getD n v i hi]
  exact State.memByte_putBytes_in (bs := leBytes n v) h (by rw [leBytes_length]; exact hi) hr

end Sys2Proof.Machine
end

