-- ==== Sys2Proof/Laws/Host.lean ====
section
/-! SUPPORT. How a host's access goes through the gate: what a served access, one that waits in freeze and one that does not arrive leave. -/

namespace Sys2Proof.Machine

variable {s : State}

theorem State.serves_gate {p : HostPort} (h : s.serves p) {off : Nat} (hb : off < 0x04000000) (hm : managed off = true → s.activating 1 = false)
    (w : Bool) : s.bar0Gate p off w = .served := by
  obtain ⟨h1, h2, h3, h4, h5, h6⟩ := h
  have hm' : (s.activating 1 && managed off) = false := by
    cases hh : managed off
    · simp
    · simp [hm hh]
  have hp : s.power.pwrGood = true := by simp only [State.ready, Bool.and_eq_true] at h1; exact h1.1
  simp only [State.bar0Gate, hp, hm', decide_eq_false (Nat.not_le.mpr hb), h1, h2, h3, h4, h5, Bool.not_true, Bool.or_false, Bool.false_eq_true, if_false, Bool.false_and]
  rcases h6 with h6 | h6 <;> simp [h6]

/-- A write that is served has its effect, the mark of an access taken up again dropped. -/
theorem State.hostWrite_served {p : HostPort} (h : s.serves p) {off : Nat} (hb : off < 0x04000000) (hm : managed off = true → s.activating 1 = false)
    (c : Instr) (f : State → State) : s.hostWrite p off c f = f (s.undrain p) := by simp only [State.hostWrite, State.serves_gate h hb hm]

/-- A read that is served returns its value to the host. -/
theorem State.hostRead_served {p : HostPort} (h : s.serves p) {off : Nat} (hb : off < 0x04000000) (hm : managed off = true → s.activating 1 = false)
    (n : Nat) (c : Instr) (f : State → Nat × State) :
    s.hostRead p off n c f = (f (s.undrain p)).2.answer p (f (s.undrain p)).1 := by simp only [State.hostRead, State.serves_gate h hb hm]

@[simp] theorem State.undrain_port (p : HostPort) : (s.undrain p).port p = { s.port p with draining := false } := by
  simp [State.undrain]

theorem State.undrain_port_ne {p q : HostPort} (h : q ≠ p) : (s.undrain p).port q = s.port q := State.port_modPort_ne s _ h

/-- Without the mark, an access changes nothing of itself. -/
theorem State.undrain_self {p : HostPort} (h : (s.port p).draining = false) : s.undrain p = s := by
  cases p <;> simp only [State.undrain, State.modPort, State.setPort, State.port] at * <;> rw [← h]

end Sys2Proof.Machine
end

