-- ==== Sys2Proof/Laws/Reports.lean ====
section
/-! SUPPORT. What raising an event, an interrupt, an error or a chalk record can change: nothing that `eventless`, or `errorless`, keeps. -/

namespace Sys2Proof.Machine

variable {s t : State}

/-- A set key is invisible to a filter that rejects it. -/
theorem SMap.filter_set {α : Type} [DecidableEq α] {d : α} {m : SMap α} {k : Nat} {v : α} {p : Nat → Bool} (h : p k = false) :
    (SMap.set d m k v).filter (fun e => p e.1) = m.filter (fun e => p e.1) := by
  induction m with
  | nil => simp only [SMap.set, SMap.cons]; split <;> simp [h]
  | cons e m ih =>
    obtain ⟨j, w⟩ := e
    simp only [SMap.set, SMap.cons]
    split
    · split <;> simp [h]
    · split
      · subst_vars; split <;> simp [h]
      · simp only [List.filter_cons, ih]

@[simp] theorem Port.eventless_eventless (x : Port) : x.eventless.eventless = x.eventless := rfl
@[simp] theorem State.eventless_eventless (s : State) : s.eventless.eventless = s.eventless := by
  simp [State.eventless, List.filter_filter]

/-- Equal but for events is equal but for errors. -/
theorem State.errorless_of_eventless (h : s.eventless = t.eventless) : s.errorless = t.errorless := by
  have e : ∀ u : State, u.errorless = { u.eventless with
      ha := { u.eventless.ha with aerUnc := 0, aerCor := 0 }, hb := { u.eventless.hb with aerUnc := 0, aerCor := 0 }, errq := {}, chalk := [], chalkQ := [], freeze := {},
      ctx := u.eventless.ctx.filter (fun e => e.1 % 16 != 10 && e.1 % 16 != 11), link := { u.eventless.link with sentFlits := [] } } := fun _ => rfl
  rw [e s, e t, h]

/-! ### Events and interrupts -/

theorem State.eventless_setPort (p : HostPort) (x : Port) (h : x.eventless = (s.port p).eventless) : (s.setPort p x).eventless = s.eventless := by
  cases p <;> simp only [State.eventless, State.setPort, State.port] at * <;> rw [h]

theorem State.eventless_modPort (p : HostPort) (f : Port → Port) (h : ∀ x, (f x).eventless = x.eventless) :
    (s.modPort p f).eventless = s.eventless := State.eventless_setPort p _ (h _)

@[simp] theorem State.eventless_raiseMsix (s : State) (p : HostPort) (v : Nat) : (s.raiseMsix p v).eventless = s.eventless := by
  simp only [State.raiseMsix]
  split
  · rfl
  · split
    · exact State.eventless_setPort p _ rfl
    · exact State.eventless_setPort p _ rfl

theorem State.setBytes_high (a : Nat) (bs : List Byte) (h : 2 ^ 63 ≤ a) :
    (s.setBytes a bs).mem.filter (fun e => decide (e.1 < 2 ^ 63)) = s.mem.filter (fun e => decide (e.1 < 2 ^ 63)) := by
  induction bs generalizing s a with
  | nil => rfl
  | cons b bs ih =>
    simp only [State.setBytes]
    rw [ih (a + 1) (by omega)]
    exact SMap.filter_set (p := fun k => decide (k < 2 ^ 63)) (by simpa using h)

@[simp] theorem State.eventless_writeHost (s : State) (p : HostPort) (a : Nat) (bs : List Byte) : (s.writeHost p a bs).eventless = s.eventless := by
  have hm := State.setBytes_high (s := s) (hostAddr p a) bs (by unfold hostAddr; omega)
  have hg : ∀ v, (SMap.set 0 s.gctr (851 + 4 * portNum p) v).filter (fun e => e.1 != 851 && e.1 != 855) =
      s.gctr.filter (fun e => e.1 != 851 && e.1 != 855) := fun v =>
    SMap.filter_set (p := fun k => k != 851 && k != 855) (by cases p <;> rfl)
  simp only [State.writeHost, State.addGctr]
  rw [State.setBytes_eq]
  simp only [State.eventless, hm, hg]

@[simp] theorem State.eventless_writeEvent (s : State) (p : HostPort) (e : Event) : (s.writeEvent p e).eventless = s.eventless := by
  have h : ∀ u : State, ({ u with evLost := 0 } : State).eventless = u.eventless := fun _ => rfl
  refine (State.eventless_raiseMsix ..).trans ?_
  refine (State.eventless_modPort _ _ ?_).trans ?_
  · intro x; rfl
  · exact (h _).trans (State.eventless_writeHost ..)

@[simp] theorem State.eventless_flushEventsN (s : State) (k : Nat) : (s.flushEventsN k).eventless = s.eventless := by
  induction k generalizing s with
  | zero => rfl
  | succ k ih =>
    simp only [State.flushEventsN]
    split
    · split
      · rw [ih, State.eventless_writeEvent]; rfl
      · rfl
    · rfl

@[simp] theorem State.eventless_flushEvents (s : State) : s.flushEvents.eventless = s.eventless := State.eventless_flushEventsN s _

/-- Raising an event changes what `eventless` leaves out, and nothing else. -/
@[simp] theorem State.eventless_raiseEvent (s : State) (c p : Nat) : (s.raiseEvent c p).eventless = s.eventless := by
  simp only [State.raiseEvent]; split
  · exact State.eventless_flushEvents _
  · rfl

/-! ### Chalk and freeze -/

@[simp] theorem State.errorless_raiseEvent (s : State) (c p : Nat) : (s.raiseEvent c p).errorless = s.errorless :=
  State.errorless_of_eventless (State.eventless_raiseEvent s c p)

/-- Flits put on the wires are a report's alone. -/
theorem State.errorless_emitEach (f : State → Nat → State) (h : ∀ u p, (f u p).errorless = u.errorless) (l : List Nat) (u : State) :
    (l.foldl f u).errorless = u.errorless := by
  induction l generalizing u with
  | nil => rfl
  | cons p l ih => simp only [List.foldl_cons]; rw [ih, h]

@[simp] theorem State.errorless_beginFreeze (s : State) : s.beginFreeze.errorless = s.errorless := by
  exact (State.errorless_emitEach (fun s p => s.emit p (put fkHold 63 61) (pad240 []) 0) (fun _ _ => rfl) _ _).trans rfl

@[simp] theorem State.errorless_assertChalkFreeze (s : State) : s.assertChalkFreeze.errorless = s.errorless := by
  simp only [State.assertChalkFreeze]; split
  · rfl
  · rw [State.errorless_beginFreeze]; rfl

theorem State.errorless_addCtx (d j n : Nat) (h : j = 10 ∨ j = 11) : (s.addCtx d j n).errorless = s.errorless := by
  have : ∀ v, (SMap.set 0 s.ctx (16 * d + j) v).filter (fun e => e.1 % 16 != 10 && e.1 % 16 != 11) =
      s.ctx.filter (fun e => e.1 % 16 != 10 && e.1 % 16 != 11) := fun v =>
    SMap.filter_set (p := fun k => k % 16 != 10 && k % 16 != 11) (by rcases h with rfl | rfl <;> simp <;> omega)
  simp only [State.addCtx, State.errorless, State.eventless, this]

@[simp] theorem State.errorless_setBuffer (s : State) (b : Nat) (x : Chalk) : (s.setBuffer b x).errorless = s.errorless := rfl

@[simp] theorem State.errorless_chalkStore (s : State) (b : Nat) (bytes : List Byte) : (s.chalkStore b bytes).errorless = s.errorless := by
  simp only [State.chalkStore]; rw [State.errorless_addCtx _ _ _ (Or.inl rfl)]; rfl

@[simp] theorem State.errorless_chalkLose (s : State) (b : Nat) : (s.chalkLose b).errorless = s.errorless := rfl

@[simp] theorem State.errorless_chalkCountDown (s : State) (b : Nat) : (s.chalkCountDown b).errorless = s.errorless := by
  simp only [State.chalkCountDown]
  split
  · split
    · split
      · rw [State.errorless_assertChalkFreeze]; rfl
      · rfl
    · rfl
  · rfl

@[simp] theorem State.errorless_chalkGap (s : State) (b : Nat) : (s.chalkGap b).errorless = s.errorless := by
  simp only [State.chalkGap, State.errorless_raiseEvent, State.errorless_chalkCountDown, State.errorless_chalkStore]; rfl

@[simp] theorem State.errorless_chalkPut (s : State) (b : Nat) (bytes : List Byte) : (s.chalkPut b bytes).errorless = s.errorless := by
  simp only [State.chalkPut]
  have : (if s.gapDue b then s.chalkGap b else s).errorless = s.errorless := by split <;> simp
  generalize (if s.gapDue b then s.chalkGap b else s) = u at *
  split
  · split <;> simp [this]
  · split <;> simp [this]

@[simp] theorem State.errorless_chalkTrigger (s : State) (b c d : Nat) : (s.chalkTrigger b c d).errorless = s.errorless := by
  simp only [State.chalkTrigger]
  split
  · rfl
  · split
    · rw [State.errorless_assertChalkFreeze, State.errorless_setBuffer, State.errorless_chalkPut]
    · rw [State.errorless_setBuffer, State.errorless_chalkPut]

/-- A visit to every buffer keeps what each visit keeps. -/
theorem State.errorless_chalkEach (take : State → Chalk → Bool) (f : State → Nat → State) (h : ∀ u b, (f u b).errorless = u.errorless) :
    (s.chalkEach take f).errorless = s.errorless := by
  unfold State.chalkEach
  generalize upto 16 = l
  induction l generalizing s with
  | nil => rfl
  | cons b l ih => simp only [List.foldl_cons]; rw [ih]; split <;> simp [h]

@[simp] theorem State.errorless_chalkBegin (s : State) (a b c d e : Nat) : (s.chalkBegin a b c d e).errorless = s.errorless := by
  unfold State.chalkBegin; exact State.errorless_chalkEach _ _ (fun u b => by simp)

@[simp] theorem State.errorless_chalkEnd (s : State) (a b c d e f : Nat) : (s.chalkEnd a b c d e f).errorless = s.errorless := by
  unfold State.chalkEnd; exact State.errorless_chalkEach _ _ (fun u b => by dsimp only; split <;> simp)

@[simp] theorem State.errorless_chalkError (s : State) (a b c : Nat) (d : Option Nat) : (s.chalkError a b c d).errorless = s.errorless := by
  unfold State.chalkError; exact State.errorless_chalkEach _ _ (fun u b => by dsimp only; split <;> (try split) <;> simp)

@[simp] theorem State.errorless_chalkStraggler (s : State) : s.chalkStraggler.errorless = s.errorless := by
  unfold State.chalkStraggler; exact State.errorless_chalkEach _ _ (fun u b => by simp)

@[simp] theorem State.errorless_chalkNan (s : State) (a b : Nat) : (s.chalkNan a b).errorless = s.errorless := by
  unfold State.chalkNan; exact State.errorless_chalkEach _ _ (fun u b => by simp)

@[simp] theorem State.errorless_chalkFreezeRecords (s : State) (a : Nat) : (s.chalkFreezeRecords a).errorless = s.errorless := by
  unfold State.chalkFreezeRecords; exact State.errorless_chalkEach _ _ (fun u b => by simp)

/-! ### Errors -/

theorem State.errorless_errq (q : ErrQueue) : ({ s with errq := q } : State).errorless = s.errorless := rfl

@[simp] theorem State.errorless_errVectors (s : State) (c : Nat) : (s.errVectors c).errorless = s.errorless := by
  have h : ∀ (u : State) p v, (u.raiseMsix p v).errorless = u.errorless := fun u p v =>
    State.errorless_of_eventless (State.eventless_raiseMsix u p v)
  simp only [State.errVectors]
  split
  · split <;> split <;> simp [h]
  · rfl

/-- Raising an error changes what `errorless` leaves out, and nothing else. -/
@[simp] theorem State.errorless_raiseError (s : State) (a b : Nat) (k : DomKind) (i : Nat) (m : Option Nat) (d : Nat) :
    (s.raiseError a b k i m d).errorless = s.errorless := by
  simp only [State.raiseError]
  split
  · rfl
  · split
    · split
      · rw [State.errorless_chalkError, State.errorless_errVectors]; rfl
      · split
        · rfl
        · rw [State.errorless_chalkError, State.errorless_errVectors]; rfl
    · rw [State.errorless_chalkError, State.errorless_errVectors]; rfl

@[simp] theorem State.errorless_logQueue (s : State) (a q d c : Nat) : (s.logQueue a q d c).errorless = s.errorless := by
  simp only [State.logQueue]; rw [State.errorless_addCtx _ _ _ (Or.inr rfl), State.errorless_raiseError]

@[simp] theorem State.errorless_logPort (s : State) (p : HostPort) (a : Nat) : (s.logPort p a).errorless = s.errorless := by
  simp only [State.logPort]; rw [State.errorless_raiseError]
  cases p <;> rfl

@[simp] theorem State.errorless_misuse (s : State) (p : HostPort) : (s.misuse p).errorless = s.errorless := State.errorless_logPort s p 0

@[simp] theorem State.errorless_errPort (s : State) (a b p : Nat) : (s.errPort a b p).errorless = s.errorless :=
  State.errorless_raiseError ..

@[simp] theorem State.errorless_errMsg (s : State) (p a : Nat) : (s.errMsg p a).errorless = s.errorless := State.errorless_raiseError ..

end Sys2Proof.Machine
end

