-- ==== Sys2Proof/Laws/Scalar.lean ====
section
/-! SUPPORT. What a scalar instruction can do (R211 to R213): its row once the queue has the turn, the registers it writes, the operations
against exact integers. -/

namespace Sys2Proof.Machine

variable {s : State}

/-- Taking the turn changes the cores alone. -/
theorem State.took_eq (s : State) (qi : Nat) : s.took qi = { s with cores := (s.took qi).cores } := rfl

@[simp] theorem State.took_queue (s : State) (qi k : Nat) : (s.took qi).queue k = s.queue k := rfl
@[simp] theorem State.took_queues (s : State) (qi : Nat) : (s.took qi).queues = s.queues := rfl

/-- Taking the turn changes a core in what it served last alone. -/
theorem State.took_core (h : s.tidy = true) (qi c : Nat) :
    ∃ n, (s.took qi).core c = { s.core c with lastServed := n } := by
  unfold State.took
  by_cases hc : c = s.serving qi
  · subst hc; exact ⟨_, State.core_modCore (State.tidy_cores h)⟩
  · exact ⟨_, State.core_modCore_ne (State.tidy_cores h) hc⟩

theorem State.took_domainOf (h : s.tidy = true) (qi a : Nat) : (s.took qi).domainOf a = s.domainOf a := by
  have hs : ∀ c, ((s.took qi).core c).sramDomain = (s.core c).sramDomain := fun c => by
    obtain ⟨n, e⟩ := State.took_core h qi c; rw [e]
  unfold State.domainOf
  simp only [hs]
  rfl

theorem State.took_filling (h : s.tidy = true) (qi : Nat) (r : Area) : (s.took qi).filling r = s.filling r := by
  have hs : ∀ c, ((s.took qi).core c).scrubBusy = (s.core c).scrubBusy := fun c => by
    obtain ⟨n, e⟩ := State.took_core h qi c; rw [e]
  cases r <;> simp [State.filling, hs]

theorem State.took_accessOk (h : s.tidy = true) (qi : Nat) (w : Agent) (d a n : Nat) :
    (s.took qi).accessOk w d a n = s.accessOk w d a n := by
  unfold State.accessOk
  simp only [State.took_domainOf h, State.took_filling h]
  rfl

theorem State.took_unreachable (h : s.tidy = true) (qi a : Nat) : (s.took qi).unreachable a = s.unreachable a := by
  have hw : ∀ c, ((s.took qi).core c).withdrawn = (s.core c).withdrawn := fun c => by
    obtain ⟨n, e⟩ := State.took_core h qi c; rw [e]
  have hf : ∀ c, ((s.took qi).core c).fence = (s.core c).fence := fun c => by
    obtain ⟨n, e⟩ := State.took_core h qi c; rw [e]
  unfold State.unreachable
  simp only [hw, hf]
  rfl

theorem State.took_poisoned (h : s.tidy = true) (qi a n : Nat) : (s.took qi).poisoned a n = s.poisoned a n := by
  have : ∀ u, (s.took qi).unitPoisoned u = s.unitPoisoned u := fun u => by
    unfold State.unitPoisoned; rw [State.took_unreachable h]; rfl
  unfold State.poisoned
  rw [funext this]

/-- A range with no poisoned unit reads as it is stored. -/
theorem State.readBytes_clean (a n : Nat) (h : s.poisoned a n = false) : s.readBytes a n = s.rawBytes a n := by
  unfold State.readBytes State.rawBytes
  apply List.map_congr_left
  intro i hi
  simp only [upto, List.mem_range] at hi
  have : s.unitPoisoned ((a + i) / 256) = false := by
    unfold State.poisoned at h
    rw [List.any_eq_false] at h
    have := h ((a + i) / 256) (by
      unfold unitsOf
      rw [if_neg (by omega)]
      simp only [upto, List.mem_map, List.mem_range]
      exact ⟨(a + i) / 256 - a / 256, by omega, by omega⟩)
    simpa using this
  rw [this]; rfl

/-- What a scalar row answers once its queue has the turn and its word is fetched. -/
theorem scalarRow_runs {c q : Nat} {f : State → ScalarOut} (h : s.runs c q 1) :
    scalarRow c q f s = .next (match f (s.took (8 * c + q)) with
      | .done t => t.checkExhausted (8 * c + q)
      | .trap cause code => (s.took (8 * c + q)).trapQueue (8 * c + q) cause code (s.queue (8 * c + q)).pc) := by
  obtain ⟨hc, hq, ht, hf⟩ := h
  simp only [scalarRow, hc, hq, and_self, if_true, doScalar, ht, hf]
  split <;> simp_all

/-- An instruction that only rewrites its queue. -/
theorem scalarRow_advance {c q : Nat} {f : CoreQ → CoreQ} (h : s.runs c q 1) :
    scalarRow c q (advance (8 * c + q) f) s =
      .next (State.checkExhausted ((s.took (8 * c + q)).modQueue (8 * c + q) (fun q => { f q with pc := q.pc + 8 })) (8 * c + q)) := by
  rw [scalarRow_runs h]; rfl

/-! ### Registers -/

@[simp] theorem CoreQ.setG_pc (x : CoreQ) (r : Nat) (v : Word) : (x.setG r v).pc = x.pc := by unfold CoreQ.setG; split <;> rfl
@[simp] theorem CoreQ.setG_a (x : CoreQ) (r : Nat) (v : Word) : (x.setG r v).a = x.a := by unfold CoreQ.setG; split <;> rfl

/-- A write of a general register changes the general registers alone. -/
theorem CoreQ.setG_eq (x : CoreQ) (r : Nat) (v : Word) : x.setG r v = { x with g := (x.setG r v).g } := by
  unfold CoreQ.setG; split <;> rfl

theorem CoreQ.setA_eq (x : CoreQ) (r : Nat) (v : Word) : x.setA r v = { x with a := (x.setA r v).a } := rfl

/-- g0 ignores writes; any other general register holds what was written. -/
theorem CoreQ.getG_setG {x : CoreQ} (h : SMap.rising x.g = true) (rd : Nat) (v : Word) (r : Nat) :
    (x.setG rd v).getG r = if r % 32 ≠ 0 ∧ r % 32 = rd % 32 then v else x.getG r := by
  unfold CoreQ.setG CoreQ.getG
  by_cases hr : r % 32 = 0
  · simp [hr]
  · by_cases hd : rd % 32 = 0
    · have : r % 32 ≠ rd % 32 := by omega
      simp [hr, hd]
    · by_cases he : r % 32 = rd % 32
      · simp [he, hd, SMap.get_set_same h]
      · simp [hr, hd, he, SMap.get_set_other h he]

theorem CoreQ.getA_setA {x : CoreQ} (h : SMap.rising x.a = true) (rd : Nat) (v : Word) (r : Nat) :
    (x.setA rd v).getA r = if r % 16 = rd % 16 then v else x.getA r := by
  unfold CoreQ.setA CoreQ.getA
  by_cases he : r % 16 = rd % 16
  · simp [he, SMap.get_set_same h]
  · simp [he, SMap.get_set_other h he]

/-- The general registers that a queue holds are in rising order, as the invariant says. -/
theorem State.tidy_queue (h : s.tidy = true) (k : Nat) : SMap.rising (s.queue k).g = true ∧ SMap.rising (s.queue k).a = true := by
  have h2 := State.tidy_queuesTidy h
  unfold State.queue
  generalize s.queues = m at *
  induction m with
  | nil => exact ⟨rfl, rfl⟩
  | cons e m ih =>
    obtain ⟨j, x⟩ := e
    simp only [queuesTidy, List.all_cons, Bool.and_eq_true] at h2
    simp only [SMap.get]
    split
    · exact ⟨rfl, rfl⟩
    · split
      · exact h2.1
      · exact ih h2.2

/-! ### Operations -/

theorem BitVec.ofInt_toNat_self {w : Nat} (x : BitVec w) : BitVec.ofInt w (x.toNat : Int) = x := by
  rw [BitVec.ofInt_natCast]; simp

theorem BitVec.ofInt_toInt_self {w : Nat} (x : BitVec w) : BitVec.ofInt w x.toInt = x := by simp

end Sys2Proof.Machine
end

