-- ==== Sys2Proof/Laws/Wide.lean ====
section
/-! SUPPORT. The wide commands: what a check keeps of a command, and the step of a row whose command passes its check. -/

namespace Sys2Proof.Machine

variable {s : State}

/-- What a check keeps of a command: its words, number, place and stage. -/
def Wide.sameCommand (x y : Wide) : Prop :=
  y.w = x.w ∧ y.cseq = x.cseq ∧ y.pc = x.pc ∧ y.domain = x.domain ∧ y.stage = x.stage ∧ y.status = x.status ∧ y.held = x.held ∧
  y.waits = x.waits ∧ y.unchecked = x.unchecked ∧ y.normRec = x.normRec ∧ y.normOf = x.normOf ∧ y.upd = x.upd ∧ y.heritage = x.heritage

def Wide.sameWords (x y : Wide) : Prop := y.w = x.w ∧ y.cseq = x.cseq ∧ y.prior = x.prior ∧ y.tackBad = x.tackBad

theorem Wide.same_refl (x : Wide) : x.sameCommand x := ⟨rfl, rfl, rfl, rfl, rfl, rfl, rfl, rfl, rfl, rfl, rfl, rfl, rfl⟩

theorem State.checkMm_pass {core : Nat} {w y : Wide} (h : s.checkMm core w = .pass y) : w.sameCommand y := by
  unfold State.checkMm at h
  try dsimp only at h
  repeat' split at h
  all_goals first
    | exact Verdict.noConfusion h
    | (injection h with h; subst h; exact Wide.same_refl _)
    | (injection h with h; subst h; refine ⟨?_, ?_, ?_, ?_, ?_, ?_, ?_, ?_, ?_, ?_, ?_, ?_, ?_⟩ <;> first | rfl | (split <;> rfl))

theorem State.checkLoadw_pass {core : Nat} {w y : Wide} (h : s.checkLoadw core w = .pass y) : w.sameCommand y := by
  unfold State.checkLoadw at h
  try dsimp only at h
  repeat' split at h
  all_goals first
    | exact Verdict.noConfusion h
    | (injection h with h; subst h; exact Wide.same_refl _)
    | (injection h with h; subst h; refine ⟨?_, ?_, ?_, ?_, ?_, ?_, ?_, ?_, ?_, ?_, ?_, ?_, ?_⟩ <;> first | rfl | (split <;> rfl))

theorem State.checkSeam_pass {core : Nat} {w y : Wide} (h : s.checkSeam core w = .pass y) : w.sameCommand y := by
  unfold State.checkSeam at h
  try dsimp only at h
  repeat' split at h
  all_goals first
    | exact Verdict.noConfusion h
    | (injection h with h; subst h; exact Wide.same_refl _)
    | (injection h with h; subst h; refine ⟨?_, ?_, ?_, ?_, ?_, ?_, ?_, ?_, ?_, ?_, ?_, ?_, ?_⟩ <;> first | rfl | (split <;> rfl))

theorem State.checkQuant_pass {core : Nat} {w y : Wide} (h : s.checkQuant core w = .pass y) : w.sameCommand y := by
  unfold State.checkQuant at h
  try dsimp only at h
  repeat' split at h
  all_goals first
    | exact Verdict.noConfusion h
    | (injection h with h; subst h; exact Wide.same_refl _)
    | (injection h with h; subst h; refine ⟨?_, ?_, ?_, ?_, ?_, ?_, ?_, ?_, ?_, ?_, ?_, ?_, ?_⟩ <;> first | rfl | (split <;> rfl))

theorem State.checkPress_pass {core : Nat} {w y : Wide} (h : s.checkPress core w = .pass y) : w.sameCommand y := by
  unfold State.checkPress at h
  try dsimp only at h
  repeat' split at h
  all_goals first
    | exact Verdict.noConfusion h
    | (injection h with h; subst h; exact Wide.same_refl _)
    | (injection h with h; subst h; refine ⟨?_, ?_, ?_, ?_, ?_, ?_, ?_, ?_, ?_, ?_, ?_, ?_, ?_⟩ <;> first | rfl | (split <;> rfl))

theorem State.checkShuttle_pass {core : Nat} {w y : Wide} (h : s.checkShuttle core w = .pass y) : w.sameCommand y := by
  unfold State.checkShuttle at h
  try dsimp only at h
  repeat' split at h
  all_goals first
    | exact Verdict.noConfusion h
    | (injection h with h; subst h; exact Wide.same_refl _)
    | (injection h with h; subst h; refine ⟨?_, ?_, ?_, ?_, ?_, ?_, ?_, ?_, ?_, ?_, ?_, ?_, ?_⟩ <;> first | rfl | (split <;> rfl))

theorem checkTack_pass {w y : Wide} (h : checkTack w = .pass y) : w.sameCommand y := by
  unfold checkTack at h
  try dsimp only at h
  repeat' split at h
  all_goals first
    | exact Verdict.noConfusion h
    | (injection h with h; subst h; exact Wide.same_refl _)
    | (injection h with h; subst h; refine ⟨?_, ?_, ?_, ?_, ?_, ?_, ?_, ?_, ?_, ?_, ?_, ?_, ?_⟩ <;> first | rfl | (split <;> rfl))

theorem State.checkColl_pass {w y : Wide} (h : s.checkColl w = .pass y) : w.sameCommand y := by
  unfold State.checkColl at h
  dsimp only at h
  have key : w.sameCommand (if (collKind w.op).reduces then { w with ops := SMap.set {} w.ops 1 (s.collScale w.coDst) } else w) := by
    split <;> exact Wide.same_refl _
  generalize (if (collKind w.op).reduces then { w with ops := SMap.set {} w.ops 1 (s.collScale w.coDst) } else w) = v at h key
  repeat' split at h
  all_goals first
    | exact Verdict.noConfusion h
    | (injection h with h; subst h; exact key)

theorem State.checkUpd_pass {w y : Wide} (h : s.checkUpd w = .pass y) : w.sameCommand y := by
  unfold State.checkUpd at h
  try dsimp only at h
  repeat' split at h
  all_goals first
    | exact Verdict.noConfusion h
    | (injection h with h; subst h; exact Wide.same_refl _)
    | (injection h with h; subst h; refine ⟨?_, ?_, ?_, ?_, ?_, ?_, ?_, ?_, ?_, ?_, ?_, ?_, ?_⟩ <;> first | rfl | (split <;> rfl))

theorem State.checkMeasure_pass {w y : Wide} (h : s.checkMeasure w = .pass y) : w.sameCommand y := by
  unfold State.checkMeasure at h
  try dsimp only at h
  repeat' split at h
  all_goals first
    | exact Verdict.noConfusion h
    | (injection h with h; subst h; exact Wide.same_refl _)
    | (injection h with h; subst h; refine ⟨?_, ?_, ?_, ?_, ?_, ?_, ?_, ?_, ?_, ?_, ?_, ?_, ?_⟩ <;> first | rfl | (split <;> rfl))

theorem State.checkChalk_pass {w y : Wide} (h : s.checkChalk w = .pass y) : w.sameCommand y := by
  unfold State.checkChalk at h
  try dsimp only at h
  repeat' split at h
  all_goals first
    | exact Verdict.noConfusion h
    | (injection h with h; subst h; exact Wide.same_refl _)
    | (injection h with h; subst h; refine ⟨?_, ?_, ?_, ?_, ?_, ?_, ?_, ?_, ?_, ?_, ?_, ?_, ?_⟩ <;> first | rfl | (split <;> rfl))

theorem checkFence_pass {w y : Wide} (h : checkFence w = .pass y) : w.sameCommand y := by
  unfold checkFence at h
  try dsimp only at h
  repeat' split at h
  all_goals first
    | exact Verdict.noConfusion h
    | (injection h with h; subst h; exact Wide.same_refl _)
    | (injection h with h; subst h; refine ⟨?_, ?_, ?_, ?_, ?_, ?_, ?_, ?_, ?_, ?_, ?_, ?_, ?_⟩ <;> first | rfl | (split <;> rfl))

/-- R206: a check that passes keeps the command. -/
theorem State.checkOp_pass {core : Nat} {w y : Wide} (h : s.checkOp core w = .pass y) : w.sameCommand y := by
  rw [State.checkOp] at h
  by_cases h0 : w.opcode = 1
  · rw [if_pos h0] at h; exact State.checkMm_pass h
  rw [if_neg h0] at h
  by_cases h1 : w.opcode = 2
  · rw [if_pos h1] at h; exact State.checkLoadw_pass h
  rw [if_neg h1] at h
  by_cases h2 : w.opcode = 3
  · rw [if_pos h2] at h; exact State.checkSeam_pass h
  rw [if_neg h2] at h
  by_cases h3 : w.opcode = 4
  · rw [if_pos h3] at h; exact State.checkQuant_pass h
  rw [if_neg h3] at h
  by_cases h4 : w.opcode = 5
  · rw [if_pos h4] at h; exact State.checkPress_pass h
  rw [if_neg h4] at h
  by_cases h5 : w.opcode = 6
  · rw [if_pos h5] at h; exact State.checkShuttle_pass h
  rw [if_neg h5] at h
  by_cases h6 : w.opcode = 7
  · rw [if_pos h6] at h; exact checkTack_pass h
  rw [if_neg h6] at h
  by_cases h7 : w.opcode = 8
  · rw [if_pos h7] at h; exact State.checkColl_pass h
  rw [if_neg h7] at h
  by_cases h8 : w.opcode = 9
  · rw [if_pos h8] at h; exact State.checkUpd_pass h
  rw [if_neg h8] at h
  by_cases h9 : w.opcode = 10
  · rw [if_pos h9] at h; exact State.checkMeasure_pass h
  rw [if_neg h9] at h
  by_cases h10 : w.opcode = 11
  · rw [if_pos h10] at h; exact State.checkChalk_pass h
  rw [if_neg h10] at h
  by_cases h11 : w.opcode = 12
  · rw [if_pos h11] at h; exact checkFence_pass h
  rw [if_neg h11] at h
  exact Verdict.noConfusion h

/-- Binding a norm keeps the command. -/
theorem State.bindNorm_same (w : Wide) : w.sameWords (s.bindNorm w) := by
  unfold State.bindNorm
  dsimp only
  split <;> exact ⟨rfl, rfl, rfl, rfl⟩

theorem State.bindUpd_same (w : Wide) : w.sameWords (s.bindUpd w) := by
  unfold State.bindUpd
  split
  · exact State.bindNorm_same _
  · exact ⟨rfl, rfl, rfl, rfl⟩

/-- A command as it dispatches: its words and its number. -/
theorem State.newWide_same (qi : Nat) (ws : Words) :
    (s.newWide qi ws).w = ws ∧ (s.newWide qi ws).cseq = (s.queue qi).cseq + 1 := by
  unfold State.newWide
  exact ⟨(State.bindUpd_same _).1, (State.bindUpd_same _).2.1⟩

theorem State.newWide_cseq (qi : Nat) (ws : Words) : (s.newWide qi ws).cseq = (s.queue qi).cseq + 1 := (State.newWide_same qi ws).2

theorem State.newWide_words (qi : Nat) (ws : Words) : (s.newWide qi ws).w = ws := (State.newWide_same qi ws).1

/-- Settling a command keeps its words and its number. -/
theorem State.settled_same (w : Wide) (ops : SMap Operand) (u : Wide) :
    (s.settled w ops u).w = u.w ∧ (s.settled w ops u).cseq = u.cseq := by
  unfold State.settled
  dsimp only
  split <;> exact ⟨rfl, rfl⟩

/-- R206: a row whose words pass their check: the command is recorded and issues where its unit takes it. -/
theorem wideRow_passes {c q : Nat} {ws : Words} {x : Wide} (h : s.passes c q ws x) (ok : Wide → Bool) (hok : ok { w := ws } = true) :
    wideRow c q ok ws s = .next (((s.accepts (8 * c + q) ws x).tryIssue (8 * c + q) x).checkExhausted (8 * c + q)) := by
  obtain ⟨⟨h1, h2, h3, h4⟩, h5, h6, h7, h8, h9, h10, h11, h12, h13, ops, y, h14, h15, h16, rfl, _⟩ := h
  simp only [wideRow, h1, h2, and_self, if_true, doWide, hok, h5, h3, h4, h6, h7, beq_self_eq_true, Bool.and_self, Bool.not_true,
    Bool.false_eq_true, if_false, State.dispatchWide, h8, Option.isSome_none]
  simp only [State.afterDispatch]
  rw [if_neg (by simp; omega)]
  simp only [State.dispatched] at *
  simp only [h11, h12, h13, Bool.false_eq_true, if_false, State.checkAndIssue, h14]
  rw [if_neg (by rw [h15]; exact Bool.false_ne_true), h16]
  rfl

theorem State.passes_words {c q : Nat} {ws : Words} {x : Wide} (h : s.passes c q ws x) : x.w = ws := by
  obtain ⟨_, _, _, _, _, _, _, _, _, _, ops, y, _, _, h16, rfl, _⟩ := h
  rw [(State.settled_same _ _ _).1, (State.checkOp_pass h16).1]
  exact State.newWide_words _ _

theorem State.passes_cseq {c q : Nat} {ws : Words} {x : Wide} (h : s.passes c q ws x) :
    x.cseq = ((s.took (8 * c + q)).queue (8 * c + q)).cseq + 1 := by
  obtain ⟨_, _, _, _, _, _, _, _, _, _, ops, y, _, _, h16, rfl, _⟩ := h
  rw [(State.settled_same _ _ _).2, (State.checkOp_pass h16).2.1]
  exact State.newWide_cseq _ _

end Sys2Proof.Machine
end

