-- ==== Sys2Proof/Tests/Slice0.lean ====
section
/-! SUPPORT. Tests: words of the spec's scalar encoding, ill-formed terms refused, and, for each statement, states and operands that meet its
hypotheses. -/

namespace Sys2Proof.Tests

open Sys2Proof Sys2Proof.Machine

set_option Elab.async false

/-! ### Scalar words and well-formedness -/

/-- R212's worked example: aadd a1, a1, g0, 64. -/
theorem test_decode_aadd : decodeScalar 0 0 0x2082100000000040 = some (.aadd 0 0 1 1 0 0x40) := by decide +kernel

/-! ### A module that is ready -/

/-- A module in service: powered, ready, both links up, HA the steward. -/
def up : State :=
  { State.reset with
    power := { State.reset.power with standby := true, pwrEn := true, pwrGood := true, supply := 2, railMv := 750, targetMv := 750 }
    bring := { state := 1, stage := 10 }
    ha := { linkUp := true, perst := false }
    hb := { linkUp := true, perst := false }
    roles := { assigned := true, steward := some .ha }
    sec := { State.reset.sec with mode := 1, identityValid := true, aliasIssued := true } }

theorem up_serves (p : HostPort) : up.serves p := by cases p <;> (unfold State.serves; decide +kernel)

theorem up_tidy : up.tidy = true := by decide +kernel

/-- TidyKept: a command that is well formed; a tidy state whose step has a next one. -/
theorem meets_tidy_step : wellFormed (.wave 95) = true ∧ up.tidy = true ∧ ∃ t : State, step up = .next t := ⟨by decide, up_tidy, _, rfl⟩

/-- ScalarRoundTrip: a well-formed scalar instruction of queue 7 of core 23, its fields at their highest values. -/
theorem meets_round_trip :
    let i : Instr := .aadd 23 7 15 15 31 0xFFFFFFFF
    scalarQueue i = some (23, 7) ∧ wellFormed i = true := by decide +kernel

/-- The same module, queue 0 of core 0 running a submission whose words lie at the start of its core store. -/
def running : State := { up with queues := [(0, { sub := some { base := 0x0D0000000000, words := 64 }, pc := 0x0D0000000000 })] }

/-- ScalarRegisterResults: queue 0 of core 0 has the turn and its word is fetched. -/
theorem running_runs : running.tidy = true ∧ running.runs 0 0 1 := by unfold State.runs; decide +kernel

/-- LoadResult, StoreResult: an aligned address of the core store; for the signed load the highest bit is set. -/
theorem meets_load_store :
    let s : State := { running with queues := [(0, { (running.queue 0) with a := [(1, 0x0D0000000100)] })] }
    s.tidy = true ∧ s.turn 0 = true ∧ (s.took 0).fetchFault 0 1 = none ∧
    (BitVec.ofInt 64 (((s.queue 0).getA 1).toNat + (8 : Imm).toInt)).toNat = 0x0D0000000108 ∧
    s.accessOk (s.sequencerOf 0) (s.queueDomain 0) 0x0D0000000108 8 = true ∧ s.poisoned 0x0D0000000108 8 = false ∧
    s.unreachable 0x0D0000000108 = false := by decide +kernel

/-- ScalarControlResults: a return stack with one entry, and with 15. -/
theorem meets_call_ret :
    ∀ n ∈ [1, 15, 16], let s : State := { running with queues := [(0, { (running.queue 0) with rstack := List.replicate n 0x0D0000000010 })] }
      s.tidy = true ∧ s.turn 0 = true ∧ (s.took 0).fetchFault 0 1 = none := by decide +kernel

/-- SpecialRegisters, ScalarTraps: each number of the table and one outside it; a word of a reserved class; an address that is unaligned, one
out of reach, and poison within reach. -/
theorem meets_special : specialNo 0 = 0 ∧ specialNo 9 = 9 ∧ specialNo 0x100 = 0x100 ∧ specialNo 0xA ≠ 0x100 ∧
    decodeScalar 0 0 0x6000000000000000 = none ∧ (running.hostq 0).underHandling = false ∧
    (((running.queue 0).getA 1) + (3 : Imm).signExtend 64).toNat % LoadOp.ld64.bytes ≠ 0 ∧
    running.accessOk (running.sequencerOf 0) (running.queueDomain 0) 0 8 = false ∧
    (let s : State := { running with poison := [0x0D0000000100 / 256] }
     s.tidy = true ∧ s.poisoned 0x0D0000000100 8 = true ∧
       s.accessOk (s.sequencerOf 0) (s.queueDomain 0) 0x0D0000000100 8 = true) := by decide +kernel

/-! ### Host queues, traps, tacks and counters -/

/-- HostQueueRegisters: an enabled queue with room for a full ring and one entry short of it; a disabled one; the least and greatest
sizes. -/
theorem meets_host_queues :
    let on : State := { up with hostqs := [(3, { enable := true, sizeLog2 := 6, shead := 65535 })] }
    on.tidy = true ∧ up.power.state = .active ∧ (on.hostq 3).enable = true ∧ (62 + 65536 - (on.hostq 3).shead) % 65536 ≤ 2 ^ 6 - 1 ∧
    (on.queues.all (fun e => e.2.recs.isEmpty && e.2.sub.isNone)) = true ∧
    (up.hostq 3).enable = false ∧ (up.hostq 3).stopping = false ∧ (up.hostq 3).underHandling = false ∧
    (∀ v ∈ [0x80060000, 0xB7100000], bit v 31 = true ∧ fld v 30 29 ≤ 1 ∧ 6 ≤ fld v 20 16 ∧ fld v 20 16 ≤ 16 ∧ fld v 28 24 ≤ 23) ∧
    bit 0x20000000 31 = false ∧ fld 0x20000000 30 29 = 1 ∧ (∀ e ∈ on.queues, e.2.recs = []) ∧ ((on.hostq 3).ctail + 65536 - 0) % 65536 ≤ 2 ^ (on.hostq 3).sizeLog2 - 1 ∧
    2 ^ (on.hostq 3).sizeLog2 - 1 < ((on.hostq 3).ctail + 65536 - 1) % 65536 := by decide +kernel

/-- TrapResolution: a queue whose scalar trap is recorded, and one whose wide command is held. -/
theorem meets_trap_resolution :
    let up : State := { up with hostqs := [(0, { enable := true, sizeLog2 := 6 })] }
    let scalar : State := { up with queues := [(0, { sub := some {}, trap := some { cause := 1, recorded := true } })] }
    let w : Wide := { held := some 6, stage := .complete, status := 2 }
    let wide : State := { up with queues := [(0, { sub := some {}, trap := some { cause := 6, recorded := true }, inflight := [w] })] }
    scalar.tidy = true ∧ (scalar.queue 0).trapped = true ∧ scalar.mayResume .hb 0 = false ∧ scalar.mayResume .ha 0 = true ∧
    (scalar.queue 0).heldWide = none ∧ wide.tidy = true ∧ (wide.queue 0).trapped = true ∧ wide.mayResume .ha 0 = true ∧
    ((wide.queue 0).heldWide.map (·.held)) = some (some 6) ∧ w.cseq ≤ (wide.queue 0).cseq ∧ wide.recRoom 0 = true ∧
    (let y : CoreQ := { (wide.queue 0) with recs := [{ bytes := [], isEnd := false, irq := false }] }
     State.recRoom { wide with queues := [(0, y)] } 0 = false) := by decide +kernel

/-- HostTackOperations: a binding whose source is lost, and one whose source is not. -/
theorem meets_tack_binding :
    let lost : State := { up with link := { up.link with lost := [5] } }
    let y : Tack := { remoteOk := true, srcKind := 1, srcId := 5, domain := 0 }
    lost.tidy = true ∧ fld (2 ^ 63 + 2 ^ 61 + 5 * 2 ^ 47) 62 61 = 1 ∧ (fld (2 ^ 62 + 255 * 2 ^ 47) 62 61 = 2 ∧ fld (2 ^ 62 + 255 * 2 ^ 47) 60 55 = 0) ∧ lost.link.lost.any (lost.boundTo y) = true ∧ up.link.lost.any (up.boundTo y) = false := by
  decide +kernel

/-- WaitTimeout. -/
theorem meets_wait_timeout :
    let x : Waiter := { queue := 9, cseq := 4, eq := false, operand := 1, deadline := some 100000 }
    let s : State := { up with tacks := [(16383, { waiters := [x] })] }
    s.tidy = true ∧ s.freeze.frozen = false ∧ (s.tack 16383).waiters.find? (fun w => w.queue == 8 * 1 + 1) = some x := by decide +kernel

/-- ScopedCounterReads: the last of each kind; the peer may read once OBS_CTL lets it. -/
theorem meets_scoped :
    ctrOk (.shuttleBytes 47) = true ∧ ctrOk (.pressElems 95) = true ∧ ctrOk (.shuttleBytes 48) = false ∧ up.mayCount .ha = true ∧
    up.mayCount .hb = false ∧ State.mayCount { up with regs := [(0x03800008, 2 ^ 31)] } .hb = true ∧ up.power.pwrGood = true := by decide +kernel

/-! ### Ports, roles and links -/

/-- StewardSupervision, StewardshipChanges: each claim state, a port that is steward and one that is not, the peer's link down. -/
theorem meets_roles :
    up.roles.steward = some .ha ∧ up.roles.claim = 0 ∧ up.ready = true ∧ up.freeze.frozen = false ∧
    (∀ k ∈ [1, 2], let s : State := { up with roles := { up.roles with claim := k } }
      s.ready = true ∧ s.roles.claim = k ∧ s.roles.steward ≠ some .hb ∧ (s.port .ha).linkUp = true) ∧
    (State.port { up with hb := {} } .hb).linkUp = false := by decide +kernel

theorem meets_claim : State.serves { up with roles := { up.roles with claim := 2 } } .hb := by unfold State.serves; decide +kernel

/-- HostLinkEvents: a link up and one down out of PERST. -/
theorem meets_links : up.power.pwrGood = true ∧ up.ha.linkUp = true ∧
    (let x : Port := { perst := false }; x.perst = false ∧ x.heldDown = false ∧ x.linkUp = false) := by decide +kernel

/-- HostReadsAndDrains: a queue draining with a limit, and a read outstanding. -/
theorem meets_reads_and_drains :
    let s : State := { up with hostqs := [(63, { lost := some { deadline := 1 } })], ha := { up.ha with reads := [HostRead.mk 767 0 1 50000000 0 8] } }
    s.tidy = true ∧ s.freeze.frozen = false ∧ s.ready = true ∧ s.ha.linkUp = true ∧
    (s.hostq (64 * portNum .ha + 63)).lost = some { deadline := 1 } ∧
    s.ha.reads.find? (fun r => r.tag == 767) = some (HostRead.mk 767 0 1 50000000 0 8) := by decide +kernel

/-- BAR2 of HA with its first aperture on the core stores, domain 0 allowed. -/
def bar2 : State := { up with regs := [(0x3020, 1), (0x3100, 2 ^ 63 + 0x0D0000000000)] }

/-- Bar2Accesses: an access that one piece serves, at the end of a core store; one of no aperture. -/
theorem meets_bar2 : bar2.tidy = true ∧ (bar2.undrain .ha).bar2Map .ha 0x1FFFFFC 4 = some [(0x0D0001FFFFFC, 4)] ∧
    (bar2.undrain .ha).bar2Map .ha 0x1FFFFFC 4 ≠ none ∧ (bar2.undrain .ha).bar2Map .ha 0x100000000 4 = none ∧
    bar2.unreachable 0x0D0001FFFFFC = false := by decide +kernel

theorem bar2_serves : bar2.serves .ha := by unfold State.serves; decide +kernel

/-- PortConfiguration: the least and greatest ring, and the ring off; a register of the configuration space that is no identifier. -/
theorem meets_event_ring : up.ha.evqEnable = false ∧ up.power.pwrGood = true ∧ up.ha.linkUp = true ∧ up.pciId 4 = none ∧ up.capReg up.ha 4 = none ∧
    capHead capList false 4 = none ∧ capHead extCapList true 4 = none ∧ (∀ k ∈ [6, 16], bit (2 ^ 63 + k * 2 ^ 58) 63 = true ∧ fld (2 ^ 63 + k * 2 ^ 58) 62 58 = k) ∧
    bit (6 * 2 ^ 58) 63 = false ∧ (∀ k ∈ [5, 17], bit (k * 2 ^ 58) 63 = false ∧ fld (k * 2 ^ 58) 62 58 = k) := by decide +kernel

/-- The same module, frozen by the pin. -/
def frozen : State := { up with freeze := { frozen := true, pin := true, roSel := 5 * 2 ^ 52 + 0x1FFFFF8 } }

/-- FreezeHoldsAccesses, FreezeControl, StateReadOut: in freeze; each source of freeze alone; the last offset of a core store. -/
theorem meets_freeze :
    frozen.tidy = true ∧ frozen.ready = true ∧ frozen.freeze.frozen = true ∧ frozen.ha.linkUp = true ∧ frozen.ha.d3hot = false ∧ frozen.ha.barred = false ∧
    frozenWrite 0x02800100 = false ∧ frozen.power.state ≠ .rest ∧ frozen.freeze.sw = false ∧ frozen.freeze.chalk = false ∧
    frozen.bar0Gate .ha 0x03800010 true = .served ∧ frozen.bar0Gate .hb 0x03800010 true = .served ∧ frozen.roles.steward ≠ some .hb ∧
    frozen.bar0Gate .ha 0x03800028 false = .served ∧ frozen.bar0Gate .hb 0x03800028 false = .served ∧
    frozen.freeze.roSel = 5 * 2 ^ 52 + 0x1FFFFF8 ∧ up.freeze.pinEnable = true ∧
    (∀ f ∈ [({ frozen := true, sw := true } : Freeze), { frozen := true, chalk := true }],
      State.bar0Gate { up with freeze := f } .ha 0x03800010 true = .served ∧ f.pin = false) := by decide +kernel

/-! ### Registers and chalk -/

/-- RegisterReads, RegisterWrites: sizes and offsets on both sides of each clause. -/
theorem meets_registers : aligned 0x02800104 8 = false ∧ decoded 0x100 = false ∧ decoded 0x02800100 = true ∧
    otherMailbox .ha 0x03C00100 = true ∧ otherMailbox .ha 0x03C00000 = false ∧ up.roles.steward ≠ some .hb := by decide +kernel

/-- A chalk buffer of 2048 records in granule 0x80000, which domain 0 owns. -/
def chalky : State := { up with
  granules := [(0x690000, 1)], chalk := [(15, { cfg := 2 ^ 63 + 11 * 2 ^ 48 + 2 ^ 61, base := 0x0D2000000000, pending := 3, state := .full })],
  chalkQ := [ChalkWait.mk 15 7 [1, 2] 5, ChalkWait.mk 14 0 [3] 6] }

/-- ChalkBuffers: an enabled buffer with storage, a stopped one that a configuration suits, a unit of one record, a GAP record owed. -/
theorem meets_chalk :
    let b := chalky.buffer 15
    chalky.tidy = true ∧ chalky.chalkMay .ha b.cfg = true ∧ bit b.cfg 63 = true ∧ chalky.chalkPlaced b = true ∧ b.state ≠ .stopped ∧
    b.policy = 1 ∧ (up.buffer 0).state = .stopped ∧ (∀ k ∈ [11, 27], let v := k * 2 ^ 48 + 2 ^ 61
      up.chalkMay .ha v = true ∧ v < 2 ^ 64 ∧ fld v 47 42 = 0 ∧ fld v 29 24 = 0 ∧ fld v 62 61 ≠ 3 ∧ fld v 52 48 = k ∧ chalkCfgBad v = false ∧ bit v 63 = false) ∧
    chalky.unitRecs 15 = [ChalkWait.mk 15 7 [1, 2] 5] ∧ chalky.unreachable (b.base + 32 * 7) = false ∧ chalky.gapDue 15 = true ∧
    (up.buffer 3).pending = 0 := by decide +kernel

/-! ### Supply, power and pins -/

/-- SupplyAndBringUp: each state of the supply that a clause names. -/
theorem meets_supply :
    State.reset.power.standby = false ∧ State.reset.tidy = true ∧ up.power.standby = true ∧ up.power.pwrEn = true ∧ up.power.supply = 2 ∧
    up.power.pwrGood = true ∧
    (let off : State := { State.reset with power := { standby := true, goodFell := true, supply := 0 } }
     off.power.pwrEn = false ∧ off.power.heldRise = false ∧ off.power.supply ≠ 1 ∧ off.power.supply ≠ 2) ∧
    (let held : State := { State.reset with power := { standby := true, goodFell := true, heldRise := true, pwrEn := true } }
     held.power.latchedOff = false ∧ held.tidy = true) ∧
    (let ramping : State := { State.reset with power := { standby := true, pwrEn := true, supply := 1 } }
     ramping.power.pwrGood = false ∧ ramping.bring.state = 0) := by decide +kernel

/-- PowerStates, ThermalControl, PinsAndManagementBus. -/
theorem meets_power :
    (∀ v ∈ [0x03E80000, 0x47082800], fld v 31 30 ≤ 1 ∧ 1000 ≤ fld v 26 16 ∧ fld v 26 16 ≤ 1800 ∧ fld v 13 8 ≤ 40) ∧
    (let s : State := { up with power := { up.power with restReq := true } }; s.alive = true ∧ s.quiet = true ∧ s.power.restReq = true) ∧
    (let s : State := { up with power := { up.power with state := .exiting } }; s.ready = true ∧ s.power.state = .exiting) ∧
    up.power.fastArmed = true ∧ (let p : Power := { up.power with railMv := 550, targetMv := 700, state := .entering }; p.railMv ≠ p.targetMv) ∧ up.power.capW = 1800 ∧
    (let s : State := { up with power := { up.power with capUnmet := true, targetMv := 550, hold := true, ppsSeen := true, i3cOff := 0x58 } }
     s.power.pwrGood = true ∧ s.power.capUnmet = true ∧ s.power.railMv ≠ s.power.targetMv ∧ s.power.hold = true ∧ s.power.ppsSeen = true ∧
       s.power.i3cOff = 0x58) := by decide +kernel

/-! ### Transactions -/

/-- HA with a transaction open, or doomed, or SEWING, that has claimed DOMAIN_ALLOW's register of core 3. -/
def sewing (st : TxnState) (staged : List (Nat × Nat)) : State := { up with ha := { up.ha with txn := { state := st, staged := staged } } }

/-- TransactionLifecycle, StagedWrites, SewTransactions: each state of a transaction; a claimed register and a free one, the greatest value of a
field and one beyond it, a wide register and a narrow one, a full transaction; a check that passes. -/
theorem meets_transactions :
    up.ha.txn.state = .idle ∧ (sewing .opened []).ha.txn.state = .opened ∧ (sewing .doomed []).ha.txn.state = .doomed ∧
    aligned 0x02800010 8 = true ∧ aligned 0x02800014 8 = false ∧ fld 6000 15 0 ≤ 6000 ∧ 6000 < fld 6001 15 0 ∧
    (stFields 0x02800010).map (fun fs => fs.map (fun f => (f.hi, f.lo, f.least, f.most))) = some [(1, 0, 0, 2)] ∧ stWide 0x02800010 = false ∧ stWide 0x02810008 = true ∧ peerMayStage 0x02800010 = true ∧
    peerMayStage 0x02810000 = false ∧ fld (2 % 2 ^ 32) 1 0 ≤ 2 ∧ ¬fld (3 % 2 ^ 32) 1 0 ≤ 2 ∧
    0x02800010 ∈ (sewing .opened [(0x02800010, 1)]).ha.txn.staged.map Prod.fst ∧
    (State.undrain (sewing .opened [(0x01030F00, 7)]) .ha).sewOk (sewing .opened [(0x01030F00, 7)]).ha.txn = true ∧
    (State.undrain (sewing .opened [(0x02810008, 2 ^ 63 + 2 ^ 35)]) .ha).sewOk (sewing .opened [(0x02810008, 2 ^ 63 + 2 ^ 35)]).ha.txn = false ∧
    (sewing .sewing []).tidy = true ∧ (sewing .sewing []).sramDone (sewing .sewing []).ha.txn = true ∧
    (sewing .sewing []).ready = true ∧ (sewing .sewing []).freeze.frozen = false ∧ (sewing .sewing []).ha.txn.retrain.all (sewing .sewing []).trained = true ∧
    (State.undrain (sewing .opened []) .ha).sewOk (sewing .opened []).ha.txn = true ∧ (sewing .opened []).activating 1 = false := by decide +kernel

/-- The management controller of the same module activates. -/
def restarting : State := { up with sec := { up.sec with activation := some { port := .ha, rest := [], cur := 1, deadline := 1 } } }

theorem restarting_serves : restarting.serves .ha ∧ restarting.activating 1 = true := ⟨⟨rfl, rfl, rfl, rfl, rfl, .inl rfl⟩, by decide⟩

/-- SewTransactions: SEW of one value of SRAM_DOMAIN applies it to its register, and SEW_END of a transaction that changed no domain ends it. -/
theorem test_sew_then_end :
    (∃ t, Sys2Proof.Machine.exec (.sew .ha) (sewing .opened [(0x01030F00, 0x7)]) = .next t ∧ t.ha.txn.state = .sewing ∧ t.reg 0x01030F00 = 7) ∧
    (∃ t, Sys2Proof.Machine.exec (.sewEnd .ha) (sewing .sewing []) = .next t ∧ t.ha.txn.state = .idle ∧ t.ha.txn.status = 0) :=
  ⟨⟨_, rfl, by decide +kernel⟩, ⟨_, rfl, by decide +kernel⟩⟩

theorem sewing_serves (st : TxnState) (l : List (Nat × Nat)) : (sewing st l).serves .ha :=
  ⟨rfl, rfl, rfl, rfl, rfl, .inl rfl⟩

/-! ### Wide commands -/

/-- The command that passes, as `State.passes` says, computed. -/
def passing (s : State) (c q : Nat) (ws : Words) : Option Wide :=
  let qi := 8 * c + q
  let w := (s.took qi).newWide qi ws
  let u := s.dispatched qi ws
  let w' := u.taken w
  if c < 24 ∧ q < 8 ∧ s.turn qi = true ∧ (s.took qi).fetchFault qi 1 = none ∧ fld ws.w0.toNat 63 60 = 15 ∧ (s.took qi).wordsLeft qi 4 = true ∧
      (s.took qi).fetchFault qi 4 = none ∧ (s.took qi).wide qi w.cseq = none ∧ w.opcode ≠ 0 ∧ w.opcode ≤ 12 ∧ u.badDesc qi w = none ∧
      u.poisonedDesc w = false ∧ (u.adaptHeld && w.namesAdapt) = false then
    match u.allOps w' with
    | some ops =>
      if w'.tackBad = false then
        match u.checkOp (u.serving qi) { w' with ops := ops } with
        | .pass y =>
          let x := u.settled { w' with ops := ops } ops y
          if (s.accepts qi ws x).lapsed x = false then some x else none
        | _ => none
      else none
    | none => none
  else none

theorem passes_of_passing {s : State} {c q : Nat} {ws : Words} {x : Wide} (h : passing s c q ws = some x) : s.passes c q ws x := by
  unfold passing at h
  simp only at h
  split at h
  · next g =>
    obtain ⟨h1, h2, h3, h4, h5, h6, h7, h8, h9, h10, h11, h12, h13⟩ := g
    split at h
    · next ops ho =>
      split at h
      · next ht =>
        split at h
        · next y hy =>
          split at h
          · next hl =>
            simp only [Option.some.injEq] at h
            exact ⟨⟨h1, h2, h3, h4⟩, h5, h6, h7, h8, h9, h10, h11, h12, h13, ops, y, ho, ht, hy, h.symm, by rw [← h]; exact hl⟩
          · cases h
        · cases h
      · cases h
    · cases h
  · cases h

/-- A descriptor of a view in domain 0. -/
def desc (data rows cols fmt : Nat) : List Byte :=
  leBytes 8 data ++ List.replicate 24 0 ++ leBytes 4 rows ++ leBytes 4 cols ++ List.replicate 18 0 ++ leBytes 1 fmt ++ List.replicate 5 0

/-- An update descriptor of 8,224 FP32 elements in the local region of hub 0. -/
def updDesc : List Byte :=
  leBytes 8 0x040000001000 ++ leBytes 8 0 ++ leBytes 8 0x040000010000 ++ List.replicate 56 0 ++ leBytes 8 0x040000030000 ++ leBytes 8 8224 ++
  List.replicate 24 0 ++ leBytes 1 10 ++ List.replicate 7 0

/-- Address register n names the descriptor at n × 0x80 of core store 0: 1 BF16 and 2, 3 FP32 rows of 16, 4 to 6 the operands of an MM, 7 BF16,
8 one FP32 number, 9 an update descriptor, 10 and 11 views of host memory, the second one sealed chunk, 12 an empty FP32 view. -/
def cmds : State :=
  let place := fun (n : Nat) (bs : List Byte) => ((List.range bs.length).map (fun k => (0x0D0000000000 + 0x80 * n + k, bs.getD k 0))).filter (fun e => e.2 != 0)
  { up with
    queues := [(0, { sub := some { base := 0x0D0000000000, words := 64 }, pc := 0x0D0000000000,
                     a := (List.range 15).map (fun n => (n + 1, BitVec.ofNat 64 (0x0D0000000080 + 0x80 * n))) })]
    regs := [(0x02800800, 11 * 2 ^ 26), (0x03200000, 2 ^ 63 + 2 ^ 48)], hubs := [(0, { localLimit := 2 ^ 30 })], granules := [(0x200000, 1)]
    lastNorm := [(0, { issued := true, result := some (List.replicate 64 0) })], registry := { keys := [(7, 1)] }
    sec := { up.sec with keySlots := [(0, some { key := [], domain := 0, session := 0 })] }
    mem := place 1 (desc 0x0D0000001000 1 16 7) ++ place 2 (desc 0x0D0000002000 1 16 10) ++ place 3 (desc 0x0D0000003000 1 16 10) ++
      place 4 (desc 0x0D0000004000 64 64 7) ++ place 5 (desc 0x0D0000008000 16 64 7) ++ place 6 (desc 0x0D000000A000 16 64 10) ++
      place 7 (desc 0x0D0000003800 1 16 7) ++ place 8 (desc 0x0D0000003900 1 1 10) ++ place 9 updDesc ++
      place 10 (desc (2 ^ 63 + 0x1000) 1 16 7) ++ place 11 (desc (2 ^ 63 + 0x2000) 1 40 7) ++ place 12 (desc 0x0D0000003A00 0 16 10) ++
      [(2 ^ 63 + 0x2014, 32)] }

/-- A wide command of an opcode, with the low 52 bits of its first word. -/
def cmd (opcode low : Nat) (w1 w2 : Nat := 0) : Words :=
  { w0 := BitVec.ofNat 64 (15 * 2 ^ 60 + opcode * 2 ^ 52 + low), w1 := BitVec.ofNat 64 w1, w2 := BitVec.ofNat 64 w2 }

def wsMm : Words := cmd 1 (4 * 2 ^ 24 + 5 * 2 ^ 20 + 6 * 2 ^ 16) (7 * 2 ^ 60 + 7 * 2 ^ 42 + 10 * 2 ^ 24 + 1) 16
def wsQuant : Words := cmd 4 (2 ^ 28 + 2 * 2 ^ 24 + 2 ^ 20)
def wsPress (op dst : Nat) : Words := cmd 5 (2 * 2 ^ 28 + dst * 2 ^ 14 + 2 ^ 10 + op)
def wsShuttle (src dst op : Nat) : Words := cmd 6 (src * 2 ^ 28 + dst * 2 ^ 24 + op * 2 ^ 20)
def wsOp (opcode op : Nat) (w1 : Nat := 0) : Words := cmd opcode (op * 2 ^ 28 + 2 ^ 48 + 100 * 2 ^ 34) w1

theorem meets {s : State} {ws : Words} {P : Wide → Bool} (h : (passing s 0 0 ws).any P = true) : ∃ x, s.passes 0 0 ws x ∧ P x = true := by
  cases e : passing s 0 0 ws with
  | none => simp [e] at h
  | some x => exact ⟨x, passes_of_passing e, by simpa [e] using h⟩

theorem cmds_tidy : cmds.tidy = true := by decide +kernel

/-- ArrayCommands: each of its commands passes with tiles to do, and a QUANT of an empty view with none; LOADW and SEAM pass. -/
theorem meets_array_commands :
    ∀ e ∈ [(wsMm, fun (x : Wide) => x.opcode == 1 && x.tiles != 0), (wsQuant, fun x => x.opcode == 4 && x.tiles != 0),
      (wsPress 5 3, fun x => x.opcode == 5 && !isReduction x.pressOp && x.pressOp != 0x40 && x.tiles != 0),
      (wsPress 0x20 8, fun x => isReduction x.pressOp && x.tiles != 0), (wsPress 0x40 0, fun x => x.pressOp == 0x40 && x.tiles != 0),
      (cmd 4 (12 * 2 ^ 28 + 12 * 2 ^ 24 + 2 ^ 20), fun x => x.tiles == 0), (cmd 2 (4 * 2 ^ 24) (7 * 2 ^ 60), fun x => x.opcode == 2),
      (cmd 3 (2 ^ 28) 0 0xFFFFFFFC, fun x => x.opcode == 3 && emaskEngines 0 (fld x.n0 31 28) != []), (cmd 3 0 0 0xFFFFFFFC, fun x => emaskEngines 0 (fld x.n0 31 28) == [])],
      (passing cmds 0 0 e.1).any e.2 = true := by decide +kernel

/-- ArrayCommands: a full tile queue; a pleat that is idle, and one that is not; an engine on which a SEAM waits. -/
theorem meets_array_waits :
    let full : State := { cmds with cores := [(0, { tileQ := List.replicate 32 (3, 1) })] }
    let taken : State := { cmds with engines := [(0, { pleats := [(0, { draining := true })], seam := some { queue := 1, cseq := 1, map := 0, modes := 0 } })] }
    (passing full 0 0 wsMm).any (fun x => x.tiles != 0) = true ∧
    (passing cmds 0 0 (cmd 2 (4 * 2 ^ 24) (7 * 2 ^ 60))).any (fun x => cmds.pleatIdle (cmds.engine 0) (fld x.n0 31 28) (cmds.queuePrio 0)) = true ∧
    (passing taken 0 0 (cmd 2 (4 * 2 ^ 24) (7 * 2 ^ 60))).any (fun x => !taken.pleatIdle (taken.engine 0) (fld x.n0 31 28) (taken.queuePrio 0)) = true ∧
    (passing taken 0 0 (cmd 3 (2 ^ 28) 0 0xFFFFFFFC)).any (fun x => decide (0 ∈ emaskEngines 0 (fld x.n0 31 28))) = true ∧ (taken.engine 0).seam ≠ none := by
  decide +kernel

/-- ShuttleCommands: COPY, CONVERT, DECRYPT of host memory and FILL pass, with a shuttle free, and with none. -/
theorem meets_shuttle_commands :
    (∀ e ∈ [(wsShuttle 1 7 0, fun (x : Wide) => x.op == 0 && cmds.hostSource x == none), (wsShuttle 1 2 1, fun x => x.op == 1),
      (wsShuttle 11 7 2, fun x => x.op == 2 && cmds.hostSource x == some .ha), (wsShuttle 0 7 3, fun x => x.op == 3 && !x.shDst.desc.isRing)],
      (passing cmds 0 0 e.1).any (fun x => x.opcode == 6 && !cmds.hostGone x && e.2 x) = true) ∧
    (cmds.core 0).freeShuttle = some 0 ∧ cmds.unreachable 0x0D000000380F = false ∧
    (let s : State := { cmds with cores := [(0, { shuttle0 := some (3, 1), shuttle1 := some (3, 2) })] }
     (passing s 0 0 (wsShuttle 1 7 0)).isSome = true ∧ (s.core 0).freeShuttle = none) ∧
    (let s : State := { cmds with ha := {} }
     (passing s 0 0 (wsShuttle 10 7 0)).any (fun x => x.opcode == 6 && s.hostGone x) = true) := by decide +kernel

/-- TackCommands: each op, alone in its queue, with and without a return tack, remote and local; a WAIT that is met, that waits, and whose tack
has lost its source. -/
theorem meets_tack_commands :
    (∀ op ∈ [0, 1, 2, 3, 4], (passing cmds 0 0 (wsOp 7 op 1)).any (fun x => x.opcode == 7 && x.op == op && x.retEn && !x.recBit) = true) ∧
    (∀ ws ∈ [cmd 7 (2 ^ 28 + 2 ^ 13) (5 * 2 ^ 50 + 1), cmd 7 (4 * 2 ^ 28) 2047, cmd 7 (4 * 2 ^ 28) 1],
      (passing cmds 0 0 ws).any (fun x => !x.retEn) = true) ∧
    (cmds.queue 0).inflight = [] ∧ (cmds.queue 0).stopped = false ∧ (cmds.queue 0).sub.any (fun y => !y.recAll) = true ∧ cmds.fabricId ≠ 5 ∧
    (let y : Waiter := { queue := 0, cseq := 1, eq := true, operand := 1, deadline := none }; y.met 1 = true ∧ y.met 0 = false) ∧
    (let s : State := { cmds with tacks := [(0, { sourceLost := true })] }
     (passing s 0 0 (wsOp 7 2 1)).isSome = true ∧ (s.tack 0).sourceLost = true) := by decide +kernel

/-- CollectiveCommands: each operation passes; a communicator that has lost a member, one that JOB-FATAL has ended, and 32 collectives in
progress. -/
theorem meets_collective_commands :
    (∀ op ∈ [0, 1, 2, 3, 4], (passing cmds 0 0 (cmd 8 (op * 2 ^ 28 + 2 * 2 ^ 12 + 3 * 2 ^ 8))).any (fun x => x.opcode == 8 && x.op == op) = true) ∧
    (passing cmds 0 0 (cmd 8 (5 * 2 ^ 28 + 3 * 2 ^ 8 + 8 + 2 * 2 ^ 4) 1)).any (fun x => x.op == 5) = true ∧
    (∀ l ∈ [({ comms := [(0, { lost := some 3 })] } : Link), { comms := [(0, { fatal := true })] }, { colls := List.replicate 32 {} }],
      (passing { cmds with link := l } 0 0 (cmd 8 (2 * 2 ^ 12 + 3 * 2 ^ 8))).isSome = true) := by decide +kernel

/-- Updates: a UPD passes on path 0 and on path 1, and its record is there; the oldest UPD of an engine, its shard fresh, with block groups left;
a shard whose state shows an update interrupted. -/
theorem meets_updates :
    (∀ e ∈ [(0, false), (2 ^ 24, true)], (passing cmds 0 0 (cmd 9 (9 * 2 ^ 28 + e.1))).any (fun x =>
      x.opcode == 9 && x.normRec.isSome && x.updPath == e.2) = true) ∧
    (passing { cmds with lastNorm := [(0, { issued := true })] } 0 0 (cmd 9 (9 * 2 ^ 28))).any (fun x => x.normRec.isNone) = true ∧
    (cmds.accepted 0).length < 16 ∧
    (let u := (passing cmds 0 0 (cmd 9 (9 * 2 ^ 28))).getD {}
     let w : Wide := { u with stage := .issued }
     let s : State := { cmds with queues := [(0, { (cmds.queue 0) with inflight := [w] })], upd := { accepted := [(0, [(0, w.cseq)])] } }
     let d := updDescOf updDesc
     s.alive = true ∧ s.wide 0 w.cseq = some w ∧ w.upd = some d ∧ w.normRec = some (List.replicate 64 0) ∧ s.updFirst 0 w = true ∧ w.done + 1 < d.groups ∧
     s.readLe (d.state + 8) 8 = 0 ∧ s.poisoned d.state 64 = false ∧ (updOutcome (List.replicate 64 0)).1 = true ∧ badLr w.lr = false ∧
     (let w : Wide := { w with done := d.groups - 1 }
      let s : State := { s with queues := [(0, { (cmds.queue 0) with inflight := [w] })] }
      s.wide 0 w.cseq = some w ∧ s.updFirst 0 w = true ∧ w.done ≠ 0 ∧ d.groups ≤ w.done + 1 ∧ ((w.operand 1).toJit && (d.trainEn || d.genEn)) = false) ∧
     badLr 0xFFC00000 = true ∧ (∀ j, j < 8 → s.unreachable (d.state + 8 + j) = false) ∧
     (updOutcome (List.replicate 46 0 ++ [2] ++ List.replicate 17 0)).1 = false ∧
     State.poisoned { s with poison := [d.state / 256] } d.state 64 = true) := by decide +kernel

/-- MeasureCommands: each op passes, with no boundary in progress and with one; a key that is active and one that is not; a boundary to be merged,
and one to be decided. -/
theorem meets_measure_commands :
    (∀ op ∈ [0, 1, 2, 3, 4, 5], (passing cmds 0 0 (cmd 10 (op * 2 ^ 28 + 2 ^ 48 + 100 * 2 ^ 34 + 14 * 2 ^ 24) 7)).any (fun x =>
      x.opcode == 0xA && x.op == op) = true) ∧
    (let b : Boundary := { queue := 1, cseq := 1, comm := 0, step := 0 }
     let s : State := { cmds with tailor := { boundary := some b } }
     (passing s 0 0 (cmd 10 (2 ^ 48 + 100 * 2 ^ 34))).isSome = true ∧ s.alive = true ∧ s.measuredInFlight 0 = false ∧ (s.comm 0).fatal = false ∧
       (s.comm 0).lost = none ∧ s.boundaryBusy = true) ∧
    (let b : Boundary := { queue := 1, cseq := 1, comm := 0, step := 0 }
     ∀ m ∈ [({} : CommState), { lost := some 3 }], let s : State := { cmds with tailor := { boundary := some b }, link := { comms := [(0, m)], colls := [{ kind := .stepEnd, unbegun := true }] } }
       s.alive = true ∧ s.measuredInFlight 0 = false ∧ (s.coll 0 0).isSome = true ∧ (s.link.colls.filter (fun z => !z.unbegun)).length < 32 ∧
         s.link.sliceFaults = []) ∧
    cmds.seedOf 7 = some 1 ∧ cmds.seedOf 8 = none ∧ (passing cmds 0 0 (cmd 10 (4 * 2 ^ 28) 8)).isSome = true ∧
    cmds.allWide.filter (fun y => y.2.opening none) = [] := by decide +kernel

theorem get_mapped {f : Nat → Nat} (hf : ∀ i j, i < j → f i < f j) (d v : StatRec) :
    ∀ n a j, a ≤ j → j < a + n → SMap.get d ((List.range' a n).map (fun i => (f i, v))) (f j) = v := by
  intro n
  induction n with
  | zero => intro a j h1 h2; omega
  | succ n ih =>
    intro a j h1 h2
    rw [List.range'_succ, List.map_cons, SMap.get]
    rcases Nat.lt_or_ge a j with h | h
    · rw [if_neg (by have := hf a j h; omega), if_neg (by have := hf a j h; omega)]
      exact ih (a + 1) j h (by omega)
    · obtain rfl : j = a := by omega
      rw [if_neg (Nat.lt_irrefl _), if_pos rfl]

/-- MeasureCommands: the tailor unit's grant, with no other queue asking, and with one that it goes to. -/
theorem meets_tailor_round :
    let ws := cmd 10 (2 ^ 48 + 100 * 2 ^ 34)
    let other : Wide := { cseq := 1, w := ws, unchecked := false }
    let s : State := { cmds with queues := cmds.queues ++ [(1, { cseq := 1, inflight := [other] })] }
    (passing cmds 0 0 ws).any (fun x => let a := cmds.accepts 0 ws x
      !a.boundaryBusy && a.tailorAsks.all (· == 0) && (a.tailorRound 0).1) = true ∧
    (SMap.get {} (SMap.get ({} : Arbiter) cmds.arbiters (arbKey .tailor)).reqs 0).wait = 0 ∧
    (passing s 0 0 ws).any (fun x => let a := s.accepts 0 ws x
      !a.boundaryBusy && !(a.tailorRound 0).1) = true := by decide +kernel

/-- MeasureCommands, STEP_END's decision: a reduction that ended with ST_OK and in which every record agreed. -/
def decided : State := { cmds with tailor := {
  boundary := some { queue := 0, cseq := 1, comm := 0, step := 0, merged := true }, reduction := some 0
  reduced := (List.range' 0 12288).map (fun i => (tagRole (i / 3) (i % 3), ({ agree := 6 } : StatRec))) } }

theorem meets_decision : decided.alive = true ∧ decided.tailor.reduction = some 0 ∧ decided.statsDisagree = false := by
  refine ⟨by decide +kernel, rfl, ?_⟩
  simp only [State.statsDisagree, statKeys, upto, List.any_map, List.any_eq_false, List.mem_range, Function.comp]
  intro i hi
  have h := get_mapped (f := fun i => tagRole (i / 3) (i % 3)) (by intro i j h; simp only [tagRole]; omega) {} { agree := 6 } 12288 0 i
    (by omega) (by omega)
  simp only [decided, h]
  decide

/-- ChalkAndFenceCommands: each op passes; a buffer that is enabled and has storage; a FENCE with something to wait for. -/
theorem meets_chalk_and_fence :
    (∀ op ∈ [0, 1, 2, 3], (passing cmds 0 0 (cmd 11 (op * 2 ^ 28))).any (fun x => x.opcode == 0xB && x.op == op) = true) ∧
    (∀ op ∈ [0, 1], (passing cmds 0 0 (cmd 12 (op * 2 ^ 28))).any (fun x => x.opcode == 0xC && x.op == op && x.waits == []) = true) ∧
    (let s : State := { cmds with
       granules := [(0x690000, 1)], chalk := [(0, { cfg := 2 ^ 63 + 11 * 2 ^ 48, base := 0x0D2000000000 }), (1, { cfg := 2 ^ 63 + 11 * 2 ^ 48, base := 64 })] }
     (passing s 0 0 (cmd 11 (2 * 2 ^ 28))).isSome = true ∧ (s.buffer 0).enabled = true ∧ s.chalkPlaced (s.buffer 0) = true ∧
       (s.buffer 1).enabled = true ∧ s.chalkPlaced (s.buffer 1) = false ∧ (s.buffer 2).enabled = false) ∧
    (let w : Wide := { w := wsMm, stage := .issued }
     (passing { cmds with queues := [(0, { (cmds.queue 0) with inflight := [w] })] } 0 0 (cmd 12 0)).any (fun x => x.waits != []) = true) := by
  decide +kernel

/-! ### Issue, retirement, submissions, arbiters -/

/-- IssueAndRetirement: a command that waited for its unit, one that waited for its check, and a head that is complete, with a status, and with a ring
that has room and one that has none. -/
theorem meets_issue_and_retirement :
    (∀ k ∈ [true, false], let w : Wide := { cseq := 1, w := wsMm, tiles := 1, unchecked := k }
      let s : State := { cmds with queues := [(0, { (cmds.queue 0) with cseq := 1, inflight := [w] })] }
      s.tidy = true ∧ s.alive = true ∧ (s.queue 0).stopped = false ∧ (s.core (s.serving 0)).fence = .inService ∧ (s.queue 0).unissued = some w ∧
        s.adaptHeld = false ∧ (s.core 0).tileQ.length < 32 ∧
        State.adaptHeld { s with tailor := { boundary := some { queue := 9, cseq := 1, comm := 0, step := 0 } } } = true) ∧
    (∀ st ∈ [0, 2], ∀ size ∈ [0, 6], let w : Wide := { cseq := 1, w := cmd 10 (4 * 2 ^ 28 + 2 ^ 51 + 2 ^ 48 + 3 * 2 ^ 34) 7, stage := .complete, status := st }
      let s : State := { cmds with queues := [(0, { (cmds.queue 0) with cseq := 1, inflight := [w] })], hostqs := [(0, { enable := true, sizeLog2 := size })] }
      s.tidy = true ∧ s.alive = true ∧ s.tailor.boundary = none ∧ (s.queue 0).sub.isSome = true ∧ (s.queue 0).stopped = false ∧ (s.queue 0).trap = none ∧
        w.recBit = true ∧ w.retEn = true ∧ s.recRoom 0 = decide (size = 6)) := by decide +kernel

/-- SubmissionStarts: two host queues feed the queue, the second after the one last served; and none. -/
theorem meets_submission_starts :
    let s : State := { up with queues := [(0, { lastHq := 5 })], hostqs := [(3, { enable := true, sizeLog2 := 6, tail := 1 }), (7, { enable := true, sizeLog2 := 6, tail := 1 })] }
    s.tidy = true ∧ s.alive = true ∧ (s.core (s.serving 0)).fence = .inService ∧ s.nextHostq 0 = some 7 ∧ up.nextHostq 0 = none ∧
    (s.queue 0).sub = none ∧ (s.queue 0).stopped = false ∧ (s.queue 0).trap = none ∧ (s.queue 0).recs = [] ∧ 0x0D0000000000 / 8 * 8 + 8 * 1 < 2 ^ 64 := by
  decide +kernel

/-- ArbiterRounds: the owner asking alone, every requester backed off or masked, and a candidate; a fabric port with a message to send, with a CTRL
flit before it, and a requester with a burst. -/
theorem meets_arbiter_rounds :
    let s : State := { up with cores := [(3, { fence := .fenced })], arbiters := [(7, { reqs := [(2, { losses := 1, wait := 1 })] })] }
    s.tidy = true ∧ s.arbRuns (.hubIngress 7) = true ∧ arbOk (.hubIngress 7) = true ∧ arbOk (.coreStoreBank 23 15) = true ∧
    (∀ r ∈ [0, 2, 3, 27], r < arbWidth (.hubIngress 7) ∧ s.arbAsks (.hubIngress 7) r = true) ∧ s.arbMasked (.hubIngress 7) 3 = true ∧
    s.arbMasked (.hubIngress 7) 2 = false ∧ s.arbMasked (.hubIngress 7) 27 = false ∧
    (SMap.get ({} : Requester) (SMap.get ({} : Arbiter) s.arbiters (arbKey (.hubIngress 7))).reqs 2).wait = 1 ∧
    (SMap.get ({} : Arbiter) s.arbiters (arbKey (.hubIngress 7))).owner = 0 ∧
    (let f : Flit := { header := 2 ^ 36, payload := [], crc := 0 }
     ∀ cs ∈ [[], [Ctrl.audit]],
     let e : State := { up with link := { ports := [(47, { state := .up, vcs := [(3, { avail := 1 })], outq := [(3, [f])], ctrlq := cs })] } }
     e.tidy = true ∧ e.arbRuns (.egress 47) = true ∧ arbOk (.egress 47) = true ∧ 3 < arbWidth (.egress 47) ∧ e.arbAsks (.egress 47) 3 = true ∧ e.arbMasked (.egress 47) 3 = false ∧
       (e.fport 47).ctrlq = cs ∧ SMap.get [] (e.fport 47).outq 3 = [f] ∧ f.header < 2 ^ 37) := by decide +kernel

/-! ### The memory system -/

/-- A hub's address with a live channel: the first unit of the interleaved region, with 1 GiB for each hub. -/
def hubby : State := { up with regs := [(hubReg 7 0x28, 0x80180000), (0x02810000, 1)] }

/-- HubUnits: a unit that is reached, an access without errors, with one that is corrected, and with more; a scrub read. -/
theorem meets_hub_units :
    hubby.tidy = true ∧ hubby.hubWorks 7 = true ∧ (hubby.hub 7).requests = [] ∧
    (let s : State := { hubby with hubs := [(7, { requests := [2, 2], tokens := [(2, 2)] })] }
     s.tidy = true ∧ s.hubWorks 7 = true ∧ (s.hub 7).requests = [2, 2]) ∧ hubby.moduleAddr 7 0x300 = some 0x7300 ∧ (hubby.channel (hubby.dramOf 7 0x300).1).fenced = false ∧
    (∃ i v, (decodeErrors [(5, 0x80)]).1 = .corrected i v ∧ ∀ x ∈ (decodeErrors [(5, 0x80)]).2, x = 0) ∧
    (decodeErrors [(1, 1), (2, 1), (3, 7)]).1 = .uncorrectable ∧ (List.replicate 256 (0 : Byte)).length = 256 ∧
    (SMap.get {} (hubby.channel (hubby.dramOf 7 0x300).1).pages (hubby.dramOf 7 0x300).2.1).lastCorrected = none ∧
    bit (hubby.reg (hubReg 7 0x28)) 31 = true ∧ hubby.scrubNext 7 = (48 * 7 + 0, 0) ∧ hubby.unreachable 0x7300 = false := by
  refine ⟨?_, ?_, ?_, ?_, ?_, ?_, ⟨5, 0x80, ?_⟩, ?_⟩ <;> decide +kernel

/-- HubUpkeepAndSramDomains: a delay that has moved by 0.030 and by 0.031 of a unit interval, a channel that failed a retune; a core whose SRAM
domain is to change, quiet and not. -/
theorem meets_upkeep :
    let s : State := { up with channels := [(383, { failedRetunes := 1 })], cores := [(22, { fence := .scrubbing }), (23, { sramPending := some 63, scrubBusy := true })] }
    let w : Wide := { cseq := 1 }
    s.tidy = true ∧ (s.hub 7).lost = false ∧ s.alive = true ∧ s.hubWorks 7 = true ∧
    State.unitRestarts { s with sec := { activation := some { port := .ha, rest := [], cur := 2, deadline := 30000000 } } } 2 30000000 7 = true ∧ ¬30 < ((30 : Int) - (s.channel 383).delay).natAbs ∧ 30 < ((-31 : Int) - (s.channel 383).delay).natAbs ∧
    (s.channel 383).fenced = false ∧ 1 ≤ (s.channel 383).failedRetunes ∧ (s.core 23).sramPending = some 63 ∧ s.coreQuiet 23 = true ∧
    State.coreQuiet { s with queues := [(184, { inflight := [w] })] } 23 = false ∧ (s.core 23).scrubBusy = true ∧ (s.core 22).scrubBusy = false ∧
    (s.core 22).fence = .scrubbing := by decide +kernel

def blk (seq : Nat) (ack : Option (Bool × Nat)) : Block :=
  { payload := List.replicate 256 0, addr := 64, crc := crc32c (List.replicate 256 0 ++ leBytes 8 64 ++ leBytes 2 seq), ack := ack }

/-- BlockStreams: streams with room and without; a module whose resends are exhausted. -/
theorem meets_block_streams :
    up.tidy = true ∧ up.alive = true ∧ streamExists (.ucie 7 5 true) = true ∧ streamExists (.die 38 0) = true ∧ up.replayRoom (.die 38 0) = true ∧
    (let s : State := { up with blockLinks := [(blockStreamKey (.ucie 7 5 true), { replay := List.replicate 64 (0, blk 0 none) })] }
     s.tidy = true ∧ s.replayRoom (.ucie 7 5 true) = false ∧ s.replayRoom (.ucie 7 5 false) = true) ∧
    (let s : State := { up with hubs := [(7, { ucieLive := 63 })], blockLinks := [(blockStreamKey (.ucie 7 5 true), { resends := 5, ackOwed := true })] }
     s.tidy = true ∧ bit (s.hub 7).ucieLive 5 = true ∧ 4 < (s.blockLink (.ucie 7 5 true)).resends ∧ (s.blockLink (.ucie 7 5 true)).ackOwed = true) := by
  decide +kernel

theorem block_checks {payload : List Byte} (h : payload.length = 256) (addr seq : Nat) (ack : Option (Bool × Nat)) :
    let b : Block := { payload := payload, addr := addr, crc := crc32c (payload ++ leBytes 8 addr ++ leBytes 2 seq), ack := ack }
    blockPasses b seq = true ∧ blockPasses { b with crc := b.crc + 1 } seq = false := by simp [blockPasses, h]

theorem block_crc (seq : Nat) : crc32c (List.replicate 256 0 ++ leBytes 8 64 ++ leBytes 2 seq) =
    (leBytes 2 seq).foldl (fun c b => crcSteps 0x82F63B78 8 (c ^^^ b.toNat)) 1257411938 ^^^ 0xFFFFFFFF := by
  have h1 : (List.replicate 128 (0 : Byte)).foldl (fun c b => crcSteps 0x82F63B78 8 (c ^^^ b.toNat)) 0xFFFFFFFF = 4158167844 := by decide +kernel
  have h2 : (List.replicate 128 (0 : Byte) ++ leBytes 8 64).foldl (fun c b => crcSteps 0x82F63B78 8 (c ^^^ b.toNat)) 4158167844 = 1257411938 := by
    decide +kernel
  rw [crc32c, crcReflected, show List.replicate 256 (0 : Byte) = List.replicate 128 0 ++ List.replicate 128 0 from List.replicate_append_replicate (n := 128) (m := 128) |>.symm,
    List.append_assoc (List.replicate 128 _), List.foldl_append, List.foldl_append, h1, h2]

/-- BlockStreams: a block sent before the negative acknowledgement, which follows the one expected. -/
theorem blk_later : blockPasses (blk 1 none) ((0 + 0 + 1) % 65536) = true := by
  simp only [blockPasses, blk, List.length_replicate, beq_self_eq_true, Bool.and_self, Nat.reduceAdd, Nat.reduceMod]

theorem find_first {p : Nat → Bool} {n : Nat} (h : p 0 = true) : ((upto (n + 1)).find? p) = some 0 := by
  rw [show upto (n + 1) = List.range (n + 1) from rfl, List.range_succ_eq_map, List.find?_cons_of_pos h]

theorem blk_laterBy : laterBy (blk 1 none) 0 = some 1 := by
  rw [laterBy, find_first (p := fun k => blockPasses (blk 1 none) ((0 + k + 1) % 65536)) blk_later]; rfl

theorem blk_fails : blockPasses (blk 1 none) 0 = false := by simp only [blockPasses, blk, block_crc]; decide +kernel

theorem in_flight {x : BlockLink} {b : Block} {k : Nat} (h : laterBy b x.expected = some k) (ha : x.ahead < k) : x.inFlight b = true := by
  simp [BlockLink.inFlight, h, ha]

theorem meets_block_elsewhere : blockPasses (blk 1 none) 0 = false ∧ BlockLink.inFlight {} (blk 1 none) = true :=
  ⟨blk_fails, in_flight blk_laterBy (by decide)⟩

/-- BlockStreams: a block that passes, with each acknowledgement, and one that fails. -/
theorem meets_block_checks : ∀ ack, blockPasses (blk 0 ack) 0 = true ∧ blockPasses { blk 0 ack with crc := (blk 0 ack).crc + 1 } 0 = false :=
  block_checks (List.length_replicate ..) 64 0

/-! ### The fabric -/

/-- A module with fabric ID 1 whose port 47 is in a given state. -/
def linked (x : FabPort) : State := { up with regs := [(fportReg 47 0, 2 ^ 31), (0x03100000, 2 ^ 31 + 1)], link := { ports := [(47, x)] } }

/-- A flit whose check passes with a sequence. -/
def flit (header seq : Nat) (payload : List Byte := []) : Flit := { header := header, payload := pad240 payload, crc := flitCrc header (pad240 payload) seq }

/-- An INIT of the module `id`. -/
def initOf (id : Nat) : List Byte := [1, 0] ++ leBytes 2 (2 ^ 15 + id) ++ [0, 0, 0, 1] ++ leBytes 8 0x0010001000100010 ++ leBytes 2 512

/-- PortLifecycle: each state that a clause names; an INIT that is taken, one of a duplicate, and one that fails. -/
theorem meets_port_lifecycle :
    (linked {}).tidy = true ∧ (linked {}).linkLive = true ∧ (linked {}).linkRestarts 47 = false ∧
    State.linkRestarts { linked {} with sec := { activation := some { port := .ha, rest := [], cur := 4, deadline := 20000000 } } } 47 = true ∧ bit ((linked {}).reg (fportReg 47 0)) 31 = true ∧ ((linked {}).fport 47).state = .down ∧
    ((linked {}).fport 47).retryAt ≤ (linked {}).now ∧ ((linked { retryAt := 5 }).fport 47).retryAt ≠ 0 ∧
    (let x := (linked { state := .training, step := 4, partnerReady := true, ownReady := true }).fport 47
     x.state = .training ∧ 4 ≤ x.step ∧ x.partnerReady = true ∧ x.ownReady = true) ∧
    (∀ id ∈ [1, 2], let f := flit (4 * 2 ^ 61) 0 (initOf id); f.kind = 4 ∧ f.passes 0 = true ∧ (linked {}).initDuplicate f.payload = decide (id = 1) ∧
      (linked {}).initOk f.payload = true) ∧
    (linked {}).initOk (pad240 []) = false ∧ (linked {}).initDuplicate (pad240 []) = false ∧ ((linked { state := .up }).fport 47).linked = true ∧
    ((linked { state := .recovery }).fport 47).state = .recovery := by decide +kernel

/-- FlitReception: on an UP port, IDLE with an acknowledgement, with a nack, and failing; HOLD; DATA that is a whole message, of a kind that is
one and of a kind that is none, that is a part of one, and that fails; each CTRL. -/
theorem meets_flits :
    let s := linked { state := .up, rxSeq := 4095 }
    let x := s.fport 47
    s.tidy = true ∧ s.linkLive = true ∧ x.state = .up ∧ s.power.state = .active ∧
    (let f := flit (2 ^ 58 + 9 * 2 ^ 45) 0; f.kind = 0 ∧ f.passes 0 = true ∧ f.ackValid = true ∧ f.nack = false) ∧
    (let f := flit (2 ^ 58 + 2 ^ 57) 0; f.ackValid = true ∧ f.nack = true) ∧ (flit 0 1).passes 0 = false ∧
    (let f := flit (3 * 2 ^ 61) 0; f.kind = 3 ∧ f.passes 0 = true ∧ f.ackValid = false) ∧
    (∀ e ∈ [(1, 0xE), (0, 0xF)], let f := flit (2 ^ 61 + 2 ^ 36 + 2 ^ 35) 4095 (leBytes 8 (2 ^ 50 + e.1 * 2 ^ 31))
      f.kind = 1 ∧ f.passes x.rxSeq = true ∧ f.ackValid = false ∧ x.unacked + 1 < 64 ∧ f.isFirst = true ∧ f.isLast = true ∧ (Msg.ofWire f.payload).mkind = e.1) ∧
    (let f := flit (2 ^ 61 + 2 ^ 36) 4095; f.kind = 1 ∧ f.passes x.rxSeq = true ∧ f.isLast = false) ∧ (flit (2 ^ 61) 0).passes x.rxSeq = false ∧
    (∀ k ∈ [1, 2, 3, 4], let f := flit (2 * 2 ^ 61 + 3 * 2 ^ 59) 4095 (leBytes 1 k); f.kind = 2 ∧ f.passes x.rxSeq = true ∧ leAt f.payload 0 1 = k) := by
  decide +kernel

/-- FlitReception: an AUDIT whose sums all balance, one with a surplus, and one with a deficit. -/
theorem meets_audits :
    let x := (linked { state := .up, rxSeq := 4095 }).fport 47
    let sums := fun (credits : Nat → Nat) =>
      let f := flit (2 * 2 ^ 61 + 3 * 2 ^ 59) 4095 (leBytes 1 2 ++ (List.range 4).flatMap (fun v => leBytes 8 0 ++ leBytes 2 (credits v)))
      let y := FabPort.takeCredits { x.setBook f.vc { x.book f.vc with occ := (x.book f.vc).occ + 1 } with
        rxSeq := (x.rxSeq + 1) % 4096, nackOpen := false, unacked := x.unacked + 1 } f
      (List.range 4).map (fun v => (y.auditSum f.payload v, rxDepth v))
    (∀ e ∈ sums (fun v => rxDepth v - (if v = 3 then 1 else 0)), e.1 = e.2) ∧ (∃ e ∈ sums (fun v => rxDepth v), e.2 < e.1) ∧
    (∀ e ∈ sums (fun v => rxDepth v - 1), e.1 ≤ e.2) ∧ (∃ e ∈ sums (fun v => rxDepth v - 1), e.1 < e.2) := by decide +kernel

/-- LinkTimers: a nack open, acknowledgements owed, a credit to return, asked for and not; a grandmaster beside switches alone, and beside one module. -/
theorem meets_link_timers :
    let s : State := linked { state := .up, nackOpen := true, unacked := 1, vcs := [(0, { owed := 1, occ := 1 }), (3, { avail := 1 })] }
    let x := s.fport 47
    s.tidy = true ∧ s.linkLive = true ∧ x.nackOpen = true ∧ x.rxSeq < 4096 ∧ x.state = .up ∧ x.unacked ≠ 0 ∧
    x.owedVc = some (0, 1) ∧ .credit 0 ∉ x.ctrlq ∧ ((linked { x with ctrlq := [.credit 0] }).fport 47).ctrlq = [.credit 0] ∧
    (∀ sw ∈ [true, false], let s : State := { linked { state := .up, partnerSwitch := sw, partnerId := 2 } with regs := s.regs ++ [(0x03100020, 1)] }
      let ups := (List.range 48).filter (fun q => (s.fport q).state == .up)
      s.tidy = true ∧ s.linkLive = true ∧ s.isGm = true ∧ ups = [47] ∧ (s.fport 47).partnerSwitch = sw ∧ s.isLost 2 = false ∧ (s.stream 2 448).waiting = [] ∧
        (s.stream 2 448).unacked.length < 4096 ∧ s.transportRoom (Msg.mk (msgT0 2 s.fabricId 0xE 0 1) 0 0 0 []) = true) := by decide +kernel

/-- A message from module 2 to this one, received whole on port 47. -/
def message (kind : Nat) (t2 t3 : Nat) (data : List Byte := []) : Msg := { t0 := 2 ^ 50 + 2 * 2 ^ 36 + kind * 2 ^ 31, t1 := 0, t2 := t2, t3 := t3, data := data }
def holding (m : Msg) : State := { linked { state := .up, inq := [(2, 1, m)] } with
  regs := [(fportReg 47 0, 2 ^ 31), (0x03100000, 2 ^ 31 + 1), (0x03100018, 1)], granules := [(0x690000, 1)] }

/-- Messages: a message of each kind in its turn; memory that a remote module may reach and memory that it may not. -/
theorem meets_messages :
    (∀ k ∈ [1, 2, 3, 4, 5, 6, 7, 8, 9, 10, 11, 12, 13, 14], let m := message k 0x0D2000000000 3 [1, 2]
      let s := holding m
      s.tidy = true ∧ s.linkLive = true ∧ s.resting = false ∧ (s.fport 47).inq.find? (fun e => e.2.2 == m) = some (2, 1, m) ∧ m.mkind = k ∧ m.dst = s.fabricId ∧
        s.isLost m.src = false ∧ m.mseq = (s.stream m.src m.streamNo).expected ∧ (s.stream m.src m.streamNo).reorder = [] ∧
        (s.stream m.src m.streamNo).waiting = [] ∧ s.coll m.comm m.k = none) ∧
    (∀ k ∈ [1, 2, 4], let m := message k 0x0D2000000000 8 [1, 2]
      (holding m).remoteMay m = true ∧ (holding m).poisoned 0x0D2000000000 8 = false ∧ (k = 4 → m.atomicOp ≠ 3)) ∧
    (let m := message 1 0 8 [1, 2]; (holding m).remoteMay m = false) ∧
    (∀ k ∈ [13, 14], let m := { message k 0 7 with t1 := 448 * 2 ^ 48 }
      (holding m).isLost m.src = false ∧ m.dst = (holding m).fabricId ∧ m.streamNo = 448 ∧ m.mseq = ((holding m).stream m.src 448).expected ∧ (message k 0 7).streamNo ≠ 448) ∧ (holding {t0 := 0, t1 := 0, t2 := 0, t3 := 0}).link.time.gmId = none := by
  decide +kernel

/-- TransportTimers: a message sent seven and eight times again; ports UP and HELD in freeze and out of it; a collective that waits. -/
theorem meets_transport_timers :
    (∀ n ∈ [7, 8], let k := SentMsg.mk 3 (message 1 0 8) 47 0 n
      let s : State := { up with link := { streams := [(512 * 16383 + 448, { unacked := [k] })] } }
      s.linkLive = true ∧ (s.stream 16383 448).unacked.find? (fun e => e.mseq == 3) = some k) ∧
    (let s : State := { linked { state := .up } with freeze := { frozen := true, pin := true, holding := true } }
     s.tidy = true ∧ s.ready = true ∧ s.freeze.frozen = true ∧ s.freeze.holding = true ∧ (s.fport 47).state = .up ∧ (s.fport 0).state ≠ .up) ∧
    (let s := linked { state := .held, since := 7 }
     s.freeze.frozen = false ∧ (s.fport 47).state = .held ∧ ∀ q, q < 48 → (s.fport q).state = .held → (s.fport 47).since ≤ (s.fport q).since) ∧
    (let y : Coll := { kind := .allreduce, comm := 255, k := 1, n := 2, rank := 1, elems := 1, reports := 7 }
     let s : State := { up with regs := [(0x03210008, 1)], link := { colls := [y] } }
     s.linkLive = true ∧ fld (s.reg 0x03210008) 15 0 ≠ 0 ∧ s.coll 255 1 = some y ∧ y.reports < 8 ∧
       y.unbegun = false ∧ y.endedAs = none ∧ y.awaits.length = 1) := by decide +kernel

/-! ### Engines, errors and fencing -/

/-- The MM and the QUANT of the tests above, issued into core 0's tile queue. -/
def tiled : State :=
  let mm := (passing cmds 0 0 wsMm).getD {}
  let quant := (passing cmds 0 0 wsQuant).getD {}
  { cmds with
    queues := [(0, { (cmds.queue 0) with cseq := 2, inflight := [{ mm with stage := .issued }, { quant with cseq := 2, stage := .issued }] })]
    cores := [(0, { tileQ := [(0, 1), (0, 2)] })] }

/-- An engine whose pleat 0 runs the MM's tile, its load not begun. -/
def onPleat (mode lastEntry : Nat) (draining : Bool) : State :=
  let run : TileRun := { queue := 0, cseq := 1, otile := 0, tile := 0, rows := 16 }
  let pl : Pleat := { run := some run, lastEntry := lastEntry, draining := draining, drainEnd := 9 }
  { tiled with engines := [(0, { wave := 9, loadQ := [0], mode := mode, pleats := [(0, pl)] })] }

/-- EngineSteps: thermal hold in its withholding phase and out of it; a wave with nothing to do, with a row in flight whose first column latches,
and with none; tiles to take; a load that may begin, a drain, the configuration after it, a SEAM that is ready, and samples. -/
theorem meets_engine_steps :
    tiled.tidy = true ∧ tiled.alive = true ∧ (tiled.core 0).fence = .inService ∧ tiled.thermalWithheld = false ∧ tiled.monitorRuns 0 = true ∧
    tiled.pressWaits 0 = true ∧ up.pressWaits 0 = false ∧
    State.thermalWithheld { tiled with power := { tiled.power with hold := true, holdPhase := true } } = true ∧
    ((tiled.epilogue 0).anyRow ((tiled.epilogue 0).engine 0) = false ∧ ((tiled.epilogue 0).engine 0).busy = false) ∧
    (let f : RowFlight := { queue := 0, cseq := 1, otile := 0, tile := 0, row := 0, entered := 2, passes := 1, hc := 1, wc := 2, sums := [.zero, .zero] }
     let s : State := { tiled with engines := [(0, { wave := 3, flight := [f] })] }
     ((s.epilogue 0).engine 0).flight = [f] ∧ f.column ((s.epilogue 0).engine 0).wave = some 0 ∧ ((s.epilogue 0).engine 0).busy = true ∧
       ((s.epilogue 0).engine 0).hemFull = false) ∧
    (tiled.pick (tiled.qualified 0 (fun q v => tiled.mmQualifies 0 q v))).isSome = true ∧
    (tiled.pick (tiled.qualified 0 (fun _ v => pressQualifies 0 v))).any (fun e => e.2.opcode != 5) = true ∧
    up.pick (up.qualified 0 (fun q v => up.mmQualifies 0 q v)) = none ∧
    (let w := tiled.mmOf 0 1
     let s := onPleat (0xFFFFFFFC + w.mmMode.code) 0 false
     let e := s.engine 0
     let run : TileRun := { queue := 0, cseq := 1, otile := 0, tile := 0, rows := 16 }
     s.tidy = true ∧ (e.pleat 0).run = some run ∧ run.loadAt = none ∧ e.loadQ.head? = some 0 ∧ e.portFree ≤ e.wave ∧ (e.pleat 0).lastEntry = 0 ∧
       (e.pleat 0).draining = false ∧ s.configured e 0 run = true) ∧
    (let s := onPleat 0xFFFFFFFE 5 false
     s.tidy = true ∧ (s.engine 0).seam = none ∧ s.needsDrain (s.engine 0) 0 = true ∧ ((s.engine 0).pleat 0).lastEntry < (s.engine 0).wave) ∧
    ((onPleat 0xFFFFFFFE 5 true).engine 0).drained 0 = true ∧
    (let x : SeamWait := { queue := 0, cseq := 1, map := 0, modes := 0xFFFFFFFC }
     let e : Engine := { seam := some x }
     e.seamReady x = true) ∧
    (let x : ShadowSample := { queue := 0, cseq := 1, row0 := 0, col0 := 0, rows := 1, cols := 1, narrow := [.zero] }
     x.rows * x.cols ≤ x.narrow.length ∧ ({ x with narrow := [] } : ShadowSample).narrow.length < x.rows * x.cols) := by decide +kernel

/-- A module with one open error record. -/
def erring (r : ErrRec) : State := { up with errq := { slots := [(1, some { r with seq := 1, isOpen := true })], nextSeq := 2, newest := 1, raised := 1, stored := 1 } }

/-- ErrorHandling: for each clause of the step, the record that its unit works on. -/
theorem meets_error_handling :
    (∀ e ∈ [(0, ({ cls := 1, source := 0x0301, kind := .port, domId := 47 } : ErrRec)), (1, { cls := 2, kind := .queue, source := 0x010B, domId := 191 }),
        (2, { cls := 2, kind := .port, source := 0x0303, domId := 47 }), (3, { cls := 2, kind := .channel, source := 0x0205, domId := 47 }),
        (10, { cls := 2, kind := .hub, source := 0x0208, domId := 7 }), (0, { cls := 2, kind := .core, source := 0x0102, domId := 23 }),
        (0, { cls := 2, kind := .core, source := 0x0102, domId := 23, step := 5 }), (1, { cls := 3, kind := .job, source := 0x020A, domId := 63 })],
      let s := erring e.2
      s.tidy = true ∧ s.ready = true ∧ s.freeze.frozen = false ∧
        ((List.range 11).filterMap s.nextRec).map (fun r => (r.cls, r.kind, r.step)) = [(e.2.cls, e.2.kind, e.2.step)]) := by decide +kernel

/-- ErrorHandling: nothing to work on; the checks in balance and out of it. -/
theorem meets_error_checks :
    up.nextRec 10 = none ∧ up.activating 0 = false ∧ State.activating { up with sec := { activation := some { port := .ha, rest := [], cur := 0, deadline := 1 } } } 0 = true ∧
    (up.core 23).fence = .inService ∧ up.errq.raised = up.errq.stored + up.errq.lost + up.errq.merged + up.errq.coalesced ∧
    (let s : State := { up with errq := { raised := 1 } }; s.errq.raised ≠ s.errq.stored + s.errq.lost + s.errq.merged + s.errq.coalesced) ∧
    (∀ p, p < 48 → (up.fport p).linked = false) ∧ (∀ c, c < 24 → (up.core c).blocksScrub + (up.core c).blocksOut ≤ 512) ∧
    (∀ i, i < 128 → (up.hostq i).slotsOk = true) ∧ (∀ h, h < 8 → (up.hub h).tokens = []) ∧ (up.hub 7).controllerFailed = false ∧
    SMap.rising up.errq.slots = true ∧ State.updActive { up with hubs := [(0, { liveChannels := 48, ucieLive := 63 })] } 0 = true := by decide +kernel

/-- FencingAndRetest: a core in service, fenced, scrubbing and testing. -/
theorem meets_fencing : (up.core 23).fence = .inService ∧
    (∀ f ∈ [FenceState.fenced, .scrubbing, .testing], let s : State := { up with cores := [(23, { fence := f })] }
      s.tidy = true ∧ s.alive = true ∧ (s.core 23).fence = f) := by decide +kernel

/-! ### The thimble -/

/-- HA's mailbox with a request: its opcode and words. -/
def asking (op : Nat) (words : List Nat) : State := { up with
  sec := { up.sec with mailA := { busy := true, opcode := op, req := words.length, buf := ((List.range (8 * words.length)).map (fun k =>
    (k, (leBytes 8 (words.getD (k / 8) 0)).getD (k % 8) 0))).filter (fun e => e.2 != 0) } } }

def grantsB (s : State) (op : Nat) : Bool := s.takes .ha op && s.opPermitted .ha op

theorem grants_of {s : State} {op : Nat} (h : grantsB s op = true) : s.grants .ha op := by
  simpa [grantsB, State.grants] using h

/-- SecurityMailbox: each operation granted to the steward, or in RECOVERY; one that waits; one refused in RECOVERY; EXTEND of registers 11, 15
and 10; ATTEST without identity, with a session and without. -/
theorem meets_security_mailbox :
    (∀ op ∈ [1, 2, 3, 4, 5, 6, 7, 8, 9, 0xA, 0x10, 0x11, 0x12, 0x13, 0x14, 0x20, 0x21], (asking op [11]).tidy = true ∧ grantsB (asking op [11]) op = true) ∧
    (asking 2 []).takes .ha 3 = false ∧
    (let s : State := { asking 0x15 [4] with bring := { state := 2 } }
     s.recovery = true ∧ grantsB s 0x15 = true ∧ State.takes { asking 2 [] with bring := { state := 2 } } .ha 2 = true) ∧
    (∀ r ∈ [10, 11, 15, 16], ((asking 4 [r]).mail .ha).num 0 8 = r) ∧
    bit (((asking 5 [0, 0, 0, 0, 0, 0, 0, 0, 1]).mail .ha).num 64 8) 0 = true ∧ bit (((asking 5 []).mail .ha).num 64 8) 0 = false ∧
    up.session 0 = none ∧ (let x : Session := {}
      let s : State := { up with sec := { up.sec with sessions := [(0, some x), (1, some x), (2, some x), (3, some x)] } }
      ∀ i, i < 4 → s.session i ≠ none) := by decide +kernel

/-- SessionsAndKeys: a session that holds domain 63 or nothing, a request that names it; a purge to end; a session and an authorisation to end.
KEY_RELEASE's lengths for no item and for 32. -/
theorem meets_sessions :
    let x : Session := { uid := 5, seq := 1 }
    let withS := fun (s : State) => ({ s with sec := { s.sec with sessions := [(2, some x)], domains := [(63, { holder := 6 })] } } : State)
    (∀ op ∈ [6, 7, 8], let s := withS (asking op ([2, 2, 1, 63] ++ List.replicate 139 0)); grantsB s op = true ∧ s.session 2 = some x ∧ (s.mail .ha).num 0 8 = 2 ∧
      (s.mail .ha).num 8 8 = 2 ∧ x.seq < (s.mail .ha).num 8 8 ∧ (s.domKey ((s.mail .ha).num 24 8)).holder = x.uid + 1 ∧ (s.mail .ha).req = 143 + 10 * 0) ∧
    (let s : State := { up with sec := { up.sec with sessions := [(2, some x)] } }; ∀ d, d < 64 → (s.domKey d).holder ≠ x.uid + 1) ∧
    (let s := asking 9 [63]; (s.mail .ha).num 0 8 = 63 ∧ s.domainAssigned 63 = false ∧ (s.domKey 63).holder = 0) ∧
    (let s : State := { up with granules := [(7, 64)], sec := { up.sec with domains := [(63, { purging := true })], auths := [{
       session := 5, assign := true, domain := 63, first := 0, count := 1, time := 0 }] } }
     s.tidy = true ∧ (s.domKey 63).purging = true ∧ s.sec.activation = none ∧ s.domainAssigned 63 = true ∧ s.sec.auths[0]?.isSome = true) := by
  decide +kernel

/-- FirmwareSessions: a session in each state, a block that may be programmed, one that overlaps, one beyond the area; each flash operation. -/
theorem meets_firmware :
    let inSession := fun (s : State) (st : Nat) => ({ s with sec := { s.sec with fwSession := some (4, 0), fw := [(4, { staged := st })] } } : State)
    grantsB (inSession (asking 0x11 [4]) 2) 0x11 = true ∧ (inSession up 3).ready = true ∧ (inSession up 3).sec.fwSession = some (4, 0) ∧
    ((inSession up 3).fw 4).staged = 3 ∧ (inSession up 3).tidy = true ∧ State.recovery { inSession up 2 with bring := { state := 2 } } = true ∧
    (let s := inSession (asking 0x11 ([4] ++ List.replicate 512 7)) 2
     let m := s.mail .ha
     m.num 0 1 = 4 ∧ m.num 4 4 = 0 ∧ (m.bytes 8 (8 * m.req - 8)).length = 4096 ∧ 0 + 4096 ≤ areaSize 4 ∧ s.blockLenOk 4 0 (m.bytes 8 4096) = true ∧
       (s.slotB 4).unit 0 = []) ∧
    areaSize 4 < areaSize 4 + 4096 ∧ ((asking 0x15 [4]).mail .ha).num 0 8 = 4 ∧
    (∀ op ∈ [FlashOp.eraseB 4, .program .ha 4 0 [], .selector none 4, .selector (some .ha) 4, .record 2 [] true, .training 7, .aliasCert [1]],
      let s : State := { up with sec := { up.sec with flashQ := [op] } }; s.tidy = true ∧ s.ready = true ∧ s.sec.flashQ = [op]) ∧
    (let s : State := { up with sec := { up.sec with aliasIssued := false } }; s.sec.identityValid = true ∧ s.sec.mode = 1) := by decide +kernel

/-- ActivationAndSettings: images to activate, that fit the images running and that do not; an activation in progress that may run and one that
waits; a floor that may be raised and one that may not; a DOE mailbox with a PSK. -/
theorem meets_activation :
    let staged := fun (s : State) (w : List (Nat × Nat)) => ({ s with sec := { s.sec with
      fw := [(0, { staged := 4 }), (4, { staged := 4 })], files := s.sec.files ++ [(9, { verified := true, windows := w })] } } : State)
    let all := [(0, 9), (0, 9), (0, 9), (0, 9), (0, 9)]
    (let s := staged (asking 0x13 [17]) all
     grantsB s 0x13 = true ∧ [4, 2, 3, 1, 0].filter (fun j => bit ((s.mail .ha).num 0 8) j && (s.fw j).staged == 4) = [4, 0] ∧ s.fitsRunning 4 = true ∧
       s.anyFlag 2 = false) ∧
    (staged up [(5, 9)]).fitsRunning 4 = false ∧
    (let a : Activation := { port := .ha, rest := [], cur := 4, deadline := 1 }
     let s : State := { up with sec := { up.sec with activation := some a } }
     s.tidy = true ∧ s.ready = true ∧ s.mayRun 4 = true ∧ s.purging = false ∧
       State.mayRun { up with sec := { up.sec with domains := [(3, { purging := true })] } } 0 = false) ∧
    (let s := asking 0x21 [4, 0]; s.floor 4 ≤ 0 ∧ 0 ≤ (s.slotA 4).svn ∧ s.sec.settingsBusy = false ∧ s.sec.identityValid = true ∧ (s.slotA 4).svn < 1) ∧
    (let s : State := { up with sec := { up.sec with sessions := [(0, some { psk := [1] })] }, ha := { up.ha with spdmPsk := true, ideKeys := [(4, 1)] } }
     s.anyPsk = true ∧ s.ha.spdmPsk = true ∧ s.ha.ideKeys.any (fun e => e.1 == 4) = true ∧ s.ha.linkUp = true) ∧ up.anyPsk = false := by
  decide +kernel

/-! ### Which commands are well formed -/

/-- A term that each check refuses. -/
theorem test_ill_formed : ∀ i ∈ [Instr.nop 24 0, .nop 0 8, .aluRegister 0 0 .add 32 0 0, .amov 0 0 16 0, .load 0 0 .ld64 0 16 0, .branch 0 0 .beq 0 32 0,
    .registerWrite .ha 0 2 0, .wave 96, .warpLoadStart 0 16, .mm 0 0 { w0 := 0xF020000000000000 }, .mm 0 0 { w0 := 0xE010000000000000 }, .tackWaitTimeout 16384 0 0, .hostQdoorbell .ha 64 0,
    .hubChannelAccess 8 0 none [], .scrubRead 0 48 0 [], .ucieRetrain 0 6 true, .portTraining 48 true 0, .blockAckTimer (.die 3 3),
    .counterLiveRead .ha ⟨.shuttleBytes 48, false⟩, .arbiterGrant (.egress 48) [], .stageTimeout 1, .stageTimeout 11, .errorContainmentStep 11,
    .fwUnitRunning 5, .sessionTimeout 4, .chalkUnitFlush 16, .fence .ha 24, .domainPurgeComplete 64, .internalFault (.slice 4),
    .transportResendTimeout 16384 0 0, .stragglerTimer 256 0, .lnkPeerLostClear .ha 256 0, .drainLimitExpiry .ha 64], wellFormed i = false := by decide +kernel

/-- Terms at the last unit of each kind, which the checks take. -/
theorem test_well_formed : ∀ i ∈ [Instr.nop 23 7, .aluRegister 23 7 .add 31 31 31, .amov 0 0 15 31, .mm 0 0 { w0 := 0xF010000000000000 },
    .wave 95, .hubChannelAccess 7 0 none [], .blockAckTimer (.die 38 0), .portTraining 47 true 0, .hostQdoorbell .hb 63 0, .tckCfgWrite .ha 16383 0,
    .stageTimeout 10, .fence .ha 23, .internalFault (.hubController 7), .ppsEdge 0], wellFormed i = true := by decide +kernel

/-- The checks are those that the commands' meanings make. -/
theorem ctr_exists_eq (x : ScopedCtr) : ctrExists x = ctrOk x := by cases x <;> rfl
theorem arb_exists_eq (a : ArbPort) : arbExists a = arbOk a := by
  cases a with
  | scopedCtr x => cases x <;> rfl
  | _ => rfl
theorem stream_named_eq (b : BlockStream) : streamNamed b = streamExists b := by cases b <;> rfl
theorem fault_named_eq (u : FaultUnit) : faultNamed u = faultUnitOk u := by cases u <;> rfl

/-! ### Scalar words, bit by bit from R211 and R212 -/

/-- ADD g1 = g2 + g3; SUBI g31 = g30 - imm; SLTU; LI; LIH; AMOV; GMOV; LD32S; ST64; BGEU; JMP; CALL; RET; NOP; END; RDSR; WRSR; TRAP: the words written out from the table of classes. -/
theorem test_decode_words : ∀ e ∈ [(0x0002218000000000, Instr.aluRegister 1 2 .add 1 2 3),
    (0x107FE000FFFFFFFF, .aluImmediate 1 2 .sub 31 30 (-1)),
    (0x03C8530000000000, .aluRegister 1 2 .sltu 4 5 6),
    (0x140E000080000000, .li 1 2 7 0x80000000),
    (0x144E000000000009, .lih 1 2 7 9),
    (0x201FF00000000000, .amov 1 2 15 31),
    (0x207EF00000000000, .gmov 1 2 31 15),
    (0x3190F000FFFFFFFC, .load 1 2 .ld32s 8 15 (-4)),
    (0x32C0E48000000008, .store 1 2 .st64 14 9 8),
    (0x41403100FFFFFFFE, .branch 1 2 .bgeu 3 2 (-2)),
    (0x4200000000000010, .jmp 1 2 16),
    (0x4240000000000010, .call 1 2 16),
    (0x4280000000000000, .ret 1 2),
    (0x5000000000000000, .nop 1 2),
    (0x5040000000000000, .endSub 1 2),
    (0x5086000000000100, .rdsr 1 2 3 0x100),
    (0x50C0300000000100, .wrsr 1 2 3 0x100),
    (0x5100000000008001, .trap 1 2 0x8001)], decodeScalar 1 2 e.1 = some e.2 := by decide +kernel

/-- Reserved classes and ops, and a wide command's word, are no scalar instruction. -/
theorem test_decode_reserved : ∀ w ∈ [0x6000000000000000, 0xE000000000000000, 0xF000000000000000, 0x0400000000000000, 0x1480000000000000, 0x20C0000000000000, 0x31C0000000000000, 0x3300000000000000, 0x4180000000000000, 0x42C0000000000000, 0x5140000000000000],
    decodeScalar 1 2 w = none := by decide +kernel

/-- An MM whose weft is a ring of four words of two INT8 lanes at 0x0D1000080000. -/
def ringMm : Wide := { ops := [(0, { desc := { rows := 2, cols := 1 }, fmt := 6 }),
  (1, { desc := { data := 0x0D1000080000, rows := 4, cols := 2, layout := 2 }, fmt := 6 })], passes := 1 }

/-- R98, R99: a row that entered in wave 5 reads lane 0 of word 1 in wave 5 and lane 1 of word 2 in wave 6, where that byte has changed. -/
theorem test_ring_lanes :
    (let f : RowFlight := { queue := 0, cseq := 0, otile := 0, tile := 0, row := 0, entered := 5, passes := 1, hc := 2, wc := 1, sums := [] }
     let x : RowReading := { place := 1, codes := [1, 1], scales := [], off := 0, cols := 1, first := true }
     let old := (up.writeLe 0x0D1000080002 1 7).writeLe 0x0D1000080005 1 8
     let new := (old.writeLe 0x0D1000080002 1 70).writeLe 0x0D1000080005 1 9
     (new.readLanes ringMm f (old.readLanes ringMm f x 5) 6).lanes = [[7, 9]]) := by decide +kernel

end Sys2Proof.Tests
end

section
/-! SUPPORT. What the trap of a scalar instruction leaves of its queue (R251), and what a scalar row answers when it rewrites its queue or
traps. -/

namespace Sys2Proof.Machine

variable {s : State}

/-! ### The queue whose turn it is (R209) -/

/-- The context that a sequencer serves next can dispatch. -/
theorem State.canDispatch_of_nextContext {c : Nat} {x : Nat × Nat} (h : s.nextContext c = some x) : s.canDispatch x.2 = true := by
  have hmem : x ∈ (s.contexts c).filter (fun x => s.canDispatch x.2) := by
    simp only [State.nextContext] at h
    split at h
    · next y hy => cases h; exact (List.mem_filter.mp (List.mem_of_find?_eq_some hy)).1
    · exact (List.mem_filter.mp (List.mem_of_head? h)).1
  exact (List.mem_filter.mp hmem).2

/-- The queue that has the turn can dispatch. -/
theorem State.canDispatch_of_turn {qi : Nat} (h : s.turn qi = true) : s.canDispatch qi = true := by
  simp only [State.turn, Bool.and_eq_true] at h
  obtain ⟨-, hnext⟩ := h
  split at hnext
  · next x hx => exact beq_iff_eq.mp hnext ▸ State.canDispatch_of_nextContext hx
  · cases hnext

/-- A queue that can dispatch has a submission. -/
theorem State.sub_of_canDispatch {qi : Nat} (h : s.canDispatch qi = true) : ∃ b, (s.queue qi).sub = some b := by
  cases hsub : (s.queue qi).sub with
  | none => simp [State.canDispatch, hsub] at h
  | some b => exact ⟨b, rfl⟩

/-! ### Reports and records (R247, R249) -/

/-- Events and interrupts are no part of the core queues. -/
theorem State.queues_of_eventless {t : State} (h : s.eventless = t.eventless) : s.queues = t.queues := by
  have hq := congrArg State.queues h
  exact hq

/-- Error reports are no part of the core queues, nor of the host queues. -/
theorem State.queues_of_errorless {t : State} (h : s.errorless = t.errorless) : s.queues = t.queues ∧ s.hostqs = t.hostqs := by
  have hq := congrArg State.queues h
  have hh := congrArg State.hostqs h
  exact ⟨hq, hh⟩

/-- Writing a record to its ring leaves the core queues. -/
@[simp] theorem State.writeRec_queues (s : State) (hq : Nat) (r : PendingRec) : (s.writeRec hq r).queues = s.queues := by
  have hmsix (u : State) (p : HostPort) (v : Nat) : (u.raiseMsix p v).queues = u.queues :=
    State.queues_of_eventless (State.eventless_raiseMsix u p v)
  have hhost (p : HostPort) (a : Nat) (bs : List Byte) : (s.writeHost p a bs).queues = s.queues :=
    State.queues_of_eventless (State.eventless_writeHost s p a bs)
  simp only [State.writeRec]
  split
  · rfl
  · split <;> simp [hmsix, hhost]

/-- Writing the records that wait changes the queue in those alone. -/
theorem State.drainRecsN_queue (h : SMap.rising s.queues = true) (qi hq n : Nat) :
    ∃ rs, (s.drainRecsN qi hq n).queue qi = { s.queue qi with recs := rs } := by
  induction n generalizing s with
  | zero => exact ⟨_, rfl⟩
  | succ n ih =>
    simp only [State.drainRecsN]
    split
    · exact ⟨_, rfl⟩
    · next r rs hrecs =>
      split
      · obtain ⟨ws, hws⟩ := ih (s := (s.setQueue qi { s.queue qi with recs := rs }).writeRec hq r)
          (by rw [State.writeRec_queues]; exact SMap.rising_set h)
        have hq : ((s.setQueue qi { s.queue qi with recs := rs }).writeRec hq r).queue qi = { s.queue qi with recs := rs } := by
          simp only [State.queue, State.writeRec_queues]; exact SMap.get_set_same h
        exact ⟨ws, by rw [hws, hq]⟩
      · exact ⟨_, rfl⟩

/-- A record made by a queue changes the queue in its waiting records alone. -/
theorem State.pushRec_queue (h : SMap.rising s.queues = true) (qi hq : Nat) (r : PendingRec) :
    ∃ rs, (s.pushRec qi hq r).queue qi = { s.queue qi with recs := rs } := by
  obtain ⟨rs, hrs⟩ := State.drainRecsN_queue (s := s.modQueue qi (fun q => { q with recs := q.recs ++ [r] })) (SMap.rising_set h) qi hq _
  exact ⟨rs, hrs.trans (by rw [State.queue_modQueue h])⟩

/-! ### Traps (R251) -/

/-- A queue with no dispatched command is at its trapping point. -/
theorem CoreQ.atTrapPoint_of_idle {x : CoreQ} (h : x.inflight = []) : x.atTrapPoint = true := by
  simp [CoreQ.atTrapPoint, CoreQ.heldWide, h]

/-- R251 step 2: short of its trapping point, a queue makes no trapped record yet. -/
theorem State.settleTrap_waits {qi : Nat} (h : (s.queue qi).atTrapPoint = false) : s.settleTrap qi = s := by
  simp only [State.settleTrap]
  split
  · rw [if_pos (by simp [h])]
  · rfl

/-- R251 step 3: at its trapping point, where no lost-host handling takes it, a queue makes its trapped record. -/
theorem State.settleTrap_records {qi : Nat} {t : Trap} {b : Submission} (ht : (s.queue qi).trap = some t)
    (hb : (s.queue qi).sub = some b) (hnew : t.recorded = false) (hpoint : (s.queue qi).atTrapPoint = true)
    (hlost : (s.hostq b.hostq).underHandling = false) :
    ∃ r, s.settleTrap qi =
      (s.setQueue qi { s.queue qi with trap := some { t with recorded := true } }).pushRec qi b.hostq r := by
  simp only [State.settleTrap]
  split
  · next t' b' ht' hb' =>
    obtain rfl : t = t' := Option.some.inj (ht.symm.trans ht')
    obtain rfl : b = b' := Option.some.inj (hb.symm.trans hb')
    rw [if_neg (by simp [hnew, hpoint]), if_neg (by simp [hlost])]
    exact ⟨_, rfl⟩
  · next hnone => exact absurd hb (hnone t b ht)

/-- R251: a trap not recorded yet stays, and is recorded at once where no command is dispatched. -/
theorem State.settleTrap_queue {qi : Nat} {t : Trap} {b : Submission} (h : SMap.rising s.queues = true) (ht : (s.queue qi).trap = some t)
    (hb : (s.queue qi).sub = some b) (hnew : t.recorded = false) (hlost : (s.hostq b.hostq).underHandling = false) :
    ∃ r rs, (s.settleTrap qi).queue qi = { s.queue qi with trap := some { t with recorded := r }, recs := rs } ∧
      ((s.queue qi).inflight = [] → r = true) := by
  cases hpoint : (s.queue qi).atTrapPoint with
  | true =>
    obtain ⟨r, hr⟩ := State.settleTrap_records ht hb hnew hpoint hlost
    obtain ⟨rs, hrs⟩ := State.pushRec_queue (s := s.setQueue qi { s.queue qi with trap := some { t with recorded := true } })
      (SMap.rising_set h) qi b.hostq r
    refine ⟨true, rs, ?_, fun _ => rfl⟩
    rw [hr, hrs, State.queue_setQueue h]
  | false =>
    refine ⟨false, (s.queue qi).recs, ?_, fun hidle => ?_⟩
    · rw [State.settleTrap_waits hpoint, ← hnew, ← ht]
    · rw [CoreQ.atTrapPoint_of_idle hidle] at hpoint; exact absurd hpoint (by decide)

/-- R251, R254: a queue that traps at its pc holds the trap, and its registers, pc and return stack stand. -/
theorem State.trapQueue_trapsWith {qi : Nat} {b : Submission} (h : SMap.rising s.queues = true) (hb : (s.queue qi).sub = some b)
    (hlost : (s.hostq b.hostq).underHandling = false) (cause code : Nat) :
    trapsWith (s.queue qi) ((s.trapQueue qi cause code (s.queue qi).pc).queue qi) cause code := by
  obtain ⟨u, hu, hqueues, hhostqs⟩ : ∃ u : State, s.trapQueue qi cause code (s.queue qi).pc = u.settleTrap qi ∧
      u.queues = (s.modQueue qi (fun q => { q with trap := some { cause := cause, code := code, pc := (s.queue qi).pc } })).queues ∧
      u.hostqs = s.hostqs := by
    refine ⟨_, rfl, ?_, ?_⟩ <;> split
    · exact (State.queues_of_errorless (State.errorless_logQueue ..)).1
    · rfl
    · exact (State.queues_of_errorless (State.errorless_logQueue ..)).2
    · rfl
  have hq : u.queue qi = { s.queue qi with trap := some { cause := cause, code := code, pc := (s.queue qi).pc } } := by
    rw [State.queue, hqueues]; exact State.queue_modQueue h
  obtain ⟨r, rs, hset, hr⟩ := State.settleTrap_queue (s := u) (qi := qi) (b := b) (hqueues ▸ SMap.rising_set h) (by rw [hq])
    (by rw [hq]; exact hb) rfl (by rw [State.hostq, hhostqs]; exact hlost)
  refine ⟨r, ?_, fun hidle => hr (by rw [hq]; exact hidle)⟩
  rw [hu, hset, hq]

/-! ### What a scalar row answers -/

theorem State.took_rising (h : s.tidy = true) (qi : Nat) : SMap.rising (s.took qi).queues = true := by
  rw [State.took_queues]; exact State.tidy_queues h

/-- A scalar instruction that traps stops its queue before its word, with its cause and code. -/
theorem scalarRow_traps {c q cause code : Nat} {f : State → ScalarOut} (ht : s.tidy = true) (hr : s.runs c q 1)
    (hlost : ∀ b, (s.queue (8 * c + q)).sub = some b → (s.hostq b.hostq).underHandling = false)
    (hf : f (s.took (8 * c + q)) = .trap cause code) :
    ∃ t : State, scalarRow c q f s = .next t ∧ trapsWith (s.queue (8 * c + q)) (t.queue (8 * c + q)) cause code := by
  have hrow := scalarRow_runs (f := f) hr
  simp only [hf] at hrow
  obtain ⟨-, -, hturn, -⟩ := hr
  obtain ⟨b, hb⟩ := State.sub_of_canDispatch (State.canDispatch_of_turn hturn)
  have hrising := State.took_rising ht (8 * c + q)
  exact ⟨_, hrow, State.trapQueue_trapsWith hrising hb (hlost b hb) cause code⟩

/-- A scalar instruction that rewrites its queue, in what `scalarFrame` lets differ, leaves all else. -/
theorem scalarRow_rewrites {c q : Nat} {f : State → ScalarOut} {k : CoreQ → CoreQ} (ht : s.tidy = true) (hr : s.runs c q 1)
    (hf : f (s.took (8 * c + q)) = .done ((s.took (8 * c + q)).modQueue (8 * c + q) k))
    (hk : ∀ x, k x = { x with g := (k x).g, a := (k x).a, pc := (k x).pc, rstack := (k x).rstack, trapOnStatus := (k x).trapOnStatus }) :
    ∃ u : State, scalarRow c q f s = .next (u.checkExhausted (8 * c + q)) ∧ scalarFrame s u (8 * c + q) ∧
      u.queue (8 * c + q) = k (s.queue (8 * c + q)) := by
  have hrising := State.took_rising ht (8 * c + q)
  have hq : ((s.took (8 * c + q)).modQueue (8 * c + q) k).queue (8 * c + q) = k (s.queue (8 * c + q)) :=
    State.queue_modQueue hrising
  refine ⟨(s.took (8 * c + q)).modQueue (8 * c + q) k, ?_, ⟨rfl, ?_, ?_⟩, hq⟩
  · rw [scalarRow_runs hr, hf]
  · exact fun j hj => State.queue_modQueue_ne hrising hj
  · rw [hq]; exact hk _

end Sys2Proof.Machine
end

section
/-! CERTIFICATE. The special registers (R213): the value of each, and the instructions that read and write them. -/

namespace Sys2Proof.Machine

variable {s : State}

/-! ### The table of R213 -/

theorem State.special_core (s : State) (qi : Nat) : s.special qi 0 = some (s.serving qi) := rfl
theorem State.special_queue {c q : Nat} (hq : q < 8) (s : State) : s.special (8 * c + q) 1 = some q :=
  congrArg some (show (8 * c + q) % 8 = q by omega)
theorem State.special_fabricId (s : State) (qi : Nat) :
    s.special qi 2 = some (fld (s.reg 0x03100000) 13 0 + 2 ^ 63 * b2n (bit (s.reg 0x03100000) 31)) := rfl
theorem State.special_cseq (s : State) (qi : Nat) : s.special qi 3 = some (s.queue qi).cseq := rfl
theorem State.special_rseq (s : State) (qi : Nat) : s.special qi 4 = some (s.queue qi).rseq := rfl
theorem State.special_lastStatus (s : State) (qi : Nat) :
    s.special qi 5 = some ((s.queue qi).lastStatus + 256 * (s.queue qi).lastOutcome) := rfl
theorem State.special_step (s : State) (qi : Nat) : s.special qi 6 = some s.tailor.step := rfl
theorem State.special_time (s : State) (qi : Nat) : s.special qi 7 = some s.now := rfl
theorem State.special_hostQueue {qi : Nat} {b : Submission} (h : (s.queue qi).sub = some b) :
    s.special qi 8 = some (64 * portNum b.port + b.hq) := by simp [State.special, h]
theorem State.special_userTag {qi : Nat} {b : Submission} (h : (s.queue qi).sub = some b) : s.special qi 9 = some b.userTag := by
  simp [State.special, h]
theorem State.special_trapCtl (s : State) (qi : Nat) : s.special qi 0x100 = some (b2n (s.queue qi).trapOnStatus) := rfl

/-- No number outside the table is a register's. -/
theorem State.special_eq_none {n : Nat} (s : State) (qi : Nat) (h : 9 < n) (hn : n ≠ 0x100) : s.special qi n = none := by
  unfold State.special
  repeat rw [if_neg (by omega)]

/-- Taking the turn changes no special register. -/
theorem State.special_took (s : State) (qi n : Nat) : (s.took qi).special qi n = s.special qi n := rfl

/-! ### RDSR and WRSR -/

/-- RDSR of a register of the table writes its value to g[rd]. -/
theorem execRdsr_reads {c q v : Nat} (ht : s.tidy = true) (hr : s.runs c q 1) (rd : Nat) (imm : Imm)
    (hv : s.special (8 * c + q) (specialNo imm) = some v) :
    ∃ u : State, execRdsr c q rd imm s = .next (u.checkExhausted (8 * c + q)) ∧ scalarFrame s u (8 * c + q) ∧
      u.queue (8 * c + q) = { s.queue (8 * c + q) with g := (u.queue (8 * c + q)).g, pc := (s.queue (8 * c + q)).pc + 8 } ∧
      gWritten (s.queue (8 * c + q)) (u.queue (8 * c + q)) rd (BitVec.ofNat 64 v) := by
  obtain ⟨u, hu, hframe, hq⟩ : ∃ u : State, execRdsr c q rd imm s = .next (u.checkExhausted (8 * c + q)) ∧
      scalarFrame s u (8 * c + q) ∧
      u.queue (8 * c + q) = { (s.queue (8 * c + q)).setG rd (BitVec.ofNat 64 v) with pc := (s.queue (8 * c + q)).pc + 8 } :=
    scalarRow_rewrites (k := fun x => { x.setG rd (BitVec.ofNat 64 v) with pc := x.pc + 8 }) ht hr
      (by rw [State.special_took, hv]; rfl) (fun x => by rw [CoreQ.setG_eq])
  refine ⟨u, hu, hframe, ?_, fun r => ?_⟩
  · rw [hq, CoreQ.setG_eq]
  · rw [hq]; exact CoreQ.getG_setG (State.tidy_queue ht _).1 rd _ r

/-- RDSR of any other number traps with ILLEGAL. -/
theorem execRdsr_traps {c q : Nat} (ht : s.tidy = true) (hr : s.runs c q 1)
    (hlost : ∀ b, (s.queue (8 * c + q)).sub = some b → (s.hostq b.hostq).underHandling = false) (rd : Nat) (imm : Imm)
    (hv : s.special (8 * c + q) (specialNo imm) = none) :
    ∃ t : State, execRdsr c q rd imm s = .next t ∧ trapsWith (s.queue (8 * c + q)) (t.queue (8 * c + q)) 1 0 :=
  scalarRow_traps ht hr hlost (by rw [State.special_took, hv]; rfl)

/-- Bit 0 of a word, by the model's own reading of bits and by the library's. -/
theorem bit_toNat_zero (w : Word) : bit w.toNat 0 = w.getLsbD 0 := by
  change (w.toNat % 2 == 1) = w.toNat.testBit 0
  rw [Nat.testBit_zero]
  rfl

/-- WRSR of TRAP_CTL takes trap_on_status from bit 0 of g[rs1]. -/
theorem execWrsr_writes {c q : Nat} (ht : s.tidy = true) (hr : s.runs c q 1) (rs1 : Nat) (imm : Imm) (hn : specialNo imm = 0x100) :
    ∃ u : State, execWrsr c q rs1 imm s = .next (u.checkExhausted (8 * c + q)) ∧ scalarFrame s u (8 * c + q) ∧
      u.queue (8 * c + q) = { s.queue (8 * c + q) with
        pc := (s.queue (8 * c + q)).pc + 8, trapOnStatus := ((s.queue (8 * c + q)).getG rs1).getLsbD 0 } := by
  rw [← bit_toNat_zero]
  exact scalarRow_rewrites (k := fun x => { x with pc := x.pc + 8, trapOnStatus := bit (x.getG rs1).toNat 0 }) ht hr
    (if_pos hn) (fun _ => rfl)

/-- WRSR of any other number traps with ILLEGAL. -/
theorem execWrsr_traps {c q : Nat} (ht : s.tidy = true) (hr : s.runs c q 1)
    (hlost : ∀ b, (s.queue (8 * c + q)).sub = some b → (s.hostq b.hostq).underHandling = false) (rs1 : Nat) (imm : Imm)
    (hn : specialNo imm ≠ 0x100) :
    ∃ t : State, execWrsr c q rs1 imm s = .next t ∧ trapsWith (s.queue (8 * c + q)) (t.queue (8 * c + q)) 1 0 :=
  scalarRow_traps ht hr hlost (if_neg hn)

/-- Settles O10: each number of the table gives its register's value, and the rows of RDSR and WRSR do the rest. -/
theorem specialRegisters : Obligations.SpecialRegisters := by
  intro s c q ht hr
  have hq : q < 8 := hr.2.1
  refine ⟨fun rd imm v hv => execRdsr_reads ht hr rd imm ?_, fun rs1 imm hn => execWrsr_writes ht hr rs1 imm hn, fun hlost =>
    ⟨fun rd imm h9 hn => execRdsr_traps ht hr hlost rd imm (State.special_eq_none s _ h9 hn),
     fun rs1 imm hn => execWrsr_traps ht hr hlost rs1 imm hn⟩⟩
  rcases hv with ⟨e, rfl⟩ | ⟨e, rfl⟩ | ⟨e, rfl⟩ | ⟨e, rfl⟩ | ⟨e, rfl⟩ | ⟨e, rfl⟩ | ⟨e, rfl⟩ | ⟨e, rfl⟩ | ⟨e, b, hb, rfl⟩ |
    ⟨e, b, hb, rfl⟩ | ⟨e, rfl⟩ <;> rw [e]
  · exact State.special_core s _
  · exact State.special_queue hq s
  · exact State.special_fabricId s _
  · exact State.special_cseq s _
  · exact State.special_rseq s _
  · exact State.special_lastStatus s _
  · exact State.special_step s _
  · exact State.special_time s _
  · rw [State.special_hostQueue hb]; cases b.port <;> rfl
  · exact State.special_userTag hb
  · exact State.special_trapCtl s _

end Sys2Proof.Machine
end

section
/-! SUPPORT. What an error report leaves of the error queue and of a transaction (R413, R480), how updates of one port compose, and a served
host access that waits for the management controller (R443, R461). -/

namespace Sys2Proof.Machine

variable {s : State}

/-! ### Chalk records and the error queue -/

/-- Events and interrupts are no part of the error queue. -/
theorem State.errq_of_eventless {t : State} (h : s.eventless = t.eventless) : s.errq = t.errq := by
  have hq := congrArg State.errq h
  exact hq

/-- A walk over units keeps the error queue where each visit keeps it. -/
theorem State.foldl_errq (f : State → Nat → State) (h : ∀ u i, (f u i).errq = u.errq) (l : List Nat) (u : State) :
    (l.foldl f u).errq = u.errq := by
  induction l generalizing u with
  | nil => rfl
  | cons i l ih => rw [List.foldl_cons, ih, h]

/-- A visit to every chalk buffer keeps the error queue where each visit keeps it. -/
theorem State.chalkEach_errq (take : State → Chalk → Bool) (f : State → Nat → State) (h : ∀ u b, (f u b).errq = u.errq) :
    (s.chalkEach take f).errq = s.errq := by
  refine State.foldl_errq _ (fun u b => ?_) _ _
  split
  · exact h u b
  · rfl

@[simp] theorem State.emit_errq (s : State) (p header : Nat) (payload : List Byte) (seq : Nat) :
    (s.emit p header payload seq).errq = s.errq := rfl

@[simp] theorem State.beginFreeze_errq (s : State) : s.beginFreeze.errq = s.errq := by
  simp only [State.beginFreeze]
  rw [State.foldl_errq _ (fun u i => State.emit_errq u i ..)]

@[simp] theorem State.assertChalkFreeze_errq (s : State) : s.assertChalkFreeze.errq = s.errq := by
  simp only [State.assertChalkFreeze]
  split
  · rfl
  · rw [State.beginFreeze_errq]

@[simp] theorem State.chalkStore_errq (s : State) (b : Nat) (bytes : List Byte) : (s.chalkStore b bytes).errq = s.errq := rfl

@[simp] theorem State.chalkLose_errq (s : State) (b : Nat) : (s.chalkLose b).errq = s.errq := rfl

@[simp] theorem State.chalkCountDown_errq (s : State) (b : Nat) : (s.chalkCountDown b).errq = s.errq := by
  simp only [State.chalkCountDown]
  split
  · split
    · split <;> simp
    · simp
  · rfl

@[simp] theorem State.chalkGap_errq (s : State) (b : Nat) : (s.chalkGap b).errq = s.errq := by
  refine (State.errq_of_eventless (State.eventless_raiseEvent ..)).trans ?_
  rw [State.chalkCountDown_errq, State.chalkStore_errq, State.setBuffer_errq]

@[simp] theorem State.chalkPut_errq (s : State) (b : Nat) (bytes : List Byte) : (s.chalkPut b bytes).errq = s.errq := by
  have hgap : (if s.gapDue b then s.chalkGap b else s).errq = s.errq := by split <;> simp
  simp only [State.chalkPut]
  generalize (if s.gapDue b then s.chalkGap b else s) = u at *
  split
  · split <;> simp [hgap]
  · split <;> simp [hgap]

@[simp] theorem State.chalkTrigger_errq (s : State) (b cause detail : Nat) : (s.chalkTrigger b cause detail).errq = s.errq := by
  simp only [State.chalkTrigger]
  split
  · rfl
  · split <;> simp

/-- R532, R536: the chalk records and triggers of an error leave the error queue. -/
@[simp] theorem State.chalkError_errq (s : State) (source seq cls : Nat) (memDom : Option Nat) :
    (s.chalkError source seq cls memDom).errq = s.errq := by
  simp only [State.chalkError]
  refine State.chalkEach_errq _ _ (fun u b => ?_)
  split
  · split <;> simp
  · rfl

/-! ### What an error report leaves (R413, R463 to R467, R480) -/

/-- R467: the vectors of an error leave the error queue. -/
@[simp] theorem State.errVectors_errq (s : State) (cls : Nat) : (s.errVectors cls).errq = s.errq := by
  have hmsix (u : State) (p : HostPort) (v : Nat) : (u.raiseMsix p v).errq = u.errq :=
    State.errq_of_eventless (State.eventless_raiseMsix u p v)
  simp only [State.errVectors]
  split
  · split <;> split <;> simp [hmsix]
  · rfl

/-- R466: storing a record does not count an error again. -/
@[simp] theorem ErrQueue.store_raised (q : ErrQueue) (r : ErrRec) : (q.store r).1.raised = q.raised := by
  simp only [ErrQueue.store]
  split <;> rfl

/-- R480: each error raised counts once, whether its record is stored, merged or coalesced. -/
theorem State.raiseError_raised (s : State) (source cls : Nat) (kind : DomKind) (id : Nat) (memDom : Option Nat) (detail : Nat) :
    (s.raiseError source cls kind id memDom detail).errq.raised = s.errq.raised + 1 := by
  simp only [State.raiseError]
  split
  · rfl
  · split
    · split
      · simp
      · split
        · rfl
        · rw [State.chalkError_errq, State.errVectors_errq]; rfl
    · simp

theorem State.misuse_raised (s : State) (p : HostPort) : (s.misuse p).errq.raised = s.errq.raised + 1 := by
  rw [State.misuse, State.logPort, State.raiseError_raised, State.modPort_errq]

/-- Error reports are no part of the time, nor of a port's transaction. -/
theorem State.now_of_errorless {t : State} (h : s.errorless = t.errorless) : s.now = t.now := by
  have hn := congrArg State.now h
  exact hn

theorem State.txn_of_errorless {t : State} (h : s.errorless = t.errorless) (p : HostPort) : (s.port p).txn = (t.port p).txn := by
  cases p with
  | ha => have hx := congrArg (fun u : State => u.ha.txn) h; exact hx
  | hb => have hx := congrArg (fun u : State => u.hb.txn) h; exact hx

@[simp] theorem State.misuse_now (s : State) (p : HostPort) : (s.misuse p).now = s.now :=
  State.now_of_errorless (State.errorless_misuse s p)

@[simp] theorem State.misuse_txn (s : State) (p q : HostPort) : ((s.misuse p).port q).txn = (s.port q).txn :=
  State.txn_of_errorless (State.errorless_misuse s p) q

/-! ### Updates of one port -/

/-- An update of a port is what it makes of the port as it stands. -/
theorem State.modPort_congr {p : HostPort} {f g : Port → Port} (h : f (s.port p) = g (s.port p)) : s.modPort p f = s.modPort p g := by
  rw [State.modPort, State.modPort, h]

theorem State.modPort_modPort (s : State) (p : HostPort) (f g : Port → Port) :
    (s.modPort p f).modPort p g = s.modPort p (fun x => g (f x)) := by
  cases p <;> rfl

/-- A served access that rewrites its port's transaction alone. -/
theorem State.txnLeft_of_modPort {p : HostPort} {f : Port → Port} {x : Txn}
    (h : f { s.port p with draining := false } = { s.port p with txn := x, draining := false }) :
    s.txnLeft ((s.undrain p).modPort p f) p x := by
  rw [State.txnLeft, State.undrain, State.modPort_modPort]
  exact State.modPort_congr h

/-- A served access without effect leaves its port's transaction. -/
theorem State.txnLeft_undrain (s : State) (p : HostPort) : s.txnLeft (s.undrain p) p (s.port p).txn := State.modPort_congr rfl

/-! ### A served access that the management controller holds (R443, R461) -/

/-- While the management controller activates, an access of a register that it serves waits at the port. -/
theorem State.hostWrite_managed {p : HostPort} (h : s.serves p) {off : Nat} (hoff : managed off = true) (hact : s.activating 1 = true)
    (c : Instr) (f : State → State) : s.keeps (s.hostWrite p off c f) p c := by
  obtain ⟨hready, hlink, hd3, hbarred, -, -⟩ := h
  have hgood : s.power.pwrGood = true := by
    simp only [State.ready, Bool.and_eq_true] at hready; exact hready.1
  have hbar0 : ¬0x04000000 ≤ off := by
    simp only [managed, Bool.and_eq_true, decide_eq_true_eq] at hoff; omega
  have hgate : s.bar0Gate p off true = .waits := by simp [State.bar0Gate, hgood, hlink, hd3, hready, hbarred, hbar0, hoff, hact]
  rw [State.keeps, State.hostWrite, hgate]
  exact State.modPort_modPort s p _ _

end Sys2Proof.Machine
end

section
/-! CERTIFICATE. BASTE, TOUCH, UNPICK and the idle timeout of a configuration transaction (R438, R444, R445). -/

namespace Sys2Proof.Machine

variable {s : State} {p : HostPort} {v : Nat}

/-! ### What each does where it is served -/

/-- R438: a transaction as BASTE opens it, at time `now` with the idle timeout `idle` in ns. -/
def Txn.basted (x : Txn) (now idle : Nat) : Txn :=
  { x with state := .opened, staged := [], released := false, idleNs := idle, lastTouch := now, seq := (x.seq + 1) % 2 ^ 32 }

/-- R438: BASTE with a defined timeout opens a transaction; 0 asks for one second. -/
theorem State.baste_opens (hx : (s.port p).txn.state = .idle) (hv : fld v 15 0 ≤ 6000) :
    s.baste p v = s.modPort p (fun y =>
      { y with txn := y.txn.basted s.now (if fld v 15 0 = 0 then 1000000000 else 10000000 * fld v 15 0) }) := by
  have hle : ¬6000 < fld v 15 0 := by omega
  simp only [State.baste, hx, hle, ne_eq, not_true_eq_false, or_false, if_false]
  rfl

/-- R20, R438: a timeout beyond 6000 is logged, and the transaction opens with one second. -/
theorem State.baste_misused (hx : (s.port p).txn.state = .idle) (hv : 6000 < fld v 15 0) :
    s.baste p v = (s.misuse p).modPort p (fun y => { y with txn := y.txn.basted s.now 1000000000 }) := by
  simp only [State.baste, hx, hv, ne_eq, not_true_eq_false, or_true, if_true, if_false, State.misuse_now]
  rfl

/-- R438: a second BASTE only restarts the idle timer. -/
theorem State.baste_touches (hx : (s.port p).txn.state ≠ .idle) : s.baste p v = s.touchTxn p := by
  simp only [State.baste, hx, ne_eq, not_false_eq_true, if_true]

/-- R445: the idle timer of a transaction starts again; a port without one has none. -/
theorem State.touchTxn_active (hx : (s.port p).txn.state ≠ .idle) :
    s.touchTxn p = s.modPort p (fun y => { y with txn := { y.txn with lastTouch := s.now } }) :=
  State.modPort_congr (if_neg hx)

theorem State.touchTxn_idle (hx : (s.port p).txn.state = .idle) : s.touchTxn p = s := by
  cases p <;> simp_all [State.touchTxn, State.modPort, State.setPort, State.port]

/-- R444: UNPICK, by the state of the port's transaction. -/
theorem State.unpick_opened (hx : (s.port p).txn.state = .opened) : s.unpick p = s.endTxn p stOk 1 := by
  simp only [State.unpick, hx]

theorem State.unpick_doomed (hx : (s.port p).txn.state = .doomed) : s.unpick p = s.endTxn p stConflict 2 := by
  simp only [State.unpick, hx]

theorem State.unpick_other (hx : (s.port p).txn.state = .idle ∨ (s.port p).txn.state = .sewing) : s.unpick p = s := by
  rcases hx with hx | hx <;> simp only [State.unpick, hx]

/-- R445: the idle timer ends a transaction that is OPENED or DOOMED, at the time it runs out. -/
theorem doTxnTimeout_expires (hready : s.ready = true) (hfreeze : s.freeze.frozen = false)
    (hx : (s.port p).txn.state = .opened ∨ (s.port p).txn.state = .doomed) :
    doTxnTimeout p s = State.endTxn { s with now := max s.now ((s.port p).txn.lastTouch + (s.port p).txn.idleNs) } p stTimeout 3 := by
  simp only [doTxnTimeout, hready, hfreeze, Bool.not_false, Bool.true_and]
  exact if_pos (by simpa using hx)

/-! ### The accesses of CFG_TXN_CTL -/

theorem exec_baste : exec (.baste p v) s = .next (s.hostWrite p 0x00100000 (.baste p v) (fun t => t.baste p v)) := rfl

theorem exec_touch : exec (.touch p) s = .next (s.hostWrite p 0x00100000 (.touch p) (fun t => t.touchTxn p)) := rfl

theorem exec_unpick : exec (.unpick p) s = .next (s.hostWrite p 0x00100000 (.unpick p) (fun t => t.unpick p)) := rfl

theorem exec_transactionIdleTimeout : exec (.transactionIdleTimeout p) s = .next (doTxnTimeout p s) := rfl

/-- A served access of CFG_TXN_CTL has its effect where the management controller does not activate. -/
theorem gives_of_txnAccess (h : s.serves p) (hact : s.activating 1 = false) {c : Instr} {f : State → State} {P : State → Prop}
    (hexec : exec c s = .next (s.hostWrite p 0x00100000 c f)) (hP : P (f (s.undrain p))) : gives c s P := by
  rw [State.hostWrite_served h (by decide) (fun _ => hact)] at hexec
  exact ⟨_, hexec, hP⟩

/-- An access of CFG_TXN_CTL waits while the management controller activates. -/
theorem gives_of_txnAccess_held (h : s.serves p) (hact : s.activating 1 = true) {c : Instr} {f : State → State}
    (hexec : exec c s = .next (s.hostWrite p 0x00100000 c f)) : gives c s (fun t => s.keeps t p c) :=
  ⟨_, hexec, State.hostWrite_managed h (by decide) hact c f⟩

/-- The restart of the idle timer is all that a served TOUCH, or second BASTE, leaves. -/
theorem State.touchTxn_txnLeft (hx : (s.port p).txn.state ≠ .idle) :
    s.txnLeft ((s.undrain p).touchTxn p) p { (s.port p).txn with lastTouch := s.now } := by
  rw [State.touchTxn_active (by rwa [State.undrain_port])]
  exact State.txnLeft_of_modPort (by rw [State.undrain_now])

/-- The end of the transaction is all that a served UNPICK leaves. -/
theorem State.endTxn_txnLeft (s : State) (p : HostPort) (status cause : Nat) :
    s.txnLeft ((s.undrain p).endTxn p status cause) p ((s.port p).txn.finish status cause) :=
  State.txnLeft_of_modPort rfl

/-- Settles O33: each access has its effect where it is served, and waits while the management controller activates. -/
theorem transactionLifecycle : Obligations.TransactionLifecycle := by
  intro s p x ended
  have hu : ((s.undrain p).port p).txn = x := by rw [State.undrain_port]
  refine ⟨fun h hact => ⟨fun v hx hv => ?opens, fun v hx hv => ?misused, fun v hx => ?again, fun hx => ?touch, fun hx => ?touchIdle,
    fun hx => ?unpick, fun hx => ?unpickDoomed, fun hx => ?unpickOther⟩, fun h hact => ?held, fun hready hfreeze hx => ?timeout⟩
  case opens =>
    refine gives_of_txnAccess h hact exec_baste ?_
    rw [State.baste_opens (by rwa [hu]) hv]
    exact State.txnLeft_of_modPort (by rw [State.undrain_now]; rfl)
  case misused =>
    refine gives_of_txnAccess h hact exec_baste ?_
    rw [State.baste_misused (by rwa [hu]) hv]
    refine ⟨?_, ?_⟩
    · rw [State.modPort_errq, State.misuse_raised, State.undrain_errq]
    · rw [State.port_modPort, State.misuse_txn, hu, State.undrain_now]; rfl
  case again =>
    refine gives_of_txnAccess h hact exec_baste ?_
    rw [State.baste_touches (by rwa [hu])]
    exact State.touchTxn_txnLeft hx
  case touch => exact gives_of_txnAccess h hact exec_touch (State.touchTxn_txnLeft hx)
  case touchIdle =>
    refine gives_of_txnAccess h hact exec_touch ?_
    rw [State.touchTxn_idle (by rwa [hu])]
    exact State.txnLeft_undrain s p
  case unpick =>
    refine gives_of_txnAccess h hact exec_unpick ?_
    rw [State.unpick_opened (by rwa [hu])]
    exact State.endTxn_txnLeft s p stOk 1
  case unpickDoomed =>
    refine gives_of_txnAccess h hact exec_unpick ?_
    rw [State.unpick_doomed (by rwa [hu])]
    exact State.endTxn_txnLeft s p stConflict 2
  case unpickOther =>
    refine gives_of_txnAccess h hact exec_unpick ?_
    rw [State.unpick_other (by rwa [hu])]
    exact State.txnLeft_undrain s p
  case held =>
    exact ⟨fun _ => gives_of_txnAccess_held h hact exec_baste, gives_of_txnAccess_held h hact exec_touch,
      gives_of_txnAccess_held h hact exec_unpick⟩
  case timeout =>
    refine ⟨_, exec_transactionIdleTimeout, (doTxnTimeout_expires hready hfreeze hx).trans ?_⟩
    exact State.modPort_congr (by cases p <;> rfl)

end Sys2Proof.Machine
end

section
/-! CERTIFICATE. The encoding of the scalar instructions loses nothing (R211, R212): the fields of an encoded word, and the round trip of each
class. -/

namespace Sys2Proof

open Sys2Proof.Machine

/-! ### Op codes -/

theorem AluOp.ofCode_code (op : AluOp) : AluOp.ofCode op.code = some op := by cases op <;> rfl
theorem LoadOp.ofCode_code (op : LoadOp) : LoadOp.ofCode op.code = some op := by cases op <;> rfl
theorem StoreOp.ofCode_code (op : StoreOp) : StoreOp.ofCode op.code = some op := by cases op <;> rfl
theorem BranchOp.ofCode_code (op : BranchOp) : BranchOp.ofCode op.code = some op := by cases op <;> rfl

/-- A store's op code is no load's. -/
theorem LoadOp.ofCode_store (op : StoreOp) : LoadOp.ofCode op.code = none := by cases op <;> rfl

theorem AluOp.code_lt (op : AluOp) : op.code < 16 := by cases op <;> decide
theorem LoadOp.code_lt (op : LoadOp) : op.code < 8 := by cases op <;> decide
theorem StoreOp.code_lt (op : StoreOp) : op.code < 16 := by cases op <;> decide
theorem BranchOp.code_lt (op : BranchOp) : op.code < 8 := by cases op <;> decide

/-! ### The fields of a word (R211) -/

/-- The word `w` holds these fields, and has 64 bits. -/
structure HasFields (w cls op rd rs1 rs2 : Nat) (imm : Imm) : Prop where
  lt : w < 2 ^ 64
  cls : wClass w = cls
  op : wOp w = op
  rd : wRd w = rd
  rs1 : wRs1 w = rs1
  rs2 : wRs2 w = rs2
  imm : wImm w = imm

/-- A word made of fields in range holds each of them. -/
theorem scalarWord_hasFields {cls op rd rs1 rs2 : Nat} (imm : Imm) (hcls : cls < 16) (hop : op < 64) (hrd : rd < 32) (hrs1 : rs1 < 32)
    (hrs2 : rs2 < 32) : HasFields (scalarWord cls op rd rs1 rs2 imm) cls op rd rs1 rs2 imm := by
  have himm := imm.isLt
  have hw : scalarWord cls op rd rs1 rs2 imm =
      cls * 2 ^ 60 + op * 2 ^ 54 + rd * 2 ^ 49 + rs1 * 2 ^ 44 + rs2 * 2 ^ 39 + imm.toNat := by
    simp only [scalarWord, put, Nat.shiftLeft_eq]; omega
  constructor
  case lt => rw [hw]; omega
  case imm =>
    refine BitVec.eq_of_toNat_eq ?_
    rw [wImm, hw, BitVec.toNat_ofNat]; omega
  all_goals rw [hw]; simp only [wClass, wOp, wRd, wRs1, wRs2, fld, Nat.shiftRight_eq_div_pow]; omega

theorem areg_of_lt {r : Nat} (h : r < 16) : areg r = r := Nat.mod_eq_of_lt h

/-! ### The round trip of each class (R212) -/

variable {w op rd rs1 rs2 : Nat} {imm : Imm}

theorem decodeScalar_alu {a : AluOp} (h : HasFields w 0 a.code rd rs1 rs2 imm) (c q : Nat) :
    decodeScalar c q w = some (.aluRegister c q a rd rs1 rs2) := by
  simp [decodeScalar, decodeAlu, h.cls, h.op, h.rd, h.rs1, h.rs2, AluOp.ofCode_code]

theorem decodeScalar_aluImm {a : AluOp} (h : HasFields w 1 a.code rd rs1 rs2 imm) (c q : Nat) :
    decodeScalar c q w = some (.aluImmediate c q a rd rs1 imm) := by
  have hlt := a.code_lt
  have hli : a.code ≠ 16 := by omega
  have hlih : a.code ≠ 17 := by omega
  simp [decodeScalar, decodeAluImm, h.cls, h.op, h.rd, h.rs1, h.imm, AluOp.ofCode_code, hli, hlih]

theorem decodeScalar_li (h : HasFields w 1 0x10 rd rs1 rs2 imm) (c q : Nat) : decodeScalar c q w = some (.li c q rd imm) := by
  simp [decodeScalar, decodeAluImm, h.cls, h.op, h.rd, h.imm]

theorem decodeScalar_lih (h : HasFields w 1 0x11 rd rs1 rs2 imm) (c q : Nat) : decodeScalar c q w = some (.lih c q rd imm) := by
  simp [decodeScalar, decodeAluImm, h.cls, h.op, h.rd, h.imm]

theorem decodeScalar_amov (h : HasFields w 2 0 rd rs1 rs2 imm) (hrd : rd < 16) (c q : Nat) :
    decodeScalar c q w = some (.amov c q rd rs1) := by
  simp [decodeScalar, decodeAddress, h.cls, h.op, h.rd, h.rs1, areg_of_lt hrd]

theorem decodeScalar_gmov (h : HasFields w 2 1 rd rs1 rs2 imm) (hrs1 : rs1 < 16) (c q : Nat) :
    decodeScalar c q w = some (.gmov c q rd rs1) := by
  simp [decodeScalar, decodeAddress, h.cls, h.op, h.rd, h.rs1, areg_of_lt hrs1]

theorem decodeScalar_aadd (h : HasFields w 2 2 rd rs1 rs2 imm) (hrd : rd < 16) (hrs1 : rs1 < 16) (c q : Nat) :
    decodeScalar c q w = some (.aadd c q rd rs1 rs2 imm) := by
  simp [decodeScalar, decodeAddress, h.cls, h.op, h.rd, h.rs1, h.rs2, h.imm, areg_of_lt hrd, areg_of_lt hrs1]

theorem decodeScalar_load {a : LoadOp} (h : HasFields w 3 a.code rd rs1 rs2 imm) (hrs1 : rs1 < 16) (c q : Nat) :
    decodeScalar c q w = some (.load c q a rd rs1 imm) := by
  simp [decodeScalar, decodeMemory, h.cls, h.op, h.rd, h.rs1, h.imm, LoadOp.ofCode_code, areg_of_lt hrs1]

theorem decodeScalar_store {a : StoreOp} (h : HasFields w 3 a.code rd rs1 rs2 imm) (hrs1 : rs1 < 16) (c q : Nat) :
    decodeScalar c q w = some (.store c q a rs1 rs2 imm) := by
  simp [decodeScalar, decodeMemory, h.cls, h.op, h.rs1, h.rs2, h.imm, LoadOp.ofCode_store, StoreOp.ofCode_code, areg_of_lt hrs1]

theorem decodeScalar_branch {a : BranchOp} (h : HasFields w 4 a.code rd rs1 rs2 imm) (c q : Nat) :
    decodeScalar c q w = some (.branch c q a rs1 rs2 imm) := by
  have hlt := a.code_lt
  have hjmp : a.code ≠ 8 := by omega
  have hcall : a.code ≠ 9 := by omega
  have hret : a.code ≠ 10 := by omega
  simp [decodeScalar, decodeBranch, h.cls, h.op, h.rs1, h.rs2, h.imm, BranchOp.ofCode_code, hjmp, hcall, hret]

theorem decodeScalar_jmp (h : HasFields w 4 8 rd rs1 rs2 imm) (c q : Nat) : decodeScalar c q w = some (.jmp c q imm) := by
  simp [decodeScalar, decodeBranch, h.cls, h.op, h.imm]

theorem decodeScalar_call (h : HasFields w 4 9 rd rs1 rs2 imm) (c q : Nat) : decodeScalar c q w = some (.call c q imm) := by
  simp [decodeScalar, decodeBranch, h.cls, h.op, h.imm]

theorem decodeScalar_ret (h : HasFields w 4 10 rd rs1 rs2 imm) (c q : Nat) : decodeScalar c q w = some (.ret c q) := by
  simp [decodeScalar, decodeBranch, h.cls, h.op]

theorem decodeScalar_nop (h : HasFields w 5 0 rd rs1 rs2 imm) (c q : Nat) : decodeScalar c q w = some (.nop c q) := by
  simp [decodeScalar, decodeSystem, h.cls, h.op]

theorem decodeScalar_endSub (h : HasFields w 5 1 rd rs1 rs2 imm) (c q : Nat) : decodeScalar c q w = some (.endSub c q) := by
  simp [decodeScalar, decodeSystem, h.cls, h.op]

theorem decodeScalar_rdsr (h : HasFields w 5 2 rd rs1 rs2 imm) (c q : Nat) : decodeScalar c q w = some (.rdsr c q rd imm) := by
  simp [decodeScalar, decodeSystem, h.cls, h.op, h.rd, h.imm]

theorem decodeScalar_wrsr (h : HasFields w 5 3 rd rs1 rs2 imm) (c q : Nat) : decodeScalar c q w = some (.wrsr c q rs1 imm) := by
  simp [decodeScalar, decodeSystem, h.cls, h.op, h.rs1, h.imm]

theorem decodeScalar_trap (h : HasFields w 5 4 rd rs1 rs2 imm) (c q : Nat) : decodeScalar c q w = some (.trap c q imm) := by
  simp [decodeScalar, decodeSystem, h.cls, h.op, h.imm]

/-- A word that holds the fields of `i` is its encoding, where `i` decodes from those fields. -/
theorem roundTrips {cls : Nat} {i : Instr} {c q : Nat} (henc : encodeScalar i = some w) (h : HasFields w cls op rd rs1 rs2 imm)
    (hdec : HasFields w cls op rd rs1 rs2 imm → decodeScalar c q w = some i) :
    ∃ w, encodeScalar i = some w ∧ w < 2 ^ 64 ∧ decodeScalar c q w = some i := ⟨w, henc, h.lt, hdec h⟩

/-- Settles O5: an encoded word holds the fields of its instruction, and each class decodes from its fields. -/
theorem scalarRoundTrip : Obligations.ScalarRoundTrip := by
  intro c q i hq hwf
  cases i <;> simp only [scalarQueue, Option.some.injEq, Prod.mk.injEq, reduceCtorEq] at hq <;> obtain ⟨rfl, rfl⟩ := hq <;>
    simp only [wellFormed, scalarOk, gOk, aOk, Bool.and_eq_true, decide_eq_true_eq] at hwf
  case aluRegister a rd rs1 rs2 =>
    obtain ⟨⟨⟨-, hrd⟩, hrs1⟩, hrs2⟩ := hwf
    exact roundTrips rfl (scalarWord_hasFields 0 (by omega) (Nat.lt_of_lt_of_le a.code_lt (by omega)) hrd hrs1 hrs2) (fun h => decodeScalar_alu h _ _)
  case aluImmediate a rd rs1 imm =>
    obtain ⟨⟨-, hrd⟩, hrs1⟩ := hwf
    exact roundTrips rfl (scalarWord_hasFields imm (by omega) (Nat.lt_of_lt_of_le a.code_lt (by omega)) hrd hrs1 (by omega)) (fun h => decodeScalar_aluImm h _ _)
  case li rd imm =>
    obtain ⟨-, hrd⟩ := hwf
    exact roundTrips rfl (scalarWord_hasFields imm (by omega) (by omega) hrd (by omega) (by omega)) (fun h => decodeScalar_li h _ _)
  case lih rd imm =>
    obtain ⟨-, hrd⟩ := hwf
    exact roundTrips rfl (scalarWord_hasFields imm (by omega) (by omega) hrd (by omega) (by omega)) (fun h => decodeScalar_lih h _ _)
  case amov rd rs1 =>
    obtain ⟨⟨-, hrd⟩, hrs1⟩ := hwf
    exact roundTrips rfl (scalarWord_hasFields 0 (by omega) (by omega) (Nat.lt_of_lt_of_le hrd (by omega)) hrs1 (by omega)) (fun h => decodeScalar_amov h hrd _ _)
  case gmov rd rs1 =>
    obtain ⟨⟨-, hrd⟩, hrs1⟩ := hwf
    exact roundTrips rfl (scalarWord_hasFields 0 (by omega) (by omega) hrd (Nat.lt_of_lt_of_le hrs1 (by omega)) (by omega)) (fun h => decodeScalar_gmov h hrs1 _ _)
  case aadd rd rs1 rs2 imm =>
    obtain ⟨⟨⟨-, hrd⟩, hrs1⟩, hrs2⟩ := hwf
    exact roundTrips rfl (scalarWord_hasFields imm (by omega) (by omega) (Nat.lt_of_lt_of_le hrd (by omega)) (Nat.lt_of_lt_of_le hrs1 (by omega)) hrs2) (fun h => decodeScalar_aadd h hrd hrs1 _ _)
  case load a rd rs1 imm =>
    obtain ⟨⟨-, hrd⟩, hrs1⟩ := hwf
    exact roundTrips rfl (scalarWord_hasFields imm (by omega) (Nat.lt_of_lt_of_le a.code_lt (by omega)) hrd (Nat.lt_of_lt_of_le hrs1 (by omega)) (by omega)) (fun h => decodeScalar_load h hrs1 _ _)
  case store a rs1 rs2 imm =>
    obtain ⟨⟨-, hrs1⟩, hrs2⟩ := hwf
    exact roundTrips rfl (scalarWord_hasFields imm (by omega) (Nat.lt_of_lt_of_le a.code_lt (by omega)) (by omega) (Nat.lt_of_lt_of_le hrs1 (by omega)) hrs2) (fun h => decodeScalar_store h hrs1 _ _)
  case branch a rs1 rs2 imm =>
    obtain ⟨⟨-, hrs1⟩, hrs2⟩ := hwf
    exact roundTrips rfl (scalarWord_hasFields imm (by omega) (Nat.lt_of_lt_of_le a.code_lt (by omega)) (by omega) hrs1 hrs2) (fun h => decodeScalar_branch h _ _)
  case jmp imm =>
    exact roundTrips rfl (scalarWord_hasFields imm (by omega) (by omega) (by omega) (by omega) (by omega)) (fun h => decodeScalar_jmp h _ _)
  case call imm =>
    exact roundTrips rfl (scalarWord_hasFields imm (by omega) (by omega) (by omega) (by omega) (by omega)) (fun h => decodeScalar_call h _ _)
  case ret =>
    exact roundTrips rfl (scalarWord_hasFields 0 (by omega) (by omega) (by omega) (by omega) (by omega)) (fun h => decodeScalar_ret h _ _)
  case nop =>
    exact roundTrips rfl (scalarWord_hasFields 0 (by omega) (by omega) (by omega) (by omega) (by omega)) (fun h => decodeScalar_nop h _ _)
  case endSub =>
    exact roundTrips rfl (scalarWord_hasFields 0 (by omega) (by omega) (by omega) (by omega) (by omega)) (fun h => decodeScalar_endSub h _ _)
  case rdsr rd imm =>
    obtain ⟨-, hrd⟩ := hwf
    exact roundTrips rfl (scalarWord_hasFields imm (by omega) (by omega) hrd (by omega) (by omega)) (fun h => decodeScalar_rdsr h _ _)
  case wrsr rs1 imm =>
    obtain ⟨-, hrs1⟩ := hwf
    exact roundTrips rfl (scalarWord_hasFields imm (by omega) (by omega) (by omega) hrs1 (by omega)) (fun h => decodeScalar_wrsr h _ _)
  case trap imm =>
    exact roundTrips rfl (scalarWord_hasFields imm (by omega) (by omega) (by omega) (by omega) (by omega)) (fun h => decodeScalar_trap h _ _)

end Sys2Proof
end

section
/-! SUPPORT. What a record of a queue leaves of the rest (R247, R249): the memory of the module, the other queues, and all that no report changes. -/

namespace Sys2Proof.Machine

variable {s t u : State} {qi : Nat}

/-! ### Host memory and the memory of the module -/

theorem State.memByte_setBytes_out (h : Memory.wf s.mem = true) {a x : Nat} {bs : List Byte} (hx : x < a ∨ a + bs.length ≤ x) :
    (s.setBytes a bs).memByte x = s.memByte x := by
  induction bs generalizing s a with
  | nil => rfl
  | cons b bs ih =>
    simp only [List.length_cons] at hx
    simp only [State.setBytes]
    rw [ih (State.setByte_wf a b h) (by omega), State.memByte_setByte_ne h b (by omega)]

theorem hostAddr_high (p : HostPort) (a : Nat) : 2 ^ 63 ≤ hostAddr p a := by unfold hostAddr; omega

/-- A write of host memory leaves the memory of the module. -/
theorem State.memByte_writeHost (h : Memory.wf s.mem = true) (p : HostPort) (a : Nat) (bs : List Byte) {x : Nat} (hx : x < 2 ^ 63) :
    (s.writeHost p a bs).memByte x = s.memByte x := by
  have hhigh := hostAddr_high p a
  exact State.memByte_setBytes_out h (by omega)

/-- Events and interrupts are no part of the host queues. -/
theorem State.hostqs_of_eventless (h : s.eventless = t.eventless) : s.hostqs = t.hostqs := by
  have hh := congrArg State.hostqs h
  exact hh

@[simp] theorem State.raiseMsix_mem (s : State) (p : HostPort) (v : Nat) : (s.raiseMsix p v).mem = s.mem := by
  simp only [State.raiseMsix]
  split
  · rfl
  · split <;> simp

@[simp] theorem State.writeHost_hostqs (s : State) (p : HostPort) (a : Nat) (bs : List Byte) : (s.writeHost p a bs).hostqs = s.hostqs := by
  rw [State.writeHost_eq]

@[simp] theorem State.writeHost_queues (s : State) (p : HostPort) (a : Nat) (bs : List Byte) : (s.writeHost p a bs).queues = s.queues := by
  rw [State.writeHost_eq]

@[simp] theorem State.raiseMsix_queues (s : State) (p : HostPort) (v : Nat) : (s.raiseMsix p v).queues = s.queues :=
  State.queues_of_eventless (State.eventless_raiseMsix s p v)

@[simp] theorem State.raiseMsix_hostqs (s : State) (p : HostPort) (v : Nat) : (s.raiseMsix p v).hostqs = s.hostqs :=
  State.hostqs_of_eventless (State.eventless_raiseMsix s p v)

/-! ### What a record leaves -/

/-- The state with the core queues and host queues of another. -/
def State.withQueues (t s : State) : State := { t with queues := s.queues, hostqs := s.hostqs }

/-- From `s` to `t`, queue `qi`, the host queues and what an event or a host write changes may differ, and nothing else: no other queue, and no
byte of module memory. -/
structure RecordsOnly (qi : Nat) (s t : State) : Prop where
  same : (t.withQueues s).eventless = s.eventless
  others : ∀ k, k ≠ qi → t.queue k = s.queue k
  bytes : ∀ a, a < 2 ^ 63 → t.memByte a = s.memByte a
  wf : Memory.wf t.mem = true
  rising : SMap.rising t.queues = true

theorem RecordsOnly.refl (hm : Memory.wf s.mem = true) (hq : SMap.rising s.queues = true) : RecordsOnly qi s s :=
  ⟨rfl, fun _ _ => rfl, fun _ _ => rfl, hm, hq⟩

theorem State.withQueues_eventless (t s : State) : (t.withQueues s).eventless = t.eventless.withQueues s := rfl

theorem RecordsOnly.trans (h : RecordsOnly qi s t) (h' : RecordsOnly qi t u) : RecordsOnly qi s u := by
  refine ⟨?_, fun k hk => (h'.others k hk).trans (h.others k hk), fun a ha => (h'.bytes a ha).trans (h.bytes a ha), h'.wf, h'.rising⟩
  have hut : (u.withQueues t).withQueues s = u.withQueues s := rfl
  rw [← h.same, ← hut, State.withQueues_eventless (u.withQueues t), h'.same]; rfl

theorem RecordsOnly.tacks (h : RecordsOnly qi s t) : t.tacks = s.tacks := by
  have h' := congrArg State.tacks h.same
  exact h'

theorem RecordsOnly.regs (h : RecordsOnly qi s t) : t.regs = s.regs := by
  have h' := congrArg State.regs h.same
  exact h'

theorem RecordsOnly.setQueue (h : RecordsOnly qi s t) (x : CoreQ) : RecordsOnly qi s (t.setQueue qi x) :=
  h.trans ⟨rfl, fun _ hk => State.queue_setQueue_ne h.rising hk, fun _ _ => rfl, h.wf, SMap.rising_set h.rising⟩

theorem RecordsOnly.modQueue (h : RecordsOnly qi s t) (f : CoreQ → CoreQ) : RecordsOnly qi s (t.modQueue qi f) := h.setQueue _

theorem RecordsOnly.setHostq (h : RecordsOnly qi s t) (n : Nat) (x : HostQ) : RecordsOnly qi s (t.setHostq n x) :=
  h.trans ⟨rfl, fun _ _ => rfl, fun _ _ => rfl, h.wf, h.rising⟩

theorem State.withQueues_self_of {t s : State} (hq : t.queues = s.queues) (hh : t.hostqs = s.hostqs) : t.withQueues s = t := by
  unfold State.withQueues; rw [← hq, ← hh]

theorem RecordsOnly.writeHost (h : RecordsOnly qi s t) (p : HostPort) (a : Nat) (bs : List Byte) : RecordsOnly qi s (t.writeHost p a bs) := by
  refine h.trans ⟨?_, fun k _ => ?_, fun _ ha => State.memByte_writeHost h.wf p a bs ha, State.writeHost_wf p a bs h.wf, ?_⟩
  · rw [State.withQueues_self_of (by simp) (by simp), State.eventless_writeHost]
  · rw [State.queue, State.writeHost_queues]; rfl
  · rw [State.writeHost_queues]; exact h.rising

theorem RecordsOnly.raiseMsix (h : RecordsOnly qi s t) (p : HostPort) (v : Nat) : RecordsOnly qi s (t.raiseMsix p v) := by
  refine h.trans ⟨?_, fun k _ => ?_, fun a _ => ?_, ?_, ?_⟩
  · rw [State.withQueues_self_of (by simp) (by simp), State.eventless_raiseMsix]
  · rw [State.queue, State.raiseMsix_queues]; rfl
  · rw [State.memByte, State.raiseMsix_mem]; rfl
  · rw [State.raiseMsix_mem]; exact h.wf
  · rw [State.raiseMsix_queues]; exact h.rising

/-- R247: writing a record to its ring. -/
theorem RecordsOnly.writeRec (h : RecordsOnly qi s t) (hn : Nat) (r : PendingRec) : RecordsOnly qi s (t.writeRec hn r) := by
  simp only [State.writeRec]
  split
  · exact h
  · split
    · exact ((h.writeHost _ _ _).setHostq _ _).raiseMsix _ _
    · exact (h.writeHost _ _ _).setHostq _ _

/-- R249: the records that wait, written while the ring has room. -/
theorem RecordsOnly.drainRecsN (h : RecordsOnly qi s t) (hn n : Nat) : RecordsOnly qi s (t.drainRecsN qi hn n) := by
  induction n generalizing t with
  | zero => exact h
  | succ n ih =>
    simp only [State.drainRecsN]
    split
    · exact h
    · split
      · exact ih ((h.setQueue _).writeRec _ _)
      · exact h

theorem RecordsOnly.pushRec (h : RecordsOnly qi s t) (hn : Nat) (r : PendingRec) : RecordsOnly qi s (t.pushRec qi hn r) :=
  (h.modQueue _).drainRecsN hn _

/-- R251: where no lost-host handling takes the queue, settling its trap makes at most a record. -/
theorem State.settleTrap_cases (hlost : ∀ b, (s.queue qi).sub = some b → (s.hostq b.hostq).underHandling = false) :
    s.settleTrap qi = s ∨ ∃ x hn r, s.settleTrap qi = (s.setQueue qi x).pushRec qi hn r := by
  simp only [State.settleTrap]
  split
  · next x b _ hb =>
    split
    · exact .inl rfl
    · rw [if_neg (by rw [hlost b hb]; exact Bool.false_ne_true)]
      exact .inr ⟨_, _, _, rfl⟩
  · exact .inl rfl

theorem RecordsOnly.settleTrap (h : RecordsOnly qi s t) (hlost : ∀ b, (t.queue qi).sub = some b → (t.hostq b.hostq).underHandling = false) :
    RecordsOnly qi s (t.settleTrap qi) := by
  obtain e | ⟨x, hn, r, e⟩ := State.settleTrap_cases hlost <;> rw [e]
  · exact h
  · exact (h.setQueue x).pushRec hn r

/-- R251: a trap for another cause than poison makes no report but its record. -/
theorem RecordsOnly.trapQueue (h : RecordsOnly qi s t) {cause : Nat} (hc : cause ≠ trContained)
    (hlost : ∀ b, (t.queue qi).sub = some b → (t.hostq b.hostq).underHandling = false) (code : Nat) (pc : Word) :
    RecordsOnly qi s (t.trapQueue qi cause code pc) := by
  simp only [State.trapQueue, if_neg hc]
  refine (h.modQueue _).settleTrap fun b hb => ?_
  rw [State.queue_modQueue h.rising] at hb
  exact hlost b hb

end Sys2Proof.Machine
end

section
/-! CERTIFICATE. The scalar instructions that write registers, load, store, branch, or trap (R211, R212, R245, R251, R309). -/

namespace Sys2Proof.Machine

variable {s : State} {c q : Nat}

/-! ### Operations against exact integers (R212) -/

theorem BitVec.ofInt_eq_of_toNat {w : Nat} {x : BitVec w} {n : Nat} (h : x.toNat = n % 2 ^ w) : x = BitVec.ofInt w (n : Int) := by
  rw [BitVec.ofInt_natCast]; exact BitVec.eq_of_toNat_eq (by rw [h, BitVec.toNat_ofNat])

theorem BitVec.slt_iff {x y : Word} : x.slt y = true ↔ x.toInt < y.toInt := by simp [BitVec.slt]
theorem BitVec.ult_iff {x y : Word} : x.ult y = true ↔ x.toNat < y.toNat := by simp [BitVec.ult]

/-- R212: each ALU operation gives the low 64 bits of its exact result. -/
theorem AluOp.apply_eq (op : AluOp) (x y : Word) : op.apply x y = BitVec.ofInt 64 (aluExact op x y) := by
  have hx := x.isLt
  have hy := y.isLt
  cases op <;> simp only [AluOp.apply, aluExact]
  case add => rw [BitVec.ofInt_add, BitVec.ofInt_toNat_self, BitVec.ofInt_toNat_self]
  case sub => rw [BitVec.sub_eq_add_neg, Int.sub_eq_add_neg, BitVec.ofInt_add, BitVec.ofInt_neg, BitVec.ofInt_toNat_self, BitVec.ofInt_toNat_self]
  case mul => rw [BitVec.ofInt_mul, BitVec.ofInt_toNat_self, BitVec.ofInt_toNat_self]
  case and => rw [← BitVec.toNat_and, BitVec.ofInt_toNat_self]
  case or => rw [← BitVec.toNat_or, BitVec.ofInt_toNat_self]
  case xor => rw [← BitVec.toNat_xor, BitVec.ofInt_toNat_self]
  case sll => exact_mod_cast BitVec.ofInt_eq_of_toNat (n := x.toNat * 2 ^ (y.toNat % 64)) (by rw [BitVec.toNat_shiftLeft, Nat.shiftLeft_eq])
  case srl =>
    have hle : x.toNat / 2 ^ (y.toNat % 64) ≤ x.toNat := Nat.div_le_self _ _
    exact_mod_cast BitVec.ofInt_eq_of_toNat (n := x.toNat / 2 ^ (y.toNat % 64))
      (by rw [BitVec.toNat_ushiftRight, Nat.shiftRight_eq_div_pow, Nat.mod_eq_of_lt (Nat.lt_of_le_of_lt hle hx)])
  case sra =>
    rw [← BitVec.ofInt_toInt (x := x.sshiftRight (y.toNat % 64)), BitVec.toInt_sshiftRight, Int.shiftRight_eq_div_pow]
    norm_cast
  case mulhu => exact_mod_cast (BitVec.ofInt_natCast 64 (x.toNat * y.toNat / 2 ^ 64)).symm
  case min =>
    by_cases h : x.toInt < y.toInt
    · rw [if_pos (BitVec.slt_iff.mpr h), Int.min_eq_left (Int.le_of_lt h), BitVec.ofInt_toInt_self]
    · rw [if_neg (mt BitVec.slt_iff.mp h), Int.min_eq_right (Int.not_lt.mp h), BitVec.ofInt_toInt_self]
  case max =>
    by_cases h : x.toInt < y.toInt
    · rw [if_pos (BitVec.slt_iff.mpr h), Int.max_eq_right (Int.le_of_lt h), BitVec.ofInt_toInt_self]
    · rw [if_neg (mt BitVec.slt_iff.mp h), Int.max_eq_left (Int.not_lt.mp h), BitVec.ofInt_toInt_self]
  case minu =>
    by_cases h : x.toNat < y.toNat
    · rw [if_pos (BitVec.ult_iff.mpr h), Int.min_eq_left (by omega), BitVec.ofInt_toNat_self]
    · rw [if_neg (mt BitVec.ult_iff.mp h), Int.min_eq_right (by omega), BitVec.ofInt_toNat_self]
  case maxu =>
    by_cases h : x.toNat < y.toNat
    · rw [if_pos (BitVec.ult_iff.mpr h), Int.max_eq_right (by omega), BitVec.ofInt_toNat_self]
    · rw [if_neg (mt BitVec.ult_iff.mp h), Int.max_eq_left (by omega), BitVec.ofInt_toNat_self]
  case slt =>
    by_cases h : x.toInt < y.toInt
    · rw [if_pos (BitVec.slt_iff.mpr h), if_pos h]; rfl
    · rw [if_neg (mt BitVec.slt_iff.mp h), if_neg h]; rfl
  case sltu =>
    by_cases h : x.toNat < y.toNat
    · rw [if_pos (BitVec.ult_iff.mpr h), if_pos h]; rfl
    · rw [if_neg (mt BitVec.ult_iff.mp h), if_neg h]; rfl

/-- R212: each branch compares as its row says. -/
theorem BranchOp.apply_iff (op : BranchOp) (x y : Word) : op.apply x y = true ↔ branchTaken op x y := by
  cases op <;> simp only [BranchOp.apply, branchTaken]
  case beq => exact beq_iff_eq
  case bne => exact bne_iff_ne
  case blt => exact BitVec.slt_iff
  case bge => rw [Bool.not_eq_true', ← Bool.not_eq_true, BitVec.slt_iff, Int.not_lt]
  case bltu => exact BitVec.ult_iff
  case bgeu => rw [Bool.not_eq_true', ← Bool.not_eq_true, BitVec.ult_iff, Nat.not_lt]

theorem immWord_eq (imm : Imm) : immWord imm = BitVec.ofInt 64 imm.toInt := rfl

/-- R212: the exact value of LIH. -/
theorem lih_value (imm : Imm) (x : Word) : imm ++ x.truncate 32 = BitVec.ofNat 64 (imm.toNat * 2 ^ 32 + x.toNat % 2 ^ 32) := by
  have himm := imm.isLt
  refine BitVec.eq_of_toNat_eq ?_
  rw [BitVec.toNat_append, BitVec.toNat_ofNat, BitVec.toNat_setWidth, Nat.shiftLeft_eq, Nat.mul_comm,
    ← Nat.two_pow_add_eq_or_of_lt (by omega)]
  omega

theorem aadd_value (x y : Word) (imm : Imm) : x + y + immWord imm = BitVec.ofInt 64 (x.toNat + y.toNat + imm.toInt) := by
  rw [BitVec.ofInt_add, BitVec.ofInt_add, BitVec.ofInt_toNat_self, BitVec.ofInt_toNat_self, immWord_eq]

/-- R212: the target of a branch, and the address of a load or store, as exact sums. -/
theorem target_eq (pc : Word) (imm : Imm) : target pc imm = BitVec.ofInt 64 (pc.toNat + 8 * imm.toInt) := by
  rw [BitVec.ofInt_add, BitVec.ofInt_mul, BitVec.ofInt_toNat_self]; rfl

theorem scalarAddr_eq (x : CoreQ) (rs1 : Nat) (imm : Imm) :
    scalarAddr x rs1 imm = (BitVec.ofInt 64 ((x.getA rs1).toNat + imm.toInt)).toNat := by
  rw [BitVec.ofInt_add, BitVec.ofInt_toNat_self]; rfl

/-! ### ALU and address instructions (R212) -/

theorem scalarRow_advances {f : CoreQ → CoreQ} (ht : s.tidy = true) (hr : s.runs c q 1)
    (hf : ∀ x, f x = { x with g := (f x).g, a := (f x).a, rstack := (f x).rstack, trapOnStatus := (f x).trapOnStatus }) :
    ∃ u : State, scalarRow c q (advance (8 * c + q) f) s = .next (u.checkExhausted (8 * c + q)) ∧ scalarFrame s u (8 * c + q) ∧
      u.queue (8 * c + q) = { f (s.queue (8 * c + q)) with pc := (s.queue (8 * c + q)).pc + 8 } :=
  scalarRow_rewrites (k := fun x => { f x with pc := x.pc + 8 }) ht hr rfl (fun x => by rw [hf x])

/-- An instruction that writes one general register. -/
theorem scalarRow_writesG (ht : s.tidy = true) (hr : s.runs c q 1) (rd : Nat) (v : CoreQ → Word) {w : Word}
    (hv : v (s.queue (8 * c + q)) = w) :
    ∃ u : State, scalarRow c q (advance (8 * c + q) (fun x => x.setG rd (v x))) s = .next (u.checkExhausted (8 * c + q)) ∧
      scalarFrame s u (8 * c + q) ∧ (u.queue (8 * c + q)).pc = (s.queue (8 * c + q)).pc + 8 ∧
      (u.queue (8 * c + q)).a = (s.queue (8 * c + q)).a ∧ (u.queue (8 * c + q)).rstack = (s.queue (8 * c + q)).rstack ∧
      (u.queue (8 * c + q)).trapOnStatus = (s.queue (8 * c + q)).trapOnStatus ∧
      gWritten (s.queue (8 * c + q)) (u.queue (8 * c + q)) rd w := by
  obtain ⟨u, hu, hframe, hq⟩ := scalarRow_advances (f := fun x => x.setG rd (v x)) ht hr (fun x => by rw [CoreQ.setG_eq])
  refine ⟨u, hu, hframe, ?_, ?_, ?_, ?_, fun r => ?_⟩
  case refine_5 => rw [hq, ← hv]; exact CoreQ.getG_setG (State.tidy_queue ht _).1 rd _ r
  all_goals rw [hq, CoreQ.setG_eq]

/-- An instruction that writes one address register. -/
theorem scalarRow_writesA (ht : s.tidy = true) (hr : s.runs c q 1) (rd : Nat) (v : CoreQ → Word) {w : Word}
    (hv : v (s.queue (8 * c + q)) = w) :
    ∃ u : State, scalarRow c q (advance (8 * c + q) (fun x => x.setA rd (v x))) s = .next (u.checkExhausted (8 * c + q)) ∧
      scalarFrame s u (8 * c + q) ∧ (u.queue (8 * c + q)).pc = (s.queue (8 * c + q)).pc + 8 ∧
      (u.queue (8 * c + q)).g = (s.queue (8 * c + q)).g ∧ (u.queue (8 * c + q)).rstack = (s.queue (8 * c + q)).rstack ∧
      (u.queue (8 * c + q)).trapOnStatus = (s.queue (8 * c + q)).trapOnStatus ∧
      aWritten (s.queue (8 * c + q)) (u.queue (8 * c + q)) rd w := by
  obtain ⟨u, hu, hframe, hq⟩ := scalarRow_advances (f := fun x => x.setA rd (v x)) ht hr (fun x => by rw [CoreQ.setA_eq])
  refine ⟨u, hu, hframe, ?_, ?_, ?_, ?_, fun r => ?_⟩
  case refine_5 => rw [hq, ← hv]; exact CoreQ.getA_setA (State.tidy_queue ht _).2 rd _ r
  all_goals rw [hq, CoreQ.setA_eq]

/-- Settles O6: each instruction writes its one register, or none, with its exact result. -/
theorem scalarRegisterResults : Obligations.ScalarRegisterResults := by
  intro s c q ht hr
  refine ⟨fun op rd rs1 rs2 => ?_, fun op rd rs1 imm => ?_, fun rd imm => ?_, fun rd imm => ?_, fun rd rs1 => ?_, fun rd rs1 => ?_,
    fun rd rs1 rs2 imm => ?_, ?_⟩
  · exact scalarRow_writesG ht hr rd (fun x => op.apply (x.getG rs1) (x.getG rs2)) (AluOp.apply_eq op _ _)
  · exact scalarRow_writesG ht hr rd (fun x => op.apply (x.getG rs1) (immWord imm)) (AluOp.apply_eq op _ _)
  · exact scalarRow_writesG ht hr rd (fun _ => immWord imm) (immWord_eq imm)
  · exact scalarRow_writesG ht hr rd (fun x => imm ++ (x.getG rd).truncate 32) (lih_value imm _)
  · exact scalarRow_writesG ht hr rd (fun x => x.getA rs1) rfl
  · exact scalarRow_writesA ht hr rd (fun x => x.getG rs1) rfl
  · exact scalarRow_writesA ht hr rd (fun x => x.getA rs1 + x.getG rs2 + immWord imm) (aadd_value _ _ imm)
  · exact scalarRow_advances (f := id) ht hr (fun _ => rfl)

/-! ### Loads and stores (R212, R309) -/

theorem State.scalarTrap_none {qi a n : Nat} (ha : a % n = 0) (hok : s.accessOk (s.sequencerOf qi) (s.queueDomain qi) a n = true) :
    s.scalarTrap qi a n = none := by
  simp [State.scalarTrap, ha, hok]

theorem State.scalarTrap_misaligned {qi a n : Nat} (ha : a % n ≠ 0) : s.scalarTrap qi a n = some trMisaligned := if_pos ha

theorem State.scalarTrap_address {qi a n : Nat} (ha : a % n = 0) (hok : s.accessOk (s.sequencerOf qi) (s.queueDomain qi) a n = false) :
    s.scalarTrap qi a n = some trAddress := by
  simp [State.scalarTrap, ha, hok]

/-- Taking the turn changes no check of an access. -/
theorem State.scalarTrap_took (ht : s.tidy = true) (qi a n : Nat) : (s.took qi).scalarTrap qi a n = s.scalarTrap qi a n := by
  unfold State.scalarTrap
  rw [State.took_accessOk ht]
  rfl

theorem ofLe_lt (bs : List Byte) : ofLe bs < 256 ^ bs.length := by
  induction bs with
  | nil => exact Nat.one_pos
  | cons b bs ih =>
    have hb := b.isLt
    simp only [ofLe, List.length_cons, Nat.pow_succ]
    omega

/-- R212: a load's value, zero- or sign-extended. -/
theorem loadValue_eq (op : LoadOp) (v : Nat) :
    loadValue op v = BitVec.ofInt 64 (if op.signed then (BitVec.ofNat (8 * op.bytes) v).toInt else (v : Int)) := by
  unfold loadValue
  cases hs : op.signed with
  | false => exact (BitVec.ofInt_natCast 64 v).symm
  | true =>
    have hpos : 0 < 8 * op.bytes := by cases op <;> decide
    have hsext : sext (8 * op.bytes) v = (BitVec.ofNat (8 * op.bytes) v).toInt := by
      rw [BitVec.toInt_eq_toNat_cond, BitVec.toNat_ofNat, sext]
      have hpow : 2 ^ (8 * op.bytes) = 2 * 2 ^ (8 * op.bytes - 1) := by rw [← Nat.pow_succ']; congr 1; omega
      by_cases h : v % 2 ^ (8 * op.bytes) < 2 ^ (8 * op.bytes - 1)
      · rw [if_pos h, if_pos (by omega)]
      · rw [if_neg h, if_neg (by omega)]
    simp only [if_true, hsext]

/-- Settles O7: with its checks passed, a load writes one register and counts its bytes. -/
theorem loadResult : Obligations.LoadResult := by
  intro s c q op rd rs1 imm ht hr qi x a ha hok hclean
  have hx : (s.took qi).queue qi = x := rfl
  have haddr : scalarAddr x rs1 imm = a := scalarAddr_eq x rs1 imm
  have hread : (s.took qi).readLe a op.bytes = ofLe (s.rawBytes a op.bytes) := by
    rw [State.readLe, State.readBytes_clean a _ (by rw [State.took_poisoned ht, hclean])]; rfl
  have hout : doLoad qi op rd rs1 imm (s.took qi) =
      advance qi (fun y => y.setG rd (loadValue op (ofLe (s.rawBytes a op.bytes))))
        ((s.took qi).countBytes (some ((s.took qi).queueDomain qi)) true a op.bytes) := by
    simp only [doLoad, hx, haddr, State.scalarTrap_took ht, State.scalarTrap_none ha hok, State.took_poisoned ht, hclean, hread,
      Bool.false_eq_true, if_false]
  have hcount := State.countBytes_eq (s := s.took qi) (some ((s.took qi).queueDomain qi)) true a op.bytes
  have hrow := scalarRow_runs (f := doLoad qi op rd rs1 imm) hr
  rw [hout] at hrow
  generalize (s.took qi).countBytes (some ((s.took qi).queueDomain qi)) true a op.bytes = w at hrow hcount
  have hwq : w.queues = s.queues := by rw [hcount]; rfl
  have hrising : SMap.rising w.queues = true := by rw [hwq]; exact State.tidy_queues ht
  have hwx : ∀ k, w.queue k = s.queue k := fun k => by rw [State.queue, hwq]; rfl
  have hq : (w.modQueue qi (fun y => { y.setG rd (loadValue op (ofLe (s.rawBytes a op.bytes))) with pc := y.pc + 8 })).queue qi =
      { x.setG rd (loadValue op (ofLe (s.rawBytes a op.bytes))) with pc := x.pc + 8 } := by
    rw [State.queue_modQueue hrising, hwx]
  refine ⟨_, hrow, ?_, fun k hk => ?_, ?_, fun r => ?_⟩
  · rw [hcount]; rfl
  · rw [State.queue_modQueue_ne hrising hk, hwx]
  · rw [hq, CoreQ.setG_eq]
  · rw [hq, ← loadValue_eq]; exact CoreQ.getG_setG (State.tidy_queue ht _).1 rd _ r

/-- Settles O8: with its checks passed, a store writes its bytes and counts them. -/
theorem storeResult : Obligations.StoreResult := by
  intro s c q op rs1 rs2 imm ht hr qi x a ha hok
  have hx : (s.took qi).queue qi = x := rfl
  have haddr : scalarAddr x rs1 imm = a := scalarAddr_eq x rs1 imm
  have hout : doStore qi op rs1 rs2 imm (s.took qi) =
      advance qi id (((s.took qi).writeLe a op.bytes (x.getG rs2).toNat).countBytes (some ((s.took qi).queueDomain qi)) false a op.bytes) := by
    simp only [doStore, hx, haddr, State.scalarTrap_took ht, State.scalarTrap_none ha hok]
  have hwrite := State.writeBytes_eq (s := s.took qi) a (leBytes op.bytes (x.getG rs2).toNat)
  have hwf : Memory.wf (s.took qi).mem = true := State.tidy_mem (s := s) ht
  have hbytes : ∀ b, b < a ∨ a + op.bytes ≤ b → ((s.took qi).writeLe a op.bytes (x.getG rs2).toNat).memByte b = s.memByte b :=
    fun b hb => State.memByte_writeLe_out hwf hb
  have hwritten : ∀ i, i < op.bytes → s.unreachable (a + i) = false →
      ((s.took qi).writeLe a op.bytes (x.getG rs2).toNat).memByte (a + i) = BitVec.ofNat 8 ((x.getG rs2).toNat / 256 ^ i) :=
    fun i hi hu => State.memByte_writeLe_in hwf hi (by rw [State.took_unreachable ht, hu])
  have hrow := scalarRow_runs (f := doStore qi op rs1 rs2 imm) hr
  rw [hout] at hrow
  change (s.took qi).writeLe a op.bytes (x.getG rs2).toNat = _ at hwrite
  generalize (s.took qi).writeLe a op.bytes (x.getG rs2).toNat = v at hrow hwrite hbytes hwritten
  have hcount := State.countBytes_eq (s := v) (some ((s.took qi).queueDomain qi)) false a op.bytes
  generalize v.countBytes (some ((s.took qi).queueDomain qi)) false a op.bytes = w at hrow hcount
  have hwq : w.queues = s.queues := by rw [hcount, hwrite]; rfl
  have hwm : ∀ b, w.memByte b = v.memByte b := fun b => by rw [hcount]; rfl
  have hrising : SMap.rising w.queues = true := by rw [hwq]; exact State.tidy_queues ht
  have hwx : ∀ k, w.queue k = s.queue k := fun k => by rw [State.queue, hwq]; rfl
  refine ⟨_, hrow, ?_, fun k hk => ?_, ?_, fun b hb => ?_, fun i hi hu => ?_⟩
  · rw [hcount, hwrite]; rfl
  · rw [State.queue_modQueue_ne hrising hk, hwx]
  · rw [State.queue_modQueue hrising, hwx]; rfl
  · exact (hwm b).trans (hbytes b hb)
  · exact (hwm _).trans (hwritten i hi hu)

/-! ### Branches, CALL, RET, END and TRAP (R212, R245, R251) -/

/-- R212: a branch sets the pc to its target where it is taken, and past its word where it is not. -/
theorem execBranch_sets (ht : s.tidy = true) (hr : s.runs c q 1) (op : BranchOp) (rs1 rs2 : Nat) (imm : Imm) :
    ∃ u : State, execBranch c q op rs1 rs2 imm s = .next (u.checkExhausted (8 * c + q)) ∧ scalarFrame s u (8 * c + q) ∧
      u.queue (8 * c + q) = { s.queue (8 * c + q) with
        pc := if op.apply ((s.queue (8 * c + q)).getG rs1) ((s.queue (8 * c + q)).getG rs2) then target (s.queue (8 * c + q)).pc imm
          else (s.queue (8 * c + q)).pc + 8 } :=
  scalarRow_rewrites (k := fun y => { y with pc := if op.apply (y.getG rs1) (y.getG rs2) then target y.pc imm else y.pc + 8 }) ht hr rfl
    (fun _ => rfl)

/-- R212: RET goes to the address on top of the return stack, and takes it off. -/
theorem execRet_pops (ht : s.tidy = true) (hr : s.runs c q 1) {r : Word} {rs : List Word}
    (hrs : (s.queue (8 * c + q)).rstack = r :: rs) :
    ∃ u : State, execRet c q s = .next (u.checkExhausted (8 * c + q)) ∧ scalarFrame s u (8 * c + q) ∧
      u.queue (8 * c + q) = { s.queue (8 * c + q) with rstack := rs, pc := r } :=
  scalarRow_rewrites (k := fun y => { y with rstack := rs, pc := r }) ht hr (by simp only [State.took_queue, hrs]) (fun _ => rfl)

/-- Settles O9: each sets the pc as its row says; END ends the submission, and TRAP stops the queue at itself. -/
theorem scalarControlResults : Obligations.ScalarControlResults := by
  intro s c q ht hr qi x dest
  have hdest : ∀ imm, dest imm = target x.pc imm := fun imm => (target_eq x.pc imm).symm
  refine ⟨fun op rs1 rs2 imm => ?branch, fun imm => ?jmp, fun imm hroom => ?call, fun r rs hrs => execRet_pops ht hr hrs, ?endSub,
    fun hlost imm => ?trap⟩
  case branch =>
    obtain ⟨u, hu, hframe, hq⟩ := execBranch_sets ht hr op rs1 rs2 imm
    refine ⟨u, hu, hframe, fun h => ?_, fun h => ?_⟩
    · rw [hq, if_pos ((BranchOp.apply_iff op _ _).mpr h), hdest]
    · rw [hq, if_neg (mt (BranchOp.apply_iff op _ _).mp h)]
  case jmp =>
    rw [hdest]
    exact scalarRow_rewrites (k := fun y => { y with pc := target y.pc imm }) ht hr rfl (fun _ => rfl)
  case call =>
    rw [hdest]
    exact scalarRow_rewrites (k := fun y => { y with rstack := (y.pc + 8) :: y.rstack, pc := target y.pc imm }) ht hr
      (if_neg (Nat.not_le.mpr hroom)) (fun _ => rfl)
  case endSub =>
    have hrow := scalarRow_runs (c := c) (q := q) (f := fun s => .done ((s.modQueue qi (fun x =>
      { x with pc := x.pc + 8, sub := x.sub.map (fun y => { y with ended := true }) })).checkEnd qi)) hr
    have hrising := State.took_rising ht qi
    exact ⟨_, hrow, rfl, fun k hk => State.queue_modQueue_ne hrising hk, State.queue_modQueue hrising⟩
  case trap =>
    have hrow := scalarRow_runs (c := c) (q := q) (f := fun _ => .trap trSoftware (specialNo imm)) hr
    have hrising := State.took_rising ht qi
    obtain ⟨b, hb⟩ := State.sub_of_canDispatch (State.canDispatch_of_turn hr.2.2.1)
    have hrec := RecordsOnly.trapQueue (qi := qi) (cause := trSoftware) (RecordsOnly.refl (s := s.took qi) (State.tidy_mem (s := s) ht) hrising)
      (by decide) (fun b hb => hlost b hb) (specialNo imm) x.pc
    exact ⟨_, hrow, State.trapQueue_trapsWith hrising hb (hlost b hb) _ _, hrec.others, hrec.tacks, hrec.regs, hrec.bytes⟩

/-! ### Traps (R212, R251, R309) -/

/-- R245: a word of the reserved classes and ops traps with ILLEGAL. -/
theorem execIllegal_traps (ht : s.tidy = true) (hr : s.runs c q 1)
    (hlost : ∀ b, (s.queue (8 * c + q)).sub = some b → (s.hostq b.hostq).underHandling = false) {w : Word}
    (hclass : w.toNat / 2 ^ 60 ≠ 15) (hdec : decodeScalar c q w.toNat = none) :
    ∃ t : State, exec (.illegalInstruction c q w) s = .next t ∧ trapsWith (s.queue (8 * c + q)) (t.queue (8 * c + q)) 1 0 := by
  obtain ⟨hc, hq, hturn, hfetch⟩ := hr
  obtain ⟨b, hb⟩ := State.sub_of_canDispatch (State.canDispatch_of_turn hturn)
  have hfld : fld w.toNat 63 60 ≠ 15 := by
    have hw := w.isLt
    rw [fld, Nat.shiftRight_eq_div_pow]; omega
  have hexec : exec (.illegalInstruction c q w) s = .next (doIllegal c q w s) := if_pos ⟨hc, hq⟩
  refine ⟨_, hexec, ?_⟩
  simp only [doIllegal, hturn, if_true, hfetch, if_neg hfld, hdec]
  exact State.trapQueue_trapsWith (State.took_rising ht _) hb (hlost b hb) _ _

/-- A load or store whose access fails its checks traps. -/
theorem doLoad_traps {qi t : Nat} {op : LoadOp} {rd rs1 : Nat} {imm : Imm}
    (h : s.scalarTrap qi (scalarAddr (s.queue qi) rs1 imm) op.bytes = some t) : doLoad qi op rd rs1 imm s = .trap t 0 := by
  simp only [doLoad, h]

theorem doStore_traps {qi t : Nat} {op : StoreOp} {rs1 rs2 : Nat} {imm : Imm}
    (h : s.scalarTrap qi (scalarAddr (s.queue qi) rs1 imm) op.bytes = some t) : doStore qi op rs1 rs2 imm s = .trap t 0 := by
  simp only [doStore, h]

/-- R309: a load of poison traps with CONTAINED. -/
theorem doLoad_poisoned {qi : Nat} {op : LoadOp} {rd rs1 : Nat} {imm : Imm}
    (h : s.scalarTrap qi (scalarAddr (s.queue qi) rs1 imm) op.bytes = none)
    (hp : s.poisoned (scalarAddr (s.queue qi) rs1 imm) op.bytes = true) : doLoad qi op rd rs1 imm s = .trap trContained 0 := by
  simp only [doLoad, h, hp, if_true]

/-- Settles O11: each cause of R251 stops the queue before its word. -/
theorem scalarTraps : Obligations.ScalarTraps := by
  intro s c q ht hr qi x hlost
  have hx : (s.took qi).queue qi = x := rfl
  refine ⟨fun w hclass hdec => execIllegal_traps ht hr hlost hclass hdec, ?load, ?store, fun imm hfull => ?call, fun hempty => ?ret⟩
  case load =>
    intro op rd rs1 imm a traps ok
    exact ⟨fun ha => scalarRow_traps ht hr hlost (doLoad_traps ((State.scalarTrap_took ht ..).trans (State.scalarTrap_misaligned ha))),
      fun ha hok => scalarRow_traps ht hr hlost (doLoad_traps ((State.scalarTrap_took ht ..).trans (State.scalarTrap_address ha hok))),
      fun ha hok hpoison => scalarRow_traps ht hr hlost (doLoad_poisoned ((State.scalarTrap_took ht ..).trans (State.scalarTrap_none ha hok))
        ((State.took_poisoned ht ..).trans hpoison))⟩
  case store =>
    intro op rs1 rs2 imm a traps
    exact ⟨fun ha => scalarRow_traps ht hr hlost (doStore_traps ((State.scalarTrap_took ht ..).trans (State.scalarTrap_misaligned ha))),
      fun ha hok => scalarRow_traps ht hr hlost (doStore_traps ((State.scalarTrap_took ht ..).trans (State.scalarTrap_address ha hok)))⟩
  case call => exact scalarRow_traps ht hr hlost (if_pos hfull)
  case ret => exact scalarRow_traps ht hr hlost (by simp only [State.took_queue]; rw [hempty]; rfl)

end Sys2Proof.Machine
end

section
/-! SUPPORT. A served host access, as an outcome (R417, R429). -/

namespace Sys2Proof.Machine

variable {s : State} {p : HostPort}

/-- An offset outside the registers that the management controller serves. -/
theorem managed_eq_false {off : Nat} (h : off < 0x00100000 ∨ 0x01000000 ≤ off) : managed off = false := by
  simp only [managed, Bool.and_eq_false_iff, decide_eq_false_iff_not]; omega

/-- A served write of a register that is not the management controller's gives what its effect leaves. -/
theorem gives_of_hostWrite (h : s.serves p) {off : Nat} (hoff : off < 0x00100000 ∨ (0x01000000 ≤ off ∧ off < 0x04000000)) {i c : Instr}
    {f : State → State} {P : State → Prop} (hexec : exec i s = .next (s.hostWrite p off c f)) (hP : P (f (s.undrain p))) : gives i s P := by
  have hm := managed_eq_false (off := off) (by omega)
  rw [State.hostWrite_served h (by omega) (fun hm' => absurd hm' (by simp [hm]))] at hexec
  exact ⟨_, hexec, hP⟩

/-- A served read of a register that is not the management controller's answers its value. -/
theorem gives_of_hostRead (h : s.serves p) {off : Nat} (hoff : off < 0x00100000 ∨ (0x01000000 ≤ off ∧ off < 0x04000000)) {i c : Instr} {n : Nat}
    {f : State → Nat × State} {P : State → Prop} (hexec : exec i s = .next (s.hostRead p off n c f))
    (hP : P ((f (s.undrain p)).2.answer p (f (s.undrain p)).1)) : gives i s P := by
  have hm := managed_eq_false (off := off) (by omega)
  rw [State.hostRead_served h (by omega) (fun hm' => absurd hm' (by simp [hm]))] at hexec
  exact ⟨_, hexec, hP⟩

@[simp] theorem State.undrain_queue (s : State) (p : HostPort) (k : Nat) : (s.undrain p).queue k = s.queue k := by
  simp only [State.queue, State.undrain_queues]
@[simp] theorem State.undrain_hostq (s : State) (p : HostPort) (k : Nat) : (s.undrain p).hostq k = s.hostq k := by
  simp only [State.hostq, State.undrain_hostqs]
@[simp] theorem State.undrain_tack (s : State) (p : HostPort) (k : Nat) : (s.undrain p).tack k = s.tack k := by
  simp only [State.tack, State.undrain_tacks]
@[simp] theorem State.undrain_scope (s : State) (p : HostPort) (k : Nat) : (s.undrain p).scope k = s.scope k := by
  simp only [State.scope, State.undrain_scopes]
@[simp] theorem State.undrain_reg (s : State) (p : HostPort) (k : Nat) : (s.undrain p).reg k = s.reg k := by
  simp only [State.reg, State.undrain_regs]
@[simp] theorem State.undrain_isSteward (s : State) (p q : HostPort) : (s.undrain p).isSteward q = s.isSteward q := by
  simp only [State.isSteward, State.undrain_roles]

end Sys2Proof.Machine
end

section
/-! CERTIFICATE. The registers of a host queue (R249, R250). -/

namespace Sys2Proof.Machine

variable {s : State} {p : HostPort} {n v : Nat}

theorem exec_hostQdoorbell (hn : n < 64) : exec (.hostQdoorbell p n v) s = .next (doDoorbell p n v s) := if_pos hn
theorem exec_hostQcfgWrite (hn : n < 64) : exec (.hostQcfgWrite p n v) s = .next (doQcfg p n v s) := if_pos hn
theorem exec_hostQcheadWrite (hn : n < 64) : exec (.hostQcheadWrite p n v) s = .next (doQchead p n v s) := if_pos hn

/-! ### A queue that stops while a record of it waits for room -/

/-- A module in service: powered and ready, both links up, port A the steward. -/
def inService : State :=
  { State.reset with
    power := { standby := true, pwrEn := true, pwrGood := true }, bring := { state := 1, stage := 10 },
    ha := { linkUp := true, perst := false }, hb := { linkUp := true, perst := false }, roles := { assigned := true, steward := some .ha } }

/-- Host queue 0 of port A is enabled and runs nothing; core queue 0, which served it last, still holds its end record, for which the ring of
one entry has no room. -/
def recordWaits : State :=
  { inService with
    hostqs := [(0, { enable := true })]
    queues := [(0, { lastHq := 1, recs := [{ bytes := [], isEnd := true, irq := false }] })] }

/-- Refutes O12: HOST_QCFG without enable leaves a queue that runs nothing enabled, and stopping, while a record of it waits for room in its
ring; the statement's third clause says that it is disabled at once. -/
theorem not_hostQueueRegisters : ¬ Obligations.HostQueueRegisters := by
  intro h
  have hserves : recordWaits.serves .ha := ⟨rfl, rfl, rfl, rfl, rfl, .inl rfl⟩
  have hidle : ∀ e ∈ recordWaits.queues, ∀ b, e.2.sub = some b → b.hostq ≠ 0 := by
    intro e he b hb
    obtain rfl := List.mem_singleton.mp he
    cases hb
  obtain ⟨-, -, hdisable, -⟩ := h recordWaits .ha 0 0 (by decide) (by decide) hserves
  obtain ⟨t, hexec, -, -, hq⟩ := hdisable rfl hidle (by decide) (by decide) (by decide)
  have hstays : ∀ u, exec (.hostQcfgWrite .ha 0 0) recordWaits = .next u → (u.hostq 0).enable = true := by
    intro u hu
    obtain rfl := Host.Outcome.next.inj ((exec_hostQcfgWrite (by decide)).symm.trans hu)
    decide +kernel
  have hnot := congrArg HostQ.enable hq
  exact absurd ((hstays t hexec).symm.trans hnot) (by decide)

end Sys2Proof.Machine
end

section
/-! CERTIFICATE. Every step keeps the data invariant (95): the invariant says nothing of the registers that a command's checkpoint holds, and
those become a queue's own when its core is fenced (R471). -/

namespace Sys2Proof.Machine

/-- Core queue 0 holds a command whose checkpoint has its general registers out of order, and the steward fences core 0. -/
def untidyCheckpoint : State :=
  { inService with
    queues := [(0, { cseq := 1, inflight := [{ cseq := 1, ck := { g := [(2, 7), (1, 7)] } }] })]
    pending := [.fence .ha 0] }

theorem untidyCheckpoint_tidy : untidyCheckpoint.tidy = true := by decide +kernel

/-- Whether the next state of `s` meets the invariant of the data. -/
def stepTidy (s : State) : Bool :=
  match step s with
  | .next t => t.tidy
  | _ => true

theorem untidyCheckpoint_step : stepTidy untidyCheckpoint = false := by decide +kernel

/-- Refutes O4: FENCE moves queue 0 to another core and restores it from the checkpoint of its first command, whose registers the invariant
lets stand in any order. -/
theorem not_tidyKept : ¬ Obligations.TidyKept := by
  rintro ⟨-, hkeeps⟩
  have hstep := untidyCheckpoint_step
  unfold stepTidy at hstep
  split at hstep
  · next t ht => exact absurd ((hkeeps _ t untidyCheckpoint_tidy ht).symm.trans hstep) (by decide)
  · exact absurd hstep (by decide)

end Sys2Proof.Machine
end

section
/-! SUPPORT. Writing one unit twice, the low bits of a register word, and what leaves the queues alone. -/

namespace Sys2Proof.Machine

variable {s t : State} {qi : Nat}

/-! ### A key set twice -/

theorem SMap.set_below {α : Type} [DecidableEq α] {d v : α} {m : SMap α} {k : Nat} (h : SMap.risingFrom (k + 1) m = true) :
    SMap.set d m k v = SMap.cons d k v m := by
  cases m with
  | nil => rfl
  | cons e m =>
    obtain ⟨j, w⟩ := e
    simp only [SMap.risingFrom, Bool.and_eq_true, decide_eq_true_eq] at h
    rw [SMap.set, if_pos (by omega)]

theorem SMap.set_cons_same {α : Type} [DecidableEq α] {d v v' : α} {m : SMap α} {k : Nat} (h : SMap.risingFrom (k + 1) m = true) :
    SMap.set d (SMap.cons d k v m) k v' = SMap.cons d k v' m := by
  unfold SMap.cons
  split
  · exact SMap.set_below h
  · rw [SMap.set, if_neg (Nat.lt_irrefl k), if_pos rfl]; rfl

/-- A key set twice holds what was set last, and nothing of the first. -/
theorem SMap.set_set {α : Type} [DecidableEq α] {d v v' : α} {m : SMap α} {k : Nat} (h : SMap.rising m = true) :
    SMap.set d (SMap.set d m k v) k v' = SMap.set d m k v' := by
  suffices ∀ lo, SMap.risingFrom lo m = true → SMap.set d (SMap.set d m k v) k v' = SMap.set d m k v' from this 0 h
  clear h
  induction m with
  | nil => intro _ _; exact SMap.set_cons_same rfl
  | cons e m ih =>
    obtain ⟨j, w⟩ := e
    intro lo h
    simp only [SMap.risingFrom, Bool.and_eq_true, decide_eq_true_eq] at h
    rcases Nat.lt_trichotomy k j with hk | hk | hk
    · have hcons : SMap.risingFrom (k + 1) ((j, w) :: m) = true := by simp [SMap.risingFrom, h.2]; omega
      simp only [SMap.set_below hcons, SMap.set_cons_same hcons]
    · subst hk
      simp only [SMap.set, Nat.lt_irrefl, if_false, if_true]
      exact SMap.set_cons_same h.2
    · have h1 : ¬k < j := by omega
      have h2 : k ≠ j := by omega
      simp only [SMap.set, h1, h2, if_false]; rw [ih _ h.2]

theorem State.setQueue_setQueue (h : SMap.rising s.queues = true) (i : Nat) (x y : CoreQ) : (s.setQueue i x).setQueue i y = s.setQueue i y := by
  simp only [State.setQueue, SMap.set_set h]

theorem State.modQueue_setQueue (h : SMap.rising s.queues = true) (i : Nat) (x : CoreQ) (f : CoreQ → CoreQ) :
    (s.setQueue i x).modQueue i f = s.setQueue i (f x) := by
  rw [State.modQueue, State.queue_setQueue h, State.setQueue_setQueue h]

/-! ### The action bits of CORE_QCTL (R256) -/

theorem fld_setFld_action {v a : Nat} (ha : a < 4) : fld (setFld v 1 0 a) 1 0 = a := by
  simp only [fld, setFld, put, Nat.shiftRight_zero, Nat.shiftLeft_zero]; omega

theorem bit_setFld_action {v a : Nat} : bit (setFld v 1 0 a) 31 = bit v 31 := by
  have h : ∀ w : Nat, w >>> 31 = w / 2 ^ 31 := fun w => Nat.shiftRight_eq_div_pow w 31
  simp only [bit, fld, setFld, put, Nat.shiftRight_zero, Nat.shiftLeft_zero, h]
  congr 1
  omega

/-! ### What leaves the core queues, and what changes no more than the commands they hold -/

@[simp] theorem State.raiseEvent_queues (s : State) (c p : Nat) : (s.raiseEvent c p).queues = s.queues :=
  State.queues_of_eventless (State.eventless_raiseEvent s c p)

@[simp] theorem State.chalkEnd_queues (s : State) (a b c d e f : Nat) : (s.chalkEnd a b c d e f).queues = s.queues :=
  (State.queues_of_errorless (State.errorless_chalkEnd s a b c d e f)).1

@[simp] theorem State.chalkBegin_queues (s : State) (a b c d e : Nat) : (s.chalkBegin a b c d e).queues = s.queues :=
  (State.queues_of_errorless (State.errorless_chalkBegin s a b c d e)).1

@[simp] theorem State.lostDone_queues (s : State) (p : HostPort) : (s.lostDone p).queues = s.queues := by
  simp only [State.lostDone]; split
  · rw [State.raiseEvent_queues, State.setPort_queues]
  · rfl

@[simp] theorem State.settle_queues (s : State) (hq : Nat) : (s.settle hq).queues = s.queues := by
  rw [State.settle, State.lostDone_queues]; rfl

@[simp] theorem State.discardLater_queues (s : State) (hq e : Nat) : (s.discardLater hq e).queues = s.queues := rfl

@[simp] theorem State.settleStop_queues (s : State) (hq : Nat) : (s.settleStop hq).queues = s.queues := by
  simp only [State.settleStop]; split <;> rfl

@[simp] theorem State.lostStep_queues (s : State) (hq e : Nat) : (s.lostStep hq e).queues = s.queues := by
  simp only [State.lostStep]
  split
  · split
    · rfl
    · split
      · rw [State.settle_queues]; rfl
      · split
        · exact State.settle_queues ..
        · split
          · rw [State.settle_queues]; rfl
          · rfl
  · rfl

/-- From `s` to `t`, every core queue is the same but for the commands that it holds. -/
structure HoldsOther (s t : State) : Prop where
  rising : SMap.rising t.queues = true
  queue : ∀ k, ∃ l, t.queue k = { s.queue k with inflight := l }

theorem HoldsOther.refl (h : SMap.rising s.queues = true) : HoldsOther s s := ⟨h, fun _ => ⟨_, rfl⟩⟩

theorem HoldsOther.of_queues (h : HoldsOther s t) {u : State} (hu : u.queues = t.queues) : HoldsOther s u :=
  ⟨hu ▸ h.rising, fun k => by rw [State.queue, hu]; exact h.queue k⟩

theorem HoldsOther.modWide (h : HoldsOther s t) (qi cseq : Nat) (f : Wide → Wide) : HoldsOther s (t.modWide qi cseq f) := by
  refine ⟨SMap.rising_set h.rising, fun k => ?_⟩
  obtain ⟨l, hl⟩ := h.queue k
  by_cases hk : k = qi
  · subst hk
    exact ⟨_, by rw [State.modWide, State.queue_modQueue h.rising, hl]⟩
  · exact ⟨l, by rw [State.modWide, State.queue_modQueue_ne h.rising hk, hl]⟩

theorem HoldsOther.unwaitAll (h : HoldsOther s t) (qi cseq : Nat) : HoldsOther s (t.unwaitAll qi cseq) := by
  refine ⟨SMap.rising_mapVals h.rising, fun k => ?_⟩
  obtain ⟨l, hl⟩ := h.queue k
  have hk : (t.unwaitAll qi cseq).queue k = { t.queue k with inflight := (t.queue k).inflight.map (fun w => w.unwait qi cseq) } :=
    SMap.get_mapVals h.rising (fun _ => rfl)
  exact ⟨_, by rw [hk, hl]⟩

/-- R238: the end record of a command changes no more of the queues than the command. -/
theorem HoldsOther.endRecord (h : HoldsOther s t) (qi : Nat) (w : Wide) (trapped : Bool) : HoldsOther s (t.endRecord qi w trapped) := by
  simp only [State.endRecord]
  split
  · exact h
  · exact (h.modWide qi w.cseq _).of_queues (State.chalkEnd_queues ..)

/-- R253: giving up a queue's work changes no more of the queues than the commands they hold. -/
theorem HoldsOther.dropWork (h : HoldsOther s t) (qi : Nat) : HoldsOther s (t.dropWork qi) := by
  simp only [State.dropWork]
  split
  · exact h
  · generalize (t.queue qi).inflight = gone
    have hfold : ∀ (gone : List Wide) (u : State), HoldsOther s u → HoldsOther s (gone.foldl (fun s w => s.unwaitAll qi w.cseq) u) := by
      intro gone
      induction gone with
      | nil => exact fun _ hu => hu
      | cons w gone ih => exact fun u hu => ih _ (hu.unwaitAll qi w.cseq)
    exact hfold gone _ (h.of_queues rfl)

theorem State.drainRecsN_rising (h : SMap.rising s.queues = true) (qi hq n : Nat) : SMap.rising (s.drainRecsN qi hq n).queues = true := by
  induction n generalizing s with
  | zero => exact h
  | succ n ih =>
    simp only [State.drainRecsN]
    split
    · exact h
    · split
      · exact ih (by rw [State.writeRec_queues]; exact SMap.rising_set h)
      · exact h

theorem State.pushRec_rising (h : SMap.rising s.queues = true) (qi hq : Nat) (r : PendingRec) :
    SMap.rising (s.pushRec qi hq r).queues = true := State.drainRecsN_rising (SMap.rising_set h) qi hq _

/-- R474: going home changes no more of a queue than where it is served. -/
theorem State.returnHome_queue (h : SMap.rising s.queues = true) (qi : Nat) :
    ∃ m, (s.returnHome qi).queue qi = { s.queue qi with movedTo := m } := by
  simp only [State.returnHome]
  split
  · exact ⟨0, State.queue_modQueue (s := s.modCore _ _) h⟩
  · exact ⟨_, rfl⟩

/-- R247: the end of its submission leaves a queue with none, with no command, no return stack and no trap. -/
theorem State.endSubmission_queue (h : SMap.rising s.queues = true) {b : Submission} (hb : (s.queue qi).sub = some b) (status : Nat) :
    ∃ rs m, (s.endSubmission qi status).queue qi =
      { s.queue qi with sub := none, lastHq := b.hostq + 1, rstack := [], inflight := [], trap := none, recs := rs, movedTo := m } := by
  simp only [State.endSubmission, hb]
  generalize ({ bytes := _, isEnd := true, irq := b.irq } : PendingRec) = r
  generalize hu : s.setQueue qi _ = u
  have hur : SMap.rising u.queues = true := hu ▸ SMap.rising_set h
  have hux : u.queue qi = { s.queue qi with sub := none, lastHq := b.hostq + 1, rstack := [], inflight := [], trap := none } := by
    rw [← hu, State.queue_setQueue h]
  obtain ⟨rs, hrs⟩ := State.pushRec_queue hur qi b.hostq r
  have hqs : (((u.pushRec qi b.hostq r).settleStop b.hostq).lostStep b.hostq 0).queues = (u.pushRec qi b.hostq r).queues := by
    rw [State.lostStep_queues, State.settleStop_queues]
  obtain ⟨m, hm⟩ := State.returnHome_queue (hqs ▸ State.pushRec_rising hur qi b.hostq r) qi
  refine ⟨rs, m, ?_⟩
  rw [hm, State.queue, hqs]
  change { (u.pushRec qi b.hostq r).queue qi with movedTo := m } = _
  rw [hrs, hux]

end Sys2Proof.Machine
end

section
/-! CERTIFICATE. RETRY, SKIP and ABORT of a trapped queue (R253, R256). -/

namespace Sys2Proof.Machine

variable {s : State} {p : HostPort} {c q qi v : Nat}

theorem exec_retry (hc : c < 24) (hq : q < 8) : exec (.retry p c q v) s = .next (doQctl 1 p c q v (.retry p c q v) s) := if_pos ⟨hc, hq⟩
theorem exec_skip (hc : c < 24) (hq : q < 8) : exec (.skip p c q v) s = .next (doQctl 2 p c q v (.skip p c q v) s) := if_pos ⟨hc, hq⟩
theorem exec_abort (hc : c < 24) (hq : q < 8) : exec (.abort p c q v) s = .next (doQctl 3 p c q v (.abort p c q v) s) := if_pos ⟨hc, hq⟩

theorem offQctl_range (hc : c < 24) (hq : q < 8) : offQctl c q < 0x00100000 ∨ (0x01000000 ≤ offQctl c q ∧ offQctl c q < 0x04000000) := by
  simp only [offQctl, coreReg]; omega

/-- What CORE_QCTL does for an action. -/
def State.act (s : State) (qi a : Nat) : State := if a = 1 then s.retry qi else if a = 2 then s.skip qi else s.abort qi

/-- R256: an action on a trapped queue, by a port that may resume it, is taken with trap_on_status written. -/
theorem State.qctl_acts {a : Nat} (ha : a < 4) (ha0 : a ≠ 0) (hv : v < 2 ^ 32) (htrap : (s.queue qi).trapped = true)
    (hmay : s.mayResume p qi = true) :
    s.qctl p qi (setFld (v % 2 ^ 32) 1 0 a) = (s.setQueue qi { s.queue qi with trapOnStatus := bit v 31 }).act qi a := by
  have hne : (a != 0) = true := bne_iff_ne.mpr ha0
  simp only [State.qctl, Nat.mod_eq_of_lt hv, fld_setFld_action ha, bit_setFld_action, htrap, hmay, hne, Bool.true_or, Bool.true_and,
    Bool.not_true, Bool.and_false, Bool.false_eq_true, if_false]
  rfl

/-- The marks of accesses at a port say nothing of who may resume a queue. -/
theorem State.mayResume_undrain (s : State) (p : HostPort) (qi : Nat) : (s.undrain p).mayResume p qi = s.mayResume p qi := by
  simp only [State.mayResume, State.undrain_isSteward, State.undrain_queue, State.undrain_hostq]

/-! ### RETRY and SKIP -/

section resolution

variable {x : CoreQ} (h : SMap.rising s.queues = true)

include h

theorem State.retry_scalar (hw : x.heldWide = none) : (s.setQueue qi x).retry qi = s.setQueue qi { x with trap := none } := by
  simp only [State.retry, State.queue_setQueue h, State.setQueue_setQueue h, hw]

theorem State.retry_wide {w : Wide} (hw : x.heldWide = some w) :
    (s.setQueue qi x).retry qi =
      let z := s.setQueue qi { x with trap := none }
      ((z.modWide qi w.cseq (fun _ => z.freshWide qi w)).afterDispatch qi (z.freshWide qi w) (z.heldShort qi w)).rearm qi := by
  simp only [State.retry, State.queue_setQueue h, State.setQueue_setQueue h, hw]

theorem State.skip_scalar {r : Trap} (hw : x.heldWide = none) (hr : x.trap = some r) :
    (s.setQueue qi x).skip qi = (s.setQueue qi { x with trap := none, pc := r.pc + 8 }).checkExhausted qi := by
  simp only [State.skip, State.queue_setQueue h, State.setQueue_setQueue h, hw, hr]

end resolution

/-- A command checked again keeps its number and its words. -/
theorem State.freshWide_same (s : State) (qi : Nat) (w : Wide) :
    (s.freshWide qi w).cseq = w.cseq ∧ (s.freshWide qi w).w = w.w ∧ (s.freshWide qi w).stage = .dispatched ∧ (s.freshWide qi w).held = none := by
  simp only [State.freshWide]
  split
  · exact ⟨rfl, rfl, rfl, rfl⟩
  · split <;> exact ⟨rfl, rfl, rfl, rfl⟩

/-- R253: a held command that SKIP passes: complete, with the status it holds. -/
def Wide.passedOver (w : Wide) : Wide :=
  { w with held := none, stage := .complete, status := w.heldStatus, skipped := true, failedCheck := w.failedCheck || w.stage == .dispatched }

/-- R253: SKIP of a held command at the head of the queue retires it once its record has room. -/
theorem State.skip_head {x : CoreQ} (h : SMap.rising s.queues = true) {w : Wide} {rest : List Wide} {b : Submission}
    (hx : x.inflight = w :: rest) (hheld : w.held ≠ none) (hrest : ∀ e ∈ rest, e.held = none ∧ e.cseq ≠ w.cseq) (hcseq : w.cseq ≤ x.cseq)
    (hsub : x.sub = some b) (hstopped : x.stopped = false) :
    (s.setQueue qi x).skip qi =
      let z := s.setQueue qi { x with trap := none, inflight := w.passedOver :: rest }
      (if z.recRoom qi then z.retire qi w.passedOver else z).checkExhausted qi := by
  have hw : x.heldWide = some w := by
    rw [CoreQ.heldWide, hx]; exact List.find?_cons_of_pos (Option.isSome_iff_ne_none.mpr hheld)
  have hnone : CoreQ.heldWide { x with trap := none, inflight := w.passedOver :: rest } = none := by
    refine List.find?_eq_none.mpr fun e he => ?_
    rcases List.mem_cons.mp he with rfl | he
    · exact Bool.false_ne_true
    · rw [(hrest e he).1]; exact Bool.false_ne_true
  have hmap : x.inflight.map (fun e => if e.cseq = w.cseq then w.passedOver else e) = w.passedOver :: rest := by
    have hid : rest.map (fun e => if e.cseq = w.cseq then w.passedOver else e) = rest.map id :=
      List.map_congr_left fun e he => if_neg (hrest e he).2
    rw [hx, List.map_cons, if_pos rfl, hid, List.map_id]
  have hstep : (s.setQueue qi x).skip qi =
      (State.retireHead (State.rearm (s.setQueue qi { x with trap := none, inflight := w.passedOver :: rest }) qi) qi).checkExhausted qi := by
    rw [State.skip]
    simp only [State.queue_setQueue h, hw, State.setQueue_setQueue h]
    rw [← hmap]; rfl
  have hrearm : State.rearm (s.setQueue qi { x with trap := none, inflight := w.passedOver :: rest }) qi =
      s.setQueue qi { x with trap := none, inflight := w.passedOver :: rest } := by
    simp only [State.rearm, State.queue_setQueue h, hnone]
  rw [hstep, hrearm]
  have hzq := State.queue_setQueue (i := qi) (x := { x with trap := none, inflight := w.passedOver :: rest }) h
  generalize s.setQueue qi { x with trap := none, inflight := w.passedOver :: rest } = z at hzq
  have hpass : w.passedOver.stage = .complete ∧ w.passedOver.held = none ∧ w.passedOver.skipped = true ∧ w.passedOver.cseq = w.cseq :=
    ⟨rfl, rfl, rfl, rfl⟩
  obtain ⟨h1, h2, h3, h4⟩ := hpass
  congr 1
  simp only [State.retireHead, hzq, List.head?_cons, hsub, hstopped, h1, h2, h3, h4, Nat.not_lt.mpr hcseq, bne_self_eq_false,
    Option.isSome_none, Bool.or_self, decide_false, Bool.not_true, Bool.and_false, Bool.false_eq_true, if_false]
  cases z.recRoom qi <;> rfl

/-- Whether a record of a queue has room does not depend on its trap and commands. -/
theorem State.recRoom_setQueue {x : CoreQ} (h : SMap.rising s.queues = true) (hr : x.recs = (s.queue qi).recs) (hs : x.sub = (s.queue qi).sub) :
    (s.setQueue qi x).recRoom qi = s.recRoom qi := by
  simp only [State.recRoom, State.queue_setQueue h, hr, hs]; rfl

/-! ### ABORT -/

/-- R253: ABORT ends the submission: the queue has none, no trap and no command, and its registers stand. -/
theorem State.abort_queue (h : SMap.rising s.queues = true) {b : Submission} (hb : (s.queue qi).sub = some b) :
    ((s.abort qi).queue qi).sub = none ∧ ((s.abort qi).queue qi).trap = none ∧ ((s.abort qi).queue qi).inflight = [] ∧
      ((s.abort qi).queue qi).stopped = false ∧ ((s.abort qi).queue qi).g = (s.queue qi).g ∧
      ((s.abort qi).queue qi).trapOnStatus = (s.queue qi).trapOnStatus := by
  simp only [State.abort]
  generalize hu : State.dropWork _ qi = u
  have hheld : HoldsOther s u := by
    rw [← hu]
    refine HoldsOther.dropWork ?_ qi
    split
    · exact (HoldsOther.refl h).endRecord qi _ true
    · exact HoldsOther.refl h
  obtain ⟨l, hl⟩ := hheld.queue qi
  generalize hz : u.modQueue qi _ = z
  have hzq : z.queue qi = { s.queue qi with inflight := [], trap := none, stopped := false } := by
    rw [← hz, State.queue_modQueue hheld.rising, hl]
  obtain ⟨rs, m, hend⟩ := State.endSubmission_queue (s := z) (hz ▸ SMap.rising_set hheld.rising) (b := b) (by rw [hzq]; exact hb) _
  rw [hend, hzq]
  exact ⟨rfl, rfl, rfl, rfl, rfl, rfl⟩

/-- Settles O13: each action acts on the queue with trap_on_status written. -/
theorem trapResolution : Obligations.TrapResolution := by
  intro s p c q v ht hc hq hs hv qi x u htrap hmay y
  have hur : SMap.rising u.queues = true := by rw [State.undrain_queues]; exact State.tidy_queues ht
  have hux : ∀ k, u.queue k = s.queue k := State.undrain_queue s p
  have hleft : ∀ z, (u.setQueue qi z) = { u with queues := (u.setQueue qi z).queues } ∧ (u.setQueue qi z).queue qi = z ∧
      ∀ k, k ≠ qi → (u.setQueue qi z).queue k = s.queue k :=
    fun z => ⟨rfl, State.queue_setQueue hur, fun k hk => by rw [State.queue_setQueue_ne hur hk, hux]⟩
  -- Each access is served, and acts on the queue with trap_on_status written.
  have hact : ∀ a, a < 4 → a ≠ 0 → u.qctl p qi (setFld (v % 2 ^ 32) 1 0 a) = (u.setQueue qi { x with trapOnStatus := bit v 31 }).act qi a := by
    intro a ha ha0
    rw [State.qctl_acts ha ha0 hv (by rw [hux]; exact htrap) (by rw [State.mayResume_undrain]; exact hmay), hux]
  have hretry : ∀ P : State → Prop, P ((u.setQueue qi { x with trapOnStatus := bit v 31 }).retry qi) → gives (.retry p c q v) s P := by
    intro P hP
    exact gives_of_hostWrite hs (offQctl_range hc hq) (exec_retry hc hq) (by rw [hact 1 (by decide) (by decide)]; exact hP)
  have hskip : ∀ P : State → Prop, P ((u.setQueue qi { x with trapOnStatus := bit v 31 }).skip qi) → gives (.skip p c q v) s P := by
    intro P hP
    exact gives_of_hostWrite hs (offQctl_range hc hq) (exec_skip hc hq) (by rw [hact 2 (by decide) (by decide)]; exact hP)
  have hstopped : x.stopped = false := by
    simp only [CoreQ.trapped, Bool.and_eq_true, Bool.not_eq_true'] at htrap; exact htrap.1
  refine ⟨fun hw => hretry _ ?_, fun w hw => hretry _ ?_, fun r hw hr => hskip _ ?_, fun w rest b hx hheld hrest hcseq hsub => ?_,
    fun b hb => ?_⟩
  · rw [State.retry_scalar (x := { x with trapOnStatus := bit v 31 }) hur hw]; exact hleft _
  · rw [State.retry_wide (x := { x with trapOnStatus := bit v 31 }) hur hw]; exact ⟨rfl, State.freshWide_same ..⟩
  · rw [State.skip_scalar (x := { x with trapOnStatus := bit v 31 }) hur hw hr]
    exact ⟨_, rfl, hleft _⟩
  · intro w' z
    have hw' : w' = w.passedOver := by
      have hstatus : (if w.held = some 6 then w.status else 5) = w.heldStatus := by
        cases hh : w.held with
        | none => exact absurd hh hheld
        | some k => simp [Wide.heldStatus, trapStatus, hh, trStatus, stContained]
      simp only [w', Wide.passedOver, hstatus]
    have hroom : z.recRoom qi = s.recRoom qi := by
      rw [State.recRoom_setQueue hur (by rw [hux]) (by rw [hux])]
      simp only [State.recRoom, hux]; simp [u]
    have hgives := hskip (fun t => t = (if z.recRoom qi then z.retire qi w' else z).checkExhausted qi) (by
      rw [State.skip_head (x := { x with trapOnStatus := bit v 31 }) hur hx hheld hrest hcseq hsub hstopped, ← hw'])
    rw [hroom] at hgives
    exact ⟨fun hr => by rwa [hr] at hgives, fun hr => by rwa [hr] at hgives⟩
  · refine gives_of_hostWrite hs (offQctl_range hc hq) (exec_abort hc hq) ?_
    rw [hact 3 (by decide) (by decide)]
    have hset := State.queue_setQueue (i := qi) (x := { x with trapOnStatus := bit v 31 }) hur
    have habort := State.abort_queue (SMap.rising_set hur) (s := u.setQueue qi { x with trapOnStatus := bit v 31 }) (b := b)
      (by rw [hset]; exact hb)
    rw [hset] at habort
    exact habort

end Sys2Proof.Machine
end

section
/-! CERTIFICATE. What hosts do to tacks (R258, R260, R272), and the timeout of a WAIT (R262). -/

namespace Sys2Proof.Machine

variable {s u : State} {p : HostPort} {n v : Nat}

/-! ### Completing commands changes the core queues alone -/

theorem State.complete_eq (s : State) (qi cseq status : Nat) :
    s.complete qi cseq status = { s with queues := (s.complete qi cseq status).queues } := rfl

/-- A walk that completes commands changes the core queues alone. -/
theorem State.foldl_complete_eq (f : Waiter → Nat) (l : List Waiter) (s : State) :
    ∃ qs, l.foldl (fun s x => s.complete x.queue x.cseq (f x)) s = { s with queues := qs } := by
  induction l generalizing s with
  | nil => exact ⟨_, rfl⟩
  | cons x l ih =>
    obtain ⟨qs, hqs⟩ := ih (s.complete x.queue x.cseq (f x))
    exact ⟨qs, by rw [List.foldl_cons, hqs]; rfl⟩

/-- From `s` to `t`, tack `n` becomes `x`, and no more changes than tacks and core queues. -/
def tackLeft (n : Nat) (x : Tack) (s t : State) : Prop :=
  t = { s with tacks := t.tacks, queues := t.queues } ∧ (∀ k, k ≠ n → t.tack k = s.tack k) ∧ t.tack n = x

theorem tackLeft_of_queues (h : SMap.rising s.tacks = true) (x : Tack) (qs : SMap CoreQ) :
    tackLeft n x s { s.setTack n x with queues := qs } :=
  ⟨rfl, fun _ hk => State.tack_setTack_ne h hk, State.tack_setTack h⟩

theorem tackLeft_setTack (h : SMap.rising s.tacks = true) {x y : Tack} (ht : tackLeft n y (s.setTack n x) u) : tackLeft n y s u := by
  obtain ⟨hu, hother, hn⟩ := ht
  exact ⟨hu, fun k hk => (hother k hk).trans (State.tack_setTack_ne h hk), hn⟩

/-- R260: the waiters whose condition the value meets leave, and their commands complete. -/
theorem State.wakeWaiters_left (h : SMap.rising s.tacks = true) (n : Nat) :
    tackLeft n { s.tack n with waiters := (s.tack n).waiters.filter (fun w => !w.met (s.tack n).value) } s (s.wakeWaiters n) := by
  simp only [State.wakeWaiters]
  obtain ⟨qs, hqs⟩ := State.foldl_complete_eq (fun _ => stOk) ((s.tack n).waiters.filter (fun x => x.met (s.tack n).value))
    (s.setTack n { s.tack n with waiters := (s.tack n).waiters.filter (fun w => !w.met (s.tack n).value) })
  rw [hqs]
  exact tackLeft_of_queues h _ qs

theorem State.tackSet_left (h : SMap.rising s.tacks = true) (n v : Nat) :
    tackLeft n { s.tack n with
      value := v % 2 ^ 32, arrivals := 0, arriveN := 0, mismatch := false, sourceLost := false,
      waiters := (s.tack n).waiters.filter (fun w => !w.met (v % 2 ^ 32)) } s (s.tackSet n v) := by
  have hwake := State.wakeWaiters_left (s := s.setTack n { s.tack n with
    value := v % 2 ^ 32, arrivals := 0, arriveN := 0, mismatch := false, sourceLost := false }) (SMap.rising_set h) n
  rw [State.tack_setTack h] at hwake
  exact tackLeft_setTack h hwake

theorem State.tackAdd_left (h : SMap.rising s.tacks = true) (n v : Nat) :
    tackLeft n { s.tack n with
      value := ((s.tack n).value + v) % 2 ^ 32,
      waiters := (s.tack n).waiters.filter (fun w => !w.met (((s.tack n).value + v) % 2 ^ 32)) } s (s.tackAdd n v) := by
  have hwake := State.wakeWaiters_left (s := s.setTack n { s.tack n with value := ((s.tack n).value + v) % 2 ^ 32 }) (SMap.rising_set h) n
  rw [State.tack_setTack h] at hwake
  exact tackLeft_setTack h hwake

/-- R272: a tack that loses its source lets every waiter go. -/
theorem State.enterSourceLost_left (h : SMap.rising s.tacks = true) (n : Nat) :
    tackLeft n { s.tack n with sourceLost := true, waiters := [] } s (s.enterSourceLost n) := by
  simp only [State.enterSourceLost]
  obtain ⟨qs, hqs⟩ := State.foldl_complete_eq (fun x => if x.met (s.tack n).value then stOk else stSourceLost) (s.tack n).waiters
    (s.setTack n { s.tack n with sourceLost := true, waiters := [] })
  rw [hqs]
  exact tackLeft_of_queues h _ qs

/-! ### The registers of tacks -/

theorem exec_hostTackSet (hn : n < 16384) : exec (.hostTackSet p n v) s = .next (doHostTack 0 p n v (.hostTackSet p n v) s) := if_pos hn
theorem exec_hostTackAdd (hn : n < 16384) : exec (.hostTackAdd p n v) s = .next (doHostTack 1 p n v (.hostTackAdd p n v) s) := if_pos hn
theorem exec_tckCfgWrite (hn : n < 16384) : exec (.tckCfgWrite p n v) s = .next (doTckCfg p n v s) := if_pos hn

/-- R258, R281: a binding with defined fields is taken as it is written. -/
theorem State.tckCfg_binds (hkind : fld v 62 61 ≠ 3) (hid : fld v 62 61 = 2 → fld v 60 55 = 0) :
    s.tckCfg p n v =
      let y : Tack := { s.tack n with remoteOk := bit v 63, srcKind := fld v 62 61, srcId := fld v 60 47, domain := fld v 46 41, sourceLost := false }
      if s.link.lost.any (s.boundTo y) then (s.setTack n y).enterSourceLost n else s.setTack n y := by
  have hres : tckIdReserved v = false := by
    cases h : tckIdReserved v with
    | false => rfl
    | true =>
      simp only [tckIdReserved, Bool.and_eq_true, beq_iff_eq, bne_iff_ne] at h
      exact absurd (hid h.1) h.2
  simp only [State.tckCfg, Tack.rebind, hres, hkind, Bool.false_eq_true, or_self, if_false]
  rfl

/-- Settles O14: each operation rewrites its tack, and only the commands of its waiters follow. -/
theorem hostTackOperations : Obligations.HostTackOperations := by
  intro s p n v ht hn hs u x
  have hu : SMap.rising u.tacks = true := by rw [State.undrain_tacks]; exact State.tidy_tacks ht
  have hux : ∀ k, u.tack k = s.tack k := State.undrain_tack s p
  refine ⟨?set, ?add, ?cfg⟩
  case set =>
    refine gives_of_hostWrite hs (.inr (by decide)) (exec_hostTackSet hn) ?_
    have hleft := State.tackSet_left hu n (v % 2 ^ 32)
    simp only [tackLeft, hux, Nat.mod_mod] at hleft
    exact hleft
  case add =>
    refine gives_of_hostWrite hs (.inr (by decide)) (exec_hostTackAdd hn) ?_
    have hleft := State.tackAdd_left hu n (v % 2 ^ 32)
    simp only [tackLeft, hux] at hleft
    exact hleft
  case cfg =>
    intro hkind hid y
    have hbound : u.link.lost.any (u.boundTo y) = s.link.lost.any (s.boundTo y) := by cases p <;> rfl
    have hcfg : u.tckCfg p n v = if s.link.lost.any (s.boundTo y) then (u.setTack n y).enterSourceLost n else u.setTack n y := by
      rw [State.tckCfg_binds hkind hid, ← hbound]; simp only [hux]; rfl
    refine ⟨fun hlost => ?_, fun hlost => ?_⟩ <;> refine gives_of_hostWrite hs (.inr (by omega)) (exec_tckCfgWrite hn) ?_ <;>
      rw [hcfg, hlost]
    · exact ⟨rfl, State.tack_setTack hu, fun k hk => (State.tack_setTack_ne hu hk).trans (hux k)⟩
    · obtain ⟨h1, h2, h3⟩ := tackLeft_setTack hu (State.enterSourceLost_left (s := u.setTack n y) (SMap.rising_set hu) n)
      rw [State.tack_setTack hu] at h3
      exact ⟨h1, h3, fun k hk => (h2 k hk).trans (hux k)⟩

/-- Settles O15: the waiter leaves and its command completes at the deadline, or later. -/
theorem waitTimeout : Obligations.WaitTimeout := by
  intro s n c q d x ht hn hc hq hf hx hd
  have hexec : exec (.tackWaitTimeout n c q) s = .next (doWaitTimeout n c q s) := if_pos ⟨hn, hc, hq⟩
  have hany : (s.tack n).waiters.any (fun w => w.queue == 8 * c + q && w.cseq == x.cseq) = true := by
    refine List.any_eq_true.mpr ⟨x, List.mem_of_find?_eq_some hx, ?_⟩
    have hqueue := List.find?_some hx
    simp only [hqueue, beq_self_eq_true, Bool.and_self]
  have hqr := State.tidy_queues ht
  have htr := State.tidy_tacks ht
  refine ⟨_, hexec, ?_⟩
  have hdo : doWaitTimeout n c q s = State.complete (State.setTack { s with now := max s.now d } n { s.tack n with
      waiters := (s.tack n).waiters.filter (fun w => !(w.queue == 8 * c + q && w.cseq == x.cseq)) }) (8 * c + q) x.cseq stTimeout := by
    simp only [doWaitTimeout, hx, hd, hf, Bool.false_eq_true, if_false]
    exact if_pos hany
  rw [hdo]
  exact ⟨rfl, State.tack_setTack (s := { s with now := max s.now d }) htr,
    fun k hk => State.tack_setTack_ne (s := { s with now := max s.now d }) htr hk,
    fun k hk => State.queue_modQueue_ne (s := State.setTack { s with now := max s.now d } n _) hqr hk,
    State.queue_modQueue (s := State.setTack { s with now := max s.now d } n _) hqr⟩

end Sys2Proof.Machine
end

section
/-! CERTIFICATE. Reads of command-scoped counters (R288, R289, R528). -/

namespace Sys2Proof.Machine

variable {s : State} {p : HostPort}

/-- The reader that a host port is. -/
def readerOf : HostPort → Reader
  | .ha => .ha
  | .hb => .hb

theorem readerNum_readerOf (p : HostPort) : readerNum (readerOf p) = portNum p := by cases p <;> rfl

/-- A read of a counter, as a served host gets it. -/
theorem gives_of_scopedRead (ht : s.tidy = true) (hs : s.serves p) (hmay : s.mayCount p = true) {x : ScopedCtr} (hok : ctrOk x = true)
    {i : Instr} {snap seq : Bool} {v : Nat} {z : Scoped}
    (hexec : exec i s = .next (doScopedRead snap (readerOf p) ⟨x, seq⟩ i s))
    (hget : ∀ u : State, u.scope (ctrIndex x) = s.scope (ctrIndex x) →
      u.scopedGet (readerOf p) x snap seq = (v, u.setScope (ctrIndex x) z)) :
    gives i s (fun t => t = { s with ha := t.ha, hb := t.hb, scopes := t.scopes } ∧
      t.port p = { s.port p with lastRead := v, lastAbort := false, draining := false } ∧ t.port (otherPort p) = s.port (otherPort p) ∧
      t.scope (ctrIndex x) = z ∧ ∀ j, j ≠ ctrIndex x → t.scope j = s.scope j) := by
  have hbase : ctrBase x + (if snap then 0x10 else 0) + (if seq then 8 else 0) < 0x04000000 ∧ 0x01000000 ≤ ctrBase x := by
    have h24 : (if snap then 0x10 else 0) + (if seq then 8 else 0) ≤ 24 := by cases snap <;> cases seq <;> decide
    cases x with
    | shuttleBytes i => simp only [ctrOk, decide_eq_true_eq] at hok; simp only [ctrBase]; omega
    | pressElems g => simp only [ctrOk, decide_eq_true_eq] at hok; simp only [ctrBase]; omega
  have hexec' : exec i s = .next (s.hostRead p (ctrBase x + (if snap then 0x10 else 0) + (if seq then 8 else 0)) 8 i (fun t =>
      if t.mayCount p then t.scopedGet (readerOf p) x snap seq else (0, t))) := by rw [hexec]; cases p <;> rfl
  refine gives_of_hostRead hs (.inr (by omega)) hexec' ?_
  have hmay' : (s.undrain p).mayCount p = true := by
    rw [State.mayCount, State.undrain_isSteward, State.undrain_reg]; exact hmay
  rw [if_pos hmay', hget _ (State.undrain_scope s p _)]
  have hr : SMap.rising s.scopes = true := State.tidy_scopes ht
  refine ⟨?_, ?_, ?_, ?_, fun j hj => ?_⟩
  · cases p <;> rfl
  · cases p <;> rfl
  · cases p <;> rfl
  · cases p <;> exact SMap.get_set_same hr
  · cases p <;> exact SMap.get_set_other hr hj

/-- A read of a counter by the management controller. -/
theorem gives_of_scopedRead_mc (ht : s.tidy = true) (hgood : s.power.pwrGood = true) {x : ScopedCtr} {i : Instr} {snap seq : Bool} {v : Nat}
    {z : Scoped} (hexec : exec i s = .next (doScopedRead snap .mc ⟨x, seq⟩ i s))
    (hget : s.scopedGet .mc x snap seq = (v, s.setScope (ctrIndex x) z)) :
    gives i s (fun t => t = { s with scopes := t.scopes, mcRead := v } ∧ t.scope (ctrIndex x) = z ∧
      ∀ j, j ≠ ctrIndex x → t.scope j = s.scope j) := by
  have hdo : doScopedRead snap .mc ⟨x, seq⟩ i s = { s.setScope (ctrIndex x) z with mcRead := v } := by
    simp only [doScopedRead, hgood, if_true, hget]
  rw [hdo] at hexec
  have hr : SMap.rising s.scopes = true := State.tidy_scopes ht
  exact ⟨_, hexec, rfl, SMap.get_set_same hr, fun j hj => SMap.get_set_other hr hj⟩

/-- Settles O16: each register's read gives its value, and rewrites the reader's own latch. -/
theorem scopedCounterReads : Obligations.ScopedCounterReads := by
  intro s x ht hok k y
  have hlive : ∀ r z, exec (.counterLiveRead r ⟨x, z⟩) s = .next (doScopedRead false r ⟨x, z⟩ (.counterLiveRead r ⟨x, z⟩) s) :=
    fun _ _ => if_pos hok
  have hsnap : ∀ r z, exec (.counterSnapRead r ⟨x, z⟩) s = .next (doScopedRead true r ⟨x, z⟩ (.counterSnapRead r ⟨x, z⟩) s) :=
    fun _ _ => if_pos hok
  refine ⟨fun p hs hmay => ?host, fun hgood => ?mc⟩
  case host =>
    intro r reads
    have hr : r = readerOf p := by cases p <;> rfl
    have hnum : readerNum (readerOf p) = portNum p := readerNum_readerOf p
    rw [hr]
    refine ⟨gives_of_scopedRead ht hs hmay hok (hlive _ _) ?_, gives_of_scopedRead ht hs hmay hok (hsnap _ _) ?_,
      gives_of_scopedRead ht hs hmay hok (hlive _ _) ?_, gives_of_scopedRead ht hs hmay hok (hsnap _ _) ?_⟩ <;> intro u hu
    · simp only [State.scopedGet, State.scopedRead, hu, hnum, Bool.false_eq_true, if_false]; rfl
    · simp only [State.scopedGet, State.scopedRead, hu, hnum, Bool.false_eq_true, if_false, if_true]; rfl
    · simp only [State.scopedGet, State.scopedSeq, hu, hnum, Bool.false_eq_true, if_false, if_true]; rfl
    · simp only [State.scopedGet, State.scopedSeq, hu, hnum, if_true]; rfl
  case mc =>
    exact ⟨gives_of_scopedRead_mc ht hgood (hlive _ _) rfl, gives_of_scopedRead_mc ht hgood (hsnap _ _) rfl,
      gives_of_scopedRead_mc ht hgood (hlive _ _) rfl, gives_of_scopedRead_mc ht hgood (hsnap _ _) rfl⟩

end Sys2Proof.Machine
end

section
/-! CERTIFICATE. The steward: heartbeats, supervision, CLAIM and HANDOVER (R416 to R421). -/

namespace Sys2Proof.Machine

variable {s t u : State} {p q : HostPort} {v : Nat}

/-! ### What events leave of ports and roles -/

theorem State.port_of_eventless (h : s.eventless = t.eventless) (p : HostPort) : (s.port p).eventless = (t.port p).eventless := by
  cases p with
  | ha => have hp := congrArg State.ha h; exact hp
  | hb => have hp := congrArg State.hb h; exact hp

theorem State.port_of_errorless (h : s.errorless = t.errorless) (p : HostPort) : (s.port p).errorless = (t.port p).errorless := by
  cases p with
  | ha => have hp := congrArg State.ha h; exact hp
  | hb => have hp := congrArg State.hb h; exact hp

theorem State.roles_of_eventless (h : s.eventless = t.eventless) : s.roles = t.roles := by
  have hr := congrArg State.roles h
  exact hr

theorem State.arbiters_of_eventless (h : s.eventless = t.eventless) : s.arbiters = t.arbiters := by
  have hr := congrArg State.arbiters h
  exact hr

theorem State.regs_of_eventless (h : s.eventless = t.eventless) : s.regs = t.regs := by
  have hr := congrArg State.regs h
  exact hr

theorem otherPort_ne (p : HostPort) : otherPort p ≠ p := by cases p <;> decide

/-! ### Updates of the port, the arbiters and the roles that commute with an access's mark -/

@[simp] theorem State.passArb_port (s : State) (a : ArbPort) (r : Nat) (p : HostPort) : (s.passArb a r).port p = s.port p := by cases p <;> rfl

theorem State.passArb_undrain (s : State) (a : ArbPort) (r : Nat) (p : HostPort) : (s.undrain p).passArb a r = (s.passArb a r).undrain p := by
  cases p <;> rfl

/-- A served access that rewrites its own port, and no more. -/
theorem State.modPort_left (s : State) (p : HostPort) (f : Port → Port) :
    s.modPort p f = { s with ha := (s.modPort p f).ha, hb := (s.modPort p f).hb } ∧ (s.modPort p f).port p = f (s.port p) ∧
      (s.modPort p f).port (otherPort p) = s.port (otherPort p) :=
  ⟨by cases p <;> rfl, State.port_modPort s p f, State.port_modPort_ne s f (otherPort_ne p)⟩

theorem State.port_roles (s : State) (r : Roles) (p : HostPort) : ({ s with roles := r } : State).port p = s.port p := by cases p <;> rfl

theorem State.isSteward_iff : s.isSteward p = true ↔ s.roles.steward = some p := beq_iff_eq

/-! ### Heartbeats and supervision (R416 to R418) -/

theorem exec_hostHeartbeat : exec (.hostHeartbeat p v) s = .next (s.hostWrite p 0x3008 (.hostHeartbeat p v) (fun t => t.heartbeat p v)) := rfl

/-- What is not the steward's is dropped and logged. -/
theorem State.byStewardOnly_drops (h : s.roles.steward ≠ some p) (f : State → State) : s.byStewardOnly p f = s.misuse p :=
  if_neg (mt State.isSteward_iff.mp h)

theorem State.byStewardOnly_takes (h : s.roles.steward = some p) (f : State → State) : s.byStewardOnly p f = f s :=
  if_pos (State.isSteward_iff.mpr h)

/-- Settles O17. -/
theorem stewardSupervision : Obligations.StewardSupervision := by
  refine ⟨fun s p v hs => ⟨fun hp => ?taken, fun hp => ?dropped⟩, fun s q hr hf hq hc => ?silent, fun s hr hf hc => ?grace⟩
  case taken =>
    refine gives_of_hostWrite hs (.inl (by decide)) exec_hostHeartbeat ?_
    rw [State.heartbeat, State.byStewardOnly_takes (by rw [State.undrain_roles]; exact hp), State.passArb_undrain]
    have hport : ∀ q, (s.passArb .role (portNum p)).port q = s.port q := State.passArb_port s _ _
    have hroles : (s.passArb .role (portNum p)).roles = s.roles := rfl
    have hnow : (s.passArb .role (portNum p)).now = s.now := rfl
    rw [← hport p, ← hport (otherPort p), ← hroles, ← hnow]
    generalize s.passArb .role (portNum p) = w
    obtain ⟨hm, hmp, hmother⟩ := State.modPort_left w p (fun x => { x with draining := false, heartbeat := v % 2 ^ 32 })
    rw [State.undrain, State.modPort_modPort]
    generalize w.modPort p _ = m at hm hmp hmother
    refine ⟨?_, ?_, ?_, ?_⟩
    · rw [hm]
    · exact (State.port_roles m _ p).trans hmp
    · exact (State.port_roles m _ _).trans hmother
    · rw [hm]
  case dropped =>
    refine gives_of_hostWrite hs (.inl (by decide)) exec_hostHeartbeat ?_
    rw [State.heartbeat, State.byStewardOnly_drops (by rw [State.undrain_roles]; exact hp)]
    exact ⟨State.errorless_misuse _ p, by rw [State.misuse_raised, State.undrain_errq]⟩
  case silent =>
    intro cfg now
    refine ⟨_, rfl, ?_⟩
    have hcfg : s.hbCfg = cfg := by simp only [State.hbCfg, hq, Option.getD_some, cfg]
    have hcond : (s.ready && !s.freeze.frozen && s.roles.steward.isSome && s.roles.claim == 0) = true := by simp [hr, hf, hq, hc]
    have hopen : ∀ w : State, w.roles.claim = 0 → w.hbCfg = cfg →
        w.silence 2 = { w with roles := { w.roles with claim := 1, silence := 2, graceEnds := w.now + fld cfg 31 16 * 1000000 } } :=
      fun w hw hwc => by rw [State.silence, if_pos hw, hwc]
    rw [doStewardSilent, if_pos hcond, hcfg]
    exact hopen { s with now := now } hc hcfg
  case grace =>
    refine ⟨_, rfl, ?_⟩
    simp only [doGraceEnd, hr, hf, hc, Bool.not_false, Bool.and_self, beq_self_eq_true, if_true]

/-! ### CLAIM and HANDOVER (R418, R420, R421) -/

theorem exec_claim : exec (.claim p) s = .next (s.hostWrite p 0x3010 (.claim p) (fun t => t.claim p)) := rfl
theorem exec_handover : exec (.handover p) s = .next (s.hostWrite p 0x3010 (.handover p) (fun t => t.handover p)) := rfl

/-- R418: the roles with `p` made the steward at time `now`. -/
def Roles.ledBy (x : Roles) (p : HostPort) (now : Nat) : Roles :=
  { x with assigned := true, steward := some p, claim := 0, silence := 0, lastHb := now, upAt := none }

/-- Making a steward changes the roles, and what the events held for it change. -/
theorem State.makeSteward_eventless (s : State) (p : HostPort) :
    (s.makeSteward p).eventless = State.eventless { s with roles := s.roles.ledBy p s.now } :=
  State.eventless_flushEvents _

theorem State.makeSteward_roles (s : State) (p : HostPort) : (s.makeSteward p).roles = s.roles.ledBy p s.now :=
  State.roles_of_eventless (State.makeSteward_eventless s p)

theorem State.makeSteward_txn (s : State) (p q : HostPort) : ((s.makeSteward p).port q).txn = (s.port q).txn := by
  have h := congrArg Port.txn (State.port_of_eventless (State.makeSteward_eventless s p) q)
  cases q <;> exact h

/-- The result of an access of HOST_CLAIM is all that it leaves, beside the round of its arbiter. -/
theorem State.claimResult_left (s : State) (p : HostPort) (r : Nat) :
    let t := ((s.undrain p).passArb .role (portNum p)).claimResult p r
    t = { s.passArb .role (portNum p) with ha := t.ha, hb := t.hb } ∧ t.port (otherPort p) = s.port (otherPort p) ∧
      t.port p = { s.port p with claimResult := r, draining := false } := by
  intro t
  have ht : t = (s.passArb .role (portNum p)).modPort p (fun x => { x with draining := false, claimResult := r }) := by
    change ((s.undrain p).passArb .role (portNum p)).claimResult p r = _
    rw [State.passArb_undrain, State.claimResult, State.undrain, State.modPort_modPort]
  obtain ⟨hm, hmp, hmother⟩ := State.modPort_left (s.passArb .role (portNum p)) p (fun x => { x with draining := false, claimResult := r })
  rw [← ht] at hm hmp hmother
  rw [State.passArb_port] at hmp hmother
  exact ⟨hm, hmother, hmp⟩

/-- R446: only the transaction of the port that turns peer may change. -/
theorem State.doomPeer_left (s : State) (p : HostPort) :
    s.doomPeer p = { s with ha := (s.doomPeer p).ha, hb := (s.doomPeer p).hb } ∧ (s.doomPeer p).port (otherPort p) = s.port (otherPort p) ∧
    ((s.doomPeer p).port p).claimResult = (s.port p).claimResult ∧
    ((s.doomPeer p).port p).txn.state = (if (s.port p).txn.state = .opened ∧ (s.port p).txn.staged.any (fun e => !peerMayStage e.1)
      then .doomed else (s.port p).txn.state) := by
  obtain ⟨hrest, hport, hother⟩ := State.modPort_left s p (fun x =>
    if x.txn.state = .opened ∧ x.txn.staged.any (fun e => !peerMayStage e.1) then { x with txn := { x.txn with state := .doomed } } else x)
  refine ⟨hrest, hother, ?_, ?_⟩
  · rw [State.doomPeer, hport]; split <;> rfl
  · rw [State.doomPeer, hport]; split <;> rfl

/-- R445: a lost port's transaction is over, unless it is being carried out. -/
theorem State.loseTxn_left (s : State) (p : HostPort) :
    s.loseTxn p = { s with ha := (s.loseTxn p).ha, hb := (s.loseTxn p).hb } ∧ (s.loseTxn p).port (otherPort p) = s.port (otherPort p) ∧
    ((s.loseTxn p).port p).txn.state = (if (s.port p).txn.state = .opened ∨ (s.port p).txn.state = .doomed then .idle else (s.port p).txn.state) := by
  simp only [State.loseTxn]
  split
  · next h =>
    obtain ⟨hrest, hport, hother⟩ := State.modPort_left s p (fun x => { x with txn := x.txn.finish stContained 4 })
    exact ⟨hrest, hother, by rw [State.endTxn, hport]; rfl⟩
  · exact ⟨rfl, rfl, rfl⟩

theorem State.isSteward_passArb (s : State) (a : ArbPort) (r : Nat) (p : HostPort) : (s.passArb a r).isSteward p = s.isSteward p := rfl

/-- What CLAIM makes of the state before the other port's queues come under handling. -/
def State.claimed (s : State) (p : HostPort) : State :=
  ((((s.makeSteward p).claimResult p stOk).loseTxn (otherPort p)).doomPeer (otherPort p))

theorem State.claimed_left (s : State) (p : HostPort) :
    (s.claimed p).roles = s.roles.ledBy p s.now ∧ ((s.claimed p).port p).claimResult = 0 ∧ (s.claimed p).arbiters = s.arbiters ∧
      ((s.port (otherPort p)).txn.state ≠ .sewing → ((s.claimed p).port (otherPort p)).txn.state = .idle) := by
  have hmake := State.makeSteward_eventless s p
  have hroles := State.makeSteward_roles s p
  have htxn := State.makeSteward_txn s p (otherPort p)
  have harb := State.arbiters_of_eventless hmake
  rw [State.claimed]
  generalize s.makeSteward p = m at hmake hroles htxn harb
  obtain ⟨hc, hcp, hcother⟩ := State.modPort_left m p (fun x => { x with claimResult := stOk })
  rw [← State.claimResult] at hc hcp hcother
  generalize m.claimResult p stOk = n at hc hcp hcother
  obtain ⟨hl, hlother, hltxn⟩ := State.loseTxn_left n (otherPort p)
  generalize n.loseTxn (otherPort p) = l at hl hlother hltxn
  obtain ⟨hd, hdother, -, hdtxn⟩ := State.doomPeer_left l (otherPort p)
  generalize l.doomPeer (otherPort p) = d at hd hdother hdtxn
  have hback : otherPort (otherPort p) = p := by cases p <;> rfl
  rw [hback] at hlother hdother
  refine ⟨?_, ?_, ?_, fun hsew => ?_⟩
  · rw [← hroles, hd, hl, hc]
  · rw [hdother, hlother, hcp]; rfl
  · rw [hd, hl, hc]; exact harb
  · have hidle : (l.port (otherPort p)).txn.state = .idle := by
      rw [hltxn, hcother, htxn]
      cases hst : (s.port (otherPort p)).txn.state with
      | sewing => exact absurd hst hsew
      | _ => rfl
    rw [hdtxn, hidle]; rfl

/-- What HANDOVER leaves of the port that gave stewardship away. -/
theorem State.handedOver_left (s : State) (p : HostPort) :
    let t := ((s.makeSteward (otherPort p)).claimResult p stOk).doomPeer p
    (t.port p).claimResult = 0 ∧ t.queues = s.queues ∧ t.hostqs = s.hostqs ∧ t.regs = s.regs ∧ t.roles = s.roles.ledBy (otherPort p) s.now ∧
      t.arbiters = s.arbiters ∧
      (t.port p).txn.state = (if (s.port p).txn.state = .opened ∧ (s.port p).txn.staged.any (fun e => !peerMayStage e.1)
        then .doomed else (s.port p).txn.state) := by
  have hmake := State.makeSteward_eventless s (otherPort p)
  have hroles := State.makeSteward_roles s (otherPort p)
  have htxn := State.makeSteward_txn s (otherPort p) p
  have harb := State.arbiters_of_eventless hmake
  have hqueues := State.queues_of_eventless hmake
  have hhostqs := State.hostqs_of_eventless hmake
  have hregs := State.regs_of_eventless hmake
  generalize s.makeSteward (otherPort p) = m at hmake hroles htxn harb hqueues hhostqs hregs
  obtain ⟨hc, hcp, -⟩ := State.modPort_left m p (fun x => { x with claimResult := stOk })
  rw [← State.claimResult] at hc hcp
  generalize m.claimResult p stOk = n at hc hcp
  obtain ⟨hd, -, hdclaim, hdtxn⟩ := State.doomPeer_left n p
  generalize n.doomPeer p = d at hd hdclaim hdtxn
  refine ⟨?_, ?_, ?_, ?_, ?_, ?_, ?_⟩
  · rw [hdclaim, hcp]; rfl
  · rw [hd, hc]; exact hqueues
  · rw [hd, hc]; exact hhostqs
  · rw [hd, hc]; exact hregs
  · rw [hd, hc]; exact hroles
  · rw [hd, hc]; exact harb
  · rw [hdtxn, hcp]; simp only [htxn]

/-- Settles O18: CLAIM and HANDOVER, by who asks and what claim_state says. -/
theorem stewardshipChanges : Obligations.StewardshipChanges := by
  intro s p hs
  have hsteward : ((s.undrain p).passArb .role (portNum p)).isSteward p = s.isSteward p := by
    rw [State.isSteward_passArb, State.undrain_isSteward]
  have hroles : ((s.undrain p).passArb .role (portNum p)).roles = s.roles := State.undrain_roles s p
  have hnow : ((s.undrain p).passArb .role (portNum p)).now = s.now := State.undrain_now s p
  refine ⟨fun hp hc => ?claims, fun hp hc => ?notOpen, fun hp => ?already, fun hp hup => ?hands, fun hno => ?refused⟩
  case claims =>
    refine gives_of_hostWrite hs (.inl (by decide)) exec_claim ?_
    rw [State.claim]
    rw [if_neg (by rw [hsteward]; exact mt State.isSteward_iff.mp hp), if_neg (by simp [hroles, hc])]
    have hleft := State.claimed_left ((s.undrain p).passArb .role (portNum p)) p
    rw [hroles, hnow, State.passArb_port, State.undrain_port_ne (otherPort_ne p)] at hleft
    obtain ⟨hr, hresult, harb, htxn⟩ := hleft
    exact ⟨_, rfl, hr, hresult, by rw [State.claimed] at harb; rw [harb, State.passArb_undrain, State.undrain_arbiters], htxn⟩
  case notOpen =>
    refine gives_of_hostWrite hs (.inl (by decide)) exec_claim ?_
    rw [State.claim, if_neg (by rw [hsteward]; exact mt State.isSteward_iff.mp hp), if_pos (by simp [hroles, hc])]
    exact State.claimResult_left s p 7
  case already =>
    refine gives_of_hostWrite hs (.inl (by decide)) exec_claim ?_
    rw [State.claim, if_pos (by rw [hsteward]; exact State.isSteward_iff.mpr hp)]
    exact State.claimResult_left s p 2
  case hands =>
    refine gives_of_hostWrite hs (.inl (by decide)) exec_handover ?_
    rw [State.handover, if_neg (by rw [hsteward, State.isSteward_iff.mpr hp]; exact Bool.false_ne_true),
      if_neg (by rw [State.passArb_port, State.undrain_port_ne (otherPort_ne p), hup]; exact Bool.false_ne_true)]
    have hleft := State.handedOver_left ((s.undrain p).passArb .role (portNum p)) p
    rw [hroles, hnow, State.passArb_port, State.undrain_port] at hleft
    obtain ⟨hresult, hqueues, hhostqs, hregs, hr, harb, htxn⟩ := hleft
    exact ⟨hresult, by rw [hqueues, State.passArb_undrain, State.undrain_queues]; rfl,
      by rw [hhostqs, State.passArb_undrain, State.undrain_hostqs]; rfl, by rw [hregs, State.passArb_undrain, State.undrain_regs]; rfl, hr,
      by rw [harb, State.passArb_undrain, State.undrain_arbiters], htxn⟩
  case refused =>
    refine gives_of_hostWrite hs (.inl (by decide)) exec_handover ?_
    have hresult : (s.undrain p).handover p = ((s.undrain p).passArb .role (portNum p)).claimResult p stConflict := by
      rw [State.handover]
      rcases hno with hp | hdown
      · rw [if_pos (by rw [hsteward]; simp [State.isSteward, hp])]
      · split
        · rfl
        · rw [if_pos (by rw [State.passArb_port, State.undrain_port_ne (otherPort_ne p), hdown]; rfl)]
    rw [hresult]
    exact State.claimResult_left s p 2

end Sys2Proof.Machine
end

section
/-! CERTIFICATE. Host links that come up or are lost, the drain limit, and completions of host reads (R403, R407, R413 to R427). -/

namespace Sys2Proof.Machine

variable {s t u : State} {p q : HostPort}

/-! ### A lost port (R421, R427) -/

theorem State.maskArb_left (s : State) (h : Nat) : ∃ a x, s.maskArb (.hubIngress h) = { s with arbiters := a, hubs := x } := ⟨_, _, rfl⟩

theorem State.foldl_maskArb_left (l : List Nat) (s : State) :
    ∃ a x, l.foldl (fun s h => s.maskArb (.hubIngress h)) s = { s with arbiters := a, hubs := x } := by
  induction l generalizing s with
  | nil => exact ⟨_, _, rfl⟩
  | cons h l ih =>
    obtain ⟨a, x, hl⟩ := ih (s.maskArb (.hubIngress h))
    obtain ⟨b, y, hh⟩ := State.maskArb_left s h
    rw [List.foldl_cons]
    generalize s.maskArb (.hubIngress h) = m at hl hh ⊢
    rw [hl, hh]
    exact ⟨a, x, rfl⟩

/-- R476: clearing the masked requests changes the arbiters and hubs alone. -/
theorem State.maskHubs_left (s : State) : s.maskHubs = { s with arbiters := s.maskHubs.arbiters, hubs := s.maskHubs.hubs } := by
  obtain ⟨a, x, h⟩ := State.foldl_maskArb_left (upto 8) s
  rw [State.maskHubs, h]

theorem State.maskHubs_port (s : State) (p : HostPort) : s.maskHubs.port p = s.port p := by
  obtain ⟨a, x, h⟩ := State.foldl_maskArb_left (upto 8) s
  rw [State.maskHubs, h]
  cases p <;> rfl

/-- A lost port, before its queues come under handling. -/
def State.portSilenced (s : State) (p : HostPort) (silence : Nat) : State := (s.maskHubs.loseTxn p).silenceIfSteward p silence

theorem State.loseTxn_port (s : State) (p : HostPort) : (s.loseTxn p).port p = { s.port p with txn := ((s.loseTxn p).port p).txn } := by
  simp only [State.loseTxn]
  split
  · rw [State.endTxn, State.port_modPort]
  · rfl

/-- R417: silence of the steward opens GRACE; another port's silence nothing. -/
theorem State.silenceIfSteward_left (s : State) (p : HostPort) (k : Nat) :
    s.silenceIfSteward p k = { s with roles := (s.silenceIfSteward p k).roles } ∧
    ((s.silenceIfSteward p k).roles.claim, (s.silenceIfSteward p k).roles.silence) =
      (if s.roles.steward = some p ∧ s.roles.claim = 0 then (1, k) else (s.roles.claim, s.roles.silence)) := by
  rw [State.silenceIfSteward]
  split
  · next h =>
    rw [State.silence]
    split
    · next hc => exact ⟨rfl, by rw [if_pos ⟨State.isSteward_iff.mp h, hc⟩]⟩
    · next hc => exact ⟨rfl, by rw [if_neg (fun hh => hc hh.2)]⟩
  · next h => exact ⟨rfl, by rw [if_neg (fun hh => h (State.isSteward_iff.mpr hh.1))]⟩

theorem State.portSilenced_left (s : State) (p : HostPort) (k : Nat) :
    let t := s.portSilenced p k
    t = { s with ha := t.ha, hb := t.hb, arbiters := t.arbiters, hubs := t.hubs, roles := t.roles } ∧
    t.port (otherPort p) = s.port (otherPort p) ∧ t.port p = { s.port p with txn := (t.port p).txn } ∧
    (t.port p).txn.state = (if (s.port p).txn.state = .opened ∨ (s.port p).txn.state = .doomed then .idle else (s.port p).txn.state) ∧
    (t.roles.claim, t.roles.silence) = (if s.roles.steward = some p ∧ s.roles.claim = 0 then (1, k) else (s.roles.claim, s.roles.silence)) := by
  have hmask := State.maskHubs_left s
  have hmp := State.maskHubs_port s
  rw [State.portSilenced]
  generalize s.maskHubs = m at hmask hmp
  obtain ⟨hl, hlother, hltxn⟩ := State.loseTxn_left m p
  have hlp := State.loseTxn_port m p
  generalize m.loseTxn p = l at hl hlother hltxn hlp
  obtain ⟨hs, hroles⟩ := State.silenceIfSteward_left l p k
  generalize l.silenceIfSteward p k = n at hs hroles
  have hport : ∀ q, n.port q = l.port q := fun q => by rw [hs]; exact State.port_roles l _ q
  have hlroles : l.roles = s.roles := by rw [hl, hmask]
  refine ⟨by rw [hs, hl, hmask], ?_, ?_, ?_, ?_⟩
  · rw [hport, hlother, hmp]
  · rw [hport, hlp, hmp]
  · rw [hport, hltxn, hmp]
  · rw [hroles, hlroles]

theorem State.portLost_eq (s : State) (p : HostPort) (cause k : Nat) :
    s.portLost p cause k = if s.ready then (s.portSilenced p k).beginLost p cause else s.portSilenced p k := by
  have hready : (s.portSilenced p k).ready = s.ready := by
    obtain ⟨h, -⟩ := State.portSilenced_left s p k
    rw [h]; rfl
  rw [State.portLost, ← State.portSilenced, hready]

theorem State.setReg_left (s : State) (off v : Nat) : s.setReg off v = { s with regs := (s.setReg off v).regs } := rfl

theorem foldl_setReg_left (off : Nat → Nat) (l : List Nat) (s : State) :
    l.foldl (fun s k => s.setReg (off k) 0) s = { s with regs := (l.foldl (fun s k => s.setReg (off k) 0) s).regs } := by
  induction l generalizing s with
  | nil => rfl
  | cons k l ih => rw [List.foldl_cons, ih, State.setReg_left]

theorem State.port_regs (s : State) (r) (p : HostPort) : ({ s with regs := r } : State).port p = s.port p := by cases p <;> rfl

/-- R433: a reset of the function sets its port's function and apertures, and no more. -/
theorem State.resetFunction_left (s : State) (p : HostPort) :
    let t := s.resetFunction p
    t = { s with ha := t.ha, hb := t.hb, regs := t.regs } ∧ t.port (otherPort p) = s.port (otherPort p) ∧ t.port p = (s.port p).resetFunction := by
  obtain ⟨hm, hmp, hmother⟩ := State.modPort_left s p Port.resetFunction
  rw [State.resetFunction]
  generalize s.modPort p Port.resetFunction = m at hm hmp hmother
  have hf := foldl_setReg_left (fun k => perPort p (0x3100 + 8 * k)) (upto 16) m
  generalize (upto 16).foldl (fun s k => s.setReg (perPort p (0x3100 + 8 * k)) 0) m = f at hf
  have hport : ∀ q, f.port q = m.port q := fun q => by rw [hf]; exact State.port_regs m _ q
  exact ⟨by rw [hf, hm], by rw [hport, hmother], by rw [hport, hmp]⟩

/-- What a lost link may have changed before the port is lost: its own port and registers. -/
structure LinkGone (p : HostPort) (s w : State) : Prop where
  rest : w = { s with ha := w.ha, hb := w.hb, regs := w.regs }
  other : w.port (otherPort p) = s.port (otherPort p)
  txn : (w.port p).txn = (s.port p).txn

/-- A port lost: its transaction, the roles and its function as it left them; then lost-host handling begins, in a module that is ready. -/
theorem portLost_of_linkGone (h : LinkGone p s u) (cause k : Nat) :
    ∃ v : State, u.portLost p cause k = (if s.ready then v.beginLost p cause else v) ∧
      v.queues = s.queues ∧ v.hostqs = s.hostqs ∧ v.mem = s.mem ∧ v.port (otherPort p) = s.port (otherPort p) ∧
      (v.port p).txn.state = (if (s.port p).txn.state = .opened ∨ (s.port p).txn.state = .doomed then .idle else (s.port p).txn.state) ∧
      (v.roles.claim, v.roles.silence) = (if s.roles.steward = some p ∧ s.roles.claim = 0 then (1, k) else (s.roles.claim, s.roles.silence)) ∧
      v.port p = { u.port p with txn := (v.port p).txn } := by
  obtain ⟨hrest, hother, htxn⟩ := h
  obtain ⟨hv, hvother, hvport, hvtxn, hvroles⟩ := State.portSilenced_left u p k
  have hready : u.ready = s.ready := by rw [hrest]; rfl
  have hroles : u.roles = s.roles := by rw [hrest]
  rw [State.portLost_eq, hready]
  generalize u.portSilenced p k = v at hv hvother hvport hvtxn hvroles
  refine ⟨v, rfl, ?_, ?_, ?_, hvother.trans hother, ?_, ?_, hvport⟩
  · rw [hv, hrest]
  · rw [hv, hrest]
  · rw [hv, hrest]
  · rw [hvtxn, htxn]
  · rw [hvroles, hroles]

theorem State.now_of_eventless (h : s.eventless = t.eventless) : s.now = t.now := by
  have hn := congrArg State.now h
  exact hn

/-- R433: what PERST holds of its port. -/
def Port.heldReset (x : Port) : Port := { x with perst := true, heldDown := false, linkUp := false, width := 0, rate := 0 }

theorem doPerst_asserts (h : s.power.pwrGood = true) : doPerst p true s = ((s.modPort p Port.heldReset).resetFunction p).portLost p 1 3 := by
  have hgood : ((s.modPort p Port.heldReset).resetFunction p).power.pwrGood = true := by
    rw [(State.resetFunction_left _ p).1, (State.modPort_left s p _).1]; exact h
  exact if_pos hgood

theorem doLinkDown_up (h : s.power.pwrGood = true) (hup : (s.port p).linkUp = true) :
    doLinkDown p s = (s.modPort p (fun x => { x with linkUp := false, width := 0, rate := 0 })).portLost p 0 1 :=
  if_pos (by rw [h, hup]; rfl)

theorem doFlr_up (h : s.power.pwrGood = true) (hup : (s.port p).linkUp = true) : doFlr p s = (s.resetFunction p).portLost p 2 4 :=
  if_pos (by rw [h, hup]; rfl)

/-! ### A link that comes up (R403, R415) -/

theorem linkWidth_fits (w : Nat) :
    linkWidth w ∈ [1, 2, 4, 8, 16] ∧ (1 ≤ w → linkWidth w ≤ w) ∧ ∀ k ∈ [1, 2, 4, 8, 16], k ≤ w → k ≤ linkWidth w := by
  have hcases : linkWidth w = if 16 ≤ w then 16 else if 8 ≤ w then 8 else if 4 ≤ w then 4 else if 2 ≤ w then 2 else 1 := by
    simp only [linkWidth, List.find?]
    by_cases h16 : 16 ≤ w <;> by_cases h8 : 8 ≤ w <;> by_cases h4 : 4 ≤ w <;> by_cases h2 : 2 ≤ w <;> simp [h16, h8, h4, h2]
  simp only [List.mem_cons, List.not_mem_nil, or_false, forall_eq_or_imp, forall_eq]
  repeat' split at hcases
  all_goals omega

theorem linkRate_fits (w : Nat) :
    linkRate w ∈ [2, 5, 8, 16, 32] ∧ (2 ≤ w → linkRate w ≤ w) ∧ ∀ k ∈ [2, 5, 8, 16, 32], k ≤ w → k ≤ linkRate w := by
  have hcases : linkRate w = if 32 ≤ w then 32 else if 16 ≤ w then 16 else if 8 ≤ w then 8 else if 5 ≤ w then 5 else 2 := by
    simp only [linkRate, List.find?]
    by_cases h32 : 32 ≤ w <;> by_cases h16 : 16 ≤ w <;> by_cases h8 : 8 ≤ w <;> by_cases h5 : 5 ≤ w <;> simp [h32, h16, h8, h5]
  simp only [List.mem_cons, List.not_mem_nil, or_false, forall_eq_or_imp, forall_eq]
  repeat' split at hcases
  all_goals omega

theorem Port.width_of_eventless {x y : Port} (h : x.eventless = y.eventless) : x.linkUp = y.linkUp ∧ x.width = y.width ∧ x.rate = y.rate := by
  have hl := congrArg Port.linkUp h
  have hw := congrArg Port.width h
  have hr := congrArg Port.rate h
  exact ⟨hl, hw, hr⟩

theorem State.takeRole_left (s : State) (p : HostPort) :
    (s.takeRole p).eventless = State.eventless { s with roles := (s.takeRole p).roles } ∧
    (s.takeRole p).roles = (if s.roles.steward = none ∨ (s.roles.upAt = some s.now ∧ p = s.preferred)
      then { s.roles with steward := some p, assigned := true, claim := 0, silence := 0, lastHb := s.now, upAt := some s.now } else s.roles) := by
  have hmake := State.makeSteward_eventless s p
  have hroles := State.makeSteward_roles s p
  rw [State.takeRole]
  have hcond : (s.roles.steward.isNone || (s.roles.upAt == some s.now && p == s.preferred)) = true ↔
      (s.roles.steward = none ∨ (s.roles.upAt = some s.now ∧ p = s.preferred)) := by simp
  split
  · next h =>
    rw [if_pos (hcond.mp h)]
    generalize s.makeSteward p = m at hmake hroles
    have hnow : m.now = s.now := State.now_of_eventless (t := { s with roles := s.roles.ledBy p s.now }) hmake
    refine ⟨?_, ?_⟩
    · have hupAt := congrArg (fun x : State => { x with roles := { m.roles with upAt := some m.now } }) hmake
      exact hupAt
    · change { m.roles with upAt := some m.now } = _
      rw [hroles, hnow]; rfl
  · next h => rw [if_neg (mt hcond.mpr h)]; exact ⟨rfl, rfl⟩

/-- A trained link, with the width and rate the spec's lists allow. -/
def State.linkTrained (s : State) (p : HostPort) (width rate : Nat) : State :=
  s.modPort p (fun x => { x with linkUp := true, width := linkWidth width, rate := linkRate rate })

theorem doLinkUp_trains {width rate : Nat} (h : s.power.pwrGood = true) (hperst : (s.port p).perst = false) (hheld : (s.port p).heldDown = false)
    (hdown : (s.port p).linkUp = false) :
    doLinkUp p width rate s = if (s.linkTrained p width rate).ready && (s.linkTrained p width rate).roles.assigned
      then ((s.linkTrained p width rate).takeRole p).flushEvents else (s.linkTrained p width rate).flushEvents :=
  if_pos (by rw [h, hperst, hheld, hdown]; rfl)

/-- R415: who is steward once the link of `p` is up. -/
def State.rolesUp (s : State) (p : HostPort) : Roles :=
  if s.ready = true ∧ s.roles.assigned = true ∧ (s.roles.steward = none ∨ (s.roles.upAt = some s.now ∧ p = s.preferred))
  then { s.roles with steward := some p, claim := 0, silence := 0, lastHb := s.now, upAt := some s.now } else s.roles

theorem doLinkUp_left {width rate : Nat} (h : s.power.pwrGood = true) (hperst : (s.port p).perst = false) (hheld : (s.port p).heldDown = false)
    (hdown : (s.port p).linkUp = false) :
    (doLinkUp p width rate s).eventless = State.eventless { s.linkTrained p width rate with roles := s.rolesUp p } ∧
      (doLinkUp p width rate s).roles = s.rolesUp p := by
  rw [doLinkUp_trains h hperst hheld hdown]
  have hm := (State.modPort_left s p (fun x => { x with linkUp := true, width := linkWidth width, rate := linkRate rate })).1
  rw [← State.linkTrained] at hm
  generalize s.linkTrained p width rate = m at hm
  have hready : m.ready = s.ready := by rw [hm]; rfl
  have hroles : m.roles = s.roles := by rw [hm]
  have hnow : m.now = s.now := by rw [hm]
  have hpref : m.preferred = s.preferred := by rw [hm]; rfl
  rw [hready, hroles]
  split
  · next hc =>
    obtain ⟨ht, htr⟩ := State.takeRole_left m p
    have hflush := State.eventless_flushEvents (m.takeRole p)
    have hup : (m.takeRole p).roles = s.rolesUp p := by
      rw [htr, hroles, hnow, hpref, State.rolesUp]
      simp only [Bool.and_eq_true] at hc
      simp only [hc, true_and]
    rw [State.roles_of_eventless hflush, hflush, ht, hup]
    exact ⟨rfl, rfl⟩
  · next hc =>
    have hflush := State.eventless_flushEvents m
    have hup : m.roles = s.rolesUp p := by
      rw [State.rolesUp, if_neg (fun hh => hc (by rw [hh.1, hh.2.1]; rfl)), hroles]
    rw [State.roles_of_eventless hflush, hflush, ← hup]
    exact ⟨rfl, rfl⟩

/-- Settles O19. -/
theorem hostLinkEvents : Obligations.HostLinkEvents := by
  intro s p hgood x lost
  have gone : ∀ {u : State} {cause k : Nat}, LinkGone p s u → (k ≠ 4 → (u.port p).linkUp = false) → (k = 4 → (u.port p).linkUp = x.linkUp) →
      (k ≠ 1 → (u.port p).evqEnable = false ∧ (u.port p).msix = [] ∧ (u.port p).bar2Log2 = 36 ∧ (u.port p).d3hot = false) →
      lost cause k (u.portLost p cause k) := by
    intro u cause k hu hdown hup hreset
    obtain ⟨v, heq, hq, hh, hm, ho, ht, hr, hp⟩ := portLost_of_linkGone hu cause k
    refine ⟨v, heq, hq, hh, hm, ho, ht, hr, ?_, ?_, ?_⟩
    · rw [hp]; exact hdown
    · rw [hp]; exact hup
    · rw [hp]; exact hreset
  refine ⟨fun width rate hperst hheld hdown => ⟨_, rfl, ?up⟩, fun hup => ⟨_, rfl, ?down⟩, ⟨_, rfl, ?perst⟩, ?released, fun hup => ⟨_, rfl, ?flr⟩⟩
  case up =>
    obtain ⟨hev, hroles⟩ := doLinkUp_left (width := width) (rate := rate) hgood hperst hheld hdown
    obtain ⟨hm, hmp, -⟩ := State.modPort_left s p (fun x => { x with linkUp := true, width := linkWidth width, rate := linkRate rate })
    rw [← State.linkTrained] at hm hmp
    generalize doLinkUp p width rate s = v at hev hroles
    generalize s.linkTrained p width rate = m at hev hm hmp
    have hport := State.port_of_eventless hev p
    have hmport : ({ m with roles := s.rolesUp p } : State).port p = m.port p := State.port_roles m _ p
    rw [hmport, hmp] at hport
    obtain ⟨hl, hw, hr⟩ := Port.width_of_eventless hport
    rw [hl, hw, hr]
    refine ⟨rfl, linkWidth_fits width, linkRate_fits rate, ?_, ?_, ?_, hroles⟩
    · rw [State.queues_of_eventless hev, hm]
    · rw [State.hostqs_of_eventless hev, hm]
    · rw [State.regs_of_eventless hev, hm]
  case down =>
    rw [doLinkDown_up hgood hup]
    obtain ⟨hm, hmp, hmother⟩ := State.modPort_left s p (fun x => { x with linkUp := false, width := 0, rate := 0 })
    generalize s.modPort p _ = m at hm hmp hmother
    exact gone ⟨by rw [hm], hmother, by rw [hmp]⟩ (fun _ => by rw [hmp]) (fun h => absurd h (by decide)) (fun h => absurd rfl h)
  case perst =>
    rw [doPerst_asserts hgood]
    obtain ⟨hm, hmp, hmother⟩ := State.modPort_left s p Port.heldReset
    generalize s.modPort p _ = m at hm hmp hmother
    obtain ⟨hf, hfother, hfp⟩ := State.resetFunction_left m p
    generalize m.resetFunction p = f at hf hfother hfp
    exact gone ⟨by rw [hf, hm], hfother.trans hmother, by rw [hfp, hmp]; rfl⟩ (fun _ => by rw [hfp, hmp]; rfl) (fun h => absurd h (by decide))
      (fun _ => by rw [hfp]; exact ⟨rfl, rfl, rfl, rfl⟩)
  case released =>
    obtain ⟨hm, hmp, hmother⟩ := State.modPort_left s p (fun x => { x with perst := false })
    exact ⟨_, rfl, hm, hmother, hmp⟩
  case flr =>
    rw [doFlr_up hgood hup]
    obtain ⟨hf, hfother, hfp⟩ := State.resetFunction_left s p
    generalize s.resetFunction p = f at hf hfother hfp
    exact gone ⟨hf, hfother, by rw [hfp]; rfl⟩ (fun h => absurd rfl h) (fun _ => by rw [hfp]; rfl)
      (fun _ => by rw [hfp]; exact ⟨rfl, rfl, rfl, rfl⟩)

/-! ### The drain limit and completions of host reads (R407, R413, R423) -/

theorem State.errorless_freeMem (h : s.errorless = t.errorless) :
    s.mem.filter (fun e => decide (e.1 < 2 ^ 63)) = t.mem.filter (fun e => decide (e.1 < 2 ^ 63)) := by
  have hm := congrArg State.mem h
  exact hm

theorem Port.reads_of_errorless {x y : Port} (h : x.errorless = y.errorless) : x.reads = y.reads := by
  have hr := congrArg Port.reads h
  exact hr

/-- R423: the state at the drain limit of a queue under handling, its handling turned to CANCEL. -/
def State.drainConverted (s : State) (k : Nat) (l : LostHandling) : State :=
  { s with now := max s.now l.deadline,
           hostqs := SMap.set {} s.hostqs k { s.hostq k with lost := some { l with cancel := true, converted := true } } }

theorem doDrainLimit_converts {n : Nat} {l : LostHandling} (hf : s.freeze.frozen = false) (hl : (s.hostq (hqOf p n)).lost = some l)
    (hset : l.settled = false) (hcan : l.cancel = false) (hdead : l.deadline ≠ 0) :
    doDrainLimit p n s = (s.drainConverted (hqOf p n) l).cancelNow (hqOf p n) := by
  have hgo : (l.settled || l.cancel || l.deadline == 0 || s.freeze.frozen) = false := by rw [hset, hcan, hf]; simp [hdead]
  simp only [doDrainLimit, hl, hgo]
  rfl

/-- R413: a read of host memory that timed out, reported. -/
def State.readTimedOut (s : State) (p : HostPort) (tag deadline : Nat) : State :=
  (State.modPort { s with now := max s.now deadline } p (fun x => { x with reads := x.reads.filter (fun r => r.tag != tag) })).logPort p 14

theorem doCompletionTimeout_fails {tag : Nat} {r : HostRead} (hr : s.ready = true) (hf : s.freeze.frozen = false)
    (hfind : (s.port p).reads.find? (fun r => r.tag == tag) = some r) :
    doCompletionTimeout p tag s =
      ((s.readTimedOut p tag r.deadline).hostFail r.queue r.cseq stTimeout).modPort p (fun x => x.sendReads (max s.now r.deadline)) := by
  have hgo : (!s.ready || s.freeze.frozen) = false := by rw [hr, hf]; rfl
  simp only [doCompletionTimeout, hfind, hgo, Bool.false_eq_true, if_false, State.readTimedOut, State.modPort_now]

theorem doHostCompletion_unread {tag : Nat} (hr : s.ready = true) (hup : (s.port p).linkUp = true) (hf : s.freeze.frozen = false) :
    doHostCompletion p tag .unexpected s = (s.undrain p).logPort p 16 ∧ doHostCompletion p tag .malformed s = (s.undrain p).logPort p 18 := by
  have hgo : (!s.ready || !(s.port p).linkUp) = false := by rw [hr, hup]; rfl
  constructor <;> simp only [doHostCompletion, hgo, hf, Bool.false_eq_true, if_false]

theorem State.logPort_raised (s : State) (p : HostPort) (aer : Nat) : (s.logPort p aer).errq.raised = s.errq.raised + 1 := by
  rw [State.logPort, State.raiseError_raised, State.modPort_errq]

theorem State.undrain_logged (s : State) (p : HostPort) (aer : Nat) :
    ((s.undrain p).logPort p aer).errorless = (s.undrain p).errorless ∧ ((s.undrain p).logPort p aer).errq.raised = s.errq.raised + 1 :=
  ⟨State.errorless_logPort _ p aer, by rw [State.logPort_raised, State.undrain_errq]⟩

/-- The state in which the data of a read come to the command that asked. -/
def State.readAnswered (s : State) (p : HostPort) (tag : Nat) : State :=
  s.modPort p (fun x => Port.sendReads { x with reads := x.reads.filter (fun r => r.tag != tag), draining := false } s.now)

theorem doHostCompletion_data {tag : Nat} {bytes : List Byte} {r : HostRead} (hr : s.ready = true) (hup : (s.port p).linkUp = true)
    (hf : s.freeze.frozen = false) (hfind : (s.port p).reads.find? (fun r => r.tag == tag) = some r) :
    doHostCompletion p tag (.data bytes false) s = (s.readAnswered p tag).hostData p r bytes false := by
  have hreads : ((s.undrain p).port p).reads.find? (fun r => r.tag == tag) = some r := by rw [State.undrain_port]; exact hfind
  have hgo : (!s.ready || !(s.port p).linkUp) = false := by rw [hr, hup]; rfl
  simp only [doHostCompletion, hgo, hf, hreads, Bool.false_eq_true, if_false]
  simp only [State.undrain, State.modPort_modPort, State.modPort_now, State.readAnswered]

/-- Settles O20. -/
theorem hostReadsAndDrains : Obligations.HostReadsAndDrains := by
  intro s p hs
  refine ⟨fun n l hn hf hl hset hcan hdead => ?limit, fun tag r hr hf hfind => ⟨_, rfl, ?timeout⟩,
    fun tag bytes r hr hup hf hfind => ⟨_, rfl, ?data⟩, fun tag hr hup hf => ⟨⟨_, rfl, ?unexpected⟩, ⟨_, rfl, ?malformed⟩⟩⟩
  case limit =>
    refine ⟨_, if_pos hn, ?_⟩
    rw [doDrainLimit_converts hf hl hset hcan hdead]
    exact ⟨_, rfl, rfl, SMap.get_set_same (State.tidy_hostqs hs)⟩
  case timeout =>
    rw [doCompletionTimeout_fails hr hf hfind]
    obtain ⟨hm, hmp, -⟩ := State.modPort_left { s with now := max s.now r.deadline } p (fun x => { x with reads := x.reads.filter (fun r => r.tag != tag) })
    have hlog := State.errorless_logPort (State.modPort { s with now := max s.now r.deadline } p (fun x => { x with reads := x.reads.filter (fun r => r.tag != tag) })) p 14
    rw [← State.readTimedOut] at hlog
    generalize s.readTimedOut p tag r.deadline = u at hlog
    generalize State.modPort _ p _ = m at hm hmp hlog
    have hnow : u.now = max s.now r.deadline := by rw [State.now_of_errorless hlog, hm]
    have hread := Port.reads_of_errorless (State.port_of_errorless hlog p)
    refine ⟨u, by rw [hnow]; rfl, hnow, ?_, ?_, ?_⟩
    · rw [hread, hmp]; cases p <;> rfl
    · rw [(State.queues_of_errorless hlog).1, hm]
    · rw [State.errorless_freeMem hlog, hm]
  case data =>
    rw [doHostCompletion_data hr hup hf hfind]
    obtain ⟨hm, hmp, hmother⟩ := State.modPort_left s p
      (fun x => Port.sendReads { x with reads := x.reads.filter (fun r => r.tag != tag), draining := false } s.now)
    exact ⟨_, rfl, hm, hmother, hmp⟩
  case unexpected =>
    rw [(doHostCompletion_unread hr hup hf).1]
    exact State.undrain_logged s p 16
  case malformed =>
    rw [(doHostCompletion_unread hr hup hf).2]
    exact State.undrain_logged s p 18

end Sys2Proof.Machine
end

section
/-! CERTIFICATE. BAR2, the event ring, configuration space, and accesses held in freeze (R402 to R412, R429, R544, R546). -/

namespace Sys2Proof.Machine

variable {s t u : State} {p q : HostPort} {off v : Nat}

/-! ### BAR2 (R405 to R407) -/

theorem State.bar2Gate_served (hs : s.serves p) (hact : s.power.state = .active) : s.bar2Gate p = .served := by
  obtain ⟨hr, hl, hd, hb, hf, hw⟩ := hs
  have hp : s.power.pwrGood = true := by simp only [State.ready, Bool.and_eq_true] at hr; exact hr.1
  have hawake : s.resting = false := by rw [State.resting, hact]; rfl
  simp only [State.bar2Gate, hp, hl, hd, hr, hb, hf, hawake, Bool.not_true, Bool.or_false, Bool.false_eq_true, if_false]
  rcases hw with hw | hw <;> simp [hw]

theorem doBar2Read_served (hs : s.serves p) (hact : s.power.state = .active) (off len : Nat) :
    doBar2Read p off len s = (s.undrain p).bar2Fetch p off len := by
  simp only [doBar2Read, State.bar2Gate_served hs hact]

theorem doBar2Write_served (hs : s.serves p) (hact : s.power.state = .active) (off : Nat) (bytes : List Byte) (ep : Bool) :
    doBar2Write p off bytes ep s = (s.undrain p).bar2Store p off bytes ep := by
  simp only [doBar2Write, State.bar2Gate_served hs hact]

theorem State.bar2Store_mapped {bytes : List Byte} {ps : List (Nat × Nat)} (h : s.bar2Map p off bytes.length = some ps) :
    s.bar2Store p off bytes false = (s.bar2Put ps bytes false).addGctr (848 + 4 * portNum p + 1) bytes.length := by
  simp only [State.bar2Store, h, Bool.false_eq_true, if_false]

theorem State.bar2Store_unmapped {bytes : List Byte} (h : s.bar2Map p off bytes.length = none) (ep : Bool) :
    s.bar2Store p off bytes ep = s.bar2Fault p off := by
  simp only [State.bar2Store, h]

theorem State.bar2Fault_logged (s : State) (p : HostPort) (off : Nat) :
    ((s.undrain p).bar2Fault p off).errorless = (s.undrain p).errorless ∧ ((s.undrain p).bar2Fault p off).errq.raised = s.errq.raised + 1 :=
  State.undrain_logged s p _

theorem State.readBytes_undrain (s : State) (p : HostPort) (a n : Nat) : (s.undrain p).readBytes a n = s.readBytes a n := by cases p <;> rfl

theorem State.poisoned_undrain (s : State) (p : HostPort) (a n : Nat) : (s.undrain p).poisoned a n = s.poisoned a n := by cases p <;> rfl

theorem State.unreachable_undrain (s : State) (p : HostPort) (a : Nat) : (s.undrain p).unreachable a = s.unreachable a := by cases p <;> rfl

theorem State.memByte_undrain (s : State) (p : HostPort) (a : Nat) : (s.undrain p).memByte a = s.memByte a := by cases p <;> rfl

theorem State.port_counters (s : State) (g c) (p : HostPort) : ({ s with gctr := g, ctx := c } : State).port p = s.port p := by cases p <;> rfl

theorem foldl_countBytes_left (rd : Bool) (ps : List (Nat × Nat)) (s : State) :
    ∃ g c, ps.foldl (fun s x => s.countBytes none rd x.1 x.2) s = { s with gctr := g, ctx := c } := by
  induction ps generalizing s with
  | nil => exact ⟨_, _, rfl⟩
  | cons x ps ih =>
    obtain ⟨g, c, h⟩ := ih (s.countBytes none rd x.1 x.2)
    have hx := State.countBytes_eq (s := s) none rd x.1 x.2
    rw [List.foldl_cons, h]
    generalize s.countBytes none rd x.1 x.2 = m at hx
    rw [hx]
    exact ⟨g, c, rfl⟩

/-- A read that the apertures map changes the counters and its port alone. -/
theorem State.bar2Fetch_mapped {len : Nat} {ps : List (Nat × Nat)} (h : s.bar2Map p off len = some ps) :
    let t := s.bar2Fetch p off len
    t = { s with ha := t.ha, hb := t.hb, gctr := t.gctr, ctx := t.ctx } ∧ t.port (otherPort p) = s.port (otherPort p) ∧
    t.port p = { s.port p with lastBytes := ps.flatMap (fun x => s.readBytes x.1 x.2), lastEp := ps.any (fun x => s.poisoned x.1 x.2), lastAbort := false } := by
  have heq : s.bar2Fetch p off len =
      (State.addGctr (ps.foldl (fun s x => s.countBytes none true x.1 x.2) s) (848 + 4 * portNum p) len).modPort p
        (fun x => { x with lastBytes := ps.flatMap (fun x => s.readBytes x.1 x.2), lastEp := ps.any (fun x => s.poisoned x.1 x.2), lastAbort := false }) := by
    simp only [State.bar2Fetch, h]
  obtain ⟨g, c, hc⟩ := foldl_countBytes_left true ps s
  rw [heq, hc, State.addGctr]
  generalize hm : ({ s with gctr := _, ctx := c } : State) = m
  obtain ⟨hn, hnp, hnother⟩ := State.modPort_left m p (fun x => { x with
    lastBytes := ps.flatMap (fun x => s.readBytes x.1 x.2), lastEp := ps.any (fun x => s.poisoned x.1 x.2), lastAbort := false })
  have hport : ∀ q, m.port q = s.port q := fun q => by rw [← hm]; exact State.port_counters s _ _ q
  rw [hport] at hnp hnother
  generalize m.modPort p _ = n at hn hnp hnother
  exact ⟨by rw [hn, ← hm], hnother, hnp⟩

/-- What a write through BAR2 may change, and the bytes that it leaves. -/
structure Bar2Left (ps : List (Nat × Nat)) (s t : State) : Prop where
  rest : t = { s with mem := t.mem, poison := t.poison, covered := t.covered, gctr := t.gctr, ctx := t.ctx }
  wf : Memory.wf t.mem = true
  outside : ∀ b, (∀ x ∈ ps, b < x.1 ∨ x.1 + x.2 ≤ b) → t.memByte b = s.memByte b

theorem State.writeBytes_counted (s : State) (a n : Nat) (bs : List Byte) :
    ∃ po co g c, (s.writeBytes a bs).countBytes none false a n = { s with mem := (s.putBytes a bs).mem, poison := po, covered := co, gctr := g, ctx := c } := by
  have hcount := State.countBytes_eq (s := s.writeBytes a bs) none false a n
  have hwrite := State.writeBytes_eq (s := s) a bs
  have hmem : (s.writeBytes a bs).mem = (s.putBytes a bs).mem := rfl
  rw [hmem] at hwrite
  generalize s.writeBytes a bs = w at hwrite hcount
  generalize w.countBytes none false a n = m at hcount
  rw [hcount, hwrite]
  exact ⟨_, _, _, _, rfl⟩

theorem State.bar2Put_left (ps : List (Nat × Nat)) (s : State) (bs : List Byte) (h : Memory.wf s.mem = true) :
    Bar2Left ps s (s.bar2Put ps bs false) := by
  induction ps generalizing s bs with
  | nil => exact ⟨rfl, h, fun _ _ => rfl⟩
  | cons x ps ih =>
    obtain ⟨a, n⟩ := x
    obtain ⟨po, co, g, c, hw⟩ := State.writeBytes_counted s a n (bs.take n)
    have hput : s.bar2Put ((a, n) :: ps) bs false = ((s.writeBytes a (bs.take n)).countBytes none false a n).bar2Put ps (bs.drop n) false := rfl
    rw [hput, hw]
    obtain ⟨hrest, hwf, hout⟩ := ih { s with mem := (s.putBytes a (bs.take n)).mem, poison := po, covered := co, gctr := g, ctx := c } (bs.drop n)
      (State.putBytes_wf a _ h)
    generalize State.bar2Put _ ps (bs.drop n) false = t at hrest hwf hout
    refine ⟨by rw [hrest], hwf, fun b hb => ?_⟩
    rw [hout b (fun x hx => hb x (List.mem_cons_of_mem _ hx))]
    have hfirst := hb (a, n) List.mem_cons_self
    have hlen : (bs.take n).length ≤ n := List.length_take_le n bs
    exact State.memByte_putBytes_out h (by simp only at hfirst; omega)

/-- The bytes of a write that one aperture maps are stored where they can be reached. -/
theorem State.bar2Put_single (h : Memory.wf s.mem = true) (a : Nat) (bs : List Byte) {i : Nat} (hi : i < bs.length)
    (hr : s.unreachable (a + i) = false) : (s.bar2Put [(a, bs.length)] bs false).memByte (a + i) = bs.getD i 0 := by
  obtain ⟨po, co, g, c, hw⟩ := State.writeBytes_counted s a bs.length (bs.take bs.length)
  have hput : s.bar2Put [(a, bs.length)] bs false = (s.writeBytes a (bs.take bs.length)).countBytes none false a bs.length := rfl
  rw [hput, hw, List.take_length]
  exact State.memByte_putBytes_in h hi hr

theorem State.port_stored (s : State) (m po co g c) (p : HostPort) :
    ({ s with mem := m, poison := po, covered := co, gctr := g, ctx := c } : State).port p = s.port p := by cases p <;> rfl

/-- Settles O21. -/
theorem bar2Accesses : Obligations.Bar2Accesses := by
  intro s p off ht hs hact
  have hwf : Memory.wf (s.undrain p).mem = true := by rw [State.undrain_mem]; exact State.tidy_mem ht
  have hother : (s.undrain p).port (otherPort p) = s.port (otherPort p) := State.undrain_port_ne (otherPort_ne p)
  have hown : (s.undrain p).port p = { s.port p with draining := false } := State.undrain_port p
  have hundrain := (State.modPort_left s p (fun x => { x with draining := false })).1
  rw [← State.undrain] at hundrain
  refine ⟨fun len ps hmap => ⟨_, rfl, ?fetched⟩, fun len hmap => ⟨_, rfl, ?aborted⟩, fun bytes ps hmap => ⟨_, rfl, ?stored⟩,
    fun bytes ep hmap => ⟨_, rfl, ?dropped⟩⟩
  case fetched =>
    rw [doBar2Read_served hs hact]
    obtain ⟨hrest, hto, htp⟩ := State.bar2Fetch_mapped hmap
    rw [hother] at hto
    rw [hown] at htp
    simp only [State.readBytes_undrain, State.poisoned_undrain] at htp
    generalize (s.undrain p).bar2Fetch p off len = t at hrest hto htp
    generalize s.undrain p = w at hrest hundrain
    exact ⟨by rw [hrest, hundrain], hto, htp⟩
  case aborted =>
    rw [doBar2Read_served hs hact]
    have heq : (s.undrain p).bar2Fetch p off len =
        ((s.undrain p).bar2Fault p off).modPort p (fun x => { x with lastBytes := [], lastEp := false, lastAbort := true }) := by
      simp only [State.bar2Fetch, hmap]
    obtain ⟨hlog, hraised⟩ := State.bar2Fault_logged s p off
    have hfree := State.errorless_freeMem hlog
    rw [State.undrain_mem] at hfree
    rw [heq]
    refine ⟨?_, ?_, ?_⟩
    · rw [State.modPort_mem]
      exact hfree
    · rw [State.port_modPort]
    · rw [State.modPort_errq]
      exact hraised
  case stored =>
    rw [doBar2Write_served hs hact, State.bar2Store_mapped hmap]
    obtain ⟨hrest, -, hout⟩ := State.bar2Put_left ps (s.undrain p) bytes hwf
    have hbytes : ∀ a, ps = [(a, bytes.length)] → ∀ i, i < bytes.length → s.unreachable (a + i) = false →
        ((s.undrain p).bar2Put ps bytes false).memByte (a + i) = bytes.getD i 0 := by
      intro a hps i hi hr
      rw [hps]
      exact State.bar2Put_single hwf a bytes hi (by rw [State.unreachable_undrain]; exact hr)
    simp only [State.memByte_undrain] at hout
    generalize (s.undrain p).bar2Put ps bytes false = t at hrest hout hbytes
    have hport : ∀ q, t.port q = (s.undrain p).port q := fun q => by rw [hrest]; exact State.port_stored _ _ _ _ _ _ q
    have hcounted : ∀ q, (t.addGctr (848 + 4 * portNum p + 1) bytes.length).port q = t.port q := fun q => by cases q <;> rfl
    refine ⟨?_, ?_, ?_, hout, hbytes⟩
    · generalize s.undrain p = w at hrest hundrain
      rw [State.addGctr, hrest, hundrain]
    · rw [hcounted, hport, hown]
    · rw [hcounted, hport, hother]
  case dropped =>
    rw [doBar2Write_served hs hact, State.bar2Store_unmapped hmap]
    exact State.bar2Fault_logged s p off

/-! ### The event ring and configuration space (R402 to R412) -/

theorem exec_hostEvqCfgWrite : exec (.hostEvqCfgWrite p v) s = .next (s.hostWrite p 0x3048 (.hostEvqCfgWrite p v) (fun t => t.evqCfg p v)) := rfl

theorem exec_eventQueueHeadWrite : exec (.eventQueueHeadWrite p v) s =
    .next (s.hostWrite p 0x3048 (.eventQueueHeadWrite p v) (fun t => (t.modPort p (fun x => { x with evqHead := v % 65536 })).flushEvents)) := rfl

/-- R411: what HOST_EVQ_CFG makes of a ring that is off, by its enable bit and its size. -/
theorem State.evqCfg_enables (he : (s.port p).evqEnable = false) (hb : bit v 63 = true) (hsize : 6 ≤ fld v 62 58 ∧ fld v 62 58 ≤ 16) :
    s.evqCfg p v = (s.modPort p (fun x => { x with
      evqVec := fld v 57 47, evqHead := fld v 31 16, evqSize := fld v 62 58, evqEnable := true, evqTail := 0, evqPhase := true })).flushEvents := by
  simp only [State.evqCfg, he, hb, hsize, and_self, decide_true, Bool.not_true, Bool.false_eq_true, if_false, if_true, State.modPort]

theorem State.evqCfg_sets (he : (s.port p).evqEnable = false) (hb : bit v 63 = false) (hsize : fld v 62 58 = 0 ∨ (6 ≤ fld v 62 58 ∧ fld v 62 58 ≤ 16)) :
    s.evqCfg p v = s.modPort p (fun x => { x with evqVec := fld v 57 47, evqHead := fld v 31 16, evqSize := fld v 62 58 }) := by
  have hok : (decide (6 ≤ fld v 62 58 ∧ fld v 62 58 ≤ 16) || fld v 62 58 == 0) = true := by simp; omega
  have hval : (if decide (6 ≤ fld v 62 58 ∧ fld v 62 58 ≤ 16) = true then fld v 62 58 else 0) = fld v 62 58 := by
    split
    · rfl
    · next h => simp at h; omega
  simp only [State.evqCfg, he, hb, hok, hval, Bool.not_false, Bool.false_eq_true, if_false, if_true]

theorem State.evqCfg_reserved (he : (s.port p).evqEnable = false) (hb : bit v 63 = false) (h0 : fld v 62 58 ≠ 0)
    (hsize : ¬(6 ≤ fld v 62 58 ∧ fld v 62 58 ≤ 16)) :
    s.evqCfg p v = (s.misuse p).modPort p (fun x => { x with evqVec := fld v 57 47, evqHead := fld v 31 16, evqSize := 0 }) := by
  simp only [State.evqCfg, he, hb, hsize, h0, decide_false, Bool.not_false, Bool.false_or, Bool.false_eq_true, if_false, if_true, beq_iff_eq]

theorem Port.evqEnable_of_errorless {x y : Port} (h : x.errorless = y.errorless) : x.evqEnable = y.evqEnable := by
  have he := congrArg Port.evqEnable h
  exact he

/-- The messages sent once MSI-X allows them are events of the port alone. -/
theorem State.eventless_flushMsix (s : State) (p : HostPort) : (s.flushMsix p).eventless = s.eventless := by
  simp only [State.flushMsix]
  split
  · exact State.eventless_setPort p _ rfl
  · rfl

theorem doCfgWrite_up (hp : s.power.pwrGood = true) (hl : (s.port p).linkUp = true) (c : CfgWrite) :
    exec (.configurationSpaceWrite p c) s = .next (match c with
      | .bar2Size n => s.bar2Resize p n
      | .powerState d => s.modPort p (fun x => { x with d3hot := d })
      | .msixControl e m => s.msixControl p e m
      | .other off v => s.cfgStore p off v) := by
  have hgo : ¬ (!s.power.pwrGood || !(s.port p).linkUp) = true := by rw [hp, hl]; decide
  cases c <;> exact congrArg Host.Outcome.next (if_neg hgo)

/-- R402: the identifiers of the function. -/
theorem cfgRead_ids (s : State) (p : HostPort) :
    s.cfgRead p 0 = 0x6E101F6D ∧ s.cfgRead p 8 = 0x12000011 ∧ s.cfgRead p 0x2C = s.subsystem * 2 ^ 16 + 0x1F6D := by
  refine ⟨rfl, rfl, ?_⟩
  change put s.subsystem 31 16 + 0x1F6D = _
  rw [State.subsystem]
  cases s.bring.order <;> rfl

theorem State.cfgStore_ids (h : off = 0 ∨ off = 8 ∨ off = 0x2C) : s.cfgStore p off v = s := by
  have hid : (s.pciId off).isSome = true := by rcases h with rfl | rfl | rfl <;> rfl
  simp only [State.cfgStore, hid, if_true]

theorem State.cfgStore_plain (hid : s.pciId off = none) (hoff : off ∉ [0x44, 0x50, 0x68, 0x88, 0x104, 0x110, 0x158])
    (hreg : s.capReg (s.port p) off = none) (hc : capHead capList false off = none) (he : capHead extCapList true off = none) :
    s.cfgStore p off v = s.modPort p (fun x => { x with cfg := SMap.set 0 x.cfg off v }) := by
  simp only [List.mem_cons, List.not_mem_nil, or_false, not_or] at hoff
  simp only [State.cfgStore, hid, hreg, hc, he, hoff, Option.isSome_none, Bool.or_self, Bool.false_eq_true, if_false]

/-- Settles O22. -/
theorem portConfiguration : Obligations.PortConfiguration := by
  intro s p
  have henable : (s.port p).evqEnable = false → ((s.undrain p).port p).evqEnable = false := fun h => by rw [State.undrain_port]; exact h
  refine ⟨fun v hs he hb hlo hhi => ?enables, fun v hs he hb => ⟨fun hsize => ?sets, fun h0 hsize => ?reserved⟩, fun head hs => ?head,
    fun hp hl => ⟨fun n hlo hhi => ⟨_, doCfgWrite_up hp hl _, ?size⟩, fun d => ⟨_, doCfgWrite_up hp hl _, rfl⟩,
      fun e m => ⟨_, doCfgWrite_up hp hl _, ?msix⟩, fun v => ⟨_, doCfgWrite_up hp hl _, rfl⟩, fun v => ⟨_, doCfgWrite_up hp hl _, rfl⟩,
      fun off v hid hoff hreg hc he => ⟨_, doCfgWrite_up hp hl _, State.cfgStore_plain hid hoff hreg hc he⟩,
      fun off v h => ⟨_, doCfgWrite_up hp hl _, ?ids⟩⟩⟩
  case enables =>
    refine gives_of_hostWrite hs (.inl (by decide)) exec_hostEvqCfgWrite ?_
    rw [State.evqCfg_enables (henable he) hb ⟨hlo, hhi⟩, State.eventless_flushEvents]
    cases p <;> rfl
  case sets =>
    refine gives_of_hostWrite hs (.inl (by decide)) exec_hostEvqCfgWrite ?_
    exact State.evqCfg_sets (henable he) hb hsize
  case reserved =>
    refine gives_of_hostWrite hs (.inl (by decide)) exec_hostEvqCfgWrite ?_
    rw [State.evqCfg_reserved (henable he) hb h0 hsize]
    have hoffs := Port.evqEnable_of_errorless (State.port_of_errorless (State.errorless_misuse (s.undrain p) p) p)
    rw [State.port_modPort, State.modPort_errq, State.misuse_raised, State.undrain_errq]
    exact ⟨rfl, hoffs.trans (henable he), rfl, rfl⟩
  case head =>
    refine gives_of_hostWrite hs (.inl (by decide)) exec_eventQueueHeadWrite ?_
    exact State.eventless_flushEvents _
  case size => exact if_pos ⟨hlo, hhi⟩
  case msix => exact State.eventless_flushMsix _ p
  case ids =>
    refine ⟨State.cfgStore_ids h, ?_⟩
    have hsub : (s.cfgStore p off v).subsystem = s.subsystem := by rw [State.cfgStore_ids h]
    rw [← hsub]
    exact cfgRead_ids _ p

/-! ### Accesses that wait in freeze (R429, R544, R546) -/

theorem State.bar0Gate_frozen (hr : s.ready = true) (hf : s.freeze.frozen = true) (hl : (s.port p).linkUp = true) (hd : (s.port p).d3hot = false)
    (hb : (s.port p).barred = false) (hoff : off < 0x04000000) (hw : frozenWrite off = false) : s.bar0Gate p off true = .waits := by
  have hp : s.power.pwrGood = true := by simp only [State.ready, Bool.and_eq_true] at hr; exact hr.1
  simp only [State.bar0Gate, hp, hl, hd, hr, hb, hf, hw, decide_eq_false (Nat.not_le.mpr hoff), Bool.not_true, Bool.or_false, Bool.false_and,
    Bool.false_eq_true, if_false, if_true, ite_self]

theorem State.undrain_keepAccess (s : State) (p : HostPort) (i : Instr) : s.keeps ((s.undrain p).keepAccess p i) p i := by
  rw [State.keeps, State.undrain, State.keepAccess, State.modPort_modPort]

/-- Settles O23. -/
theorem freezeHoldsAccesses : Obligations.FreezeHoldsAccesses := by
  intro s p hr hf hl hd hb keeps
  have held : ∀ {off : Nat} (i c : Instr) (f : State → State), off < 0x04000000 → frozenWrite off = false →
      exec i s = .next (s.hostWrite p off c f) → gives i s (keeps c) := by
    intro off i c f hoff hw hexec
    refine ⟨_, hexec, ?_⟩
    simp only [State.hostWrite, State.bar0Gate_frozen hr hf hl hd hb hoff hw]
    exact State.undrain_keepAccess s p c
  refine ⟨fun n v hn => ?doorbell, fun n v hn => ?tack, fun off size v hsize hw hlo hhi => ?register, fun off len hrest henter => ?bar2,
    held (off := 0x3010) _ _ _ (by decide) (by decide) rfl⟩
  case doorbell =>
    have hoff : offDoorbell n < 0x04000000 := by unfold offDoorbell; omega
    have hfrozen : frozenWrite (offDoorbell n) = false := by
      simp only [frozenWrite, offDoorbell, Bool.or_eq_false_iff, Bool.and_eq_false_iff, beq_eq_false_iff_ne]
      exact ⟨by omega, .inl (decide_eq_false (by omega))⟩
    exact held _ _ _ hoff hfrozen (if_pos hn)
  case tack => exact held (off := 0x03640000) _ _ _ (by decide) (by decide) (if_pos hn)
  case register => exact held _ _ _ hhi hw rfl
  case bar2 =>
    have hp : s.power.pwrGood = true := by simp only [State.ready, Bool.and_eq_true] at hr; exact hr.1
    have hgate : s.bar2Gate p = .waits := by
      simp only [State.bar2Gate, hp, hl, hd, hr, hb, hf, Bool.not_true, Bool.or_false, Bool.true_or, Bool.false_eq_true, if_false, if_true]
    refine ⟨_, rfl, ?_⟩
    have hwake : (s.undrain p).wake = s.undrain p := if_neg (by rw [State.undrain_power]; exact fun h => h.elim hrest henter)
    simp only [doBar2Read, hgate, hwake]
    exact State.undrain_keepAccess s p _

end Sys2Proof.Machine
end

section
/-! CERTIFICATE. What reads and writes of BAR0 do (R18 to R23). -/

namespace Sys2Proof.Machine

variable {s t u : State} {p q : HostPort} {off v : Nat}

/-! ### Where an offset lies -/

theorem inBlock_eq_none {base stride count off : Nat} (h : off < base ∨ base + stride * count ≤ off) : inBlock base stride count off = none :=
  if_neg (by omega)

theorem inBlock_eq_some {base stride count i r : Nat} (hi : i < count) (hr : r < stride) :
    inBlock base stride count (base + stride * i + r) = some (i, r) := by
  have hmul : stride * i + r < stride * count := by
    have hstep : stride * (i + 1) ≤ stride * count := Nat.mul_le_mul_left stride hi
    rw [Nat.mul_succ] at hstep
    omega
  have hsub : base + stride * i + r - base = r + stride * i := by omega
  rw [inBlock, if_pos ⟨by omega, by omega⟩, hsub, Nat.add_mul_div_left _ _ (by omega), Nat.add_mul_mod_self_left, Nat.div_eq_of_lt hr,
    Nat.mod_eq_of_lt hr, Nat.zero_add]

theorem otherMailbox_eq_false (h : off < 0x03C00000 ∨ 0x03C30000 ≤ off) : otherMailbox p off = false := by
  have hout : ∀ a b, (0x03C00000 ≤ a ∧ b ≤ 0x03C30000) → (decide (a ≤ off) && decide (off < b)) = false := fun a b hab => by
    rw [Bool.and_eq_false_iff, decide_eq_false_iff_not, decide_eq_false_iff_not]
    omega
  rw [otherMailbox, Bool.or_eq_false_iff]
  cases p
  · exact ⟨hout _ _ (by decide), hout _ _ (by decide)⟩
  · exact ⟨hout _ _ (by decide), hout _ _ (by decide)⟩

theorem openCounter_eq_false (h : off < 0x03810000 ∨ 0x03812000 ≤ off) : openCounter off = false := by
  simp [openCounter]; omega

theorem fecSlot_eq_false (h : off < 0x03000000 ∨ 0x03030000 ≤ off) : fecSlot off = false := by
  rw [fecSlot, inBlock_eq_none (by omega)]

theorem scopedAt_eq_none (h : off < 0x03830000 ∨ 0x03832000 ≤ off) : scopedAt off = none := by
  rw [scopedAt, inBlock_eq_none (by omega), inBlock_eq_none (by omega)]

/-! ### A read that is answered -/

theorem State.answer_left (s : State) (p : HostPort) (v : Nat) :
    s.answer p v = { s with ha := (s.answer p v).ha, hb := (s.answer p v).hb } ∧ (s.answer p v).port (otherPort p) = s.port (otherPort p) ∧
      (s.answer p v).port p = { s.port p with lastRead := v, lastAbort := false } := by
  obtain ⟨hm, hmp, hmother⟩ := State.modPort_left s p (fun x => { x with lastRead := v, lastAbort := false })
  exact ⟨hm, hmother, hmp⟩

/-- An offset whose read has no effect of its own beside the bits that reading clears. -/
def plainSlot (b : Nat) : Prop := b < 0x03000000 ∨ (0x03B00000 ≤ b ∧ b < 0x03C00000)

theorem State.readSlot_plain (h : plainSlot off) (x : Half) : s.readSlot p off x = (s.slot p off, s.clearRc off x) := by
  unfold plainSlot at h
  have hopen : (openCounter off && s.mayCount p) = false := by rw [openCounter_eq_false (by omega), Bool.false_and]
  simp only [State.readSlot, otherMailbox_eq_false (p := p) (off := off) (by omega), hopen, scopedAt_eq_none (off := off) (by omega),
    fecSlot_eq_false (off := off) (by omega), if_neg (show ¬ off = 0x03800000 by omega), if_neg (show ¬ off = 0x03800028 by omega),
    Bool.false_eq_true, if_false]

theorem State.regRead_whole (h : plainSlot off) (ha : off % 8 = 0) :
    s.regRead p off 8 = (s.slot p off % 2 ^ 64, s.clearRc off { lo := true, hi := true }) := by
  have hoff : off / 8 * 8 = off := by omega
  have hal : aligned off 8 = true := by simp [aligned, ha]
  have hhalf : halves off 8 = { lo := true, hi := true } := rfl
  simp only [State.regRead, hal, hoff, hhalf, State.readSlot_plain h, Bool.not_true, Bool.false_eq_true, if_false, if_true]

theorem State.regRead_low (h : plainSlot off) (ha : off % 8 = 0) :
    s.regRead p off 4 = (s.slot p off % 2 ^ 32, s.clearRc off { lo := true, hi := false }) := by
  have hoff : off / 8 * 8 = off := by omega
  have hal : aligned off 4 = true := by simp [aligned]; omega
  have hhalf : halves off 4 = { lo := true, hi := false } := by simp [halves, ha]
  simp only [State.regRead, hal, hoff, hhalf, State.readSlot_plain h, ha, Bool.not_true, Bool.false_eq_true, if_false, if_true,
    if_neg (show ¬ (4 : Nat) = 8 by decide)]

/-- Beyond the host-port window a read is of the block that the offset lies in. -/
theorem State.slot_updLr {k : Nat} (hk : k < 64) : s.slot p (0x02800100 + 8 * k) = s.reg (0x02800100 + 8 * k) := by
  have hcore : inBlock 0x01000000 0x10000 24 (0x02800100 + 8 * k) = none := inBlock_eq_none (by omega)
  have hhub : inBlock 0x02000000 0x100000 8 (0x02800100 + 8 * k) = none := inBlock_eq_none (by omega)
  have hback : 0x02800000 + (0x02800100 + 8 * k - 0x02800000) = 0x02800100 + 8 * k := by omega
  have hupd : s.slot p (0x02800100 + 8 * k) = s.readUpd (0x02800100 + 8 * k - 0x02800000) := by
    simp only [State.slot, hcore, hhub]
    rw [if_neg (by omega), if_neg (by omega), if_pos (by omega)]
  generalize hr : 0x02800100 + 8 * k - 0x02800000 = r at hupd hback
  have hplain : s.readUpd r = s.reg (0x02800000 + r) := by
    rw [State.readUpd]
    repeat rw [if_neg (by omega)]
  rw [hupd, hplain, hback]

theorem State.clearRc_updLr {k : Nat} (hk : k < 64) (x : Half) : s.clearRc (0x02800100 + 8 * k) x = s := by
  have hhub : inBlock 0x02000000 0x100000 8 (0x02800100 + 8 * k) = none := inBlock_eq_none (by omega)
  have hport : inBlock 0x03000000 0x1000 48 (0x02800100 + 8 * k) = none := inBlock_eq_none (by omega)
  have hchalk : inBlock 0x03840000 0x40 16 (0x02800100 + 8 * k) = none := inBlock_eq_none (by omega)
  simp only [State.clearRc, hhub, hport, hchalk]
  repeat rw [if_neg (by omega)]

theorem State.slot_hub {h r : Nat} (hh : h < 8) (hr : r < 0x100000) : s.slot p (0x02000000 + 0x100000 * h + r) = s.readHub h r := by
  have hcore : inBlock 0x01000000 0x10000 24 (0x02000000 + 0x100000 * h + r) = none := inBlock_eq_none (by omega)
  simp only [State.slot, hcore, inBlock_eq_some hh hr]
  rw [if_neg (by omega), if_neg (by omega)]

theorem State.clearRc_hub {h r : Nat} (hh : h < 8) (hr : r < 0x100000) (x : Half) :
    s.clearRc (0x02000000 + 0x100000 * h + r) x =
      if r = 0x20 then s.modHub h (fun y => { y with corrected := if x.hi then 0 else y.corrected, uncorrectable := if x.lo then 0 else y.uncorrectable })
      else s := by
  simp only [State.clearRc, inBlock_eq_some hh hr]
  rw [if_neg (by omega)]

theorem exec_bar0Read {size : Nat} : exec (.bar0Read p off size) s = .next (s.hostRead p off size (.bar0Read p off size) (fun t => t.regRead p off size)) := rfl

theorem exec_rcRegisterRead {size : Nat} (h : rcSlot (off / 8 * 8) = true) :
    exec (.rcRegisterRead p off size) s = .next (s.hostRead p off size (.rcRegisterRead p off size) (fun t => t.regRead p off size)) :=
  congrArg Host.Outcome.next (if_pos h)

/-- The answer of a served read whose effect is `w`, which keeps `u` but for the ports. -/
theorem State.answer_agrees {w : State} (hw : w = { u with ha := w.ha, hb := w.hb }) (hother : w.port (otherPort p) = s.port (otherPort p))
    (hown : w.port p = { s.port p with draining := false }) (v : Nat) :
    w.answer p v = { u with ha := (w.answer p v).ha, hb := (w.answer p v).hb } ∧ (w.answer p v).port (otherPort p) = s.port (otherPort p) ∧
      (w.answer p v).port p = { s.port p with lastRead := v, lastAbort := false, draining := false } := by
  obtain ⟨ha, haother, hap⟩ := State.answer_left w p v
  generalize w.answer p v = t at ha haother hap
  exact ⟨by rw [ha, hw], haother.trans hother, by rw [hap, hown]⟩

theorem State.undrain_left (s : State) (p : HostPort) : s.undrain p = { s with ha := (s.undrain p).ha, hb := (s.undrain p).hb } :=
  (State.modPort_left s p (fun x => { x with draining := false })).1

theorem State.undrain_answers (s : State) (p : HostPort) (v : Nat) :
    let t := (s.undrain p).answer p v
    t = { s with ha := t.ha, hb := t.hb } ∧ t.port (otherPort p) = s.port (otherPort p) ∧
      t.port p = { s.port p with lastRead := v, lastAbort := false, draining := false } :=
  State.answer_agrees (State.undrain_left s p) (State.undrain_port_ne (otherPort_ne p)) (State.undrain_port p) v

theorem State.port_hubs (s : State) (m) (p : HostPort) : ({ s with hubs := m } : State).port p = s.port p := by cases p <;> rfl

theorem State.port_hiLatch (s : State) (m) (p : HostPort) : ({ s with hiLatch := m } : State).port p = s.port p := by cases p <;> rfl

theorem State.port_errq (s : State) (m) (p : HostPort) : ({ s with errq := m } : State).port p = s.port p := by cases p <;> rfl

/-- R22: a read of the error counts of a hub answers them, and clears those of the half that is read. -/
theorem State.readCounts_answered (hh : SMap.rising s.hubs = true) (h v : Nat) (f : Hub → Hub) :
    let t := ((s.undrain p).modHub h f).answer p v
    (t = { ({ s with hubs := t.hubs } : State) with ha := t.ha, hb := t.hb } ∧ t.port (otherPort p) = s.port (otherPort p) ∧
      t.port p = { s.port p with lastRead := v, lastAbort := false, draining := false }) ∧
    t.hub h = f (s.hub h) ∧ ∀ k, k ≠ h → t.hub k = s.hub k := by
  have hund := State.undrain_left s p
  have hhub : ∀ k, (s.undrain p).hub k = s.hub k := fun k => by simp only [State.hub, State.undrain_hubs]
  have hrise : SMap.rising (s.undrain p).hubs = true := by rw [State.undrain_hubs]; exact hh
  have hother : (s.undrain p).port (otherPort p) = s.port (otherPort p) := State.undrain_port_ne (otherPort_ne p)
  have hown := State.undrain_port (s := s) p
  generalize s.undrain p = w at hund hhub hrise hother hown
  have hsame := State.hub_modHub (f := f) (i := h) hrise
  have hne := fun k (hk : k ≠ h) => State.hub_modHub_ne (f := f) (i := h) hrise hk
  have hmod : w.modHub h f = { s with ha := w.ha, hb := w.hb, hubs := (w.modHub h f).hubs } := by
    rw [State.modHub, State.setHub, hund]
  have hport : ∀ q, (w.modHub h f).port q = w.port q := fun q => by cases q <;> rfl
  rw [hhub] at hsame
  generalize w.modHub h f = m at hsame hne hmod hport
  obtain ⟨ha, haother, hap⟩ := State.answer_left m p v
  generalize m.answer p v = t at ha haother hap
  have hhubs : t.hubs = m.hubs := by rw [ha]
  have hthub : ∀ k, t.hub k = m.hub k := fun k => by simp only [State.hub, hhubs]
  refine ⟨⟨?_, ?_, ?_⟩, ?_, fun k hk => ?_⟩
  · rw [ha, hmod]
  · rw [haother, hport, hother]
  · rw [hap, hport, hown]
  · rw [hthub, hsame]
  · rw [hthub, hne k hk, hhub]

/-- R310: the two error counts of a hub in one register, and the half of it that the low word is. -/
theorem readHub_counts (s : State) (h : Nat) :
    s.readHub h 0x20 % 2 ^ 64 = fld (s.hub h).corrected 31 0 * 2 ^ 32 + fld (s.hub h).uncorrectable 31 0 ∧
      s.readHub h 0x20 % 2 ^ 32 = fld (s.hub h).uncorrectable 31 0 := by
  have hval : s.readHub h 0x20 = fld (s.hub h).corrected 31 0 * 2 ^ 32 + fld (s.hub h).uncorrectable 31 0 := by
    change put (s.hub h).corrected 63 32 + put (s.hub h).uncorrectable 31 0 = _
    simp [put, fld, Nat.shiftLeft_eq]
  have hc : fld (s.hub h).corrected 31 0 < 2 ^ 32 := Nat.mod_lt _ (by decide)
  have hu : fld (s.hub h).uncorrectable 31 0 < 2 ^ 32 := Nat.mod_lt _ (by decide)
  rw [hval]
  omega

theorem State.undrain_hub (s : State) (p : HostPort) (h : Nat) : (s.undrain p).hub h = s.hub h := by
  simp only [State.hub, State.undrain_hubs]

theorem rcSlot_hub {h : Nat} (hh : h < 8) : rcSlot (0x02000000 + 0x100000 * h + 0x20) = true := by
  simp only [rcSlot, inBlock_eq_some hh (show 0x20 < 0x100000 by decide), beq_self_eq_true, Bool.or_true, Bool.true_or]

/-- R23: a read of the time answers it whole, or its low half, the high half latched for its reader. -/
theorem exec_obsTimeLoRead {size : Nat} :
    exec (.obsTimeLoRead (match p with | .ha => Reader.ha | .hb => Reader.hb) size) s =
      .next (s.hostRead p 0x03800000 size (.obsTimeLoRead (match p with | .ha => Reader.ha | .hb => Reader.hb) size) (fun t => t.timeLo (portNum p) size)) := by
  cases p <;> rfl

/-- Settles O24. -/
theorem registerReads : Obligations.RegisterReads := by
  intro s p ht hs answered
  refine ⟨fun k hk => ?updLr, fun h hh => ?prio, fun off size hbad hreach => ?unaligned, fun k hk => ?mailbox, fun h hh => ⟨?counts, ?low⟩, ?conserve, ?time⟩
  case updLr =>
    refine gives_of_hostRead hs (.inr (by omega)) exec_bar0Read ?_
    rw [State.regRead_whole (.inl (by omega)) (by omega), State.slot_updLr hk, State.clearRc_updLr hk, State.undrain_reg]
    exact State.undrain_answers s p _
  case prio =>
    have hoff : 0x02000030 + 0x100000 * h = 0x02000000 + 0x100000 * h + 0x30 := by omega
    have hval : (s.undrain p).readHub h 0x30 = s.reg (hubReg h 0x30) := State.undrain_reg s p _
    rw [hoff]
    refine gives_of_hostRead hs (.inr (by omega)) exec_bar0Read ?_
    rw [State.regRead_whole (.inl (by omega)) (by omega), State.slot_hub hh (by decide), State.clearRc_hub hh (by decide), if_neg (by decide), hval]
    exact State.undrain_answers s p _
  case unaligned =>
    obtain ⟨-, hlt, hm⟩ := hreach
    have hal : aligned off size = false := by
      simp only [aligned, Bool.and_eq_false_iff, Bool.or_eq_false_iff, beq_eq_false_iff_ne]
      exact hbad
    have hread : (s.undrain p).regRead p off size = (onesOf size, (s.undrain p).misuse p) := by
      simp only [State.regRead, hal, Bool.not_false, if_true]
    have hlog := State.errorless_misuse (s.undrain p) p
    have hraised := State.misuse_raised (s.undrain p) p
    obtain ⟨ha, -, hap⟩ := State.answer_left ((s.undrain p).misuse p) p (onesOf size)
    have hqueues := (State.queues_of_errorless hlog).1
    have hregs : ((s.undrain p).misuse p).regs = (s.undrain p).regs := by
      have hr := congrArg State.regs hlog
      exact hr
    rw [State.undrain_queues] at hqueues
    rw [State.undrain_errq] at hraised
    rw [State.undrain_regs] at hregs
    refine ⟨_, exec_bar0Read.trans (congrArg Host.Outcome.next (State.hostRead_served hs hlt hm _ _ _)), ?_⟩
    rw [hread]
    generalize (s.undrain p).misuse p = w at ha hap hqueues hraised hregs
    generalize w.answer p (onesOf size) = t at ha hap
    refine ⟨by rw [hap]; rfl, ?_, ?_, ?_⟩
    · rw [ha]; exact hraised
    · rw [ha]; exact hqueues
    · rw [ha]; exact hregs
  case mailbox =>
    have hq : portNum (otherPort p) < 2 := by cases p <;> decide
    have hother : otherMailbox p (0x03C00000 + 0x100 * portNum (otherPort p) + 8 * k) = true := by
      simp only [otherMailbox, Bool.or_eq_true, Bool.and_eq_true, decide_eq_true_eq]
      omega
    generalize hoff : 0x03C00000 + 0x100 * portNum (otherPort p) + 8 * k = off at hother
    refine gives_of_hostRead hs (.inr (by omega)) exec_bar0Read ?_
    have hread : (s.undrain p).regRead p off 8 = ((2 ^ 64 - 1) % 2 ^ 64, s.undrain p) := by
      have hal : aligned off 8 = true := by simp [aligned]; omega
      have hback : off / 8 * 8 = off := by omega
      simp only [State.regRead, hal, hback, State.readSlot, hother, State.pure, Bool.not_true, Bool.false_eq_true, if_false, if_true]
      rfl
    rw [hread]
    exact State.undrain_answers s p _
  case counts =>
    have hoff : 0x02000020 + 0x100000 * h = 0x02000000 + 0x100000 * h + 0x20 := by omega
    rw [hoff]
    refine gives_of_hostRead hs (.inr (by omega)) (exec_rcRegisterRead (by rw [Nat.div_mul_cancel (by omega)]; exact rcSlot_hub hh)) ?_
    rw [State.regRead_whole (.inl (by omega)) (by omega), State.slot_hub hh (by decide), State.clearRc_hub hh (by decide), if_pos rfl,
      (readHub_counts _ h).1, State.undrain_hub]
    exact State.readCounts_answered (State.tidy_hubs ht) h _ _
  case low =>
    have hoff : 0x02000020 + 0x100000 * h = 0x02000000 + 0x100000 * h + 0x20 := by omega
    rw [hoff]
    refine gives_of_hostRead hs (.inr (by omega)) (exec_rcRegisterRead (by rw [Nat.div_mul_cancel (by omega)]; exact rcSlot_hub hh)) ?_
    rw [State.regRead_low (.inl (by omega)) (by omega), State.slot_hub hh (by decide), State.clearRc_hub hh (by decide), if_pos rfl,
      (readHub_counts _ h).2, State.undrain_hub]
    exact State.readCounts_answered (State.tidy_hubs ht) h _ _
  case conserve =>
    refine gives_of_hostRead hs (.inr (by decide)) (exec_rcRegisterRead (by decide)) ?_
    have hslot : (s.undrain p).slot p 0x03B00030 = s.errq.conserveReg := congrArg ErrQueue.conserveReg (State.undrain_errq s p)
    have hclear : (s.undrain p).clearRc 0x03B00030 { lo := true, hi := true } =
        { s.undrain p with errq := { s.errq with replayMismatch := 0, storeMismatch := 0, tokenRestores := 0, rebuilds := 0 } } := by
      rw [← State.undrain_errq s p]; rfl
    rw [State.regRead_whole (.inr (by decide)) (by decide), hslot, hclear]
    have hund := State.undrain_left s p
    generalize s.undrain p = w at hund
    generalize hm : ({ w with errq := _ } : State) = m
    obtain ⟨ha, -, hap⟩ := State.answer_left m p (s.errq.conserveReg % 2 ^ 64)
    generalize m.answer p _ = t at ha hap
    refine ⟨by rw [ha, ← hm, hund], by rw [hap]⟩
  case time =>
    refine ⟨gives_of_hostRead hs (.inr (by decide)) exec_obsTimeLoRead ?whole, gives_of_hostRead hs (.inr (by decide)) exec_obsTimeLoRead ?half⟩
    case whole =>
      have hval : (s.undrain p).timeLo (portNum p) 8 = (s.now % 2 ^ 64, s.undrain p) := by rw [← State.undrain_now s p]; rfl
      rw [hval]
      exact State.undrain_answers s p _
    case half =>
      have hval : (s.undrain p).timeLo (portNum p) 4 = (s.now % 2 ^ 32,
          { s.undrain p with hiLatch := SMap.set none s.hiLatch (portNum p) (some (s.now / 2 ^ 32 % 2 ^ 32)) }) := by
        rw [← State.undrain_now s p, ← State.undrain_hiLatch s p]; rfl
      rw [hval]
      have hund := State.undrain_left s p
      refine State.answer_agrees ?_ ?_ ?_ _
      · generalize s.undrain p = w at hund
        rw [hund]
      · exact (State.port_hiLatch _ _ _).trans (State.undrain_port_ne (otherPort_ne p))
      · exact (State.port_hiLatch _ _ _).trans (State.undrain_port p)

/-! ### Writes (R19, R20, R22) -/

theorem exec_registerWrite {size : Nat} : exec (.registerWrite p off size v) s = .next (s.hostWrite p off (.registerWrite p off size v) (fun t =>
    if t.resting && decide (0x1000 ≤ off) && decide (off < 0x1200) && aligned off size then t.wake.keepAccess p (.registerWrite p off size v)
    else t.regWrite p off size v)) := rfl

/-- A write of a register that is no doorbell and that the management controller does not serve has the register's effect. -/
theorem gives_of_registerWrite (hs : s.serves p) (hoff : off < 0x1000 ∨ 0x1200 ≤ off) (hlt : off < 0x04000000)
    (hm : managed off = true → s.activating 1 = false) {size : Nat} {P : State → Prop} (hP : P ((s.undrain p).regWrite p off size v)) :
    gives (.registerWrite p off size v) s P := by
  refine ⟨_, exec_registerWrite.trans (congrArg Host.Outcome.next (State.hostWrite_served hs hlt hm _ _)), ?_⟩
  have hdoor : ((s.undrain p).resting && decide (0x1000 ≤ off) && decide (off < 0x1200) && aligned off size) = false := by
    rcases hoff with h | h
    · simp [Nat.not_le.mpr h]
    · simp [Nat.not_lt.mpr h]
  simp only [hdoor, Bool.false_eq_true, if_false]
  exact hP

/-- R20: a write that no register takes is dropped. -/
theorem State.regWrite_drops {size : Nat}
    (h : (size ≠ 4 ∧ size ≠ 8) ∨ off % size ≠ 0 ∨ decoded (off / 8 * 8) = false ∨ otherMailbox p (off / 8 * 8) = true) :
    s.regWrite p off size v = s.misuse p := by
  have hbad : (!aligned off size || !decoded (off / 8 * 8) || otherMailbox p (off / 8 * 8)) = true := by
    rcases h with ⟨h4, h8⟩ | h | h | h
    · simp [aligned, h4, h8]
    · simp [aligned, h]
    · simp [h]
    · simp [h]
  simp only [State.regWrite, hbad, if_true]

theorem State.undrain_dropped (s : State) (p : HostPort) :
    ((s.undrain p).misuse p).errorless = (s.undrain p).errorless ∧ ((s.undrain p).misuse p).errq.raised = s.errq.raised + 1 :=
  State.undrain_logged s p 0

theorem decoded_upd {k : Nat} (hk : k < 64) : decoded (0x02800100 + 8 * k) = true := by
  rw [decoded, Bool.or_eq_true]
  refine .inl (List.any_eq_true.mpr ⟨(0x02800000, 0x02800FFF), by decide, ?_⟩)
  simp only [Bool.and_eq_true, decide_eq_true_eq]
  omega

/-- R438: no transaction stages UPD_LR. -/
theorem stFields_updLr {off : Nat} (hlo : 0x02800100 ≤ off) (hhi : off < 0x02800310) : stFields off = none := by
  have hne : ∀ a ∈ [0x03780000, 0x02800010, 0x02810000, 0x02810008, 0x03100000, 0x03100008, 0x03100018, 0x03100020], ¬ off = a := by
    simp only [List.mem_cons, List.not_mem_nil, or_false, forall_eq_or_imp, forall_eq]
    omega
  simp only [List.mem_cons, List.not_mem_nil, or_false, forall_eq_or_imp, forall_eq] at hne
  have hcore : inBlock 0x01000000 0x10000 24 off = none := inBlock_eq_none (by omega)
  have hhub : inBlock 0x02000000 0x100000 8 off = none := inBlock_eq_none (by omega)
  have hport : inBlock 0x03000000 0x1000 48 off = none := inBlock_eq_none (by omega)
  have hrecipe : inBlock 0x02800900 4 448 off = none := inBlock_eq_none (by omega)
  have hcomm : inBlock 0x03200000 0x10 256 off = none := inBlock_eq_none (by omega)
  have hroute : inBlock 0x03300000 4 32768 off = none := inBlock_eq_none (by omega)
  simp only [stFields, hne, hcore, hhub, hport, hrecipe, hcomm, hroute, if_false]

theorem Half.merge_whole (cur v : Nat) : Half.merge { lo := true, hi := true } cur (v % 2 ^ 64) = v % 2 ^ 64 := by
  simp only [Half.merge, if_true]; omega

theorem State.regWrite_updLr {k : Nat} (hk : k < 64) : s.regWrite p (0x02800100 + 8 * k) 8 v = s.setReg (0x02800100 + 8 * k) (v % 2 ^ 64) := by
  have hback : (0x02800100 + 8 * k) / 8 * 8 = 0x02800100 + 8 * k := by omega
  have hal : aligned (0x02800100 + 8 * k) 8 = true := by simp [aligned]
  have hother : otherMailbox p (0x02800100 + 8 * k) = false := otherMailbox_eq_false (by omega)
  have hst : stSlot (0x02800100 + 8 * k) = false := by
    rw [stSlot, stFields_updLr (by omega) (by omega), stFields_updLr (by omega) (by omega)]; rfl
  have hhalf : halves (0x02800100 + 8 * k) 8 = { lo := true, hi := true } := rfl
  have hslot : s.writeSlot p (0x02800100 + 8 * k) { lo := true, hi := true } (v % 2 ^ 64) = s.setReg (0x02800100 + 8 * k) (v % 2 ^ 64) := by
    have hcore : inBlock 0x01000000 0x10000 24 (0x02800100 + 8 * k) = none := inBlock_eq_none (by omega)
    have hhub : inBlock 0x02000000 0x100000 8 (0x02800100 + 8 * k) = none := inBlock_eq_none (by omega)
    simp only [State.writeSlot, hcore, hhub, Half.merge_whole]
    rw [if_neg (by omega), if_neg (by omega), if_neg (by omega), if_pos (by omega)]
  simp only [State.regWrite, hback, hal, hother, hst, hhalf, decoded_upd hk, Bool.not_true, Bool.or_false, Bool.false_eq_true, if_false, if_true, hslot]

/-- R528: OBS_CTL, a register of the steward. -/
theorem State.regWrite_obsCtl : s.regWrite p 0x03800008 4 v = s.byStewardOnly p (fun s => s.setReg 0x03800008 (put (fld (v % 2 ^ 32) 31 31) 31 31)) := by
  cases p <;> rfl

theorem put_bit31 (v : Nat) : put (fld (v % 2 ^ 32) 31 31) 31 31 = if v.testBit 31 then 2 ^ 31 else 0 := by
  have hb : (v % 2 ^ 32).testBit 31 = v.testBit 31 := by rw [Nat.testBit_mod_two_pow]; rfl
  have hf : fld (v % 2 ^ 32) 31 31 = ((v % 2 ^ 32).testBit 31).toNat := by
    rw [Nat.testBit_eq_decide_div_mod_eq, fld, Nat.shiftRight_eq_div_pow]
    change v % 2 ^ 32 / 2 ^ 31 % 2 = _
    rcases Nat.mod_two_eq_zero_or_one (v % 2 ^ 32 / 2 ^ 31) with h | h <;> rw [h] <;> rfl
  rw [hf, hb]
  cases v.testBit 31 <;> rfl

theorem State.undrain_setReg (hr : SMap.rising s.regs = true) (p : HostPort) (off v : Nat) :
    let t := (s.undrain p).setReg off v
    t = { s.undrain p with regs := t.regs } ∧ t.reg off = v ∧ ∀ k, k ≠ off → t.reg k = s.reg k := by
  have hrise : SMap.rising (s.undrain p).regs = true := by rw [State.undrain_regs]; exact hr
  exact ⟨rfl, State.reg_setReg hrise, fun k hk => by rw [State.reg_setReg_ne hrise hk, State.undrain_reg]⟩

/-- Settles O25. -/
theorem registerWrites : Obligations.RegisterWrites := by
  intro s p ht hs u
  have hregs := State.tidy_regs ht
  refine ⟨fun k v hk => ?updLr, fun v hp => ?steward, fun v hp => ?peer, fun off size v hoff hm hbad => ?dropped, ?rearm⟩
  case updLr =>
    refine gives_of_registerWrite hs (.inr (by omega)) (by omega) (fun h => absurd h (by rw [managed_eq_false (.inr (by omega))]; decide)) ?_
    rw [State.regWrite_updLr hk]
    exact State.undrain_setReg hregs p _ _
  case steward =>
    refine gives_of_registerWrite hs (.inr (by decide)) (by decide) (fun h => absurd h (by decide)) ?_
    rw [State.regWrite_obsCtl, State.byStewardOnly_takes (by rw [State.undrain_roles]; exact hp), put_bit31]
    exact State.undrain_setReg hregs p _ _
  case peer =>
    refine gives_of_registerWrite hs (.inr (by decide)) (by decide) (fun h => absurd h (by decide)) ?_
    rw [State.regWrite_obsCtl, State.byStewardOnly_drops (by rw [State.undrain_roles]; exact hp)]
    exact State.undrain_dropped s p
  case dropped =>
    rcases Nat.lt_or_ge off 0x04000000 with hlt | hge
    · refine gives_of_registerWrite hs hoff hlt hm ?_
      rw [State.regWrite_drops hbad]
      exact State.undrain_dropped s p
    · have hgate : s.bar0Gate p off true = .unsupported := by
        obtain ⟨hr, hl, hd, -⟩ := hs
        have hp : s.power.pwrGood = true := by simp only [State.ready, Bool.and_eq_true] at hr; exact hr.1
        simp only [State.bar0Gate, hp, hl, hd, hr, decide_eq_true hge, Bool.not_true, Bool.or_false, Bool.true_or, Bool.false_eq_true, if_false, if_true]
      refine ⟨_, exec_registerWrite, ?_⟩
      simp only [State.hostWrite, hgate]
      exact State.undrain_logged s p 20
  case rearm => exact gives_of_hostWrite hs (.inr (by decide)) (c := .nanTrapRearm p) (off := 0x02800040) (f := State.rearmNan) rfl rfl

end Sys2Proof.Machine
end

section
/-! CERTIFICATE. Chalk buffers as hosts and the chalk writer drive them (R534 to R541). -/

namespace Sys2Proof.Machine

variable {s t u : State} {p q : HostPort} {b off v : Nat}

/-! ### The table of buffers: what events and freeze leave of it -/

theorem State.chalk_of_eventless (h : s.eventless = t.eventless) : s.chalk = t.chalk ∧ s.chalkQ = t.chalkQ := by
  have hc := congrArg State.chalk h
  have hq := congrArg State.chalkQ h
  exact ⟨hc, hq⟩

theorem State.raiseEvent_chalk (s : State) (c v : Nat) : (s.raiseEvent c v).chalk = s.chalk ∧ (s.raiseEvent c v).chalkQ = s.chalkQ :=
  State.chalk_of_eventless (State.eventless_raiseEvent s c v)

/-- Flits sent are the link's alone. -/
theorem foldl_emit_eq (h : Nat) (pl : List Byte) (q : Nat) (ps : List Nat) (s : State) :
    ps.foldl (fun s k => s.emit k h pl q) s =
      { s with link := { s.link with sentFlits := s.link.sentFlits ++ ps.map (fun k => (k, Flit.mk h pl (flitCrc h pl q))) } } := by
  induction ps generalizing s with
  | nil => simp only [List.foldl_nil, List.map_nil, List.append_nil]
  | cons k ps ih =>
    rw [List.foldl_cons, ih]
    simp only [State.emit, List.map_cons, List.append_assoc, List.cons_append, List.nil_append]

/-- R542: the beginning of freeze changes the account of freeze, and sends HOLD on every port that is UP. -/
theorem State.beginFreeze_eq (s : State) :
    s.beginFreeze = { s with
      freeze := { s.freeze with frozen := true, holding := (upto 48).filter (fun k => (s.fport k).state == .up) != [], holdExpired := false,
                                freezes := sat 16 (s.freeze.freezes + 1), began := s.now, frozenMs := 0 },
      link := { s.link with sentFlits := s.link.sentFlits ++ ((upto 48).filter (fun k => (s.fport k).state == .up)).map (fun k =>
        (k, Flit.mk (put fkHold 63 61) (pad240 []) (flitCrc (put fkHold 63 61) (pad240 []) 0))) } } := by
  rw [State.beginFreeze, foldl_emit_eq]

theorem State.assertChalkFreeze_chalk (s : State) : s.assertChalkFreeze.chalk = s.chalk ∧ s.assertChalkFreeze.chalkQ = s.chalkQ := by
  rw [State.assertChalkFreeze]
  split
  · exact ⟨rfl, rfl⟩
  · rw [State.beginFreeze_eq]; exact ⟨rfl, rfl⟩

theorem State.buffer_of_chalk (h : s.chalk = t.chalk) (k : Nat) : s.buffer k = t.buffer k := by simp only [State.buffer, h]

/-! ### The table stays in rising order -/

theorem State.rising_setBuffer (h : SMap.rising s.chalk = true) (x : Chalk) : SMap.rising (s.setBuffer b x).chalk = true := SMap.rising_set h

theorem State.rising_chalkStore (h : SMap.rising s.chalk = true) (bs : List Byte) : SMap.rising (s.chalkStore b bs).chalk = true :=
  SMap.rising_set h

theorem State.rising_chalkCountDown (h : SMap.rising s.chalk = true) : SMap.rising (s.chalkCountDown b).chalk = true := by
  simp only [State.chalkCountDown]
  split
  · split
    · split
      · rw [(State.assertChalkFreeze_chalk _).1]; exact State.rising_setBuffer h _
      · exact State.rising_setBuffer h _
    · exact State.rising_setBuffer h _
  · exact h

theorem State.rising_chalkGap (h : SMap.rising s.chalk = true) : SMap.rising (s.chalkGap b).chalk = true := by
  simp only [State.chalkGap, (State.raiseEvent_chalk _ _ _).1]
  exact State.rising_chalkCountDown (State.rising_chalkStore (State.rising_setBuffer h _) _)

theorem State.rising_chalkPut (h : SMap.rising s.chalk = true) (bs : List Byte) : SMap.rising (s.chalkPut b bs).chalk = true := by
  have hgap : SMap.rising (if s.gapDue b then s.chalkGap b else s).chalk = true := by
    split
    · exact State.rising_chalkGap h
    · exact h
  simp only [State.chalkPut]
  generalize (if s.gapDue b then s.chalkGap b else s) = w at hgap
  split
  · split
    · exact State.rising_setBuffer hgap _
    · exact State.rising_chalkCountDown (State.rising_chalkStore hgap bs)
  · split
    · exact State.rising_setBuffer hgap _
    · exact hgap

/-! ### START, STOP, TRIGGER and the registers (R534 to R537) -/

theorem State.undrain_buffer (s : State) (p : HostPort) (k : Nat) : (s.undrain p).buffer k = s.buffer k :=
  State.buffer_of_chalk (State.undrain_chalk (s := s) p) k

theorem State.undrain_chalkMay (s : State) (p q : HostPort) (v : Nat) : (s.undrain p).chalkMay q v = s.chalkMay q v := by
  simp only [State.chalkMay, State.allows, State.undrain_isSteward, State.undrain_reg]

theorem State.undrain_chalkPlaced (s : State) (p : HostPort) (c : Chalk) : (s.undrain p).chalkPlaced c = s.chalkPlaced c := by
  cases p <;> rfl

/-- A write of one buffer of the state that a served access finds. -/
theorem State.undrain_setBuffer (h : SMap.rising s.chalk = true) (p : HostPort) (b : Nat) (x : Chalk) :
    let t := (s.undrain p).setBuffer b x
    t = { s.undrain p with chalk := t.chalk } ∧ (∀ k, k ≠ b → t.buffer k = s.buffer k) ∧ t.buffer b = x := by
  have hr : SMap.rising (s.undrain p).chalk = true := by rw [State.undrain_chalk]; exact h
  exact ⟨rfl, fun k hk => by rw [State.buffer_setBuffer_ne hr hk, State.undrain_buffer], State.buffer_setBuffer hr⟩

theorem State.chalkTrigger_triggers (h : SMap.rising s.chalk = true) (hst : (s.buffer b).state ≠ .stopped) (c d : Nat) :
    ((s.chalkTrigger b c d).buffer b).triggered = true := by
  have hrise := State.rising_chalkPut (b := b) h (chalkBytes s.now 4 0 0xFF 0 0 (put c 7 0 + put d 63 8))
  simp only [State.chalkTrigger, if_neg hst]
  generalize s.chalkPut b _ = w at hrise
  split
  · rw [State.buffer_of_chalk (State.assertChalkFreeze_chalk _).1, State.buffer_setBuffer hrise]
  · rw [State.buffer_setBuffer hrise]

theorem setFld_zero {v hi lo : Nat} (h : fld v hi lo = 0) : setFld v hi lo 0 = v := by
  simp [setFld, h, put]

/-- R535: a configuration whose fields are all defined is taken as it is written. -/
theorem chalkCfgOf_defined (hv : v < 2 ^ 64) (h47 : fld v 47 42 = 0) (h29 : fld v 29 24 = 0) (hpol : fld v 62 61 ≠ 3) (hlo : 11 ≤ fld v 52 48)
    (hhi : fld v 52 48 ≤ 27) : chalkCfgOf v = v := by
  simp only [chalkCfgOf, Nat.mod_eq_of_lt hv, setFld_zero h47, setFld_zero h29, if_neg hpol]
  rw [if_neg (by omega)]

theorem offChalk_plain (hb : b < 16) {r : Nat} (hr : r < 0x40) :
    offChalk b r < 0x00100000 ∨ (0x01000000 ≤ offChalk b r ∧ offChalk b r < 0x04000000) := by
  unfold offChalk; omega

theorem State.chalkCmd_allowed (h : s.chalkMay p (s.buffer b).cfg = true) :
    s.chalkCmd p b 1 = (if (s.chalkStart b).2 then (s.chalkStart b).1.misuse p else (s.chalkStart b).1) ∧ s.chalkCmd p b 2 = s.chalkStop b ∧
      s.chalkCmd p b 3 = s.chalkTrigger b 1 0 := by
  have hno : (!s.chalkMay p (s.buffer b).cfg) = false := by rw [h]; rfl
  refine ⟨?_, ?_, ?_⟩ <;> simp only [State.chalkCmd, hno] <;> rfl

theorem State.chalkStart_records (he : bit (s.buffer b).cfg 63 = true) (hp : s.chalkPlaced (s.buffer b) = true) :
    s.chalkStart b = (s.setBuffer b (s.buffer b).start, false) := by
  simp only [State.chalkStart, Chalk.enabled, he, hp, Bool.not_true, Bool.false_eq_true, if_false]

/-! ### The chalk writer (R538, R539) -/

theorem State.countBytes_uncounted (s : State) (rd : Bool) (a n : Nat) : (s.countBytes none rd a n).ctx = s.ctx := by
  simp only [State.countBytes]
  split
  · rfl
  · rfl
  · rfl
  · split
    · split <;> rfl
    · rfl
  · rfl

/-- A record of the writer, stored at its place. -/
def State.storeWaiting (s : State) (b : Nat) (x : ChalkWait) : State :=
  (s.writeBytes ((s.buffer b).base + 32 * x.pos) x.bytes).countBytes none false ((s.buffer b).base + 32 * x.pos) 32

theorem State.storeWaiting_eq (s : State) (b : Nat) (x : ChalkWait) :
    ∃ po co g, s.storeWaiting b x =
      { s with mem := (s.putBytes ((s.buffer b).base + 32 * x.pos) x.bytes).mem, poison := po, covered := co, gctr := g } := by
  obtain ⟨po, co, g, c, h⟩ := State.writeBytes_counted s ((s.buffer b).base + 32 * x.pos) 32 x.bytes
  have hwrite := State.writeBytes_eq (s := s) ((s.buffer b).base + 32 * x.pos) x.bytes
  have hctx := State.countBytes_uncounted (s.writeBytes ((s.buffer b).base + 32 * x.pos) x.bytes) false ((s.buffer b).base + 32 * x.pos) 32
  rw [h] at hctx
  generalize s.writeBytes ((s.buffer b).base + 32 * x.pos) x.bytes = w at hwrite hctx
  have hc : c = s.ctx := by rw [hwrite] at hctx; exact hctx
  exact ⟨po, co, g, by rw [State.storeWaiting, h, hc]⟩

/-- What a unit of records leaves, and the memory outside their places. -/
structure UnitStored (b : Nat) (xs : List ChalkWait) (s t : State) : Prop where
  rest : t = { s with mem := t.mem, poison := t.poison, covered := t.covered, gctr := t.gctr }
  outside : ∀ a, (∀ x ∈ xs, a < (s.buffer b).base + 32 * x.pos ∨ (s.buffer b).base + 32 * x.pos + x.bytes.length ≤ a) → t.memByte a = s.memByte a

theorem foldl_storeWaiting (b : Nat) (xs : List ChalkWait) (s : State) (h : Memory.wf s.mem = true) :
    UnitStored b xs s (xs.foldl (fun s x => s.storeWaiting b x) s) := by
  induction xs generalizing s with
  | nil => exact ⟨rfl, fun _ _ => rfl⟩
  | cons x xs ih =>
    obtain ⟨po, co, g, hx⟩ := State.storeWaiting_eq s b x
    rw [List.foldl_cons, hx]
    obtain ⟨hrest, hout⟩ := ih { s with mem := (s.putBytes ((s.buffer b).base + 32 * x.pos) x.bytes).mem, poison := po, covered := co, gctr := g }
      (State.putBytes_wf _ _ h)
    generalize xs.foldl (fun (s : State) x => s.storeWaiting b x) _ = t at hrest hout
    refine ⟨by rw [hrest], fun a ha => ?_⟩
    rw [hout a (fun y hy => ha y (List.mem_cons_of_mem _ hy))]
    exact State.memByte_putBytes_out h (ha x List.mem_cons_self)

/-- R538: the state in which a unit's records leave the writer. -/
def State.unitTaken (s : State) (r : ChalkWait) (rs : List ChalkWait) : State :=
  { s with now := if rs.length + 1 < 8 then max s.now (r.time + 2000) else s.now, chalkQ := s.chalkQ.filter (fun x => !decide (x ∈ r :: rs)) }

theorem doUnitFlush_stores {r : ChalkWait} {rs : List ChalkWait} (hr : s.ready = true) (hf : s.freeze.frozen = false) (h : s.unitRecs b = r :: rs) :
    doUnitFlush b s = (r :: rs).foldl (fun s x => s.storeWaiting b x) (s.unitTaken r rs) := by
  have hgo : (!s.ready || s.freeze.frozen) = false := by rw [hr, hf]; rfl
  simp only [doUnitFlush, h, hgo, Bool.false_eq_true, if_false]
  rfl

/-! ### The GAP record (R539) -/

theorem State.chalkStore_left (s : State) (b : Nat) (bs : List Byte) :
    (s.chalkStore b bs).chalkQ = s.chalkQ ++ [ChalkWait.mk b (s.buffer b).next bs s.now] := rfl

theorem State.chalkStore_pending (h : SMap.rising s.chalk = true) (bs : List Byte) :
    ((s.chalkStore b bs).buffer b).pending = (s.buffer b).pending := by
  have hset : ∀ x, (s.chalkStore b bs).chalk = (s.setBuffer b x).chalk → ((s.chalkStore b bs).buffer b).pending = x.pending :=
    fun x hx => by rw [State.buffer_of_chalk hx, State.buffer_setBuffer h]
  have hleft := hset _ rfl
  exact hleft

theorem State.chalkCountDown_left (h : SMap.rising s.chalk = true) :
    (s.chalkCountDown b).chalkQ = s.chalkQ ∧ ((s.chalkCountDown b).buffer b).pending = (s.buffer b).pending := by
  have hset : ∀ x, (s.setBuffer b x).chalkQ = s.chalkQ ∧ ((s.setBuffer b x).buffer b).pending = x.pending :=
    fun x => ⟨rfl, by rw [State.buffer_setBuffer h]⟩
  simp only [State.chalkCountDown]
  split
  · split
    · split
      · obtain ⟨hc, hq⟩ := State.assertChalkFreeze_chalk (s.setBuffer b { s.buffer b with post := 0, state := .stopped })
        rw [hq, State.buffer_of_chalk hc]
        exact hset _
      · exact hset _
    · exact hset _
  · exact ⟨rfl, rfl⟩

theorem State.chalkGap_left (h : SMap.rising s.chalk = true) :
    ((s.chalkGap b).buffer b).pending = 0 ∧
      (s.chalkGap b).chalkQ = s.chalkQ ++ [ChalkWait.mk b (s.buffer b).next (chalkBytes s.now 5 0 0xFF 0 0 (s.buffer b).pending) s.now] := by
  have hstart := State.rising_setBuffer (b := b) h { s.buffer b with
    pending := 0, state := if (s.buffer b).state = .full then .recording else (s.buffer b).state }
  have hbuf := State.buffer_setBuffer (i := b) (x := { s.buffer b with
    pending := 0, state := if (s.buffer b).state = .full then .recording else (s.buffer b).state }) h
  simp only [State.chalkGap, (State.raiseEvent_chalk _ _ _).2]
  rw [State.buffer_of_chalk (State.raiseEvent_chalk _ _ _).1]
  generalize hw : s.setBuffer b _ = w at hstart hbuf
  have hnow : w.now = s.now := by rw [← hw]; rfl
  have hq : w.chalkQ = s.chalkQ := by rw [← hw]; rfl
  obtain ⟨hcq, hcp⟩ := State.chalkCountDown_left (b := b) (State.rising_chalkStore (b := b) hstart (chalkBytes w.now 5 0 0xFF 0 0 (s.buffer b).pending))
  rw [hcq, hcp, State.chalkStore_pending hstart, State.chalkStore_left, hbuf, hnow, hq]
  exact ⟨rfl, rfl⟩

/-- Settles O26. -/
theorem chalkBuffers : Obligations.ChalkBuffers := by
  intro s p b ht hb u c
  have hrise := State.tidy_chalk ht
  have hmay : ∀ v, (s.undrain p).chalkMay p v = s.chalkMay p v := State.undrain_chalkMay s p p
  have hbuf : (s.undrain p).buffer b = s.buffer b := State.undrain_buffer s p b
  refine ⟨fun hs hm he hp => ?start, fun hs hm => ?stop, fun hs hm hst => ?trigger, fun v hs hm hv h47 h29 hpol hlo hhi hst => ?configured,
    fun v hs hm hok he => ?cleared, fun v hs hpol hpend => ?head, fun r rs hr hf hrecs => ⟨_, if_pos hb, ?flush⟩, fun hr hgap => ⟨_, if_pos hb, ?gap⟩⟩
  case start =>
    refine gives_of_hostWrite hs (offChalk_plain hb (by decide)) (if_pos hb) ?_
    rw [(State.chalkCmd_allowed (by rw [hbuf, hmay]; exact hm)).1,
      State.chalkStart_records (by rw [hbuf]; exact he) (by rw [hbuf, State.undrain_chalkPlaced]; exact hp), hbuf]
    exact State.undrain_setBuffer hrise p b _
  case stop =>
    refine gives_of_hostWrite hs (offChalk_plain hb (by decide)) (if_pos hb) ?_
    rw [(State.chalkCmd_allowed (by rw [hbuf, hmay]; exact hm)).2.1, State.chalkStop, State.modBuffer, hbuf]
    exact State.undrain_setBuffer hrise p b _
  case trigger =>
    refine gives_of_hostWrite hs (offChalk_plain hb (by decide)) (if_pos hb) ?_
    rw [(State.chalkCmd_allowed (by rw [hbuf, hmay]; exact hm)).2.2]
    exact ⟨State.errorless_chalkTrigger _ b 1 0, State.chalkTrigger_triggers (by rw [State.undrain_chalk]; exact hrise) (by rw [hbuf]; exact hst) 1 0⟩
  case configured =>
    refine gives_of_hostWrite hs (offChalk_plain hb (by decide)) (if_pos hb) ?_
    have hbad : chalkCfgBad v = false := by
      simp [chalkCfgBad, hpol, Nat.not_lt.mpr hlo, Nat.not_lt.mpr hhi]
    have hset : (s.undrain p).chalkCfg p b v = (s.undrain p).setBuffer b { c with cfg := v } := by
      have hst' : (s.buffer b).state = .stopped := hst
      simp only [State.chalkCfg, hmay, hm, hbad, State.modBuffer, hbuf, hst', chalkCfgOf_defined hv h47 h29 hpol hlo hhi, Bool.not_true,
        Bool.false_eq_true, if_false, if_true, ite_self, c]
    rw [hset]
    exact State.undrain_setBuffer hrise p b _
  case cleared =>
    refine gives_of_hostWrite hs (offChalk_plain hb (by decide)) (if_pos hb) ?_
    have hset : (s.undrain p).chalkCfg p b v = (s.undrain p).setBuffer b
        { (if c.state = .stopped then { c with cfg := chalkCfgOf v } else { c with cfg := setFld c.cfg 63 63 (b2n (bit v 63)) }) with state := .stopped } := by
      simp only [State.chalkCfg, hmay, hm, hok, he, State.modBuffer, hbuf, Bool.not_true, Bool.false_eq_true, if_false, c]
    rw [hset]
    obtain ⟨hrest, -, hat⟩ := State.undrain_setBuffer hrise p b
      { (if c.state = .stopped then { c with cfg := chalkCfgOf v } else { c with cfg := setFld c.cfg 63 63 (b2n (bit v 63)) }) with state := .stopped }
    exact ⟨hrest, congrArg Chalk.state hat⟩
  case head =>
    refine gives_of_hostWrite hs (offChalk_plain hb (by decide)) (if_pos hb) ?_
    have hset : (s.undrain p).chalkHead b v = (s.undrain p).setBuffer b
        { c with head := v % 2 ^ 28, count := (c.next + c.size - v % 2 ^ 28 % c.size) % c.size } := by
      have hdue : ∀ x : Chalk, x.pending = 0 → ((s.undrain p).setBuffer b x).gapDue b = false := by
        intro x hx
        have hr : SMap.rising (s.undrain p).chalk = true := by rw [State.undrain_chalk]; exact hrise
        simp only [State.gapDue, State.buffer_setBuffer hr, hx]
        rfl
      have hpol' : (s.buffer b).policy = 1 := hpol
      simp only [State.chalkHead, hbuf, hpol', if_true, c]
      exact if_neg (by rw [hdue _ (by exact hpend)]; exact Bool.false_ne_true)
    rw [hset]
    exact State.undrain_setBuffer hrise p b _
  case flush =>
    rw [doUnitFlush_stores hr hf hrecs]
    have hlate : (rs.length + 1 < 8) = (rs.length < 7) := propext (by omega)
    obtain ⟨hrest, hout⟩ := foldl_storeWaiting b (r :: rs) (s.unitTaken r rs) (State.tidy_mem ht)
    have hone : rs = [] → ∀ i, i < r.bytes.length → s.unreachable (c.base + 32 * r.pos + i) = false →
        ((r :: rs).foldl (fun s x => s.storeWaiting b x) (s.unitTaken r rs)).memByte (c.base + 32 * r.pos + i) = r.bytes.getD i 0 := by
      intro hnil i hi hreach
      obtain ⟨po, co, g, hx⟩ := State.storeWaiting_eq (s.unitTaken r rs) b r
      rw [hnil] at hx ⊢
      rw [List.foldl_cons, List.foldl_nil, hx]
      exact State.memByte_putBytes_in (s := s.unitTaken r []) (State.tidy_mem ht) hi hreach
    generalize (r :: rs).foldl (fun (s : State) x => s.storeWaiting b x) (s.unitTaken r rs) = t at hrest hout hone
    refine ⟨?_, hout, hone⟩
    rw [hrest, State.unitTaken]
    simp only [hlate]
  case gap =>
    have hgo : doGap b s = s.chalkGap b := if_pos (by rw [hr, hgap]; rfl)
    rw [hgo]
    exact ⟨State.errorless_chalkGap s b, State.chalkGap_left hrise⟩

end Sys2Proof.Machine
end

section
/-! CERTIFICATE. Freeze and state read-out (R537, R542 to R548). -/

namespace Sys2Proof.Machine

variable {s t u : State} {p q : HostPort} {off v : Nat}

/-! ### An access that is served, in freeze too -/

theorem gives_of_servedWrite (hg : s.bar0Gate p off true = .served) {i c : Instr} {f : State → State} {P : State → Prop}
    (hexec : exec i s = .next (s.hostWrite p off c f)) (hP : P (f (s.undrain p))) : gives i s P := by
  refine ⟨_, hexec, ?_⟩
  simp only [State.hostWrite, hg]
  exact hP

theorem gives_of_servedRead (hg : s.bar0Gate p off false = .served) {i c : Instr} {n : Nat} {f : State → Nat × State} {P : State → Prop}
    (hexec : exec i s = .next (s.hostRead p off n c f)) (hP : P ((f (s.undrain p)).2.answer p (f (s.undrain p)).1)) : gives i s P := by
  refine ⟨_, hexec, ?_⟩
  simp only [State.hostRead, hg]
  exact hP

/-! ### Freeze begins (R542, R543) -/

/-- What the beginning of freeze leaves: its account `f`, and HOLD sent on every port that is UP. -/
def State.heldFrom (s : State) (f : Freeze) : State :=
  { s with
    freeze := { f with frozen := true, holding := (upto 48).any (fun k => (s.fport k).state == .up), holdExpired := false,
                       freezes := min (s.freeze.freezes + 1) (2 ^ 16 - 1), began := s.now, frozenMs := 0 },
    link := { s.link with sentFlits := s.link.sentFlits ++ ((upto 48).filter (fun k => (s.fport k).state == .up)).map (fun k =>
      (k, Flit.mk (3 * 2 ^ 61) (List.replicate 240 0) (flitCrc (3 * 2 ^ 61) (List.replicate 240 0) 0))) } }

theorem filter_ne_nil_eq_any (l : List Nat) (f : Nat → Bool) : (l.filter f != []) = l.any f := by
  rw [Bool.eq_iff_iff]
  simp [List.filter_eq_nil_iff]

theorem State.beginFreeze_held (s : State) (f : Freeze) (hf : f.freezes = s.freeze.freezes) :
    State.beginFreeze { s with freeze := f } = s.heldFrom f := by
  rw [State.beginFreeze_eq, State.heldFrom]
  have hheader : put fkHold 63 61 = 3 * 2 ^ 61 := rfl
  have hpad : pad240 [] = List.replicate 240 0 := rfl
  rw [hheader, hpad, filter_ne_nil_eq_any]
  simp only [hf, sat]
  rfl

theorem State.applyFreeze_begins (s : State) (f : Freeze) (ha : f.asserted = true) (hf : f.frozen = false) (hr : s.ready = true)
    (hn : f.freezes = s.freeze.freezes) : State.applyFreeze { s with freeze := f } = s.heldFrom f := by
  rw [← State.beginFreeze_held s f hn]
  exact if_pos (by rw [show ({ s with freeze := f } : State).ready = s.ready from rfl, hr]; simp [ha, hf])

/-- What a state frozen shows depends on its time, its link and its account of freeze alone. -/
theorem State.heldFrom_agrees (hn : s.now = t.now) (hl : s.link = t.link) (hf : s.freeze = t.freeze) (f : Freeze) :
    (s.heldFrom f).freeze = (t.heldFrom f).freeze ∧ (s.heldFrom f).link = (t.heldFrom f).link := by
  have hp : ∀ k, s.fport k = t.fport k := fun k => by simp only [State.fport, hl]
  simp only [State.heldFrom, hn, hl, hf, hp, and_self]

/-! ### Freeze ends (R544) -/

/-- The state that goes on: its deadlines moved by the time it was frozen. -/
def State.goesOn (s : State) : State :=
  { s.shiftTimers (s.now - s.freeze.began) with
    freeze := { s.freeze with frozen := false, holding := false, frozenMs := min ((s.now - s.freeze.began) / 1000000) (2 ^ 32 - 1) } }

theorem State.applyFreeze_ends (ha : s.freeze.asserted = false) (hf : s.freeze.frozen = true) :
    s.applyFreeze = s.goesOn.endHold.chalkFreezeRecords s.freeze.began := by
  have hbegin : (s.freeze.asserted && !s.freeze.frozen && s.ready) = false := by rw [ha]; rfl
  have hsettle : (s.freeze.frozen && !s.freeze.asserted) = true := by rw [ha, hf]; rfl
  simp only [State.applyFreeze, State.settleFreeze, hbegin, hsettle, Bool.false_eq_true, if_false, if_true]
  rfl

/-- Settles O27. -/
theorem freezeControl : Obligations.FreezeControl := by
  intro s p hr frozenNow goesOn
  have hroles : (s.undrain p).roles = s.roles := State.undrain_roles s p
  have on : ∀ w : State, w.freeze.asserted = false → w.freeze.frozen = true → w.now = s.now → w.roles = s.roles → w.mem = s.mem →
      w.queues = s.queues → w.freeze.began = s.freeze.began → goesOn w w.applyFreeze := by
    intro w ha hf hnow hro hm hq hb
    refine ⟨w.goesOn, ?_, ?_, ?_, hm, hq⟩
    · rw [State.applyFreeze_ends ha hf, hb]
    · rw [← hnow, ← hb]; rfl
    · rw [← hnow, ← hb, ← hro]; rfl
  refine ⟨fun ns hns hpin hf => ⟨_, rfl, ?pinFreezes⟩, fun ns hf hsw hch => ⟨_, rfl, ?pinEnds⟩, fun hs hp => ?swFreezes,
    fun hg hp hf hpin hch => ?swEnds, fun hg hp hf hpin hsw => ?chalkEnds, fun hg hp b => ?peer⟩
  case pinFreezes =>
    have hgood : (!s.power.pwrGood) = false := by simp only [State.ready, Bool.and_eq_true] at hr; rw [hr.1]; rfl
    have heq : doFreezePin true ns s = State.heldFrom { s with power := { s.power with frzLow := true } } { s.freeze with pin := true } := by
      rw [← State.applyFreeze_begins { s with power := { s.power with frzLow := true } } { s.freeze with pin := true } rfl hf hr rfl]
      simp only [doFreezePin, hgood, hpin, decide_eq_true hns, Bool.and_self, Bool.not_true, Bool.and_false, Bool.false_eq_true, if_false]
    rw [heq]
    exact ⟨⟨rfl, rfl⟩, rfl⟩
  case pinEnds =>
    have hgood : (!s.power.pwrGood) = false := by simp only [State.ready, Bool.and_eq_true] at hr; rw [hr.1]; rfl
    have heq : doFreezePin false ns s =
        State.applyFreeze { s with power := { s.power with frzLow := false }, freeze := { s.freeze with pin := false } } := by
      simp only [doFreezePin, hgood, Bool.false_and, Bool.false_eq_true, if_false]
    rw [heq]
    exact on { s with power := { s.power with frzLow := false }, freeze := { s.freeze with pin := false } }
      (by simp only [Freeze.asserted, hsw, hch, Bool.or_self]) hf rfl rfl rfl rfl rfl
  case swFreezes =>
    have hf : s.freeze.frozen = false := hs.2.2.2.2.1
    refine gives_of_hostWrite hs (off := 0x03800010) (.inr (by decide)) rfl ?_
    have hready : (s.undrain p).ready = true := by simp only [State.ready, State.undrain_power, State.undrain_bring]; exact hr
    have hfreeze : (s.undrain p).freeze = s.freeze := State.undrain_freeze s p
    obtain ⟨hheld, hlink⟩ := State.heldFrom_agrees (s := s.undrain p) (t := s) (State.undrain_now s p) (State.undrain_link s p) hfreeze { s.freeze with sw := true }
    rw [State.byStewardOnly_takes (by rw [hroles]; exact hp), State.setSwFreeze, hfreeze,
      State.applyFreeze_begins (s.undrain p) { s.freeze with sw := true } (by simp [Freeze.asserted]) hf hready (by rw [hfreeze])]
    exact ⟨⟨hheld, hlink⟩, rfl⟩
  case swEnds =>
    refine gives_of_servedWrite hg rfl ?_
    rw [State.byStewardOnly_takes (by rw [hroles]; exact hp), State.setSwFreeze, State.undrain_freeze]
    exact on { s.undrain p with freeze := { s.freeze with sw := false } } (by simp only [Freeze.asserted, hpin, hch, Bool.or_self]) hf
      (State.undrain_now s p) hroles (State.undrain_mem s p) (State.undrain_queues s p) rfl
  case chalkEnds =>
    refine gives_of_servedWrite hg rfl ?_
    rw [State.byStewardOnly_takes (by rw [hroles]; exact hp), State.clearChalkFreeze, State.undrain_freeze]
    exact on { s.undrain p with freeze := { s.freeze with chalk := false } } (by simp only [Freeze.asserted, hpin, hsw, Bool.or_self]) hf
      (State.undrain_now s p) hroles (State.undrain_mem s p) (State.undrain_queues s p) rfl
  case peer =>
    refine gives_of_servedWrite hg rfl ?_
    rw [State.byStewardOnly_drops (by rw [hroles]; exact hp)]
    exact State.undrain_dropped s p

/-! ### State read-out (R547, R548) -/

/-- R547: the selector of a core store, field by field, and the one of the next 8 bytes. -/
theorem roSel_coreStore {c off : Nat} (hc : c < 24) (hoff : off < 0x2000000) :
    fld (c * 2 ^ 52 + off) 63 60 = 0 ∧ fld (c * 2 ^ 52 + off) 59 52 = c ∧ fld (c * 2 ^ 52 + off) 51 48 = 0 ∧ fld (c * 2 ^ 52 + off) 31 0 = off ∧
      setFld (c * 2 ^ 52 + off) 31 0 (off + 8) = c * 2 ^ 52 + off + 8 := by
  simp only [setFld, put, fld, Nat.shiftRight_eq_div_pow, Nat.shiftLeft_eq]
  omega

theorem State.roRead_answers {c : Nat} (hf : s.freeze.frozen = true) (hc : c < 24) (hoff : off < 0x2000000) (hal : off % 8 = 0)
    (hsel : s.freeze.roSel = c * 2 ^ 52 + off) (hp : s.roles.steward = some p) :
    s.roRead p = (if s.confidential (s.core c).sramDomain then 0 else ofLe (s.rawBytes (0x0D0000000000 + 0x2000000 * c + off) 8),
      { s with freeze := { s.freeze with roSel := c * 2 ^ 52 + off + 8 } }) := by
  obtain ⟨hkind, hunit, hsub, hat, hnext⟩ := roSel_coreStore hc hoff
  have hsize : roSize 0 c 0 = some 0x2000000 := by simp only [roSize, hc, and_self, if_true]
  have hgo : (s.freeze.frozen && s.isSteward p && off % 8 == 0 && decide (off < 0x2000000)) = true := by
    rw [hf, State.isSteward_iff.mpr hp, hal, decide_eq_true hoff]; rfl
  simp only [State.roRead, hsel, hkind, hunit, hsub, hat, hnext, hsize, hgo, if_true, State.roWord]

theorem State.roRead_fails {c : Nat} (hc : c < 24) (hoff : off < 0x2000000) (hsel : s.freeze.roSel = c * 2 ^ 52 + off) (hp : s.roles.steward ≠ some p) :
    s.roRead p = (2 ^ 64 - 1, { s with freeze := { s.freeze with roError := true } }) := by
  obtain ⟨hkind, hunit, hsub, hat, -⟩ := roSel_coreStore hc hoff
  have hsize : roSize 0 c 0 = some 0x2000000 := by simp only [roSize, hc, and_self, if_true]
  have hgo : (s.freeze.frozen && s.isSteward p && off % 8 == 0 && decide (off < 0x2000000)) = false := by
    have hs : s.isSteward p = false := Bool.eq_false_iff.mpr (mt State.isSteward_iff.mp hp)
    rw [hs, Bool.and_false]; rfl
  simp only [State.roRead, hsel, hkind, hunit, hsub, hat, hsize, hgo, Bool.false_eq_true, if_false]
  rfl

theorem exec_obsRoDataRead : exec (.obsRoDataRead (match p with | .ha => Reader.ha | .hb => Reader.hb)) s =
    .next (s.hostRead p 0x03800028 8 (.obsRoDataRead (match p with | .ha => Reader.ha | .hb => Reader.hb)) (fun t => t.roRead p)) := by
  cases p <;> rfl

theorem State.port_freeze (s : State) (f) (p : HostPort) : ({ s with freeze := f } : State).port p = s.port p := by cases p <;> rfl

/-- A read that changes the account of freeze alone. -/
theorem State.freeze_answers (s : State) (p : HostPort) (f : Freeze) (v : Nat) :
    let t := State.answer { s.undrain p with freeze := f } p v
    (t.port p).lastRead = v ∧ t.freeze = f ∧ t = { s with ha := t.ha, hb := t.hb, freeze := f } := by
  have hund := State.undrain_left s p
  generalize s.undrain p = w at hund
  generalize hm : ({ w with freeze := f } : State) = m
  obtain ⟨ha, -, hap⟩ := State.answer_left m p v
  generalize m.answer p v = t at ha hap
  exact ⟨by rw [hap], by rw [ha, ← hm], by rw [ha, ← hm, hund]⟩

theorem State.undrain_rawBytes (s : State) (p : HostPort) (a n : Nat) : (s.undrain p).rawBytes a n = s.rawBytes a n := by cases p <;> rfl

/-- Settles O28. -/
theorem stateReadOut : Obligations.StateReadOut := by
  intro s c off hf hc hoff hal hsel
  refine ⟨fun p hg => ⟨fun hp => ?answers, fun hp => ?fails⟩, fun hgood => ⟨_, rfl, if_pos hgood⟩⟩
  case answers =>
    refine gives_of_servedRead hg exec_obsRoDataRead ?_
    have hfreeze : (s.undrain p).freeze = s.freeze := State.undrain_freeze s p
    have hcore : (s.undrain p).core c = s.core c := by simp only [State.core, State.undrain_cores]
    have hconf : ∀ d, (s.undrain p).confidential d = s.confidential d := fun d => by simp only [State.confidential, State.undrain_sec]
    rw [State.roRead_answers (by rw [hfreeze]; exact hf) hc hoff hal (by rw [hfreeze]; exact hsel) (by rw [State.undrain_roles]; exact hp),
      hfreeze, hcore, hconf, State.undrain_rawBytes]
    obtain ⟨hval, hfr, hrest⟩ := State.freeze_answers s p { s.freeze with roSel := c * 2 ^ 52 + off + 8 }
      (if s.confidential (s.core c).sramDomain then 0 else ofLe (s.rawBytes (0x0D0000000000 + 0x2000000 * c + off) 8))
    exact ⟨hval, by rw [hfr], by rw [hfr]; exact hrest⟩
  case fails =>
    refine gives_of_servedRead hg exec_obsRoDataRead ?_
    have hfreeze : (s.undrain p).freeze = s.freeze := State.undrain_freeze s p
    rw [State.roRead_fails hc hoff (by rw [hfreeze]; exact hsel) (by rw [State.undrain_roles]; exact hp), hfreeze]
    obtain ⟨hval, -, hrest⟩ := State.freeze_answers s p { s.freeze with roError := true } (2 ^ 64 - 1)
    exact ⟨hval, hrest⟩

end Sys2Proof.Machine
end

section
/-! CERTIFICATE. Power states, capping, temperatures, the time input and the management bus (R399, R448 to R455, R559, R563). -/

namespace Sys2Proof.Machine

variable {s t u : State} {p q : HostPort} {v : Nat}

/-! ### MOD_POWER_CTL and the rail (R448 to R450) -/

/-- R448: the word of MOD_POWER_CTL whose fields are all in range. -/
theorem State.takeFields_powerCtl (s : State) (hreq : fld v 31 30 ≤ 1) (hlo : 1000 ≤ fld v 26 16) (hhi : fld v 26 16 ≤ 1800) (hv : fld v 13 8 ≤ 40) :
    s.takeFields 0x40 powerCtlFields v = (fld v 31 30 * 2 ^ 30 + fld v 26 16 * 2 ^ 16 + fld v 13 8 * 2 ^ 8, false) := by
  simp only [State.takeFields, powerCtlFields, List.foldl_cons, List.foldl_nil, if_pos (And.intro (Nat.zero_le _) hreq), if_pos (And.intro hlo hhi),
    if_pos (And.intro (Nat.zero_le _) hv), put, Nat.shiftLeft_eq, Nat.zero_add, Prod.mk.injEq, and_true]
  have h1 : fld v 31 30 < 2 ^ 2 := Nat.lt_of_le_of_lt hreq (by decide)
  have h2 : fld v 26 16 < 2 ^ 11 := Nat.lt_of_le_of_lt hhi (by decide)
  have h3 : fld v 13 8 < 2 ^ 6 := Nat.lt_of_le_of_lt hv (by decide)
  rw [Nat.mod_eq_of_lt h1, Nat.mod_eq_of_lt h2, Nat.mod_eq_of_lt h3]

theorem State.slewTo_left (s : State) (mv : Nat) :
    s.slewTo mv = { s with power := { s.power with
      railMv := (s.slewTo mv).power.railMv, targetMv := mv, slewFrom := (s.slewTo mv).power.slewFrom } } := by
  by_cases h : mv = s.power.targetMv
  · subst h; simp only [State.slewTo, if_true]
  · simp only [State.slewTo, if_neg h]

theorem doRestEntry_enters (ha : s.alive = true) (hr : s.power.restReq = true) (hq : s.quiet = true) :
    doRestEntry s = ((s.slewTo 550).powerState .entering).restReached := if_pos (by rw [ha, hr, hq]; rfl)

theorem doRestExit_leaves (hr : s.ready = true) (hx : s.power.state = .exiting) :
    doRestExit s = (s.slewTo s.power.wanted).railReached.powerState .active := if_pos (by rw [hr, hx]; rfl)

theorem State.wake_left (s : State) :
    s.wake = { s with power := { s.power with
      state := s.wake.power.state, railMv := s.wake.power.railMv, targetMv := s.wake.power.targetMv, slewFrom := s.wake.power.slewFrom } } := by
  simp only [State.wake]
  split
  · rw [State.slewTo_left]; rfl
  · rfl

theorem State.applyRail_left (s : State) :
    s.applyRail = { s with power := { s.power with
      railMv := s.applyRail.power.railMv, targetMv := s.applyRail.power.targetMv, slewFrom := s.applyRail.power.slewFrom } } := by
  simp only [State.applyRail]
  split
  · rw [State.slewTo_left]
  · rfl

/-! ### Power capping (R451, R452) -/

/-- The state at the end of a 1 ms window, before MOD_POWER_CTL is taken. -/
def State.windowEnds (s : State) (watts : Nat) (r : SupplyReading) : State :=
  let u : State := { s.takeSupply r with now := (s.now / 1000000 + 1) * 1000000 }
  let cap := u.windowCap watts
  let u : State := { u with power := { u.power with
    vCap := cap, inputW := watts, throttleMs := if u.power.thermLimits then sat 24 (u.power.throttleMs + 1) else u.power.throttleMs } }
  u.setUnmet (cap == 650 && decide (u.power.capW < watts))

theorem doPowerWindow_takes (hr : s.ready = true) (hst : s.power.standby = true) (watts : Nat) (r : SupplyReading) :
    doPowerWindow watts r s = (s.windowEnds watts r).takePowerCtl.applyRail := by
  have hready : (s.takeSupply r).ready = true := hr
  simp only [doPowerWindow, hst, hready, if_true, State.windowEnds]
  rfl

/-- R451: the cap that a window sets. -/
def State.capAfter (s : State) (watts : Nat) : Nat :=
  if s.power.capW < watts then
    max 650 (State.railNow { s with now := (s.now / 1000000 + 1) * 1000000 } - 5 * min 10 ((watts - s.power.capW + 24) / 25))
  else if watts + 25 < s.power.capW ∧ s.power.vCap < 850 then s.power.vCap + 5 else s.power.vCap

theorem State.windowEnds_left (s : State) (watts : Nat) (r : SupplyReading) :
    let t := s.windowEnds watts r
    t = { s with now := (s.now / 1000000 + 1) * 1000000, power := t.power } ∧ t.power.vCap = s.capAfter watts ∧ t.power.inputW = watts ∧
      (t.power.capUnmet = true ↔ s.capAfter watts = 650 ∧ s.power.capW < watts) ∧ t.power.vin = min r.vin (2 ^ 16 - 1) := by
  have hcap : State.windowCap { s.takeSupply r with now := (s.now / 1000000 + 1) * 1000000 } watts = s.capAfter watts := rfl
  simp only [State.windowEnds, hcap, State.setUnmet]
  split
  · next h =>
    have hh : s.capAfter watts = 650 ∧ s.power.capW < watts := by
      simp only [Bool.and_eq_true, beq_iff_eq, decide_eq_true_eq] at h; exact h
    exact ⟨rfl, rfl, rfl, ⟨fun _ => hh, fun _ => rfl⟩, rfl⟩
  · next h =>
    have hh : ¬ (s.capAfter watts = 650 ∧ s.power.capW < watts) := by
      simp only [Bool.and_eq_true, beq_iff_eq, decide_eq_true_eq] at h; exact h
    exact ⟨rfl, rfl, rfl, ⟨fun hc => absurd hc Bool.false_ne_true, fun hc => absurd hc hh⟩, rfl⟩

/-- R449: what taking MOD_POWER_CTL, and moving the rail, leave of the supply's account. -/
theorem State.takePowerCtl_left (s : State) :
    let t := s.takePowerCtl.applyRail
    t = { s with power := t.power } ∧ t.power = { s.power with
      capW := fld (s.reg 0x40) 26 16, vTargetMv := 650 + 5 * fld (s.reg 0x40) 13 8, restReq := fld (s.reg 0x40) 31 30 == 1, state := t.power.state,
      railMv := t.power.railMv, targetMv := t.power.targetMv, slewFrom := t.power.slewFrom } := by
  have htake : s.takePowerCtl = { s with power := { s.power with
      capW := fld (s.reg 0x40) 26 16, vTargetMv := 650 + 5 * fld (s.reg 0x40) 13 8, restReq := fld (s.reg 0x40) 31 30 == 1,
      state := s.takePowerCtl.power.state, railMv := s.takePowerCtl.power.railMv, targetMv := s.takePowerCtl.power.targetMv,
      slewFrom := s.takePowerCtl.power.slewFrom } } := by
    simp only [State.takePowerCtl]
    split
    · rfl
    · rw [State.wake_left]
  have hrail := State.applyRail_left s.takePowerCtl
  generalize s.takePowerCtl = w at htake hrail
  generalize w.applyRail = t at hrail
  exact ⟨by rw [hrail, htake], by rw [hrail, htake]⟩

theorem State.applyRail_vCap (s : State) : s.applyRail.power.vCap = s.power.vCap := by rw [State.applyRail_left]

/-- R452: the fast interval's cut of the cap. -/
theorem doPowerFast_cuts {watts : Nat} (hr : s.ready = true) (ha : s.power.fastArmed = true) (hw : s.power.capW + 150 < watts) :
    ∃ f, doPowerFast watts s = { State.applyRail { s with power := { s.power with vCap := max 650 (min s.power.vCap s.railNow - 25) } } with
      power := { (State.applyRail { s with power := { s.power with vCap := max 650 (min s.power.vCap s.railNow - 25) } }).power with fastArmed := f } } :=
  ⟨_, if_pos (by rw [hr, ha, decide_eq_true hw]; rfl)⟩

theorem doRailSlewComplete_reaches (hg : s.power.pwrGood = true) (hne : s.power.railMv ≠ s.power.targetMv) :
    doRailSlewComplete s = s.railReached.restReached := if_pos (by simp [hg, hne])

/-- Settles O30. -/
theorem powerStates : Obligations.PowerStates := by
  refine ⟨fun s p v ht hs hp hreq hlo hhi hv => ?ctl, fun s ha hr hq => ⟨_, rfl, ?enters⟩, fun s hr hx => ⟨_, rfl, ?leaves⟩,
    fun s watts r hr hst => ?window, fun s watts hr ha hw => ⟨_, rfl, ?fast⟩, fun s hg hu => ?alert, fun s hg hne => ⟨_, rfl, ?slewed⟩⟩
  case ctl =>
    refine gives_of_hostWrite hs (off := 0x40) (.inl (by decide)) rfl ?_
    have hset : (s.undrain p).powerCtl p v = (s.undrain p).setReg 0x40 (fld v 31 30 * 2 ^ 30 + fld v 26 16 * 2 ^ 16 + fld v 13 8 * 2 ^ 8) := by
      rw [State.powerCtl, State.byStewardOnly_takes (by rw [State.undrain_roles]; exact hp), State.takeFields_powerCtl _ hreq hlo hhi hv]
      rfl
    rw [hset]
    obtain ⟨hrest, hat, hoff⟩ := State.undrain_setReg (State.tidy_regs ht) p 0x40 (fld v 31 30 * 2 ^ 30 + fld v 26 16 * 2 ^ 16 + fld v 13 8 * 2 ^ 8)
    exact ⟨hrest, hoff, hat⟩
  case enters =>
    rw [doRestEntry_enters ha hr hq]
    have hslew := State.slewTo_left s 550
    generalize s.slewTo 550 = w at hslew
    simp only [State.restReached]
    split
    · next h => exact ⟨by rw [hslew]; rfl, by rw [hslew]; rfl, (if_pos h.2).symm⟩
    · next h => exact ⟨by rw [hslew]; rfl, by rw [hslew]; rfl, (if_neg (fun hh => h ⟨rfl, hh⟩)).symm⟩
  case leaves =>
    rw [doRestExit_leaves hr hx]
    have hslew := State.slewTo_left s s.power.wanted
    generalize s.slewTo s.power.wanted = w at hslew
    have hnow : w.now = s.now := by rw [hslew]
    refine ⟨by rw [hslew]; rfl, ?_, rfl, rfl, by rw [hslew]; rfl⟩
    rw [← hnow]
    exact Nat.le_max_left _ _
  case window =>
    intro v x cap
    refine ⟨_, rfl, ?_⟩
    rw [doPowerWindow_takes hr hst]
    obtain ⟨hw, hcap, hwatts, hunmet, hvin⟩ := State.windowEnds_left s watts r
    obtain ⟨ht, hp⟩ := State.takePowerCtl_left (s.windowEnds watts r)
    generalize s.windowEnds watts r = w at hw hcap hwatts hunmet hvin ht hp
    have hreg : w.reg 0x40 = v := by rw [hw]; rfl
    generalize w.takePowerCtl.applyRail = t at ht hp
    rw [hreg] at hp
    refine ⟨by rw [ht, hw], ?_, ?_, ?_, ?_, ?_, ?_, ?_⟩
    · rw [hp]; exact hcap
    · rw [hp]; exact hwatts
    · rw [hp]
    · rw [hp]
    · rw [hp]; exact beq_iff_eq
    · rw [hp]; exact hunmet
    · rw [hp]; exact hvin
  case fast =>
    obtain ⟨f, hf⟩ := doPowerFast_cuts hr ha hw
    have hrail := State.applyRail_left { s with power := { s.power with vCap := max 650 (min s.power.vCap s.railNow - 25) } }
    rw [hf]
    generalize State.applyRail _ = w at hrail
    exact ⟨by rw [hrail], by rw [hrail]⟩
  case alert =>
    refine ⟨_, if_pos (by rw [hg, hu]; rfl) |> congrArg Host.Outcome.next, rfl, fun hst => ?_⟩
    simp only [State.alertAsserted, hst, hg, Bool.or_true, Bool.true_or, Bool.and_self]
  case slewed =>
    rw [doRailSlewComplete_reaches hg hne]
    have hnow : s.power.railMv ≤ s.power.targetMv → max s.now s.power.stableAt = max s.now (s.power.slewFrom + 1000 * (s.power.targetMv - s.power.railMv)) :=
      fun hle => by rw [Power.stableAt, if_pos hle]
    by_cases h : s.power.state = .entering ∧ s.power.targetMv = 550
    · have hat : s.railReached.restReached = s.railReached.powerState .rest := if_pos h
      rw [hat, if_pos h]
      exact ⟨rfl, hnow⟩
    · have hat : s.railReached.restReached = s.railReached := if_neg h
      rw [hat, if_neg h]
      exact ⟨rfl, hnow⟩

/-! ### Thermal control (R453, R454) -/

/-- R453: the account of the supply with the temperatures read. -/
def Power.read (x : Power) (die hub ps : Nat) : Power := { x with tjDie := die, tjHub := hub, tPs := ps, vTherm := thermStep x.vTherm die }

theorem exec_thermalRead (die hub ps : Nat) (hubs : List Nat) (hr : s.ready = true) : exec (.thermalRead die hub ps hubs) s =
    .next ((State.hubTemps (State.holdStep { s with power := s.power.read die hub ps } die) hubs).applyRail) :=
  congrArg Host.Outcome.next (if_pos hr)

/-- R454: thermal hold begins with its count and its report, ends, or stands. -/
theorem State.holdStep_left (s : State) (die : Nat) :
    let t := s.holdStep die
    t.errorless = State.errorless { s with power := t.power } ∧
    t.power = { s.power with hold := t.power.hold, holdPhase := t.power.holdPhase, holds := t.power.holds } ∧
    (t.power.hold = true ↔ (105 ≤ die ∨ (s.power.hold = true ∧ 100 ≤ die))) ∧
    (s.power.hold = false → 105 ≤ die → t.power.holds = min (s.power.holds + 1) 255 ∧ t.errq.raised = s.errq.raised + 1) := by
  simp only [State.holdStep]
  split
  · next h =>
    simp only [Bool.and_eq_true, Bool.not_eq_true', decide_eq_true_eq] at h
    obtain ⟨hold, hdie⟩ := h
    have herr := State.errorless_raiseError
      { s with power := { s.power with hold := true, holdPhase := true, holds := sat 8 (s.power.holds + 1) } } 0x0504 corrected .module 0 none 0
    have hraised := State.raiseError_raised
      { s with power := { s.power with hold := true, holdPhase := true, holds := sat 8 (s.power.holds + 1) } } 0x0504 corrected .module 0 none 0
    generalize State.raiseError _ 0x0504 corrected .module 0 none 0 = w at herr hraised
    have hpower : w.power = { s.power with hold := true, holdPhase := true, holds := sat 8 (s.power.holds + 1) } := by
      have hp := congrArg State.power herr
      exact hp
    rw [hpower]
    exact ⟨herr, rfl, ⟨fun _ => .inl hdie, fun _ => rfl⟩, fun _ _ => ⟨rfl, hraised⟩⟩
  · next h =>
    have hno : ¬ (s.power.hold = false ∧ 105 ≤ die) := by
      simp only [Bool.and_eq_true, Bool.not_eq_true', decide_eq_true_eq] at h
      exact h
    split
    · next h2 =>
      simp only [Bool.and_eq_true, decide_eq_true_eq] at h2
      refine ⟨rfl, rfl, ⟨fun hh => absurd hh Bool.false_ne_true, fun hh => ?_⟩, fun h1 h3 => absurd ⟨h1, h3⟩ hno⟩
      rcases hh with hh | ⟨-, hh⟩ <;> omega
    · next h2 =>
      simp only [Bool.and_eq_true, decide_eq_true_eq] at h2
      refine ⟨rfl, rfl, ⟨fun hh => .inr ⟨hh, Nat.not_lt.mp (fun hlt => h2 ⟨hh, hlt⟩)⟩, fun hh => ?_⟩, fun h1 h3 => absurd ⟨h1, h3⟩ hno⟩
      · rcases hh with hh | ⟨hh, -⟩
        · cases hold : s.power.hold with
          | true => rfl
          | false => exact absurd ⟨hold, hh⟩ hno
        · exact hh

/-- R453: what a reading makes of a hub at `t` degrees. -/
def Hub.heated (x : Hub) (t : Nat) : Hub := { x with halved := if 95 ≤ t then true else if t < 92 then false else x.halved }

theorem foldl_modHub_left (f : Nat → Hub → Hub) (l : List Nat) (s : State) :
    l.foldl (fun s h => s.modHub h (f h)) s = { s with hubs := (l.foldl (fun s h => s.modHub h (f h)) s).hubs } := by
  induction l generalizing s with
  | nil => rfl
  | cons h l ih =>
    rw [List.foldl_cons, ih, State.modHub, State.setHub]

/-- Each hub of a list without repetition is changed once. -/
theorem foldl_modHub_hub (f : Nat → Hub → Hub) (l : List Nat) (hl : l.Nodup) (s : State) (hr : SMap.rising s.hubs = true) (k : Nat) :
    (l.foldl (fun s h => s.modHub h (f h)) s).hub k = if k ∈ l then f k (s.hub k) else s.hub k := by
  induction l generalizing s with
  | nil => rfl
  | cons h l ih =>
    obtain ⟨hnot, hnd⟩ := List.nodup_cons.mp hl
    rw [List.foldl_cons, ih hnd _ (SMap.rising_set hr)]
    by_cases hk : k = h
    · subst hk
      rw [if_neg hnot, if_pos List.mem_cons_self, State.hub_modHub hr]
    · rw [State.hub_modHub_ne hr hk]
      simp only [List.mem_cons, hk, false_or]

theorem State.hubTemps_eq (s : State) (ts : List Nat) : s.hubTemps ts = (upto (min 8 ts.length)).foldl (fun s h => s.modHub h (fun x => x.heated (ts.getD h 0))) s := rfl

theorem State.hubs_of_errorless (h : s.errorless = t.errorless) : s.hubs = t.hubs := by
  have hh := congrArg State.hubs h
  exact hh

/-- Settles O31. -/
theorem thermalControl : Obligations.ThermalControl := by
  refine ⟨fun s die hub ps hubs ht hr => ⟨_, exec_thermalRead die hub ps hubs hr, ?_⟩, fun s hg hh => ⟨_, rfl, if_pos (by rw [hg, hh]; rfl)⟩⟩
  obtain ⟨herr, hpow, hhold, hbegins⟩ := State.holdStep_left { s with power := s.power.read die hub ps } die
  generalize State.holdStep _ die = w at herr hpow hhold hbegins
  have hwhubs : w.hubs = s.hubs := State.hubs_of_errorless (t := { s with power := w.power }) herr
  have hrise : SMap.rising w.hubs = true := by rw [hwhubs]; exact State.tidy_hubs ht
  have hleft := foldl_modHub_left (fun h x => Hub.heated x (hubs.getD h 0)) (upto (min 8 hubs.length)) w
  have hhub := foldl_modHub_hub (fun h x => Hub.heated x (hubs.getD h 0)) (upto (min 8 hubs.length)) List.nodup_range w hrise
  rw [← State.hubTemps_eq] at hleft
  simp only [← State.hubTemps_eq] at hhub
  generalize w.hubTemps hubs = m at hleft hhub
  have hrail := State.applyRail_left m
  generalize m.applyRail = n at hrail
  have hnhub : ∀ k, n.hub k = m.hub k := fun k => by rw [hrail]; rfl
  have hnpow : n.power = { w.power with railMv := n.power.railMv, targetMv := n.power.targetMv, slewFrom := n.power.slewFrom } := by
    rw [hrail, hleft]
  have hn : n = { w with power := n.power, hubs := n.hubs } := by rw [hrail, hleft]
  have hwhub : ∀ k, w.hub k = s.hub k := fun k => by simp only [State.hub, hwhubs]
  refine ⟨?_, ?_, ?_, ?_, ?_, ?_, ?_, fun h x hh hx => ?_⟩
  · have heq := congrArg (fun y : State => { y with power := n.power, hubs := n.hubs }) herr
    rw [hn]
    exact heq
  · rw [hnpow, hpow]; rfl
  · rw [hnpow, hpow]; rfl
  · rw [hnpow, hpow]; rfl
  · rw [hnpow, hpow]; rfl
  · rw [hnpow]; exact hhold
  · intro h1 h2
    obtain ⟨hcount, hraised⟩ := hbegins h1 h2
    refine ⟨by rw [hnpow]; exact hcount, by rw [hn]; exact hraised⟩
  · obtain ⟨hlt, hget⟩ := List.getElem?_eq_some_iff.mp hx
    rw [hnhub, hhub, if_pos (show h ∈ upto (min 8 hubs.length) from List.mem_range.mpr (by omega)), hwhub, List.getD_eq_getElem?_getD, hx]
    rfl

/-! ### The time input and the management bus (R399, R559, R563) -/

theorem doPpsEdge_takes {e : Nat} (hg : s.power.pwrGood = true)
    (h : s.power.ppsSeen = false ∨ 1500000000 < e - s.power.ppsLast ∨ (999000000 ≤ e - s.power.ppsLast ∧ e - s.power.ppsLast ≤ 1001000000)) :
    let u : State := { s with now := max s.now e, power := { s.power with ppsSeen := true, ppsLast := e } }
    doPpsEdge e s = if u.ownPps && u.isGm && !u.freeze.frozen
      then { u with link := { u.link with time := { u.link.time with slew := ppsError e * 131072, slewFrom := u.now } } } else u := by
  have hgo : (!s.power.pwrGood) = false := by rw [hg]; rfl
  have htake : (!s.power.ppsSeen || decide (1500000000 < e - s.power.ppsLast) ||
      (decide (999000000 ≤ e - s.power.ppsLast) && decide (e - s.power.ppsLast ≤ 1001000000))) = true := by
    simp only [Bool.or_eq_true, Bool.and_eq_true, Bool.not_eq_true', decide_eq_true_eq]
    exact or_assoc.mpr h
  simp only [doPpsEdge, hgo, htake, Bool.false_eq_true, if_false, if_true]

theorem doI3cRead_reads (hst : s.power.standby = true) {off : Nat} (hoff : s.power.i3cOff = off) :
    doI3cRead s = { (if s.i3cResponds off then s.idClear off true true else s) with
      power := { (if s.i3cResponds off then s.idClear off true true else s).power with
        i3cOff := (off + 8) % 65536, i3cData := if s.i3cResponds off then s.idPage off else onesOf 8 } } := by
  subst hoff
  simp only [doI3cRead, hst, if_true]

theorem doI3cRead_answers (hst : s.power.standby = true) {off : Nat} (hoff : s.power.i3cOff = off) (hr : s.i3cResponds off = true) :
    doI3cRead s = { s.idClear off true true with power := { (s.idClear off true true).power with i3cOff := (off + 8) % 65536, i3cData := s.idPage off } } := by
  simp only [doI3cRead_reads hst hoff, hr, if_true]

/-- Settles O32. -/
theorem pinsAndManagementBus : Obligations.PinsAndManagementBus := by
  intro s
  refine ⟨fun e hg h => ⟨_, rfl, ?edge⟩, fun hg hs => ⟨_, rfl, if_pos (by rw [hg, hs]; rfl)⟩, fun hst => ⟨fun off => ⟨_, rfl, if_pos hst⟩,
    fun hoff => ⟨_, rfl, ?supply⟩, fun hg hoff => ⟨_, rfl, ?status⟩, fun hg hoff => ⟨_, rfl, ?early⟩, fun hoff => ⟨_, rfl, ?silent⟩⟩⟩
  case edge =>
    rw [doPpsEdge_takes hg h]
    split <;> exact ⟨rfl, rfl, rfl⟩
  case supply =>
    rw [doI3cRead_answers hst hoff rfl]; rfl
  case status =>
    have hr : s.i3cResponds 0x10 = true := by simp [State.i3cResponds, hg]
    rw [doI3cRead_answers hst hoff hr]; rfl
  case early =>
    have hr : s.i3cResponds 0x18 = true := by simp [State.i3cResponds, hg]
    rw [doI3cRead_answers hst hoff hr]; rfl
  case silent =>
    have hr : s.i3cResponds s.power.i3cOff = false := by simp [State.i3cResponds, hoff]
    rw [doI3cRead_reads hst rfl]
    simp only [hr, Bool.false_eq_true, if_false]
    rfl

end Sys2Proof.Machine
end

section
/-! SUPPORT. What the core queues and their work may change as they end, stop or move (R247 to R256, R421 to R426, R468 to R475). -/

namespace Sys2Proof.Machine

variable {s t u : State} {p q : HostPort} {qi : Nat}

/-! ### Reports keep memory in its canonical form -/

theorem State.raiseMsix_wf (h : Memory.wf s.mem = true) (p : HostPort) (v : Nat) : Memory.wf (s.raiseMsix p v).mem = true := by
  rw [State.raiseMsix_mem]; exact h

theorem State.writeEvent_wf (h : Memory.wf s.mem = true) (p : HostPort) (e : Event) : Memory.wf (s.writeEvent p e).mem = true := by
  simp only [State.writeEvent, State.raiseMsix_mem, State.modPort_mem]
  exact State.writeHost_wf p _ _ h

theorem State.flushEventsN_wf (h : Memory.wf s.mem = true) (k : Nat) : Memory.wf (s.flushEventsN k).mem = true := by
  induction k generalizing s with
  | zero => exact h
  | succ k ih =>
    simp only [State.flushEventsN]
    split
    · next p e es _ _ =>
      split
      · exact ih (State.writeEvent_wf (s := { s with evBuf := es }) h p e)
      · exact h
    · exact h

theorem State.flushEvents_wf (h : Memory.wf s.mem = true) : Memory.wf s.flushEvents.mem = true := State.flushEventsN_wf h _

theorem State.raiseEvent_wf (h : Memory.wf s.mem = true) (c v : Nat) : Memory.wf (s.raiseEvent c v).mem = true := by
  simp only [State.raiseEvent]
  split
  · exact State.flushEvents_wf h
  · exact h

theorem State.assertChalkFreeze_mem (s : State) : s.assertChalkFreeze.mem = s.mem := by
  rw [State.assertChalkFreeze]
  split
  · rfl
  · rw [State.beginFreeze_eq]

theorem State.chalkCountDown_mem (s : State) (b : Nat) : (s.chalkCountDown b).mem = s.mem := by
  simp only [State.chalkCountDown]
  split
  · split
    · split
      · rw [State.assertChalkFreeze_mem]; rfl
      · rfl
    · rfl
  · rfl

theorem State.chalkGap_wf (h : Memory.wf s.mem = true) (b : Nat) : Memory.wf (s.chalkGap b).mem = true := by
  simp only [State.chalkGap]
  refine State.raiseEvent_wf ?_ _ _
  rw [State.chalkCountDown_mem]; exact h

theorem State.chalkPut_wf (h : Memory.wf s.mem = true) (b : Nat) (bs : List Byte) : Memory.wf (s.chalkPut b bs).mem = true := by
  have hgap : Memory.wf (if s.gapDue b then s.chalkGap b else s).mem = true := by
    split
    · exact State.chalkGap_wf h b
    · exact h
  simp only [State.chalkPut]
  generalize (if s.gapDue b then s.chalkGap b else s) = w at hgap
  split
  · split
    · exact hgap
    · rw [State.chalkCountDown_mem]; exact hgap
  · split
    · exact hgap
    · exact hgap

theorem State.chalkTrigger_wf (h : Memory.wf s.mem = true) (b c d : Nat) : Memory.wf (s.chalkTrigger b c d).mem = true := by
  simp only [State.chalkTrigger]
  split
  · exact h
  · split
    · rw [State.assertChalkFreeze_mem]; exact State.chalkPut_wf h _ _
    · exact State.chalkPut_wf h _ _

/-- A property that each step of a walk over a list keeps. -/
theorem foldl_keeps {α : Type} {P : State → Prop} {f : State → α → State} (hf : ∀ s a, P s → P (f s a)) (l : List α) (h : P s) : P (l.foldl f s) := by
  induction l generalizing s with
  | nil => exact h
  | cons a l ih => exact ih (hf s a h)

theorem State.chalkError_wf (h : Memory.wf s.mem = true) (a b c : Nat) (d : Option Nat) : Memory.wf (s.chalkError a b c d).mem = true := by
  simp only [State.chalkError, State.chalkEach]
  refine foldl_keeps (P := fun s => Memory.wf s.mem = true) (fun s b h => ?_) _ h
  split
  · split
    · split
      · exact State.chalkTrigger_wf (State.chalkPut_wf h _ _) _ _ _
      · exact State.chalkPut_wf h _ _
    · exact h
  · exact h

theorem State.errVectors_mem (s : State) (c : Nat) : (s.errVectors c).mem = s.mem := by
  simp only [State.errVectors]
  split
  · split <;> split <;> simp only [State.raiseMsix_mem]
  · rfl

theorem State.raiseError_wf (h : Memory.wf s.mem = true) (a b : Nat) (k : DomKind) (i : Nat) (m : Option Nat) (d : Nat) :
    Memory.wf (s.raiseError a b k i m d).mem = true := by
  have hvec : ∀ (q : ErrQueue) c, Memory.wf (State.errVectors { s with errq := q } c).mem = true := fun q c => by rw [State.errVectors_mem]; exact h
  simp only [State.raiseError]
  split
  · exact h
  · split
    · split
      · exact State.chalkError_wf (hvec _ _) _ _ _ _
      · split
        · exact h
        · exact State.chalkError_wf (hvec _ _) _ _ _ _
    · exact State.chalkError_wf (hvec _ _) _ _ _ _

/-! ### What the work of the queues may change -/

/-- A state without the queues and the units of their work, and without reports. -/
def State.workless (s : State) : State :=
  { s.errorless with queues := [], hostqs := [], cores := [], engines := [], tacks := [], ha := {}, hb := {}, upd := {}, normSlots := [],
                     hubs := [], arbiters := [] }

/-- From `s` to `t` only the queues, the units of their work, and reports change. -/
structure WorkOnly (s t : State) : Prop where
  same : t.workless = s.workless
  wf : Memory.wf s.mem = true → Memory.wf t.mem = true

namespace WorkOnly

theorem refl (s : State) : WorkOnly s s := ⟨rfl, id⟩

theorem trans (h : WorkOnly s t) (h' : WorkOnly t u) : WorkOnly s u := ⟨h'.same.trans h.same, fun w => h'.wf (h.wf w)⟩

theorem of_reports (h : t.errorless = s.errorless) (hw : Memory.wf s.mem = true → Memory.wf t.mem = true) : WorkOnly s t :=
  ⟨congrArg (fun x : State => { x with
    queues := [], hostqs := [], cores := [], engines := [], tacks := [], ha := {}, hb := {}, upd := {}, normSlots := [], hubs := [], arbiters := [] }) h, hw⟩

theorem power (h : WorkOnly s t) : t.power = s.power := by
  have hp := congrArg State.power h.same
  exact hp

theorem bring (h : WorkOnly s t) : t.bring = s.bring := by
  have hp := congrArg State.bring h.same
  exact hp

theorem regs (h : WorkOnly s t) : t.regs = s.regs := by
  have hp := congrArg State.regs h.same
  exact hp

theorem roles (h : WorkOnly s t) : t.roles = s.roles := by
  have hp := congrArg State.roles h.same
  exact hp

/-- No byte of the module's memory changes. -/
theorem memByte (h : WorkOnly s t) (hm : Memory.wf s.mem = true) {a : Nat} (ha : a < 2 ^ 63) : t.memByte a = s.memByte a := by
  have hf : t.mem.filter (fun e => decide (e.1 < 2 ^ 63)) = s.mem.filter (fun e => decide (e.1 < 2 ^ 63)) := by
    have hmem := congrArg State.mem h.same
    exact hmem
  have hget := fun m (hr : SMap.rising m = true) => SMap.get_filter (d := memDefault) (k := a) (p := fun k => decide (k < 2 ^ 63)) (m := m) hr
  have ht := hget _ (SMap.rising_of_wf (h.wf hm))
  have hs := hget _ (SMap.rising_of_wf hm)
  rw [hf] at ht
  have hin : decide (a < 2 ^ 63) = true := decide_eq_true ha
  simp only [hin, if_true] at ht hs
  exact ht.symm.trans hs

theorem foldl {α : Type} {f : State → α → State} (hf : ∀ s a, WorkOnly s (f s a)) (l : List α) (s : State) : WorkOnly s (l.foldl f s) :=
  foldl_keeps (P := WorkOnly s) (fun t a h => h.trans (hf t a)) l (refl s)

/-- An update of the units of the work alone. -/
theorem units (s : State) (e c k a b x) : WorkOnly s { s with engines := e, cores := c, tacks := k, ha := a, hb := b, upd := x } := ⟨rfl, id⟩

theorem setQueue (s : State) (i : Nat) (x : CoreQ) : WorkOnly s (s.setQueue i x) := ⟨rfl, id⟩
theorem modQueue (s : State) (i : Nat) (f : CoreQ → CoreQ) : WorkOnly s (s.modQueue i f) := ⟨rfl, id⟩
theorem setHostq (s : State) (i : Nat) (x : HostQ) : WorkOnly s (s.setHostq i x) := ⟨rfl, id⟩
theorem modHostq (s : State) (i : Nat) (f : HostQ → HostQ) : WorkOnly s (s.modHostq i f) := ⟨rfl, id⟩
theorem modCore (s : State) (i : Nat) (f : Core → Core) : WorkOnly s (s.modCore i f) := ⟨rfl, id⟩
theorem modEngine (s : State) (i : Nat) (f : Engine → Engine) : WorkOnly s (s.modEngine i f) := ⟨rfl, id⟩
theorem setPort (s : State) (p : HostPort) (x : Port) : WorkOnly s (s.setPort p x) := ⟨by cases p <;> rfl, fun h => by rw [State.setPort_mem]; exact h⟩
theorem unwaitAll (s : State) (i c : Nat) : WorkOnly s (s.unwaitAll i c) := ⟨rfl, id⟩

theorem raiseEvent (s : State) (c v : Nat) : WorkOnly s (s.raiseEvent c v) := of_reports (State.errorless_raiseEvent s c v) (fun h => State.raiseEvent_wf h c v)

theorem raiseError (s : State) (a b : Nat) (k : DomKind) (i : Nat) (m : Option Nat) (d : Nat) : WorkOnly s (s.raiseError a b k i m d) :=
  of_reports (State.errorless_raiseError ..) (fun h => State.raiseError_wf h a b k i m d)

theorem logQueue (s : State) (a q d c : Nat) : WorkOnly s (s.logQueue a q d c) :=
  of_reports (State.errorless_logQueue ..) (fun h => State.raiseError_wf h _ _ _ _ _ _)

theorem writeRec (s : State) (hq : Nat) (r : PendingRec) : WorkOnly s (s.writeRec hq r) := by
  simp only [State.writeRec]
  split
  · exact refl s
  · have hwrite : ∀ a bs, WorkOnly s (s.writeHost (portOf (hq / 64)) a bs) := fun a bs =>
      of_reports (State.errorless_of_eventless (State.eventless_writeHost s _ a bs)) (fun h => State.writeHost_wf _ a bs h)
    have hmsix : ∀ (t : State) v, WorkOnly t (t.raiseMsix (portOf (hq / 64)) v) := fun t v =>
      of_reports (State.errorless_of_eventless (State.eventless_raiseMsix t _ v)) (fun h => State.raiseMsix_wf h _ v)
    split
    · exact ((hwrite _ _).trans (setHostq _ _ _)).trans (hmsix _ _)
    · exact (hwrite _ _).trans (setHostq _ _ _)

theorem drainRecsN (hq n : Nat) (s : State) : WorkOnly s (s.drainRecsN qi hq n) := by
  induction n generalizing s with
  | zero => exact refl s
  | succ n ih =>
    simp only [State.drainRecsN]
    split
    · exact refl s
    · split
      · exact ((setQueue s _ _).trans (writeRec _ _ _)).trans (ih _)
      · exact refl s

theorem pushRec (s : State) (qi hq : Nat) (r : PendingRec) : WorkOnly s (s.pushRec qi hq r) := (modQueue s _ _).trans (drainRecsN _ _ _)

theorem dropWork (s : State) (qi : Nat) : WorkOnly s (s.dropWork qi) := by
  have hall : ∀ (l : List Wide) (t : State), WorkOnly t (l.foldl (fun t w => t.unwaitAll qi w.cseq) t) :=
    foldl (fun t w => unwaitAll t qi w.cseq)
  rw [State.dropWork]
  dsimp only
  split
  · exact refl s
  · generalize hu : ({ s with engines := _, cores := _, tacks := _, ha := _, hb := _, upd := _ } : State) = m
    have hm : WorkOnly s m := by rw [← hu]; exact units s _ _ _ _ _ _
    exact hm.trans (hall _ m)

theorem lostDone (s : State) (p : HostPort) : WorkOnly s (s.lostDone p) := by
  simp only [State.lostDone]
  split
  · exact (setPort s p _).trans (raiseEvent _ _ _)
  · exact refl s

theorem settle (s : State) (hq : Nat) : WorkOnly s (s.settle hq) := (modHostq s hq _).trans (lostDone _ _)

theorem discardLater (s : State) (hq e : Nat) : WorkOnly s (s.discardLater hq e) := modHostq s hq _

theorem lostStep (s : State) (hq e : Nat) : WorkOnly s (s.lostStep hq e) := by
  simp only [State.lostStep]
  split
  · split
    · exact refl s
    · split
      · exact (discardLater s hq e).trans (settle _ hq)
      · split
        · exact settle s hq
        · split
          · exact ((setHostq s hq _).trans (discardLater _ hq e)).trans (settle _ hq)
          · exact refl s
  · exact refl s

theorem returnHome (s : State) (qi : Nat) : WorkOnly s (s.returnHome qi) := by
  simp only [State.returnHome]
  split
  · exact (modCore s _ _).trans (modQueue _ _ _)
  · exact refl s

theorem settleStop (s : State) (hq : Nat) : WorkOnly s (s.settleStop hq) := by
  simp only [State.settleStop]
  split
  · exact setHostq s _ _
  · exact refl s

theorem endSubmission (s : State) (qi st : Nat) : WorkOnly s (s.endSubmission qi st) := by
  simp only [State.endSubmission]
  split
  · exact refl s
  · exact ((((setQueue s _ _).trans (pushRec _ _ _ _)).trans (settleStop _ _)).trans (lostStep _ _ _)).trans (returnHome _ _)

theorem releaseStopped (s : State) (hq qi : Nat) : WorkOnly s (s.releaseStopped hq qi) :=
  ((dropWork s qi).trans (modQueue _ _ _)).trans (returnHome _ _)

theorem stopQueue (s : State) (qi : Nat) : WorkOnly s (s.stopQueue qi) := by
  simp only [State.stopQueue]
  split
  · exact refl s
  · split
    · split
      · exact (((setQueue s _ _).trans (modHostq _ _ _)).trans (releaseStopped _ _ _)).trans (settle _ _)
      · exact (setQueue s _ _).trans (pushRec _ _ _ _)
    · exact setQueue s _ _

/-! ### Fencing of a core (R468 to R475) -/

theorem stopAtFence (s : State) (c qi : Nat) : WorkOnly s (s.stopAtFence c qi) := (stopQueue s qi).trans (modCore _ _ _)

theorem unfillSlots (s : State) (qi : Nat) : WorkOnly s (s.unfillSlots qi) := by
  refine foldl (fun t w => ?_) _ _
  split
  · split
    · exact ⟨rfl, id⟩
    · exact refl t
  · exact refl t

theorem seat (s : State) (k qi : Nat) : WorkOnly s (s.seat k qi) := by
  simp only [State.seat]
  split
  · exact modCore s _ _
  · exact refl s

theorem moveQueue (s : State) (c qi : Nat) : WorkOnly s (s.moveQueue c qi) := by
  simp only [State.moveQueue]
  split
  · exact refl s
  · split
    · exact (stopAtFence s c qi).trans (logQueue _ _ _ _ _)
    · split
      · exact stopAtFence s c qi
      · exact (((modCore s _ _).trans (unfillSlots _ _)).trans (seat _ _ _)).trans (setQueue _ _ _)

theorem moveQueues (s : State) (c : Nat) : WorkOnly s (s.moveQueues c) := foldl (fun t qi => moveQueue t c qi) _ _

theorem keepStore (s : State) (c : Nat) : WorkOnly s (s.keepStore c) := by
  simp only [State.keepStore]
  exact modCore s c _

theorem fenced (s : State) (c : Nat) : WorkOnly s (s.fenced c) := (modCore s _ _).trans (raiseEvent _ _ _)

theorem maskArb (s : State) (a : ArbPort) : WorkOnly s (s.maskArb a) := by
  cases a <;> exact ⟨rfl, id⟩

theorem maskHubs (s : State) : WorkOnly s s.maskHubs := foldl (fun t h => maskArb t (.hubIngress h)) _ _

theorem maskCore (s : State) (c source : Nat) : WorkOnly s (s.maskCore c source) := by
  simp only [State.maskCore]
  refine trans ?_ (foldl (fun t e => modEngine t (4 * c + e) Engine.discard) _ _)
  refine trans ?_ (foldl (fun t b => maskArb t (.coreStoreBank c b)) _ _)
  refine trans ?_ (maskHubs _)
  generalize hm : s.modCore c _ = m
  have hcore : WorkOnly s m := by rw [← hm]; exact modCore s c _
  exact hcore.trans (units m _ _ _ _ _ _)

end WorkOnly

end Sys2Proof.Machine
end

section
/-! CERTIFICATE. Supply and bring-up (R431 to R436, R454, R560 to R562). -/

namespace Sys2Proof.Machine

variable {s t u : State} {p q : HostPort}

/-! ### Where the rails go (R436, R454) -/

theorem State.memByte_powerOff (h : Memory.wf s.mem = true) (k : Nat) (l : Bool) (a : Nat) :
    (s.powerOff k l).memByte a = if 2 ^ 63 ≤ a then s.memByte a else 0 := by
  have hget := SMap.get_filter (d := memDefault) (k := a) (p := fun k => decide (2 ^ 63 ≤ k)) (SMap.rising_of_wf h)
  change SMap.get memDefault (s.mem.filter (fun e => decide (2 ^ 63 ≤ e.1))) a = _
  rw [hget]
  by_cases ha : 2 ^ 63 ≤ a
  · simp only [ha, decide_true, if_true]; rfl
  · simp only [ha, decide_false, Bool.false_eq_true, if_false]; rfl

/-- What is left of a module whose rails have gone. -/
structure RailsOff (s : State) (supply : Nat) (latched : Bool) (t : State) : Prop where
  power : t.power.pwrGood = false ∧ t.power.supply = supply ∧ t.power.latchedOff = latched ∧ t.power.goodFell = s.power.pwrGood ∧
    t.power.standby = s.power.standby
  reset : t.now = 0 ∧ t.queues = [] ∧ t.regs = [] ∧ t.tacks = [] ∧ t.ha.linkUp = false ∧ t.hb.linkUp = false ∧
    t.ha.perst = s.ha.perst ∧ t.hb.perst = s.hb.perst
  mem : (∀ a, a < 2 ^ 63 → t.memByte a = 0) ∧ ∀ a, 2 ^ 63 ≤ a → t.memByte a = s.memByte a
  sec : t.sec.files = s.sec.files ∧ t.sec.selectors = s.sec.selectors ∧ t.sec.sessions = [] ∧ t.sec.keySlots = []

theorem State.powerOff_left (h : Memory.wf s.mem = true) (k : Nat) (l : Bool) : RailsOff s k l (s.powerOff k l) :=
  ⟨⟨rfl, rfl, rfl, rfl, rfl⟩, ⟨rfl, rfl, rfl, rfl, rfl, rfl, rfl, rfl⟩,
    ⟨fun a ha => by rw [State.memByte_powerOff h, if_neg (Nat.not_le.mpr ha)], fun a ha => by rw [State.memByte_powerOff h, if_pos ha]⟩,
    ⟨rfl, rfl, rfl, rfl⟩⟩

/-! ### What a step of bring-up keeps (R432 to R435) -/

/-- From `s` to `t` the supply's account and the account of bring-up stand. -/
structure RailsKept (s t : State) : Prop where
  power : t.power = s.power
  bring : t.bring = s.bring

namespace RailsKept

theorem refl (s : State) : RailsKept s s := ⟨rfl, rfl⟩
theorem trans (h : RailsKept s t) (h' : RailsKept t u) : RailsKept s u := ⟨h'.power.trans h.power, h'.bring.trans h.bring⟩
theorem of_work (h : WorkOnly s t) : RailsKept s t := ⟨h.power, h.bring⟩

theorem foldl {α : Type} {f : State → α → State} (hf : ∀ s a, RailsKept s (f s a)) (l : List α) (s : State) : RailsKept s (l.foldl f s) :=
  foldl_keeps (P := RailsKept s) (fun t a h => h.trans (hf t a)) l (refl s)

theorem sec (s : State) (x : Security) : RailsKept s { s with sec := x } := ⟨rfl, rfl⟩
theorem setFw (s : State) (j : Nat) (x : FwImage) : RailsKept s (s.setFw j x) := ⟨rfl, rfl⟩
theorem setMreg (s : State) (j : Nat) (m : List Byte) : RailsKept s (s.setMreg j m) := ⟨rfl, rfl⟩
theorem setFile (s : State) (d j : Nat) (f : ImageFile) : RailsKept s (s.setFile d j f) := ⟨rfl, rfl⟩
theorem setReg (s : State) (o v : Nat) : RailsKept s (s.setReg o v) := ⟨rfl, rfl⟩
theorem modHub (s : State) (h : Nat) (f : Hub → Hub) : RailsKept s (s.modHub h f) := ⟨rfl, rfl⟩
theorem modChannel (s : State) (c : Nat) (f : Channel → Channel) : RailsKept s (s.modChannel c f) := ⟨rfl, rfl⟩
theorem modFport (s : State) (k : Nat) (f : FabPort → FabPort) : RailsKept s (s.modFport k f) := ⟨rfl, rfl⟩
theorem modPort (s : State) (p : HostPort) (f : Port → Port) : RailsKept s (s.modPort p f) := ⟨State.modPort_power s p f, State.modPort_bring s p f⟩
theorem modWide (s : State) (qi c : Nat) (f : Wide → Wide) : RailsKept s (s.modWide qi c f) := ⟨rfl, rfl⟩

theorem raiseError (s : State) (a b : Nat) (k : DomKind) (i : Nat) (m : Option Nat) (d : Nat) : RailsKept s (s.raiseError a b k i m d) :=
  of_work (WorkOnly.raiseError ..)

theorem raiseEvent (s : State) (c v : Nat) : RailsKept s (s.raiseEvent c v) := of_work (WorkOnly.raiseEvent ..)

theorem putSettings (s : State) (k : Nat) (vs : List Nat) : RailsKept s (s.putSettings k vs) := by
  simp only [State.putSettings]
  split
  · exact ⟨rfl, rfl⟩
  · refine trans (sec s _) (foldl (fun t e => ?_) _ _)
    exact setReg t _ _

theorem loadFloors (s : State) : RailsKept s s.loadFloors := by
  simp only [State.loadFloors]
  split
  · split
    · exact putSettings s _ _
    · exact refl s
  · exact refl s

theorem verifySlots (s : State) : RailsKept s s.verifySlots := by
  refine foldl (fun t k => ?_) _ _
  extract_lets f
  split
  · exact setFile t _ _ _
  · exact refl t

theorem aliasReused (s : State) : RailsKept s s.aliasReused := by
  simp only [State.aliasReused]
  split
  · exact sec s _
  · exact refl s

theorem stageSlots (s : State) : RailsKept s s.stageSlots := foldl (fun t j => setFw t j _) _ _

theorem replaceSlots (s : State) : RailsKept s s.replaceSlots := by
  refine foldl (fun t j => ?_) _ _
  split
  · exact refl t
  · simp only [State.swapSlot]
    split
    · exact setFw t j _
    · exact refl t

theorem loadSettings (s : State) (k : Nat) : RailsKept s (s.loadSettings k) := by
  have hmeasure : ∀ t : State, RailsKept t (t.measureSettings k) := fun t => setMreg t _ _
  simp only [State.loadSettings]
  refine trans ?_ (hmeasure _)
  split
  · simp only [State.resetSettings]
    refine trans ?_ (raiseEvent _ _ _)
    split
    · exact putSettings s _ _
    · exact (putSettings s _ _).trans (sec _ _)
  · split
    · refine trans ?_ (putSettings _ _ _)
      simp only [State.otherSlot]
      split
      · exact refl s
      · exact raiseError s _ _ _ _ _ _
    · exact refl s

theorem updLeaves (s : State) (h : Nat) : RailsKept s (s.updLeaves h) := by
  simp only [State.updLeaves]
  split
  · exact refl s
  · refine trans ?_ (of_work (WorkOnly.maskArb _ _))
    generalize hm : ({ s with upd := _ } : State) = m
    have hkept : RailsKept s m := by rw [← hm]; exact ⟨rfl, rfl⟩
    exact hkept.trans (foldl (fun t (x : Nat × Nat) => modWide t x.1 x.2 _) _ m)

theorem bringLost (s : State) (h : Nat) (c : Bool) : RailsKept s (s.bringLost h c) :=
  ((modHub s h _).trans (updLeaves _ h)).trans (raiseError _ _ _ _ _ _ _)

theorem bringUcie (s : State) (bad hubs : List Nat) : RailsKept s (s.bringUcie bad hubs) := by
  refine foldl (fun t h => ?_) _ _
  have hmods : RailsKept t (((upto 6).filter (fun m => bad.contains (6 * h + m))).foldl (fun s m => s.raiseError 0x0207 degrading .ucie (6 * h + m) none 0)
      (t.modHub h (fun x => { x with ucieLive := 63 - (((upto 6).filter (fun m => bad.contains (6 * h + m))).map (2 ^ ·)).sum }))) :=
    (modHub t h _).trans (foldl (fun u m => raiseError u _ _ _ _ _ _) _ _)
  dsimp only
  generalize List.foldl _ (t.modHub h _) _ = m at hmods ⊢
  split
  · exact hmods.trans (bringLost m _ _)
  · split
    · exact hmods
    · exact (hmods.trans (updLeaves m h)).trans (raiseError _ _ _ _ _ _ _)

theorem bringChannels (s : State) (trained : List (Nat × Option Int)) : RailsKept s (s.bringChannels trained) := by
  refine foldl (fun t h => ?_) _ _
  extract_lets rec_ w
  clear_value rec_
  have hw : RailsKept t w := by
    refine foldl (fun u c => ?_) _ _
    extract_lets ch v
    have hv : RailsKept u v := by
      simp only [v]
      split
      · exact modChannel u _ _
      · exact refl u
    split
    · exact hv.trans (modChannel v _ _)
    · exact (hv.trans (modChannel v _ _)).trans (raiseError _ _ _ _ _ _ _)
    · exact hv
  split
  · exact (hw.trans (updLeaves w h)).trans (raiseError _ _ _ _ _ _ _)
  · exact hw

end RailsKept

/-- The supply is on, and a module in RECOVERY shows the fault of a stage. -/
structure RailsUp (s : State) : Prop where
  good : s.power.pwrGood = true
  on : s.power.supply = 2
  fault : s.bring.state = 2 → s.bring.fault ≠ 6

namespace RailsUp

theorem kept (h : RailsUp s) (hk : RailsKept s t) : RailsUp t :=
  ⟨by rw [hk.power]; exact h.good, by rw [hk.power]; exact h.on, by rw [hk.bring]; exact h.fault⟩

theorem toRecovery (h : RailsUp s) {f : Nat} (hf : f ≠ 6) : RailsUp (s.toRecovery f) := ⟨h.good, h.on, fun _ => hf⟩

theorem pickSlot (h : RailsUp s) {j : Nat} (hj : j < 5) : RailsUp (s.pickSlot j) := by
  have hset : ∀ x, RailsUp (s.setFw j x) := fun x => h.kept (RailsKept.setFw s j x)
  simp only [State.pickSlot]
  split
  · exact hset _
  · split
    · exact (hset _).kept (RailsKept.raiseError _ _ _ _ _ _ _)
    · split
      · exact hset _
      · exact (hset _).toRecovery (by omega)

theorem bringIdentity (h : RailsUp s) : RailsUp s.bringIdentity := by
  simp only [State.bringIdentity]
  have hread : RailsUp (((State.setMreg { s with sec := s.sec.identity } 0 Config.romDigest).loadFloors).verifySlots) :=
    h.kept ((((RailsKept.sec s _).trans (RailsKept.setMreg _ _ _)).trans (RailsKept.loadFloors _)).trans (RailsKept.verifySlots _))
  have hpick := hread.pickSlot (j := 0) (by decide)
  generalize State.pickSlot _ 0 = w at hpick
  split
  · exact hpick.kept (RailsKept.stageSlots w)
  · exact hpick.kept (((RailsKept.setMreg w _ _).trans (RailsKept.sec _ _)).trans (RailsKept.aliasReused _))

theorem misfit_lt (s : State) : s.misfit < 5 := by
  simp only [State.misfit]
  cases hf : (upto 5).find? (fun j => !(s.slotFits j 0 || s.slotFits j 1)) with
  | none => decide
  | some j => exact List.mem_range.mp (List.mem_of_find?_eq_some hf)

theorem bringImages (h : RailsUp s) : RailsUp s.bringImages := by
  simp only [State.bringImages]
  have hpick : RailsUp ([1, 2, 3, 4].foldl State.pickSlot s) :=
    (((h.pickSlot (j := 1) (by decide)).pickSlot (j := 2) (by decide)).pickSlot (j := 3) (by decide)).pickSlot (j := 4) (by decide)
  generalize [1, 2, 3, 4].foldl State.pickSlot s = w at hpick
  split
  · exact hpick.kept (RailsKept.stageSlots w)
  · split
    · have hlt := misfit_lt w
      exact (hpick.toRecovery (f := w.misfit + 1) (by omega)).kept (RailsKept.stageSlots _)
    · have hload := ((RailsKept.replaceSlots w).trans (RailsKept.stageSlots _)).trans
        (RailsKept.foldl (f := fun (s : State) j => s.setMreg (1 + j) (s.slotA j).measure) (fun t j => RailsKept.setMreg t _ _) (upto 5) _)
      exact hpick.kept ((hload.trans (RailsKept.aliasReused _)).trans (RailsKept.foldl (fun t k => RailsKept.loadSettings t k) _ _))

theorem formHub (s : State) (h : Nat) : RailsKept s (s.formHub h).1 := by
  simp only [State.formHub]
  split
  · exact RailsKept.refl s
  · exact ⟨rfl, rfl⟩

theorem formed (l : List Nat) (x : State × List Nat) :
    RailsKept x.1 (l.foldl (fun (x : State × List Nat) h => ((x.1.formHub h).1, x.2 ++ [(x.1.formHub h).2])) x).1 := by
  induction l generalizing x with
  | nil => exact RailsKept.refl _
  | cons h l ih =>
    rw [List.foldl_cons]
    exact (formHub x.1 h).trans (ih ((x.1.formHub h).1, x.2 ++ [(x.1.formHub h).2]))

theorem usable (h : RailsUp s) (k : Nat) : RailsUp { s with bring := { s.bring with usableKib := k } } := ⟨h.good, h.on, h.fault⟩

theorem bringSpaces (h : RailsUp s) : RailsUp s.bringSpaces := by
  simp only [State.bringSpaces]
  have hform := formed (upto 8) (s, [])
  generalize (upto 8).foldl _ ((s, []) : State × List Nat) = x at hform ⊢
  have hset : RailsKept s (if (x.2.foldl (fun m n => min m (n / 2 ^ 30)) 511) < fld (x.1.reg 0x02810000) 8 0
      then (x.1.setReg 0x02810000 ((x.2.foldl (fun m n => min m (n / 2 ^ 30)) 511) + 2 ^ 31)).measureSettings 1 else x.1) := by
    split
    · exact (hform.trans (RailsKept.setReg _ _ _)).trans (RailsKept.setMreg _ _ _)
    · exact hform
  exact (h.kept (hset.trans (RailsKept.foldl (fun t k => RailsKept.modHub t k _) _ _))).usable _

theorem bringCores (h : RailsUp s) (bad : List Nat) : RailsUp (s.bringCores bad) := by
  simp only [State.bringCores]
  refine (h.kept (RailsKept.foldl (fun t c => ?_) _ s)).kept (RailsKept.foldl (fun t c => ?_) _ _)
  · exact RailsKept.of_work (WorkOnly.maskCore t c 0x0107)
  · exact (RailsKept.of_work (((WorkOnly.moveQueues t c).trans (WorkOnly.keepStore _ c)).trans (WorkOnly.fenced _ c))).trans
      (RailsKept.raiseError _ _ _ _ _ _ _)

theorem bringPorts (h : RailsUp s) : RailsUp s.bringPorts := h.kept (RailsKept.foldl (fun t k => RailsKept.modFport t k _) _ s)

/-- R435: with the last step the module is READY. -/
theorem bringReady_left (s : State) (links : List (HostPort × Nat × Nat)) :
    (s.bringReady links).power = s.power ∧ (s.bringReady links).bring = { s.bring with state := 1 } := by
  have hlink : ∀ t : State, RailsKept t (links.foldl State.bringLink t) := RailsKept.foldl (fun t l => (RailsKept.modPort t l.1 _ : RailsKept t (t.bringLink l))) links
  have hflush : ∀ t : State, RailsKept t t.flushEvents := fun t =>
    ⟨by have hp := congrArg State.power (State.eventless_flushEvents t); exact hp, by have hb := congrArg State.bring (State.eventless_flushEvents t); exact hb⟩
  have hmake : ∀ (t : State) p, RailsKept t (t.makeSteward p) := fun t p => by
    have hm := State.makeSteward_eventless t p
    exact ⟨by have hp := congrArg State.power hm; exact hp, by have hb := congrArg State.bring hm; exact hb⟩
  have hroles : ∀ t : State, RailsKept t t.assignRoles := by
    intro t
    simp only [State.assignRoles]
    have hset : RailsKept t { t with roles := { t.roles with assigned := true } } := ⟨rfl, rfl⟩
    generalize ({ t with roles := _ } : State) = w at hset
    split
    · exact hset.trans (hmake _ _)
    · split
      · exact hset.trans (hmake _ _)
      · exact hset
  have hall := ((hlink { s with bring := { s.bring with state := 1 } }).trans (hroles _)).trans (hflush _)
  exact ⟨hall.power, hall.bring⟩

theorem bringReady (h : RailsUp s) (links : List (HostPort × Nat × Nat)) : RailsUp (s.bringReady links) := by
  obtain ⟨hp, hb⟩ := bringReady_left s links
  refine ⟨by rw [hp]; exact h.good, by rw [hp]; exact h.on, fun hst => ?_⟩
  rw [hb] at hst
  exact absurd hst (show ¬ (1 : Nat) = 2 by decide)

theorem bringStep (h : RailsUp s) (f : BringFails) (links : List (HostPort × Nat × Nat)) (k : Nat) : RailsUp (s.bringStep f links k) := by
  unfold State.bringStep
  split
  · exact h.bringIdentity
  · exact h.bringImages
  · exact ⟨h.good, h.on, h.fault⟩
  · exact h.kept (RailsKept.bringUcie s _ _)
  · exact h.kept (RailsKept.bringChannels s _)
  · exact h.bringSpaces
  · exact h.bringCores _
  · exact h.bringPorts
  · exact h.bringReady links
  · exact h

theorem bringUp (h : RailsUp s) (f : BringFails) (links : List (HostPort × Nat × Nat)) (n : Nat) : RailsUp (s.bringUp f links n) := by
  refine foldl_keeps (P := RailsUp) (fun t k ht => ?_) _ h
  split
  · exact ht
  · have hstep := ht.bringStep f links (k + 2)
    extract_lets u
    split
    · exact hstep
    · exact ⟨hstep.good, hstep.on, hstep.fault⟩

theorem powerGood (h : s.bring.state = 0) : RailsUp s.powerGood := by
  simp only [State.powerGood]
  have hset := RailsKept.foldl (f := fun (s : State) j => s.setFw j { devA := s.selected j }) (fun t j => RailsKept.setFw t j _) (upto 5) s
  generalize (upto 5).foldl _ s = w at hset ⊢
  refine ⟨rfl, rfl, fun hst => absurd hst ?_⟩
  change ¬ w.bring.state = 2
  rw [hset.bring, h]
  decide

end RailsUp

/-- R435: the last step of bring-up ends READY, where no step has ended in RECOVERY. -/
theorem State.bringUp_last (s : State) (f : BringFails) (links : List (HostPort × Nat × Nat)) :
    ((s.bringUp f links 9).bring.state = 1 ∧ (s.bringUp f links 9).bring.stage = 10) ∨ (s.bringUp f links 9).bring.state = 2 := by
  have hsplit : s.bringUp f links 9 =
      (if (s.bringUp f links 8).bring.state = 2 then s.bringUp f links 8
      else if ((s.bringUp f links 8).bringReady links).bring.state = 2 then (s.bringUp f links 8).bringReady links
      else { (s.bringUp f links 8).bringReady links with bring := { ((s.bringUp f links 8).bringReady links).bring with stage := 10 } }) := by
    simp only [State.bringUp, upto, List.range_succ (n := 8), List.foldl_append, List.foldl_cons, List.foldl_nil]
    rfl
  have hready := (RailsUp.bringReady_left (s.bringUp f links 8) links).2
  rw [hsplit]
  generalize s.bringUp f links 8 = u at hready ⊢
  generalize u.bringReady links = w at hready ⊢
  have hone : w.bring.state = 1 := by rw [hready]
  split
  · next h => exact .inr h
  · rw [if_neg (by rw [hone]; decide)]
    exact .inl ⟨hone, rfl⟩

/-! ### A step at its maximum time (R434) -/

theorem SMap.get_all {α : Type} {P : α → Prop} {d : α} (hd : P d) (m : SMap α) (h : ∀ e ∈ m, P e.2) (k : Nat) : P (SMap.get d m k) := by
  induction m with
  | nil => exact hd
  | cons e m ih =>
    obtain ⟨j, v⟩ := e
    simp only [SMap.get]
    split
    · exact hd
    · split
      · exact h (j, v) List.mem_cons_self
      · exact ih (fun e he => h e (List.mem_cons_of_mem _ he))

theorem SMap.mem_mapVals {α : Type} [DecidableEq α] {d : α} {f : Nat → α → α} {P : α → Prop} (hf : ∀ k x, P (f k x)) (m : SMap α) :
    ∀ e ∈ SMap.mapVals d f m, P e.2 := by
  induction m with
  | nil => intro e he; cases he
  | cons x m ih =>
    obtain ⟨k, v⟩ := x
    intro e he
    simp only [SMap.mapVals, SMap.cons] at he
    split at he
    · exact ih e he
    · rcases List.mem_cons.mp he with rfl | he
      · exact hf k v
      · exact ih e he

theorem State.timedOut_left (h : RailsUp s) (stage : Nat) :
    (s.timedOut stage).power.pwrGood = true ∧ (s.timedOut stage).power.supply = 2 ∧ (s.timedOut stage).bring.state = 2 ∧
      (s.timedOut stage).bring.stage = stage ∧ ∀ k, ((s.timedOut stage).fport k).state = .down := by
  have hkept : RailsKept (s.toRecovery 6) (if stage ≤ 3 then (s.toRecovery 6).stageSlots else s.toRecovery 6) := by
    split
    · exact RailsKept.stageSlots _
    · exact RailsKept.refl _
  simp only [State.timedOut]
  generalize (if stage ≤ 3 then _ else s.toRecovery 6) = w at hkept ⊢
  obtain ⟨hp, hb⟩ := hkept
  refine ⟨by rw [hp]; exact h.good, by rw [hp]; exact h.on, by rw [hb]; rfl, trivial, fun k => ?_⟩
  exact SMap.get_all (P := fun x : FabPort => x.state = .down) rfl _ (SMap.mem_mapVals (P := fun x : FabPort => x.state = .down) (fun _ _ => rfl) _) k

theorem State.ramping_of (hst : s.power.standby = true) (hen : s.power.pwrEn = true) (hsup : s.power.supply = 1) (hg : s.power.pwrGood = false) :
    s.ramping = true := by
  simp only [State.ramping, hst, hen, hsup, hg]; rfl

/-- Settles O29. -/
theorem supplyAndBringUp : Obligations.SupplyAndBringUp := by
  refine ⟨?gone, fun s hst hen hsup hg hb => ⟨fun cores ucie channels hubs links => ⟨_, rfl, ?rises⟩, fun stage hlo hhi => ⟨_, if_pos ⟨hlo, hhi⟩, ?late⟩⟩⟩
  case rises =>
    have hup := ((RailsUp.powerGood hb).bringUp { cores := cores, ucie := ucie, channels := channels, hubs := hubs } links 9)
    have hlast := State.bringUp_last s.powerGood { cores := cores, ucie := ucie, channels := channels, hubs := hubs } links
    rw [doPwrGoodRise, if_pos (State.ramping_of hst hen hsup hg)]
    exact ⟨hup.good, hup.on, hlast⟩
  case late =>
    have hup := (RailsUp.powerGood hb).bringUp {} [] (stage - 2)
    rw [doStageTimeout, if_pos (State.ramping_of hst hen hsup hg)]
    generalize s.powerGood.bringUp {} [] (stage - 2) = w at hup ⊢
    dsimp only
    split
    · next h2 => exact ⟨hup.good, hup.on, h2, fun h6 => absurd h6 (hup.fault h2)⟩
    · obtain ⟨h1, h2, h3, h4, h5⟩ := State.timedOut_left hup stage
      exact ⟨h1, h2, h3, fun _ => ⟨h4, h5⟩⟩
  case gone =>
    intro s ht off
    have hwf := State.tidy_mem ht
    have gone : ∀ {u : State} (supply : Nat) (latched : Bool), u.power.pwrGood = s.power.pwrGood → u.power.standby = s.power.standby →
        u.ha.perst = s.ha.perst → u.hb.perst = s.hb.perst → u.mem = s.mem → u.sec = s.sec → off supply latched (u.powerOff supply latched) := by
      intro u supply latched hg hst ha hb hm hsec
      obtain ⟨⟨p1, p2, p3, p4, p5⟩, ⟨r1, r2, r3, r4, r5, r6, r7, r8⟩, ⟨m1, m2⟩, ⟨s1, s2, s3, s4⟩⟩ :=
        State.powerOff_left (s := u) (by rw [hm]; exact hwf) supply latched
      refine ⟨p1, p2, p3, p4.trans hg, p5.trans hst, r1, r2, r3, r4, r5, r6, r7.trans ha, r8.trans hb, m1, fun a h => ?_, ?_, ?_, s3, s4⟩
      · rw [m2 a h, State.memByte, hm]; rfl
      · rw [s1, hsec]
      · rw [s2, hsec]
    refine ⟨fun r hst => ⟨_, rfl, ?up⟩, fun hst hen hfell => ⟨_, rfl, ?rise⟩, fun hst hen hfell => ⟨_, rfl, ?heldRise⟩,
      fun hfell hheld hen hlat => ⟨_, rfl, ?expires⟩, fun hfell hheld => ⟨_, rfl, ?expired⟩, fun hen hsup => ⟨_, rfl, ?fall⟩,
      fun high v hst hsup => ⟨_, rfl, ?cut⟩, fun die ps hg hhot => ⟨_, rfl, ?tripped⟩, fun v hst h1 h2 => ⟨_, rfl, ?stops⟩⟩
    case up => exact if_neg (by rw [hst]; decide)
    case rise =>
      have hgo : ¬ (!s.power.standby || s.power.pwrEn) = true := by rw [hst, hen]; decide
      rw [doPwrEnRise, if_neg hgo, if_neg (by rw [hfell]; decide)]
    case heldRise =>
      have hgo : ¬ (!s.power.standby || s.power.pwrEn) = true := by rw [hst, hen]; decide
      rw [doPwrEnRise, if_neg hgo, if_pos hfell]
    case expires =>
      simp only [doHoldExpiry, hfell, hheld, hen, hlat, Bool.not_false, Bool.and_self, if_true]
    case expired =>
      simp only [doHoldExpiry, hfell, hheld, Bool.false_and, Bool.false_eq_true, if_false, if_true]
    case fall =>
      simp only [doPwrEnFall, hen, hsup, Bool.not_true, Bool.false_eq_true, if_false, if_true]
      exact ⟨gone 0 false rfl rfl rfl rfl rfl rfl, rfl⟩
    case cut =>
      have hgo : (s.power.standby && (s.power.supply == 1 || s.power.supply == 2)) = true := by
        simp only [hst, Bool.true_and, Bool.or_eq_true, beq_iff_eq]; exact hsup
      rw [doCutoff, if_pos hgo]
      exact ⟨gone _ true rfl rfl rfl rfl rfl rfl, rfl⟩
    case tripped =>
      have hgo : (s.power.pwrGood && (decide (115 ≤ die) || decide (125 ≤ ps))) = true := by
        simp only [hg, Bool.true_and, Bool.or_eq_true, decide_eq_true_eq]; exact hhot
      rw [doTrip, if_pos hgo]
      exact gone 5 true rfl rfl rfl rfl rfl rfl
    case stops => exact if_pos (by simp [hst, h1, h2])

end Sys2Proof.Machine
end

section
/-! CERTIFICATE. Staged writes (R438 to R442). An 8-byte write past the end of BAR0 is one error, its two halves written one after the other
are two: the clause about the halves holds inside BAR0 only. -/

namespace Sys2Proof.Machine

/-- Errors that a state has raised, of an outcome that has one. -/
def raisedBy : Host.Outcome State Fault Refusal → Nat
  | .next t => t.errq.raised
  | _ => 0

/-- An 8-byte staged write past the end of BAR0. -/
def wholePastEnd : Instr := .stagedWrite .ha 0x04000000 8 0
/-- The lower half of that write. -/
def lowPastEnd : Instr := .stagedWrite .ha 0x04000000 4 0
/-- The upper half of that write. -/
def highPastEnd : Instr := .stagedWrite .ha 0x04000004 4 0

/-- What the lower half leaves: its error is logged. -/
def afterLow : State :=
  match exec lowPastEnd inService with
  | .next t => t
  | _ => inService

theorem exec_lowPastEnd : exec lowPastEnd inService = .next afterLow := rfl

theorem raisedBy_wholePastEnd : raisedBy (exec wholePastEnd inService) = 1 := by decide +kernel
theorem raisedBy_highPastEnd : raisedBy (exec highPastEnd afterLow) = 2 := by decide +kernel
theorem afterLow_runs : afterLow.freeze.frozen = false := by decide +kernel

/-- Refutes O34: the module in service, not frozen, logs an 8-byte write at 0x04000000, past the end of BAR0, once, and the two 4-byte writes
at 0x04000000 and 0x04000004 twice. -/
theorem not_stagedWrites : ¬ Obligations.StagedWrites := by
  intro h
  obtain ⟨-, -, halves, -⟩ := h inService .ha 0x04000000 8 0 ⟨rfl, rfl, rfl, rfl, rfl, .inl rfl⟩ (fun hm => absurd hm (by decide))
  have heq : exec wholePastEnd inService = exec highPastEnd afterLow := halves rfl (by decide) rfl afterLow exec_lowPastEnd afterLow_runs
  have hraised := congrArg raisedBy heq
  rw [raisedBy_wholePastEnd, raisedBy_highPastEnd] at hraised
  exact absurd hraised (by decide)

end Sys2Proof.Machine
end

section
/-! SUPPORT. What a module that is declared lost, or a port that goes down, may change (R392 to R394): messages, collectives, the commands
and tacks that wait, and memory where a norm command ends. -/

namespace Sys2Proof.Machine

variable {s t u : State}

/-- A state without what the loss of a module changes. -/
def State.lossless (s : State) : State :=
  { s.eventless with link := {}, queues := [], tacks := [], normSlots := [], mem := [], poison := [], covered := [], gctr := [], ctx := [],
                     freeCtr := 0, tailor := {}, remoteSent := 0 }

/-- From `s` to `t` no more changes than the loss of a module does. -/
structure LossOnly (s t : State) : Prop where
  same : t.lossless = s.lossless

namespace LossOnly

theorem refl (s : State) : LossOnly s s := ⟨rfl⟩
theorem trans (h : LossOnly s t) (h' : LossOnly t u) : LossOnly s u := ⟨h'.same.trans h.same⟩

theorem foldl {α : Type} {f : State → α → State} (hf : ∀ s a, LossOnly s (f s a)) (l : List α) (s : State) : LossOnly s (l.foldl f s) :=
  foldl_keeps (P := LossOnly s) (fun t a h => h.trans (hf t a)) l (refl s)

/-- What a step that leaves all but events leaves is unchanged. -/
theorem of_eventless (h : t.eventless = s.eventless) : LossOnly s t :=
  ⟨congrArg (fun x : State => { x with
    link := {}, queues := [], tacks := [], normSlots := [], mem := [], poison := [], covered := [], gctr := [], ctx := [],
    freeCtr := 0, tailor := {}, remoteSent := 0 }) h⟩

/-! ### What stands -/

theorem regs (h : LossOnly s t) : t.regs = s.regs := by have h' := congrArg State.regs h.same; exact h'
theorem arbiters (h : LossOnly s t) : t.arbiters = s.arbiters := by have h' := congrArg State.arbiters h.same; exact h'
theorem granules (h : LossOnly s t) : t.granules = s.granules := by have h' := congrArg State.granules h.same; exact h'
theorem now (h : LossOnly s t) : t.now = s.now := by have h' := congrArg State.now h.same; exact h'
theorem freeze (h : LossOnly s t) : t.freeze = s.freeze := by have h' := congrArg State.freeze h.same; exact h'

theorem txn (h : LossOnly s t) (p : HostPort) : (t.port p).txn = (s.port p).txn := by
  cases p with
  | ha => have h' := congrArg (fun x : State => x.ha.txn) h.same; exact h'
  | hb => have h' := congrArg (fun x : State => x.hb.txn) h.same; exact h'

/-! ### The operations -/

theorem queues (s : State) (x : SMap CoreQ) : LossOnly s { s with queues := x } := ⟨rfl⟩
theorem setTack (s : State) (n : Nat) (x : Tack) : LossOnly s (s.setTack n x) := ⟨rfl⟩
theorem complete (s : State) (qi c st : Nat) : LossOnly s (s.complete qi c st) := queues s _
theorem modWide (s : State) (qi c : Nat) (f : Wide → Wide) : LossOnly s (s.modWide qi c f) := queues s _
theorem link (s : State) (x : Link) : LossOnly s { s with link := x } := ⟨rfl⟩
theorem addCtx (s : State) (d j n : Nat) : LossOnly s (s.addCtx d j n) := ⟨rfl⟩
theorem addGctr (s : State) (i n : Nat) : LossOnly s (s.addGctr i n) := ⟨rfl⟩
theorem tailor (s : State) (x : Tailor) : LossOnly s { s with tailor := x } := ⟨rfl⟩

theorem enterSourceLost (s : State) (n : Nat) : LossOnly s (s.enterSourceLost n) :=
  (setTack s n _).trans (foldl (fun t _ => complete t _ _ _) _ _)

theorem loseSources (s : State) (id : Nat) : LossOnly s (s.loseSources id) := by
  simp only [State.loseSources]
  exact foldl (fun t _ => enterSourceLost t _) _ _

/-! #### Messages -/

theorem leave (s : State) (dst n : Nat) (m : Msg) : LossOnly s (s.leave dst n m) := by
  simp only [State.leave]
  split
  · simp only [State.countSent]
    split
    · exact ⟨rfl⟩
    · exact ⟨rfl⟩
  · exact ⟨rfl⟩

theorem sendStream (s : State) (dst n : Nat) (m : Msg) : LossOnly s (s.sendStream dst n m) := by
  simp only [State.sendStream]
  split
  · exact refl s
  · split
    · exact leave s dst n m
    · exact link s _

theorem sendColl (s : State) (comm k sig rank mkind x l i part : Nat) (data : List Byte) :
    LossOnly s (s.sendColl comm k sig rank mkind x l i part data) :=
  (sendStream s _ _ _).trans (addCtx _ _ _ _)

theorem sendAborts (s : State) (comm k status : Nat) : LossOnly s (s.sendAborts comm k status) := foldl (fun t _ => sendColl t ..) _ _

/-! #### The end of a norm command -/

theorem countBytes (s : State) (d : Option Nat) (rd : Bool) (a n : Nat) : LossOnly s (s.countBytes d rd a n) := by
  rw [State.countBytes_eq]
  exact ⟨rfl⟩

theorem putBytes (s : State) (a : Nat) (bs : List Byte) : LossOnly s (s.putBytes a bs) := by
  induction bs generalizing s a with
  | nil => exact refl s
  | cons b bs ih =>
    refine trans ?_ (ih _ _)
    split
    · exact refl s
    · exact ⟨rfl⟩

theorem writeBytes (s : State) (a : Nat) (bs : List Byte) : LossOnly s (s.writeBytes a bs) := (putBytes s a bs).trans ⟨rfl⟩

theorem normGroup (s : State) (c : Coll) (status : Nat) (acc : List Byte) (g : Nat) : LossOnly s (s.normGroup c status acc g).1 := by
  have hdone : ∀ (t : State) a bs d b n, LossOnly t (((t.writeBytes a bs).countBytes d b a n).clearSlots g) := fun t a bs d b n =>
    ((writeBytes t a bs).trans (countBytes _ d b a n)).trans ⟨rfl⟩
  simp only [State.normGroup]
  split
  · exact hdone ..
  · have hfree : LossOnly s s.freeNorm.2 := ⟨rfl⟩
    exact hfree.trans (hdone ..)

theorem normGroups (s : State) (c : Coll) (status : Nat) (gs : List Nat) (acc : List Byte) : LossOnly s (s.normGroups c status gs acc).1 := by
  induction gs generalizing s acc with
  | nil => exact refl s
  | cons g gs ih => exact (normGroup s c status acc g).trans (ih _ _)

theorem normEvent (s : State) (step g : Nat) (r : NormRec) : LossOnly s (s.normEvent step g r) := by
  rw [State.normEvent]
  split
  · exact refl s
  · exact of_eventless (State.eventless_raiseEvent ..)

theorem endNorm (s : State) (c : Coll) (status : Nat) : LossOnly s (s.endNorm c status) := by
  have hgroups := normGroups s c status (maskGroups c.groups) []
  simp only [State.endNorm]
  generalize s.normGroups c status (maskGroups c.groups) [] = x at hgroups
  obtain ⟨t, recs, st⟩ := x
  have hevents : ∀ (b : Prop) [Decidable b], LossOnly t (if b then c.norms.foldl (fun s x => s.normEvent c.step x.1 x.2) t else t) := by
    intro b _
    split
    · exact foldl (fun t _ => normEvent t _ _ _) _ _
    · exact refl t
  exact hgroups.trans ((hevents _).trans ((modWide _ _ _ _).trans (complete _ _ _ _)))

/-! #### Collectives -/

theorem reductionEnds (s : State) (c : Coll) (status : Nat) : LossOnly s (s.reductionEnds c status) := by
  simp only [State.reductionEnds]
  split
  · split
    · exact tailor s _
    · exact refl s
  · exact refl s

theorem finish (s : State) (qi c : Nat) : LossOnly s (s.finish qi c) := by
  simp only [State.finish]
  split
  · exact complete s _ _ _
  · exact refl s

theorem leaveColl (s : State) (c : Coll) (status : Nat) : LossOnly s (s.leaveColl c status) := by
  simp only [State.leaveColl]
  generalize ht : ({ s with link := _ } : State) = t
  refine trans (u := _) (by rw [← ht]; exact link s _ : LossOnly s t) ?_
  have hfill : ∀ key, LossOnly t (t.fillFromColl c key) := fun key => ⟨rfl⟩
  have hdone : ∀ u : State, LossOnly u (if status = stOk then u.finish c.queue c.cseq else u.complete c.queue c.cseq status) := fun u => by
    split
    · exact finish u _ _
    · exact complete u _ _ _
  split
  · exact reductionEnds t c status
  · exact endNorm t c status
  · refine trans ?_ (hdone _)
    split
    · exact hfill _
    · exact refl t

theorem settleCommN (s : State) (comm j : Nat) : LossOnly s (s.settleCommN comm j) := by
  induction j generalizing s with
  | zero => exact refl s
  | succ j ih =>
    simp only [State.settleCommN]
    split
    · split
      · exact (leaveColl s _ _).trans (ih _)
      · exact refl s
    · exact refl s

theorem endColl (s : State) (c : Coll) (status : Nat) : LossOnly s (s.endColl c status) := (link s _).trans (settleCommN _ _ _)

theorem endColls (s : State) (p : Coll → Bool) (status : Nat) : LossOnly s (s.endColls p status) := by
  simp only [State.endColls]
  refine foldl (fun t c => ?_) _ _
  exact (sendAborts t c.comm c.k status).trans (endColl _ c status)

/-! #### A lost module, a port that goes down -/

theorem declareLost (s : State) (id : Nat) : LossOnly s (s.declareLost id) := by
  simp only [State.declareLost]
  split
  · exact refl s
  · refine (((link s _).trans (loseSources _ id)).trans (endColls _ _ _)).trans (foldl (fun t c => ?_) _ _)
    split
    · exact link t _
    · exact refl t

theorem meshLoss (s : State) (id : Nat) : LossOnly s (s.meshLoss id) := by
  rw [State.meshLoss]
  split
  · exact refl s
  · exact declareLost s id

theorem setFport (s : State) (p : Nat) (x : FabPort) : LossOnly s (s.setFport p x) := link s _

theorem portDown (s : State) (p cause : Nat) : LossOnly s (s.portDown p cause) := by
  simp only [State.portDown]
  split
  · exact (setFport s p _).trans (meshLoss _ _)
  · exact setFport s p _

theorem fencePort (s : State) (p : Nat) : LossOnly s (s.fencePort p) := by
  simp only [State.fencePort]
  split
  · exact (setFport s p _).trans (meshLoss _ _)
  · exact setFport s p _

end LossOnly

end Sys2Proof.Machine
end

section
/-! CERTIFICATE. SEW and its end (R443, R446, R447). -/

namespace Sys2Proof.Machine

variable {s t u : State} {p : HostPort} {x : Txn}

/-! ### What putting staged values in force leaves -/

/-- The arbiters, the granules and the ports' transactions stand. -/
structure StagingKept (s t : State) : Prop where
  arbiters : t.arbiters = s.arbiters
  granules : t.granules = s.granules
  txn : ∀ p, (t.port p).txn = (s.port p).txn

namespace StagingKept

theorem refl (s : State) : StagingKept s s := ⟨rfl, rfl, fun _ => rfl⟩
theorem trans (h : StagingKept s t) (h' : StagingKept t u) : StagingKept s u :=
  ⟨h'.arbiters.trans h.arbiters, h'.granules.trans h.granules, fun p => (h'.txn p).trans (h.txn p)⟩
theorem of_loss (h : LossOnly s t) : StagingKept s t := ⟨h.arbiters, h.granules, h.txn⟩
theorem foldl {α : Type} {f : State → α → State} (hf : ∀ s a, StagingKept s (f s a)) (l : List α) (s : State) : StagingKept s (l.foldl f s) :=
  foldl_keeps (P := StagingKept s) (fun t a h => h.trans (hf t a)) l (refl s)
theorem setReg (s : State) (o v : Nat) : StagingKept s (s.setReg o v) := ⟨rfl, rfl, fun p => by cases p <;> rfl⟩
theorem hubs (s : State) (x : SMap Hub) : StagingKept s { s with hubs := x } := ⟨rfl, rfl, fun p => by cases p <;> rfl⟩
theorem modCore (s : State) (c : Nat) (f : Core → Core) : StagingKept s (s.modCore c f) := ⟨rfl, rfl, fun p => by cases p <;> rfl⟩
theorem setMreg (s : State) (i : Nat) (m : List Byte) : StagingKept s (s.setMreg i m) := ⟨rfl, rfl, fun p => by cases p <;> rfl⟩
theorem setFport (s : State) (k : Nat) (x : FabPort) : StagingKept s (s.setFport k x) := of_loss (LossOnly.setFport s k x)

theorem withIlv (s : State) (g : Nat) : StagingKept s (s.withIlv g) := by
  simp only [State.withIlv]
  split
  · exact refl s
  · exact (hubs s _).trans (setReg _ _ _)

theorem setFabricId (s : State) (v : Nat) : StagingKept s (s.setFabricId v) :=
  (setReg s _ _).trans (foldl (fun t _ => of_loss (LossOnly.portDown t _ _)) _ _)

theorem portCtl (s : State) (k v : Nat) : StagingKept s (s.portCtl k v) := by
  simp only [State.portCtl]
  refine (setReg s (fportReg k 0) v).trans ?_
  generalize s.setReg (fportReg k 0) v = t
  split
  · split
    · exact refl t
    · exact of_loss (LossOnly.fencePort t k)
  · split
    · exact setFport t k _
    · split
      · exact of_loss (LossOnly.portDown t k 7)
      · exact refl t

theorem applyStaged (s : State) (e : Nat × Nat) : StagingKept s (s.applyStaged e) := by
  simp only [State.applyStaged]
  split
  · exact refl s
  · split
    · exact ⟨rfl, rfl, fun p => by cases p <;> rfl⟩
    · split
      · exact (withIlv s _).trans (setReg _ _ _)
      · split
        · split
          · exact refl s
          · exact setFabricId s _
        · split
          · split
            · exact (portCtl s _ _).trans (of_loss (LossOnly.portDown _ _ _))
            · exact portCtl s _ _
          · split
            · split
              · exact modCore s _ _
              · exact setReg s _ _
            · exact setReg s _ _

theorem freshComms (s : State) (cs : List Nat) : StagingKept s (s.freshComms cs) := foldl (fun t c => of_loss (LossOnly.link t _)) cs s

theorem remeasure (s old : State) : StagingKept s (s.remeasure old) := by
  refine foldl (fun t k => ?_) _ s
  split
  · exact refl t
  · exact setMreg t _ _

end StagingKept

/-! ### The sew point -/

theorem State.freshComms_regs (s : State) (cs : List Nat) : (s.freshComms cs).regs = s.regs := by
  refine foldl_keeps (P := fun t => t.regs = s.regs) (fun t c h => ?_) cs rfl
  exact h

theorem State.remeasure_regs (s old : State) : (s.remeasure old).regs = s.regs := by
  refine foldl_keeps (P := fun t => t.regs = s.regs) (fun t k h => ?_) _ rfl
  split
  · exact h
  · exact h

/-- R443: what the sew point leaves of the transaction, the arbiters, the granules and the registers. -/
theorem State.sewPoint_left (s : State) (p : HostPort) (x : Txn) :
    (s.sewPoint p x).arbiters = s.arbiters ∧ (s.sewPoint p x).granules = (s.runMap x).granules ∧
      (∃ fill again, ((s.sewPoint p x).port p).txn = { (s.port p).txn with state := .sewing, filling := fill, retrain := again }) ∧
      (s.sewPoint p x).regs = (x.staged.foldl State.applyStaged s).regs := by
  have happly := StagingKept.foldl StagingKept.applyStaged x.staged s
  simp only [State.sewPoint]
  generalize x.staged.foldl State.applyStaged s = t at happly
  generalize hv : ({ t with granules := _, sec := _ } : State) = v
  have hport : v.port p = t.port p := by rw [← hv]; cases p <;> rfl
  have hgran : v.granules = (s.runMap x).granules := by rw [← hv]
  have harb : v.arbiters = t.arbiters := by rw [← hv]
  have hregs : v.regs = t.regs := by rw [← hv]
  generalize (x.staged.filter _).map _ = fill
  generalize retrained s v = again
  obtain ⟨hrest, hown, -⟩ := State.modPort_left v p (fun y => { y with txn := { y.txn with state := .sewing, filling := fill, retrain := again } })
  generalize v.modPort p _ = w at hrest hown
  have hkept := (StagingKept.freshComms w (w.changedComms x)).trans (StagingKept.remeasure _ s)
  refine ⟨?_, ?_, ⟨fill, again, ?_⟩, ?_⟩
  · rw [hkept.arbiters, hrest, harb, happly.arbiters]
  · rw [hkept.granules, hrest, hgran]
  · rw [hkept.txn, hown, hport, happly.txn]
  · rw [State.remeasure_regs, State.freshComms_regs, hrest, hregs]

/-- A register read depends on the registers alone. -/
theorem State.reg_of_regs (h : s.regs = t.regs) (off : Nat) : s.reg off = t.reg off := by rw [State.reg, State.reg, h]

theorem State.changedComms_nil (s : State) (hx : x.staged = []) : s.changedComms x = [] := by
  simp [State.changedComms, hx]

theorem retrained_self (s : State) (hp : s.regs = t.regs) (hl : s.link = t.link) : retrained s t = [] := by
  have hfport : ∀ k, t.fport k = s.fport k := fun k => by rw [State.fport, State.fport, hl]
  simp only [retrained, hfport, List.filter_eq_nil_iff, FabPort.linked]
  intro k _
  cases (s.fport k).state <;> simp

theorem State.remeasure_same (h1 : s.settingValues 1 = t.settingValues 1) (h2 : s.settingValues 2 = t.settingValues 2) : s.remeasure t = s := by
  simp only [State.remeasure, List.foldl_cons, List.foldl_nil, if_pos h1, if_pos h2]

theorem State.settingValues_of_regs (h : s.regs = t.regs) {k : Nat} (hk : k ≠ 0) : s.settingValues k = t.settingValues k := by
  simp only [State.settingValues, if_neg hk, State.reg_of_regs h]

/-- R443: a transaction that staged nothing is SEWING, and nothing else changes. -/
theorem State.sewPoint_nil (hx : x.staged = []) :
    s.sewPoint p x = s.modPort p (fun y => { y with txn := { y.txn with state := .sewing, filling := [], retrain := [] } }) := by
  have hrun : s.runMap x = { granules := s.granules, auths := s.sec.auths } := by rw [State.runMap, hx]; rfl
  simp only [State.sewPoint, hrun, hx, List.foldl_nil, List.filter_nil, List.map_nil]
  have hsame : ({ s with granules := s.granules, sec := { s.sec with auths := s.sec.auths } } : State) = s := rfl
  rw [hsame, retrained_self s rfl rfl, State.changedComms_nil _ hx]
  have hregs := State.modPort_regs (s := s) p (fun y => { y with txn := { y.txn with state := .sewing, filling := [], retrain := [] } })
  exact State.remeasure_same (State.settingValues_of_regs hregs (by decide)) (State.settingValues_of_regs hregs (by decide))

theorem recipeValid_unasked (h : ∀ e ∈ x.staged, e.1 < 0x02800900) : s.checkRecipes x = true := by
  simp only [State.checkRecipes, List.all_eq_true, Bool.or_eq_true, Bool.not_eq_true', List.any_eq_false, beq_iff_eq]
  refine fun i _ => .inl fun e he => ?_
  have := h e he
  omega

theorem State.changedComms_core (s : State) (h : ∀ e ∈ x.staged, e.1 < 0x03000000) : s.changedComms x = [] := by
  simp only [State.changedComms, List.filter_eq_nil_iff, Bool.not_eq_true, List.any_eq_false]
  intro c _ e he
  have hlow := h e he
  rw [inBlock_eq_none (by omega)]
  simp only [Bool.or_false, beq_eq_false_iff_ne]
  omega

/-- A transaction without a request of HUB_DMAP_WRITE leaves the granules as they are. -/
theorem State.runMap_plain (s : State) (h : ∀ e ∈ x.staged, e.1 < 0x02800000) : s.runMap x = { granules := s.granules, auths := s.sec.auths } := by
  have hnone : x.staged.filter (fun e => e.1 == 0x02810008) = [] := by
    simp only [List.filter_eq_nil_iff, beq_iff_eq]
    intro e he
    have := h e he
    omega
  rw [State.runMap, hnone]
  rfl

/-- R443: registers of the cores alone pass every check. -/
theorem State.sewOk_plain (s : State) (h : ∀ e ∈ x.staged, e.1 < 0x02000000) : s.sewOk x = true := by
  have hilv : ∀ e ∈ x.staged, (e.1 == 0x02810000) = false := fun e he => by
    have := h e he
    exact beq_eq_false_iff_ne.mpr (by omega)
  have hafter : s.after x 0x02810000 = s.reg 0x02810000 := by
    have hnone : x.staged.find? (fun e => e.1 == 0x02810000) = none := List.find?_eq_none.mpr fun e he => by rw [hilv e he]; decide
    rw [State.after, hnone]
    rfl
  have hany : x.staged.any (fun e => e.1 == 0x02810000) = false := List.any_eq_false.mpr fun e he => by rw [hilv e he]; decide
  simp only [State.sewOk, State.checkMap, State.runMap_plain s (fun e he => Nat.lt_of_lt_of_le (h e he) (by decide)), hafter, hany,
    State.changedComms_core _ (fun e he => Nat.lt_of_lt_of_le (h e he) (by decide)), recipeValid_unasked (fun e he => Nat.lt_of_lt_of_le (h e he) (by decide)),
    Bool.not_false, Bool.true_or, Bool.and_true, List.all_nil, beq_self_eq_true]

/-- R443: the first of the plain registers of a core in force. -/
theorem State.applyStaged_core {c v : Nat} (s : State) (hc : c < 24) :
    s.applyStaged (0x01000F00 + 0x10000 * c, v) =
      s.setReg (0x01000F00 + 0x10000 * c) (s.reg (0x01000F00 + 0x10000 * c) / 256 * 256 + v % 256) := by
  have hblock : inBlock 0x01000000 0x10000 24 (0x01000F00 + 0x10000 * c) = some (c, 0x0F00) := by
    have h := inBlock_eq_some (base := 0x01000000) (stride := 0x10000) hc (show 0x0F00 < 0x10000 by decide)
    rwa [show 0x01000000 + 0x10000 * c + 0x0F00 = 0x01000F00 + 0x10000 * c by omega] at h
  have hport : inBlock 0x03000000 0x1000 48 (0x01000F00 + 0x10000 * c) = none := inBlock_eq_none (by omega)
  have hfields : stFields (0x01000F00 + 0x10000 * c) = some [⟨7, 0, 0, 255⟩] := by
    simp only [stFields, hblock]
    repeat rw [if_neg (by omega)]
    rfl
  have hval : setFields (s.reg (0x01000F00 + 0x10000 * c)) [⟨7, 0, 0, 255⟩] v = s.reg (0x01000F00 + 0x10000 * c) / 256 * 256 + v % 256 := by
    generalize s.reg (0x01000F00 + 0x10000 * c) = w
    simp only [setFields, List.foldl_cons, List.foldl_nil, setFld, fld, put, Nat.shiftRight_zero, Nat.shiftLeft_zero]
    omega
  simp only [State.applyStaged, hfields, hval, hblock, hport]
  repeat rw [if_neg (by omega)]

/-! ### SEW -/

theorem exec_sew : exec (.sew p) s = .next (s.hostWrite p 0x00100000 (.sew p) (fun t => t.sew p)) := rfl

theorem State.sew_passes (hx : (s.port p).txn.state = .opened) (hok : (s.passArb .sew (portNum p)).sewOk (s.port p).txn = true) :
    s.sew p = (s.passArb .sew (portNum p)).sewPoint p (s.port p).txn := by
  simp only [State.sew, hx, hok, if_true]

theorem State.sew_fails (hx : (s.port p).txn.state = .opened) (hok : (s.passArb .sew (portNum p)).sewOk (s.port p).txn = false) :
    s.sew p = (s.passArb .sew (portNum p)).endTxn p stConflict 5 := by
  simp only [State.sew, hx, hok, Bool.false_eq_true, if_false]

theorem State.sew_doomed (hx : (s.port p).txn.state = .doomed) : s.sew p = s.endTxn p stConflict 2 := by
  simp only [State.sew, hx]

theorem State.sew_other (hx : (s.port p).txn.state = .idle ∨ (s.port p).txn.state = .sewing) : s.sew p = s := by
  rcases hx with hx | hx <;> simp only [State.sew, hx]

/-! ### The end of a SEW -/

theorem State.port_zeroFill (s : State) (a n : Nat) (p : HostPort) : (s.zeroFill a n).port p = s.port p := by cases p <;> rfl

theorem State.memByte_zeroFill (h : Memory.wf s.mem = true) (a n k : Nat) :
    (s.zeroFill a n).memByte k = if a ≤ k ∧ k < a + n then 0 else s.memByte k :=
  SMap.get_clear (SMap.rising_of_wf h)

/-- The granules that a transaction assigned, zeroed. -/
def State.zeroGranules (s : State) (fs : List (Nat × Nat)) : State := fs.foldl (fun s f => s.zeroFill (f.1 * granuleSize) (f.2 * granuleSize)) s

theorem State.zeroGranules_port (s : State) (fs : List (Nat × Nat)) (p : HostPort) : (s.zeroGranules fs).port p = s.port p :=
  foldl_keeps (P := fun t => t.port p = s.port p) (fun t f h => (State.port_zeroFill t _ _ p).trans h) fs rfl

/-- The bytes of a granule run. -/
def inRun (f : Nat × Nat) (a : Nat) : Prop := f.1 * 2097152 ≤ a ∧ a < (f.1 + f.2) * 2097152

theorem State.memByte_zeroGranules (h : Memory.wf s.mem = true) (fs : List (Nat × Nat)) (a : Nat) :
    ((∃ f ∈ fs, inRun f a) ∨ s.memByte a = 0 → (s.zeroGranules fs).memByte a = 0) ∧
      ((∀ f ∈ fs, ¬inRun f a) → (s.zeroGranules fs).memByte a = s.memByte a) := by
  induction fs generalizing s with
  | nil => exact ⟨fun h => h.resolve_left (fun ⟨_, hf, _⟩ => absurd hf List.not_mem_nil), fun _ => rfl⟩
  | cons f fs ih =>
    obtain ⟨hin, hout⟩ := ih (State.zeroFill_wf (f.1 * granuleSize) (f.2 * granuleSize) h)
    have hstep := State.memByte_zeroFill h (f.1 * granuleSize) (f.2 * granuleSize) a
    have hrun : inRun f a ↔ f.1 * granuleSize ≤ a ∧ a < f.1 * granuleSize + f.2 * granuleSize := by
      rw [inRun, granuleSize, Nat.add_mul]
    refine ⟨fun hor => hin ?_, fun hno => (hout fun g hg => hno g (List.mem_cons_of_mem f hg)).trans ?_⟩
    · by_cases hf : inRun f a
      · exact .inr (hstep.trans (if_pos (hrun.mp hf)))
      · rcases hor with ⟨g, hg, hga⟩ | hz
        · rcases List.mem_cons.mp hg with rfl | hg
          · exact absurd hga hf
          · exact .inl ⟨g, hg, hga⟩
        · exact .inr ((hstep.trans (if_neg (mt hrun.mpr hf))).trans hz)
    · exact hstep.trans (if_neg (mt hrun.mpr (hno f List.mem_cons_self)))

theorem exec_sewEnd : exec (.sewEnd p) s = .next (doSewEnd p s) := rfl

/-- R443: with its follow-on actions complete, the transaction ends. -/
theorem doSewEnd_ends (hready : s.ready = true) (hfreeze : s.freeze.frozen = false) (hx : (s.port p).txn.state = .sewing)
    (hsram : s.sramDone (s.port p).txn = true) (htrain : (s.port p).txn.retrain.all s.trained = true) :
    doSewEnd p s = (s.zeroGranules (s.port p).txn.filling).modPort p
      (fun y => { y with txn := Txn.finish { y.txn with filling := [], retrain := [] } stOk 0 }) := by
  simp only [doSewEnd, hready, hfreeze, hx, hsram, htrain, Bool.not_false, Bool.and_self, beq_self_eq_true, if_true]
  exact State.modPort_modPort _ p _ _

/-- Settles O35: SEW, by the state of its transaction and the check; SEW_END, from the walk over the granules that it zeroes. -/
theorem sewTransactions : Obligations.SewTransactions := by
  intro s p x ended
  have hx : ((s.undrain p).port p).txn = x := by rw [State.undrain_port]
  refine ⟨fun h hact => ?serves, fun h hact => gives_of_txnAccess_held h hact exec_sew, fun htidy hready hfreeze hsewing hsram htrain => ?ends,
    fun hready hfreeze hsewing hstaged hfill htrain => ?endsBare⟩
  case serves =>
    intro u
    have hexec := exec_sew (s := s) (p := p)
    rw [State.hostWrite_served h (by decide) (fun _ => hact)] at hexec
    have hux : (u.port p).txn = x := (congrArg Port.txn (State.passArb_port _ _ _ p)).trans hx
    have hpass : x.state = .opened → u.sewOk x = true → (s.undrain p).sew p = u.sewPoint p x := fun hopen hok => by
      rw [State.sew_passes (by rwa [hx]) (by rwa [hx]), hx]
    refine ⟨fun hopen hok => ?_, fun hopen hnil => ?_, fun c v hopen hc hone => ?_, fun hopen hok => ⟨_, hexec, ?_⟩, fun hdoomed => ⟨_, hexec, ?_⟩,
      fun hother => ⟨_, hexec, ?_⟩⟩
    · obtain ⟨harb, hgran, ⟨fill, again, htxn⟩, -⟩ := State.sewPoint_left u p x
      rw [hpass hopen hok] at hexec
      exact ⟨_, hexec, by rw [htxn], by rw [htxn, hux], harb, hgran⟩
    · rw [hpass hopen (State.sewOk_plain u (by rw [hnil]; exact fun e he => absurd he List.not_mem_nil)), State.sewPoint_nil hnil] at hexec
      exact ⟨_, hexec, State.modPort_congr (by rw [hux])⟩
    · have hlow : ∀ e ∈ x.staged, e.1 < 0x02000000 := fun e he => by
        rw [hone] at he
        obtain rfl := List.mem_singleton.mp he
        change 0x01000F00 + 0x10000 * c < 0x02000000
        omega
      obtain ⟨-, -, ⟨fill, again, htxn⟩, hregs⟩ := State.sewPoint_left u p x
      rw [hpass hopen (State.sewOk_plain u hlow)] at hexec
      refine ⟨_, hexec, by rw [htxn], ?_⟩
      have hu : u.regs = s.regs := State.undrain_regs s p
      rw [hregs, hone, List.foldl_cons, List.foldl_nil, State.applyStaged_core u hc, State.reg_of_regs hu]
      simp only [State.setReg, hu]
    · rw [State.sew_fails (by rwa [hx]) (by rwa [hx])]
      exact State.modPort_congr (by rw [State.passArb_port, State.undrain_port]; rfl)
    · rw [State.sew_doomed (by rwa [hx])]
      exact State.endTxn_txnLeft s p stConflict 2
    · rw [State.sew_other (by rwa [hx])]
      exact State.txnLeft_undrain s p
  case ends =>
    refine ⟨_, exec_sewEnd, ?_⟩
    rw [doSewEnd_ends hready hfreeze hsewing hsram htrain]
    have hmem := State.memByte_zeroGranules (State.tidy_mem htidy) x.filling
    refine ⟨?_, fun f hf a hlo hhi => ?_, fun a hout => ?_⟩
    · rw [State.port_modPort, State.zeroGranules_port]
      rfl
    · rw [State.memByte, State.modPort_mem]
      exact (hmem a).1 (.inl ⟨f, hf, hlo, hhi⟩)
    · rw [State.memByte, State.modPort_mem]
      refine (hmem a).2 fun f hf ⟨hlo, hhi⟩ => ?_
      rcases hout f hf with h | h
      · omega
      · omega
  case endsBare =>
    have hsram : s.sramDone x = true := by rw [State.sramDone, hstaged]; rfl
    refine ⟨_, exec_sewEnd, ?_⟩
    rw [doSewEnd_ends hready hfreeze hsewing hsram (by rw [htrain]; rfl), hfill]
    have hx : { x with filling := [], retrain := [] } = x := by rw [← hfill, ← htrain]
    have hzero : s.zeroGranules [] = s := rfl
    rw [hzero]
    refine State.modPort_congr ?_
    rw [show (s.port p).txn = x from rfl, hx]
    rfl

end Sys2Proof.Machine
end

section
/-! SUPPORT. Concrete commands: a command that passes its check, computed, and a module on which one dispatches. -/

namespace Sys2Proof.Machine

variable {s : State} {c q : Nat} {ws : Words} {x : Wide}

/-- The conditions of `State.passes` before the operands are resolved. -/
def State.reachesCheck (s : State) (c q : Nat) (ws : Words) : Bool :=
  let qi := 8 * c + q
  let w := (s.took qi).newWide qi ws
  let u := s.dispatched qi ws
  decide (c < 24) && decide (q < 8) && s.turn qi && decide ((s.took qi).fetchFault qi 1 = none) && decide (fld ws.w0.toNat 63 60 = 15) &&
    (s.took qi).wordsLeft qi 4 && decide ((s.took qi).fetchFault qi 4 = none) && ((s.took qi).wide qi w.cseq).isNone && decide (w.opcode ≠ 0) &&
    decide (w.opcode ≤ 12) && (u.badDesc qi w).isNone && !u.poisonedDesc w && !(u.adaptHeld && w.namesAdapt)

/-- The command that the words at the pc of a queue dispatch, where it passes its check. -/
def State.checked (s : State) (c q : Nat) (ws : Words) : Option Wide :=
  let qi := 8 * c + q
  let u := s.dispatched qi ws
  let w := u.taken ((s.took qi).newWide qi ws)
  (u.allOps w).bind fun ops =>
    match u.checkOp (u.serving qi) { w with ops := ops } with
    | .pass y =>
      let x := u.settled { w with ops := ops } ops y
      if w.tackBad = false ∧ (s.accepts qi ws x).lapsed x = false then some x else none
    | _ => none

theorem State.passes_of_checked (hreach : s.reachesCheck c q ws = true) (h : s.checked c q ws = some x) : s.passes c q ws x := by
  simp only [State.reachesCheck, Bool.and_eq_true, decide_eq_true_eq, Bool.not_eq_true', Option.isNone_iff_eq_none] at hreach
  obtain ⟨⟨⟨⟨⟨⟨⟨⟨⟨⟨⟨⟨hc, hq⟩, hturn⟩, hfetch⟩, hop⟩, hleft⟩, hfetch4⟩, hnew⟩, hop0⟩, hop12⟩, hdesc⟩, hpoison⟩, hadapt⟩ := hreach
  obtain ⟨ops, hops, hrest⟩ := Option.bind_eq_some_iff.mp h
  dsimp only at hrest
  split at hrest
  · next y hy =>
    split at hrest
    · next hend =>
      obtain rfl := Option.some.inj hrest
      exact ⟨⟨hc, hq, hturn, hfetch⟩, hop, hleft, hfetch4, hnew, hop0, hop12, hdesc, hpoison, hadapt, ops, y, hops, hend.1, hy, rfl, hend.2⟩
    · exact absurd hrest (by simp)
  · exact absurd hrest (by simp)

/-- What a decidable property of the checked command says of a command that passes. -/
theorem State.passes_of_any {P : Wide → Bool} (hreach : s.reachesCheck c q ws = true) (h : (s.checked c q ws).any P = true) :
    ∃ x, s.passes c q ws x ∧ P x = true := by
  cases hx : s.checked c q ws with
  | none => rw [hx] at h; exact absurd h (by simp)
  | some x => exact ⟨x, State.passes_of_checked hreach hx, by rw [hx] at h; exact h⟩

/-- A wide command's words. -/
def wideWords (opcode fields w1 w2 : Nat) : Words :=
  { w0 := BitVec.ofNat 64 (15 * 2 ^ 60 + opcode * 2 ^ 52 + fields), w1 := BitVec.ofNat 64 w1, w2 := BitVec.ofNat 64 w2 }

/-- The module in service, queue 0 of core 0 at the first of the 64 words of its submission in the core store; its address register n
names the place n × 0x80 further on. -/
def dispatching : State :=
  { inService with
    queues := [(0, { sub := some { base := 0x0D0000000000, words := 64 }, pc := 0x0D0000000000,
                     a := (upto 15).map (fun n => (n + 1, BitVec.ofNat 64 (0x0D0000000080 + 0x80 * n))) })] }

/-- A chalk buffer of domain 0 that takes BEGIN records of core 0, and owes a GAP record. -/
def owesGap : Chalk := { cfg := 2 ^ 63 + 2 ^ 36 + 11 * 2 ^ 48 + 1, state := .recording, pending := 1 }

/-- The next BEGIN record of core 0 reports an event, at the start of the event ring of port A, the steward. -/
def reportsGap (s : State) : State :=
  { s with chalk := [(0, owesGap)], ha := { s.ha with evqEnable := true, evqSize := 4, evqBase := 0x10000 } }

end Sys2Proof.Machine
end

section
/-! CERTIFICATE. TACK commands (R230 to R232): a command whose record has no room does not retire as it is issued. -/

namespace Sys2Proof.Machine

/-- TACK SET of tack 0 to 5. -/
def setsTack : Words := wideWords 7 0 5 0

/-- The sequence number that a queue retired last, in an outcome that has one. -/
def retiredBy (qi : Nat) : Host.Outcome State Fault Refusal → Nat
  | .next t => (t.queue qi).rseq
  | _ => 0

theorem dispatching_tidy : dispatching.tidy = true := by decide +kernel
theorem dispatching_setsTack : dispatching.reachesCheck 0 0 setsTack = true := by decide +kernel
theorem setsTack_passes : (dispatching.checked 0 0 setsTack).any (fun x => x.opcode == 7 && x.op == 0 && !x.recBit) = true := by decide +kernel
theorem setsTack_waits : retiredBy 0 (exec (.tackCmdSet 0 0 setsTack) dispatching) = 0 := by decide +kernel

/-- Refutes O38: the ring of the submission's host queue has no room for a record, so a TACK SET alone in its queue does not retire; the
statement's first clause says that it has retired. -/
theorem not_tackCommands : ¬ Obligations.TackCommands := by
  intro h
  obtain ⟨x, hpass, hx⟩ := State.passes_of_any dispatching_setsTack setsTack_passes
  simp only [Bool.and_eq_true, beq_iff_eq, Bool.not_eq_true'] at hx
  obtain ⟨⟨hopcode, hop⟩, hrec⟩ := hx
  obtain ⟨hset, -⟩ := h dispatching 0 0 setsTack x dispatching_tidy hpass hopcode
  obtain ⟨t, hexec, ⟨hretired, -⟩, -⟩ := hset hop ⟨rfl, rfl, hrec, _, rfl, rfl⟩
  have hseq := congrArg (retiredBy 0) hexec
  rw [setsTack_waits] at hseq
  exact absurd (hseq.trans hretired) (by decide)

end Sys2Proof.Machine
end

section
/-! CERTIFICATE. SHUTTLE commands (R229): the BEGIN record of a COPY may report an event, which writes to the event ring of the port that
its source lies behind. -/

namespace Sys2Proof.Machine

/-- COPY from the view that address register 1 names to the one that address register 2 names. -/
def copies : Words := wideWords 6 (2 ^ 28 + 2 * 2 ^ 24) 0 0

/-- Register 1 names 16 BF16 elements of the memory of host A, register 2 the same of the core store; the chalk buffer owes a GAP record. -/
def copying : State :=
  reportsGap { dispatching with
    mem := [(0x0D0000000081, 0x10), (0x0D0000000087, 0x80), (0x0D00000000A0, 1), (0x0D00000000A4, 16), (0x0D00000000BA, 7),
            (0x0D0000000101, 0x38), (0x0D0000000105, 0x0D), (0x0D0000000120, 1), (0x0D0000000124, 16), (0x0D000000013A, 7)] }

/-- The tail of port A's event ring in an outcome that has one. -/
def eventTail : Host.Outcome State Fault Refusal → Nat
  | .next t => t.ha.evqTail
  | _ => 0

/-- Asking for reads leaves the event ring. -/
theorem Port.sendReads_evqTail (x : Port) (now : Nat) : (x.sendReads now).evqTail = x.evqTail := by
  rw [Port.sendReads]
  generalize x.asks.take (768 - x.reads.length) = l
  refine List.foldlRecOn l _ (motive := fun y : Port => y.evqTail = x.evqTail) rfl fun y hy a _ => ?_
  exact hy

theorem copying_tidy : copying.tidy = true := by decide +kernel
theorem copying_copies : copying.reachesCheck 0 0 copies = true := by decide +kernel
theorem copies_passes : (copying.checked 0 0 copies).any (fun x => x.opcode == 6 && x.op == 0 && (copying.hostSource x == some .ha) &&
    !copying.hostGone x && ((x.shSrc.desc.ranges x.shSrc.f x.heritage).map Prod.snd).sum != 0) = true := by decide +kernel
theorem copies_reports : eventTail (exec (.shuttleCopy 0 0 copies) copying) = 1 := by decide +kernel

/-- Refutes O37: the BEGIN record of a COPY from the memory of host A is preceded by the GAP record that its buffer owes, whose event moves on
the tail of port A's event ring; the statement says that port A only asks for the source. -/
theorem not_shuttleCommands : ¬ Obligations.ShuttleCommands := by
  intro h
  obtain ⟨x, hpass, hx⟩ := State.passes_of_any copying_copies copies_passes
  simp only [Bool.and_eq_true, beq_iff_eq, bne_iff_ne, Bool.not_eq_true'] at hx
  obtain ⟨⟨⟨⟨hopcode, hop⟩, hsource⟩, hgone⟩, hbytes⟩ := hx
  obtain ⟨-, hfree, -⟩ := h copying 0 0 copies x (.shuttleCopy 0 0 copies) copying_tidy hpass hopcode (.inl ⟨hop, rfl⟩)
  obtain ⟨-, hhost⟩ := hfree 0 (by decide +kernel) hgone
  obtain ⟨t, hexec, -, hport, -⟩ := hhost .ha hsource hbytes
  have hreports := congrArg eventTail hexec
  rw [copies_reports] at hreports
  have htail := congrArg Port.evqTail hport
  rw [Port.sendReads_evqTail] at htail
  have hbefore : copying.ha.evqTail = 0 := rfl
  have hmoved : 1 = copying.ha.evqTail := hreports.trans htail
  exact absurd (hmoved.trans hbefore) (by decide)

end Sys2Proof.Machine
end

section
/-! CERTIFICATE. UPD commands (R236): what the event of a record leaves of a memory that is not in its canonical form. -/

namespace Sys2Proof.Machine

/-- UPD of the update descriptor that address register 1 names. -/
def updates : Words := wideWords 9 (2 ^ 28) 0 0

/-- An update descriptor in the core store, its norm record there; two events to write, and a memory whose last two cells are out of order. -/
def updating : State :=
  reportsGap { dispatching with
    regs := [(0x02800800, 11 * 2 ^ 26)], hubs := [(0, { localLimit := 2 ^ 30 })], granules := [(0x200000, 1)]
    lastNorm := [(0, { issued := true, result := some (List.replicate 64 0) })]
    evBuf := [{ code := 0, time := 0, payload := 0 }]
    mem := [(0x0D0000000081, 0x10), (0x0D0000000085, 0x04), (0x0D0000000092, 1), (0x0D0000000095, 4), (0x0D00000000D2, 3), (0x0D00000000D5, 4),
            (0x0D00000000D8, 0x20), (0x0D00000000D9, 0x20), (0x0D00000000F8, 10), (2 ^ 63 + 0x10000, 1), (2 ^ 62, 7)] }

/-- The byte at an address of an outcome that has a memory. -/
def byteAt (a : Nat) : Host.Outcome State Fault Refusal → Byte
  | .next t => t.memByte a
  | _ => 0

theorem updating_updates : updating.reachesCheck 0 0 updates = true := by decide +kernel
theorem updates_passes : (updating.checked 0 0 updates).any (fun x => x.opcode == 9 && x.normRec.isSome && !x.updPath &&
    updating.updActive x.updHub && decide ((updating.accepted x.updHub).length < 16)) = true := by decide +kernel
theorem updates_uncovers : byteAt (2 ^ 62) (exec (.upd 0 0 updates) updating) = 7 := by decide +kernel

/-- Refutes O40: its first part is about every state, and where memory is not in its canonical form, the first event byte, a zero, removes the
cell that hid the one at 2^62; the statement says that no byte below 2^63 changes. -/
theorem not_updates : ¬ Obligations.Updates := by
  rintro ⟨h, -⟩
  obtain ⟨x, hpass, hx⟩ := State.passes_of_any updating_updates updates_passes
  simp only [Bool.and_eq_true, beq_iff_eq, decide_eq_true_eq, Bool.not_eq_true'] at hx
  obtain ⟨⟨⟨⟨hopcode, hnorm⟩, hpath⟩, hactive⟩, hroom⟩ := hx
  obtain ⟨-, htaken, -⟩ := h updating 0 0 updates x hpass hopcode
  obtain ⟨t, hexec, ⟨-, -, hmem⟩, -⟩ := htaken (Option.isSome_iff_ne_none.mp hnorm) hpath hactive hroom
  have hbyte := congrArg (byteAt (2 ^ 62)) hexec
  rw [updates_uncovers] at hbyte
  exact absurd (hbyte.trans (hmem (2 ^ 62) (by decide))) (by decide +kernel)

end Sys2Proof.Machine
end

section
/-! CERTIFICATE. The step boundary (R150 to R153): what the event of a widening storm leaves of a memory that is not in its canonical form. -/

namespace Sys2Proof.Machine

/-- The statistics of a role that the members agree on, with samples that call for the widest format. -/
def agreed : StatRec := { agree := 7, touched := true, shadowMismatch := 1 }

/-- The reduced records: every role agreed. -/
def allAgreed : SMap StatRec := statKeys.map (fun k => (k, agreed))

/-- The boundary of step 0, its records merged. -/
def merged : Boundary := { queue := 0, cseq := 1, comm := 0, step := 0, merged := true }

/-- The module in service as the reduction of a boundary's records has come back: tag 0 is steered, and any widening is a storm; an event
waits to be written, and the two cells of memory are out of order. -/
def decidingOn (reduced : SMap StatRec) : State :=
  { inService with
    ha := { inService.ha with evqEnable := true, evqSize := 4, evqBase := 0x10000 }, evBuf := [{ code := 0, time := 0, payload := 0 }]
    regs := [(0x03780000, 2 ^ 31 + 2 ^ 16)], mem := [(2 ^ 63 + 0x10000, 1), (2 ^ 62, 7)]
    tailor := { boundary := some merged, reduction := some 0, reduced := reduced,
                bank0 := [(0, { valid := true, w := { steer := true, top := 1 } })] } }

/-- The same, with the records agreed. -/
def deciding : State := decidingOn allAgreed

/-- A map that holds one value at each key of a rising list. -/
theorem SMap.get_map_const {α : Type} {d v : α} {l : List Nat} (hl : l.Pairwise (· < ·)) {k : Nat} (hk : k ∈ l) :
    SMap.get d (l.map (fun j => (j, v))) k = v := by
  induction l with
  | nil => exact absurd hk List.not_mem_nil
  | cons j l ih =>
    obtain ⟨hj, hl⟩ := List.pairwise_cons.mp hl
    rcases List.mem_cons.mp hk with rfl | hk
    · simp only [List.map_cons, SMap.get, Nat.lt_irrefl, if_false, if_true]
    · have hlt := hj k hk
      simp only [List.map_cons, SMap.get]
      rw [if_neg (by omega), if_neg (by omega)]
      exact ih hl hk

theorem statKeys_rising : statKeys.Pairwise (· < ·) := by
  rw [statKeys, upto, List.pairwise_map]
  refine List.pairwise_lt_range.imp ?_
  intro i j hij
  simp only [tagRole]
  omega

theorem decidingOn_reduced (m : SMap StatRec) : (decidingOn m).tailor.reduced = m := rfl

theorem deciding_agrees : deciding.statsDisagree = false := by
  simp only [State.statsDisagree, List.any_eq_false]
  intro k hk
  have hget : SMap.get ({} : StatRec) allAgreed k = agreed := by
    rw [allAgreed, SMap.get_map_const statKeys_rising hk]
  rw [deciding, decidingOn_reduced, hget]
  decide

/-! ### The decisions of a table with one valid tag -/

theorem exec_stepEndDecide (s : State) : exec .stepEndDecide s = .next (doStepEndDecide s) := rfl

/-- R150: a boundary whose reduction has come back ends. -/
theorem doStepEndDecide_ends {s : State} {b : Boundary} {st : Nat} (halive : s.alive = true) (hb : s.tailor.boundary = some b)
    (hst : s.tailor.reduction = some st) (hmerged : b.merged = true) (hload : b.load = false) (hended : b.ended = false) :
    doStepEndDecide s = s.endBoundary b st := by
  simp only [doStepEndDecide, halive, hb, hst, hmerged, hload, hended, Bool.not_true, Bool.not_false, Bool.false_eq_true, Bool.and_self,
    if_true, if_false]

/-- R150: where the records agree, the decisions are applied, and STEP_END is complete. -/
theorem State.endBoundary_applies {s : State} (h : s.statsDisagree = false) (b : Boundary) :
    s.endBoundary b stOk = (s.applyDecisions b).complete b.queue b.cseq stOk := by
  simp only [State.endBoundary, h, ne_eq, not_true_eq_false, Bool.false_eq_true, if_false]

/-- A tag without a valid entry is left. -/
theorem State.decideAll_invalid {s : State} {bank : Bool} {tags : List Nat} (h : ∀ tag ∈ tags, (s.fit bank tag).valid = false) :
    s.decideAll bank tags = (s, tags.map (fun tag => (tag, {}))) := by
  induction tags with
  | nil => rfl
  | cons tag tags ih =>
    have hone : s.decideTag bank tag = (s, {}) := by
      simp only [State.decideTag, h tag List.mem_cons_self, Bool.not_false, if_true]
    simp only [State.decideAll, hone, ih fun k hk => h k (List.mem_cons_of_mem tag hk), List.map_cons]

/-- The state as tag 0 has been decided. -/
def decidedZero : State × TagDecided := deciding.copyBank.decideTag true 0

theorem decidedZero_tags : decidedZero.1.tailor.bank1.map Prod.fst = [0] := by decide +kernel

/-- A bank that holds tag 0 alone has no other valid entry. -/
theorem State.fit_of_single {u : State} (h : u.tailor.bank1.map Prod.fst = [0]) {tag : Nat} (htag : tag ≠ 0) : (u.fit true tag).valid = false := by
  obtain ⟨e, hbank, hkey⟩ := List.map_eq_singleton_iff.mp h
  have hget : SMap.get ({} : FitEntry) [e] tag = {} := by
    obtain ⟨k, v⟩ := e
    obtain rfl : k = 0 := hkey
    simp only [SMap.get, Nat.not_lt_zero, if_false, if_neg htag]
  rw [State.fit, if_pos rfl, hbank, hget]

/-- The tags after tag 0. -/
def laterTags : List Nat := (List.range 4095).map Nat.succ

theorem upto_succ (n : Nat) : upto (n + 1) = 0 :: (List.range n).map Nat.succ := List.range_succ_eq_map

theorem upto_tags : upto 4096 = 0 :: laterTags := upto_succ 4095

/-- The decisions of a list of tags, of which the first alone has a valid entry. -/
theorem State.decideAll_cons {s u : State} {bank : Bool} {tag : Nat} {d : TagDecided} {tags : List Nat}
    (h : s.decideTag bank tag = (u, d)) (hrest : ∀ k ∈ tags, (u.fit bank k).valid = false) :
    s.decideAll bank (tag :: tags) = (u, (tag, d) :: tags.map (fun k => (k, {}))) := by
  simp only [State.decideAll, h, State.decideAll_invalid hrest]

/-- The decisions of the table: tag 0 alone is valid. -/
theorem deciding_decides :
    deciding.copyBank.decideAll true (upto 4096) = (decidedZero.1, (0, decidedZero.2) :: laterTags.map (fun tag => (tag, {}))) := by
  rw [upto_tags]
  refine State.decideAll_cons rfl fun tag htag => State.fit_of_single decidedZero_tags ?_
  obtain ⟨k, -, rfl⟩ := List.mem_map.mp htag
  exact Nat.succ_ne_zero k

/-- What a later tag does not show. -/
theorem laterTags_none {P : Nat × TagDecided → Bool} (h : ∀ tag, P (tag, {}) = false) :
    (laterTags.map (fun tag => (tag, ({} : TagDecided)))).filter P = [] := by
  rw [List.filter_eq_nil_iff]
  intro e he
  obtain ⟨tag, -, rfl⟩ := List.mem_map.mp he
  rw [h tag]
  decide

/-- `State.applyDecisions` over a list of tags. -/
def State.applyDecisionsOver (tags : List Nat) (s : State) (b : Boundary) : State :=
  let steered := s.steeredTags
  let s := s.copyBank
  let idle := !s.tailor.bank
  let (s, ds) := s.decideAll idle tags
  let repaired := (ds.map (fun x => x.2.repaired)).sum
  let s := if repaired = 0 then s else s.logQueue 0x010C b.queue (s.queueDomain b.queue) b.cseq
  let s := s.stormEvent b.step steered ds
  { s with tailor := { s.tailor with bank := idle, step := (s.tailor.step + 1) % 2 ^ 64, table := [], lastResult := 0,
                                     boundary := some { b with ended := true }, reduction := none, diverged := decide (repaired ≠ 0),
                                     widenedTags := (ds.filter (fun x => x.2.widened)).length,
                                     narrowedTags := (ds.filter (fun x => x.2.narrowed)).length,
                                     pinnedTags := (ds.filter (fun x => x.2.pinned)).length,
                                     coldTags := (ds.filter (fun x => x.2.cold)).length } }

/-- The table's tags are 0 to 4095; as a property of the result, so that the list of them is not computed. -/
theorem State.applyDecisions_over {P : State → Prop} {s : State} {b : Boundary}
    (h : ∀ tags, upto 4096 = tags → P (State.applyDecisionsOver tags s b)) : P (s.applyDecisions b) := by
  delta State.applyDecisions
  generalize htags : upto 4096 = tags
  exact h tags htags

/-- Where no role disagrees, no more than the storm's event touches memory. -/
theorem State.applyDecisions_mem {s u : State} {b : Boundary} {ds : List (Nat × TagDecided)}
    (hbank : s.copyBank.tailor.bank = false) (hdecide : s.copyBank.decideAll true (upto 4096) = (u, ds))
    (hrepaired : (ds.map (fun x => x.2.repaired)).sum = 0) :
    (s.applyDecisions b).mem = (u.stormEvent b.step s.steeredTags ds).mem := by
  refine State.applyDecisions_over (P := fun t => t.mem = (u.stormEvent b.step s.steeredTags ds).mem) fun tags htags => ?_
  rw [htags] at hdecide
  simp only [State.applyDecisionsOver, hbank, Bool.not_false, hdecide, hrepaired, if_true]

/-- One tag that widened for samples that call for it is a storm where the fraction allows none. -/
theorem State.stormEvent_single {u : State} {ds : List (Nat × TagDecided)} {d : TagDecided} (hwide : ds.filter (fun x => x.2.widened) = [(0, d)])
    (hjumped : ds.filter (fun x => x.2.jumped) = [(0, d)]) (hfrac : fld (u.reg 0x03780000) 23 16 = 1) :
    u.stormEvent 0 1 ds = u.raiseEvent 0x0210 (2 ^ 102 + 2 ^ 89 + 2 ^ 76) := by
  simp only [State.stormEvent, hwide, hjumped, hfrac, List.length_singleton, List.head?_cons, Option.map_some, Option.getD_some]
  rw [if_pos (by decide)]
  exact congrArg (u.raiseEvent 0x0210) (by decide)

theorem deciding_storms : (deciding.applyDecisions merged).mem = (decidedZero.1.raiseEvent 0x0210 (2 ^ 102 + 2 ^ 89 + 2 ^ 76)).mem := by
  have hwidened : decidedZero.2.widened = true := by decide +kernel
  have hjumped : decidedZero.2.jumped = true := by decide +kernel
  have hrepaired : decidedZero.2.repaired = 0 := by decide +kernel
  have hsteered : deciding.steeredTags = 1 := by decide +kernel
  have hsum : (((0, decidedZero.2) :: laterTags.map (fun tag => (tag, ({} : TagDecided)))).map (fun x => x.2.repaired)).sum = 0 := by
    refine List.sum_eq_zero_iff_forall_eq_nat.mpr fun n hn => ?_
    obtain ⟨e, he, rfl⟩ := List.mem_map.mp hn
    rcases List.mem_cons.mp he with rfl | he
    · exact hrepaired
    · obtain ⟨tag, -, rfl⟩ := List.mem_map.mp he
      rfl
  rw [State.applyDecisions_mem rfl deciding_decides hsum, hsteered]
  refine congrArg State.mem (State.stormEvent_single (d := decidedZero.2) ?_ ?_ (by decide +kernel))
  · rw [List.filter_cons, if_pos hwidened, laterTags_none (P := fun x => x.2.widened) fun _ => rfl]
  · rw [List.filter_cons, if_pos hjumped, laterTags_none (P := fun x => x.2.jumped) fun _ => rfl]

theorem storm_uncovers : (decidedZero.1.raiseEvent 0x0210 (2 ^ 102 + 2 ^ 89 + 2 ^ 76)).memByte (2 ^ 62) = 7 := by decide +kernel

theorem State.memByte_of_mem {s t : State} (h : s.mem = t.mem) (a : Nat) : s.memByte a = t.memByte a := by rw [State.memByte, State.memByte, h]

theorem State.complete_mem (s : State) (qi c st : Nat) : (s.complete qi c st).mem = s.mem := rfl

/-- R150: what STEP_END leaves of the cell that was hidden. -/
theorem decided_uncovers : ((deciding.applyDecisions merged).complete 0 1 stOk).memByte (2 ^ 62) = 7 :=
  (State.memByte_of_mem ((State.complete_mem _ 0 1 stOk).trans deciding_storms) _).trans storm_uncovers

theorem exec_deciding : exec .stepEndDecide deciding = .next ((deciding.applyDecisions merged).complete 0 1 stOk) := by
  rw [exec_stepEndDecide, doStepEndDecide_ends (b := merged) (st := stOk) rfl rfl rfl rfl rfl rfl, State.endBoundary_applies deciding_agrees]
  rfl

/-- Refutes O41: its second part is about every state, and where memory is not in its canonical form, the first event byte, a zero, removes the
cell that hid the one at 2^62; the statement says that no byte below 2^63 changes as the decisions are applied. -/
theorem not_measureCommands : ¬ Obligations.MeasureCommands := by
  rintro ⟨-, h⟩
  obtain ⟨-, -, -, -, hdecides⟩ := h deciding merged rfl rfl rfl rfl
  obtain ⟨t, hexec, -, -, -, -, -, -, -, -, hmem⟩ := hdecides rfl rfl deciding_agrees
  obtain rfl := Host.Outcome.next.inj (exec_deciding.symm.trans hexec)
  have hbyte := (hmem (2 ^ 62) (by decide)).symm.trans decided_uncovers
  exact absurd hbyte (by decide +kernel)

end Sys2Proof.Machine
end

section
/-! CERTIFICATE. Hub accesses (R302 to R310): a unit loses its poison when the mask of its covered bytes is all ones, and no more. -/

namespace Sys2Proof.Machine

/-- The first unit of hub 0's own region is poisoned, and its mask of covered bytes has a bit beyond its 256. -/
def overCovered : State :=
  { inService with hubs := [(0, { localLimit := 2 ^ 30 })], poison := [0x0400000000], covered := [(0x0400000000, 2 ^ 256)] }

/-- The poisoned units of an outcome that has some. -/
def poisonOf : Host.Outcome State Fault Refusal → List Nat
  | .next t => t.poison
  | _ => []

theorem overCovered_tidy : overCovered.tidy = true := by decide +kernel
theorem overCovered_addr : overCovered.moduleAddr 0 0 = some 0x040000000000 := by decide +kernel
theorem overCovered_stays : poisonOf (exec (.hubChannelAccess 0 0 (some (List.replicate 256 1)) []) overCovered) = [0x0400000000] := by decide +kernel

/-- Refutes O46: with a bit beyond its 256 bytes in its mask, a poisoned unit stays poisoned as all of it is written; the statement says that its
poison is gone. -/
theorem not_hubUnits : ¬ Obligations.HubUnits := by
  intro h
  obtain ⟨-, hunit, -⟩ := h overCovered 0 0 overCovered_tidy (by decide) (by decide +kernel)
  obtain ⟨-, -, -, hwrite⟩ := hunit 0x040000000000 overCovered_addr (by decide +kernel)
  obtain ⟨t, hexec, -, -, hclear, -⟩ := hwrite (List.replicate 256 1) [] (by decide) List.length_replicate
  have hpoison := congrArg poisonOf hexec
  rw [overCovered_stays] at hpoison
  have hkept : t.poison = [0x0400000000] := hpoison.symm
  rw [hkept] at hclear
  exact hclear (by decide)

end Sys2Proof.Machine
end

section
/-! SUPPORT. Wide commands that pass their check (R206): the command's record in its queue, its issue, and the queue that holds it. -/

namespace Sys2Proof.Machine

variable {s t : State} {qi : Nat}

/-! ### A queue with a command in flight -/

/-- The queue holds a command that has not retired. -/
def State.busy (s : State) (qi : Nat) : Prop := (s.queue qi).inflight ≠ []

theorem State.busy_of_queues (h : s.queues = t.queues) : s.busy qi ↔ t.busy qi := by rw [State.busy, State.busy, State.queue, State.queue, h]

theorem State.busy_modWide (hq : SMap.rising s.queues = true) (h : s.busy qi) (n : Nat) (f : Wide → Wide) : (s.modWide qi n f).busy qi := by
  rw [State.busy, State.modWide, State.queue_modQueue hq]
  exact fun hnil => h (List.map_eq_nil_iff.mp hnil)

theorem State.rising_modWide (hq : SMap.rising s.queues = true) (i n : Nat) (f : Wide → Wide) : SMap.rising (s.modWide i n f).queues = true :=
  SMap.rising_set hq

theorem insertWide_ne_nil (l : List Wide) (w : Wide) : insertWide l w ≠ [] := by
  cases l with
  | nil => exact List.cons_ne_nil _ _
  | cons u us =>
    simp only [insertWide]
    split <;> exact List.cons_ne_nil _ _

/-- A queue with commands in flight does not end its submission yet. -/
theorem State.checkEnd_busy (h : s.busy qi) : s.checkEnd qi = s := by
  have hne : (s.queue qi).inflight.isEmpty = false := by
    rw [← Bool.not_eq_true, List.isEmpty_iff]; exact h
  simp only [State.checkEnd, hne, Bool.and_false, Bool.false_and, Bool.false_eq_true, if_false]
  split <;> rfl

/-- What a busy queue does as its words are exhausted: its submission is marked ended. -/
def State.markExhausted (s : State) (qi : Nat) : State :=
  if s.wordsLeft qi 1 then s else s.modQueue qi (fun q => { q with sub := q.sub.map (fun x => { x with ended := true }) })

/-- R245: with commands in flight the submission does not end where its words are exhausted. -/
theorem State.checkExhausted_busy (hq : SMap.rising s.queues = true) (h : s.busy qi) : s.checkExhausted qi = s.markExhausted qi := by
  rw [State.checkExhausted, State.markExhausted]
  split
  · rfl
  · refine State.checkEnd_busy ?_
    rw [State.busy, State.queue_modQueue hq]
    exact h

/-- Marking it changes the queue alone. -/
theorem State.markExhausted_left (s : State) (qi : Nat) : s.markExhausted qi = { s with queues := (s.markExhausted qi).queues } := by
  rw [State.markExhausted]
  split <;> rfl

theorem State.markExhausted_queue (hq : SMap.rising s.queues = true) (i qi : Nat) :
    (s.markExhausted qi).queue i = if i = qi ∧ s.wordsLeft qi 1 = false
      then { s.queue qi with sub := (s.queue qi).sub.map (fun x => { x with ended := true }) } else s.queue i := by
  rw [State.markExhausted]
  by_cases hw : s.wordsLeft qi 1 = true
  · rw [if_pos hw, if_neg (by simp [hw])]
  · rw [if_neg hw]
    by_cases hi : i = qi
    · subst hi
      rw [State.queue_modQueue hq, if_pos ⟨rfl, by simpa using hw⟩]
    · rw [State.queue_modQueue_ne hq hi, if_neg (fun h => hi h.1)]

/-! ### The record of a command that passes its check -/

theorem State.serving_of_queue (h : (s.queue qi).movedTo = (t.queue qi).movedTo) : s.serving qi = t.serving qi := by
  rw [State.serving, State.serving]; simp only [h]

theorem State.rising_accepts (hq : SMap.rising s.queues = true) (ws : Words) (x : Wide) : SMap.rising (s.accepts qi ws x).queues = true :=
  State.rising_modWide (SMap.rising_set hq) _ _ _

/-- The queue of a command that passes its check: the pc is past its words, and its record is among those in flight. -/
theorem State.accepts_queue (hq : SMap.rising s.queues = true) (ws : Words) (x : Wide) :
    (s.accepts qi ws x).queue qi = { s.queue qi with
      cseq := ((s.took qi).newWide qi ws).cseq, pc := (s.queue qi).pc + 32,
      inflight := (insertWide (s.queue qi).inflight ((s.took qi).newWide qi ws)).map (fun w => if w.cseq == x.cseq then x else w) } := by
  have hq' : SMap.rising (s.took qi).queues = true := hq
  rw [State.accepts, State.modWide, State.queue_modQueue (SMap.rising_set hq')]
  simp only [State.dispatched, State.queue_modQueue hq']
  rfl

theorem State.accepts_queue_ne (hq : SMap.rising s.queues = true) (ws : Words) (x : Wide) {i : Nat} (hi : i ≠ qi) :
    (s.accepts qi ws x).queue i = s.queue i := by
  have hq' : SMap.rising (s.took qi).queues = true := hq
  rw [State.accepts, State.modWide, State.queue_modQueue_ne (SMap.rising_set hq') hi]
  simp only [State.dispatched, State.queue_modQueue_ne hq' hi]
  rfl

theorem State.accepts_busy (hq : SMap.rising s.queues = true) (ws : Words) (x : Wide) : (s.accepts qi ws x).busy qi := by
  rw [State.busy, State.accepts_queue hq]
  exact fun h => insertWide_ne_nil _ _ (List.map_eq_nil_iff.mp h)

theorem State.accepts_serving (hq : SMap.rising s.queues = true) (ws : Words) (x : Wide) : (s.accepts qi ws x).serving qi = s.serving qi :=
  State.serving_of_queue (by rw [State.accepts_queue hq])

/-- Accepting a command takes the turn and writes its queue, no more. -/
theorem State.accepts_left (s : State) (qi : Nat) (ws : Words) (x : Wide) :
    s.accepts qi ws x = { s with cores := (s.took qi).cores, queues := (s.accepts qi ws x).queues } := rfl

/-! ### Its issue -/

theorem State.begins_queues (s : State) (qi : Nat) (x : Wide) :
    (s.begins qi x).queues = (s.modWide qi x.cseq (fun w => { w with stage := .issued, issueTime := s.now })).queues := by
  rw [State.begins]
  exact (State.queues_of_errorless (State.errorless_chalkBegin _ _ _ _ _ _)).1

theorem State.begun_busy (hq : SMap.rising s.queues = true) (ws : Words) (x : Wide) : (s.begun qi ws x).busy qi := by
  rw [State.begun, State.busy_of_queues (State.begins_queues _ _ _)]
  exact State.busy_modWide (State.rising_accepts hq ws x) (State.accepts_busy hq ws x) _ _

theorem State.rising_begun (hq : SMap.rising s.queues = true) (ws : Words) (x : Wide) : SMap.rising (s.begun qi ws x).queues = true := by
  rw [State.begun, State.begins_queues]
  exact State.rising_modWide (State.rising_accepts hq ws x) _ _ _

/-- A command that is no MEASURE of the tailor unit and has passed its check is offered to its unit at once; where the unit does not take it,
its record waits. -/
theorem State.tryIssue_passed {c q : Nat} {ws : Words} {x : Wide} (hq : SMap.rising s.queues = true) (h : s.passes c q ws x)
    (hop : x.opcode ≠ 0xA ∨ 4 ≤ x.op) :
    (s.accepts (8 * c + q) ws x).tryIssue (8 * c + q) x =
      (((s.begun (8 * c + q) ws x).issueOp (s.serving (8 * c + q)) (8 * c + q) x).map (fun t => t.joinClose (8 * c + q) x)).getD
        (s.accepts (8 * c + q) ws x) := by
  obtain ⟨_, _, _, _, _, _, _, _, _, _, _, _, _, _, _, _, hlapsed⟩ := h
  have hno : ¬(x.opcode = 0xA ∧ x.op < 4) := by omega
  simp only [State.tryIssue, hlapsed, Bool.false_eq_true, if_false, if_neg hno, State.accepts_serving hq, State.begun, State.begins]

/-- A command that carries no stream changes no STREAM_CLOSE. -/
theorem State.joinClose_unnamed {w : Wide} (h : ∀ k, s.namesStream w k = false) : s.joinClose qi w = s := by
  rw [State.joinClose, h, Bool.and_false]
  exact if_neg Bool.false_ne_true

end Sys2Proof.Machine
end

section
/-! CERTIFICATE. CHALK and FENCE commands (R238 to R240). -/

namespace Sys2Proof.Machine

variable {s t : State} {qi b v : Nat}

/-! ### The configuration of a chalk buffer is not the writer's -/

/-- Buffer `b` is configured with `v`, in a table in rising order. -/
structure ConfiguredAs (b v : Nat) (s : State) : Prop where
  rising : SMap.rising s.chalk = true
  cfg : (s.buffer b).cfg = v

namespace ConfiguredAs

theorem of_chalk (h : ConfiguredAs b v s) (hc : t.chalk = s.chalk) : ConfiguredAs b v t :=
  ⟨by rw [hc]; exact h.rising, by rw [State.buffer_of_chalk hc]; exact h.cfg⟩

theorem setBuffer (h : ConfiguredAs b v s) {k : Nat} {x : Chalk} (hx : x.cfg = (s.buffer k).cfg) : ConfiguredAs b v (s.setBuffer k x) := by
  refine ⟨State.rising_setBuffer h.rising x, ?_⟩
  by_cases hk : b = k
  · subst hk
    rw [State.buffer_setBuffer h.rising, hx, h.cfg]
  · rw [State.buffer_setBuffer_ne h.rising hk, h.cfg]

theorem chalkLose (h : ConfiguredAs b v s) (k : Nat) : ConfiguredAs b v (s.chalkLose k) := h.setBuffer rfl

theorem chalkStore (h : ConfiguredAs b v s) (k : Nat) (bs : List Byte) : ConfiguredAs b v (s.chalkStore k bs) := by
  have hq : ConfiguredAs b v { s with chalkQ := s.chalkQ ++ [ChalkWait.mk k (s.buffer k).next bs s.now] } := h.of_chalk rfl
  exact (hq.setBuffer (k := k) (x := { s.buffer k with
    next := ((s.buffer k).next + 1) % (s.buffer k).size, wrapped := (s.buffer k).wrapped || (s.buffer k).next + 1 == (s.buffer k).size,
    count := min (s.buffer k).size ((s.buffer k).count + 1) }) rfl).of_chalk rfl

theorem assertChalkFreeze (h : ConfiguredAs b v s) : ConfiguredAs b v s.assertChalkFreeze := h.of_chalk (State.assertChalkFreeze_chalk s).1

theorem chalkCountDown (h : ConfiguredAs b v s) (k : Nat) : ConfiguredAs b v (s.chalkCountDown k) := by
  simp only [State.chalkCountDown]
  split
  · split
    · split
      · exact (h.setBuffer (x := { s.buffer k with post := 0, state := .stopped }) rfl).assertChalkFreeze
      · exact h.setBuffer rfl
    · exact h.setBuffer rfl
  · exact h

theorem chalkGap (h : ConfiguredAs b v s) (k : Nat) : ConfiguredAs b v (s.chalkGap k) := by
  simp only [State.chalkGap]
  have hset : ConfiguredAs b v (s.setBuffer k { s.buffer k with
      pending := 0, state := if (s.buffer k).state = .full then .recording else (s.buffer k).state }) := h.setBuffer rfl
  generalize s.setBuffer k _ = u at hset
  exact ((hset.chalkStore k _).chalkCountDown k).of_chalk (State.raiseEvent_chalk _ _ _).1

theorem chalkPut (h : ConfiguredAs b v s) (k : Nat) (bs : List Byte) : ConfiguredAs b v (s.chalkPut k bs) := by
  simp only [State.chalkPut]
  have hg : ConfiguredAs b v (if s.gapDue k then s.chalkGap k else s) := by
    split
    · exact h.chalkGap k
    · exact h
  generalize (if s.gapDue k then s.chalkGap k else s) = u at hg
  split
  · split
    · exact hg.chalkLose k
    · exact (hg.chalkStore k bs).chalkCountDown k
  · split
    · exact hg.chalkLose k
    · exact hg

theorem chalkEach (h : ConfiguredAs b v s) {take : State → Chalk → Bool} {f : State → Nat → State}
    (hf : ∀ u k, ConfiguredAs b v u → ConfiguredAs b v (f u k)) : ConfiguredAs b v (s.chalkEach take f) := by
  unfold State.chalkEach
  refine foldl_keeps (P := ConfiguredAs b v) (fun u k hu => ?_) _ h
  split
  · exact hf u k hu
  · exact hu

theorem chalkBegin (h : ConfiguredAs b v s) (o c d n p : Nat) : ConfiguredAs b v (s.chalkBegin o c d n p) := by
  unfold State.chalkBegin
  exact h.chalkEach fun u k hu => hu.chalkPut k _

end ConfiguredAs

/-- The issue of a command leaves the configurations of the chalk buffers. -/
theorem State.begun_configured (h : SMap.rising s.chalk = true) (qi b : Nat) (ws : Words) (x : Wide) :
    ConfiguredAs b (s.buffer b).cfg (s.begun qi ws x) := by
  have hs : ConfiguredAs b (s.buffer b).cfg s := ⟨h, rfl⟩
  rw [State.begun, State.begins]
  generalize hu : (s.accepts qi ws x).modWide qi x.cseq _ = u
  exact (hs.of_chalk (by rw [← hu]; rfl)).chalkBegin _ _ _ _ _

/-! ### The rows of the CHALK and FENCE commands -/

theorem Wide.opcode_of_words {w x : Wide} (h : w.w = x.w) : w.opcode = x.opcode ∧ w.op = x.op := by
  have hn : w.n0 = x.n0 := by rw [Wide.n0, Wide.n0, h]
  exact ⟨by rw [Wide.opcode, Wide.opcode, hn], by rw [Wide.op, Wide.op, Wide.opcode, Wide.opcode, hn]⟩

theorem State.passes_hasOp {c q r : Nat} {ws : Words} {x : Wide} (h : s.passes c q ws x) : hasOp x.opcode x.op r { w := ws } = true := by
  obtain ⟨ho, hp⟩ := Wide.opcode_of_words (w := { w := ws }) (x := x) (State.passes_words h).symm
  simp only [hasOp, ho, hp, beq_self_eq_true, Bool.true_or, Bool.and_self]

/-- R206: a command of an opcode that carries no stream issues at once; its unit's step is the rest of it. -/
theorem wideRow_issues {c q r : Nat} {ws : Words} {x : Wide} (hq : SMap.rising s.queues = true) (h : s.passes c q ws x)
    (hop : x.opcode = 0xB ∨ x.opcode = 0xC) {u : State}
    (hu : (s.begun (8 * c + q) ws x).issueOp (s.serving (8 * c + q)) (8 * c + q) x = some u) :
    wideRow c q (hasOp x.opcode x.op r) ws s = .next (u.checkExhausted (8 * c + q)) := by
  have hno : ∀ k, u.namesStream x k = false := fun k => by
    rcases hop with hop | hop <;> simp [State.namesStream, hop]
  rw [wideRow_passes h _ (State.passes_hasOp h), State.tryIssue_passed hq h (by omega), hu, Option.map_some, State.joinClose_unnamed hno,
    Option.getD_some]

theorem State.issueOp_chalk {core : Nat} {w : Wide} (h : w.opcode = 0xB) : s.issueOp core qi w = some (s.issueChalk core qi w) := by
  simp [State.issueOp, h]

theorem State.issueOp_fence {core : Nat} {w : Wide} (h : w.opcode = 0xC) : s.issueOp core qi w = some (s.issueFence qi w) := by
  simp [State.issueOp, h]

/-- A command that is complete in a busy queue leaves the rest of the module as the unit left it. -/
theorem State.completes_left (hq : SMap.rising s.queues = true) (h : s.busy qi) (n st : Nat) :
    (s.complete qi n st).checkExhausted qi = { s with queues := ((s.complete qi n st).checkExhausted qi).queues } := by
  rw [State.complete, State.checkExhausted_busy (State.rising_modWide hq _ _ _) (State.busy_modWide hq h _ _), State.markExhausted_left]
  rfl

theorem State.completes_buffer (hq : SMap.rising s.queues = true) (h : s.busy qi) (n st b : Nat) :
    ((s.complete qi n st).checkExhausted qi).buffer b = s.buffer b :=
  State.buffer_of_chalk (by rw [State.completes_left hq h]) b

/-- The buffer that a command's unit has set stands as the command is complete. -/
theorem State.completes_setBuffer (hq : SMap.rising s.queues = true) (h : s.busy qi) (hc : SMap.rising s.chalk = true) (n st b : Nat) (y : Chalk) :
    (((s.setBuffer b y).complete qi n st).checkExhausted qi).buffer b = y := by
  have hset : (s.setBuffer b y).busy qi := h
  have hqset : SMap.rising (s.setBuffer b y).queues = true := hq
  rw [State.completes_buffer hqset hset, State.buffer_setBuffer hc]

/-! ### START -/

theorem State.chalkStart_disabled (h : bit (s.buffer b).cfg 63 = false) : s.chalkStart b = (s, false) := by
  simp only [State.chalkStart, Chalk.enabled, h, Bool.not_false, if_true]

theorem State.chalkStart_unplaced (he : bit (s.buffer b).cfg 63 = true) (hp : s.chalkPlaced (s.buffer b) = false) :
    s.chalkStart b = (s.setBuffer b { s.buffer b with state := .stopped }, true) := by
  simp only [State.chalkStart, Chalk.enabled, he, hp, Bool.not_true, Bool.not_false, Bool.false_eq_true, if_false, if_true]

theorem State.logQueue_raised (s : State) (n qi d k : Nat) : (s.logQueue n qi d k).errq.raised = s.errq.raised + 1 := by
  rw [State.logQueue, State.addCtx_errq, State.raiseError_raised]

theorem State.logQueue_queues (s : State) (n i d k : Nat) : (s.logQueue n i d k).queues = s.queues := by
  rw [State.logQueue, State.addCtx_queues]
  exact (State.queues_of_errorless (State.errorless_raiseError _ _ _ _ _ _ _)).1

/-- START of a buffer without storage counts one error. -/
theorem State.logs_completes_raised {y : Chalk} (hq : SMap.rising s.queues = true) (h : s.busy qi) (n d m k st : Nat) :
    (((((s.setBuffer b y).logQueue n qi d m).complete qi k st).checkExhausted qi).errq.raised) = s.errq.raised + 1 := by
  have hqs : ((s.setBuffer b y).logQueue n qi d m).queues = s.queues := State.logQueue_queues _ _ _ _ _
  have hbusy : ((s.setBuffer b y).logQueue n qi d m).busy qi := (State.busy_of_queues hqs).mpr h
  have hleft := State.completes_left (by rw [hqs]; exact hq) hbusy k st
  exact (congrArg (fun t => t.errq.raised) hleft).trans (State.logQueue_raised _ _ _ _ _)

/-! ### FENCE (R240) -/

/-- What a FENCE of the queue waits for as it dispatches. -/
theorem State.newWide_fenceWaits (qi : Nat) (ws : Words) (hop : (s.newWide qi ws).opcode = 0xC) (hp : (s.newWide qi ws).op = 0) :
    (s.newWide qi ws).waits = ((s.queue qi).inflight.filter (fun y => decide (y.cseq < (s.newWide qi ws).cseq))).map (fun y => (qi, y.cseq)) := by
  rw [State.newWide] at hop hp ⊢
  dsimp only at hop hp ⊢
  generalize s.bindUpd _ = w at hop hp ⊢
  have ho : w.opcode = 0xC := hop
  have hp : w.op = 0 := hp
  simp only [State.fenceWaits, ho, hp, ne_eq, not_true_eq_false, if_false, if_true]

/-- A FENCE of the queue waits for the earlier commands of the queue. -/
theorem State.passes_fenceWaits {c q : Nat} {ws : Words} {x : Wide} (h : s.passes c q ws x) (hop : x.opcode = 0xC) (hq : x.op = 0) :
    x.waits = ((s.queue (8 * c + q)).inflight.filter (fun y => decide (y.cseq < x.cseq))).map (fun y => (8 * c + q, y.cseq)) := by
  have hw := State.passes_words h
  obtain ⟨_, _, _, _, _, _, _, _, _, _, ops, y, _, _, h16, rfl, _⟩ := h
  obtain ⟨hyw, hyc, -, -, -, -, -, hyw', -⟩ := State.checkOp_pass h16
  have hset : ∀ (u : State) (w y : Wide), (u.settled w ops y).waits = y.waits ∧ (u.settled w ops y).cseq = y.cseq := fun u w y => by
    unfold State.settled
    dsimp only
    split <;> exact ⟨rfl, rfl⟩
  obtain ⟨ho, hp⟩ := Wide.opcode_of_words (hw.trans (State.newWide_words (s := s.took (8 * c + q)) (8 * c + q) ws).symm)
  rw [(hset _ _ _).1, (hset _ _ _).2, hyw', hyc]
  exact State.newWide_fenceWaits _ _ (ho.symm.trans hop) (hp.symm.trans hq)

theorem State.issueChalk_marks {core : Nat} {w : Wide} (h : w.op = 0) :
    s.issueChalk core qi w = (s.chalkMark w.chBuffer core w.domain (seqWord qi w.cseq) w.n1).complete qi w.cseq stOk := by
  simp only [State.issueChalk, h, if_true]

theorem State.issueChalk_triggers {core : Nat} {w : Wide} (h : w.op = 1) :
    s.issueChalk core qi w = (s.chalkTrigger w.chBuffer 0 0).complete qi w.cseq stOk := by
  simp only [State.issueChalk, h, if_true, if_neg Nat.one_ne_zero]

/-- R534: START where the buffer is enabled and its storage stands. -/
theorem State.issueChalk_starts {core : Nat} {w : Wide} (h : w.op = 2) (he : bit (s.buffer w.chBuffer).cfg 63 = true)
    (hp : s.chalkPlaced (s.buffer w.chBuffer) = true) :
    s.issueChalk core qi w = (s.setBuffer w.chBuffer (s.buffer w.chBuffer).start).complete qi w.cseq stOk := by
  simp only [State.issueChalk, h, State.chalkStart_records he hp, Nat.reduceEqDiff, Bool.false_eq_true, if_false, if_true]

/-- R534: START where the buffer has no storage. -/
theorem State.issueChalk_unplaced {core : Nat} {w : Wide} (h : w.op = 2) (he : bit (s.buffer w.chBuffer).cfg 63 = true)
    (hp : s.chalkPlaced (s.buffer w.chBuffer) = false) :
    s.issueChalk core qi w =
      ((s.setBuffer w.chBuffer { s.buffer w.chBuffer with state := .stopped }).logQueue 0x010C qi w.domain w.cseq).complete qi w.cseq stContained := by
  simp only [State.issueChalk, h, State.chalkStart_unplaced he hp, Nat.reduceEqDiff, if_false, if_true]

/-- R534: START of a buffer that is not enabled. -/
theorem State.issueChalk_disabled {core : Nat} {w : Wide} (h : w.op = 2) (he : bit (s.buffer w.chBuffer).cfg 63 = false) :
    s.issueChalk core qi w = s.complete qi w.cseq stOk := by
  simp only [State.issueChalk, h, State.chalkStart_disabled he, Nat.reduceEqDiff, Bool.false_eq_true, if_false, if_true]

theorem State.issueChalk_stops {core : Nat} {w : Wide} (h : w.op = 3) :
    s.issueChalk core qi w = (s.chalkStop w.chBuffer).complete qi w.cseq stOk := by
  simp only [State.issueChalk, h, Nat.reduceEqDiff, if_false]

theorem State.issueChalk_unplaced_raised {core : Nat} {w : Wide} (hq : SMap.rising s.queues = true) (hb : s.busy qi) (h : w.op = 2)
    (he : bit (s.buffer w.chBuffer).cfg 63 = true) (hp : s.chalkPlaced (s.buffer w.chBuffer) = false) :
    ((s.issueChalk core qi w).checkExhausted qi).errq.raised = s.errq.raised + 1 := by
  rw [State.issueChalk_unplaced h he hp]
  exact State.logs_completes_raised hq hb _ _ _ _ _

/-- R238: a row of CHALK whose command passes its check is its unit's step. -/
theorem gives_of_chalk {c q r : Nat} {ws : Words} {x : Wide} {i : Instr} {P : State → Prop} (hq : SMap.rising s.queues = true)
    (h : s.passes c q ws x) (hop : x.opcode = 0xB) (hi : exec i s = wideRow c q (hasOp x.opcode x.op r) ws s)
    {v : State} (hv : (s.begun (8 * c + q) ws x).issueChalk (s.serving (8 * c + q)) (8 * c + q) x = v)
    (hP : P (v.checkExhausted (8 * c + q))) : gives i s P := by
  rw [gives, hi, wideRow_issues hq h (Or.inl hop) (State.issueOp_chalk hop), hv]
  exact ⟨_, rfl, hP⟩

/-- R240: a row of FENCE whose command passes its check. -/
theorem gives_of_fence {c q r : Nat} {ws : Words} {x : Wide} {i : Instr} {P : State → Prop} (hq : SMap.rising s.queues = true)
    (h : s.passes c q ws x) (hop : x.opcode = 0xC) (hi : exec i s = wideRow c q (hasOp x.opcode x.op r) ws s)
    {v : State} (hv : (s.begun (8 * c + q) ws x).issueFence (8 * c + q) x = v) (hP : P (v.checkExhausted (8 * c + q))) : gives i s P := by
  rw [gives, hi, wideRow_issues hq h (Or.inr hop) (State.issueOp_fence hop), hv]
  exact ⟨_, rfl, hP⟩

/-- Settles O42: a CHALK command is its unit's step in the state that the issue leaves, whose buffers are configured as before; a FENCE is
complete where its list of what it waits for is empty. -/
theorem chalkAndFenceCommands : Obligations.ChalkAndFenceCommands := by
  unfold Obligations.ChalkAndFenceCommands
  intro s c q ws x htidy h qi u b done
  have hq := State.tidy_queues htidy
  have hbusy : u.busy qi := State.begun_busy hq ws x
  have hrise : SMap.rising u.queues = true := State.rising_begun hq ws x
  obtain ⟨hchalk, hcfg⟩ := State.begun_configured (State.tidy_chalk htidy) qi b ws x
  have hen : ∀ y, (s.buffer b).enabled = y → bit (u.buffer b).cfg 63 = y := fun y hy => by rw [hcfg]; exact hy
  have hcomp : ∀ y : Chalk, ((((u.setBuffer b y).complete qi x.cseq 0).checkExhausted qi).buffer b) = y := fun y =>
    State.completes_setBuffer hrise hbusy hchalk _ _ _ _
  refine ⟨fun hop => ?_, fun hop => ?_⟩
  · refine ⟨fun h0 => ?_, fun h1 => ?_, fun h2 he hp => ?_, fun h2 he hp => ?_, fun h2 he => ?_, fun h3 => ?_⟩
    · exact gives_of_chalk (r := 4) hq h hop (by rw [hop, h0]; rfl) (State.issueChalk_marks h0) rfl
    · exact gives_of_chalk (r := 4) hq h hop (by rw [hop, h1]; rfl) (State.issueChalk_triggers h1) rfl
    · refine gives_of_chalk (r := 4) hq h hop (by rw [hop, h2]; rfl) (State.issueChalk_starts h2 (hen _ he) hp) ?_
      refine ⟨rfl, ?_⟩
      have hb := hcomp (u.buffer b).start
      exact ⟨congrArg Chalk.state hb, congrArg Chalk.next hb, congrArg Chalk.wrapped hb, congrArg Chalk.triggered hb⟩
    · refine gives_of_chalk (r := 4) hq h hop (by rw [hop, h2]; rfl) rfl ?_
      have hraised := State.issueChalk_unplaced_raised (core := s.serving qi) hrise hbusy h2 (hen _ he) hp
      exact Eq.trans rfl hraised
    · exact gives_of_chalk (r := 4) hq h hop (by rw [hop, h2]; rfl) (State.issueChalk_disabled h2 (hen _ he)) rfl
    · refine gives_of_chalk (r := 4) hq h hop (by rw [hop, h3]; rfl) (State.issueChalk_stops h3) ?_
      exact ⟨rfl, congrArg Chalk.state (hcomp _)⟩
  · refine ⟨fun i hi => ?_, fun h0 => ?_⟩
    · have hrow : exec i s = wideRow c q (hasOp x.opcode x.op 2) ws s := by
        rcases hi with ⟨h0, rfl⟩ | ⟨h1, rfl⟩
        · rw [hop, h0]; rfl
        · rw [hop, h1]; rfl
      refine ⟨fun hw => gives_of_fence (r := 2) hq h hop hrow ?_ rfl, fun hw => gives_of_fence (r := 2) hq h hop hrow ?_ rfl⟩
      · rw [State.issueFence, hw]; rfl
      · rw [State.issueFence, if_neg (by rw [List.isEmpty_iff]; exact hw)]
    · rw [State.passes_fenceWaits h hop h0, List.map_eq_nil_iff]

end Sys2Proof.Machine
end

section
/-! CERTIFICATE. MM, QUANT, PRESS, LOADW and SEAM issue, or wait (R206, R224, R225, R242). -/

namespace Sys2Proof.Machine

variable {s t : State} {qi : Nat}

/-! ### What the issue of a command leaves -/

theorem State.chalkBegin_wf (h : Memory.wf s.mem = true) (o c d n p : Nat) : Memory.wf (s.chalkBegin o c d n p).mem = true := by
  simp only [State.chalkBegin, State.chalkEach]
  refine foldl_keeps (P := fun s => Memory.wf s.mem = true) (fun s b h => ?_) _ h
  split
  · exact State.chalkPut_wf h _ _
  · exact h

theorem WorkOnly.chalkBegin (s : State) (o c d n p : Nat) : WorkOnly s (s.chalkBegin o c d n p) :=
  WorkOnly.of_reports (State.errorless_chalkBegin _ _ _ _ _ _) fun h => State.chalkBegin_wf h _ _ _ _ _

theorem WorkOnly.modWide (s : State) (qi n : Nat) (f : Wide → Wide) : WorkOnly s (s.modWide qi n f) := WorkOnly.modQueue s qi _

theorem WorkOnly.accepts (s : State) (qi : Nat) (ws : Words) (x : Wide) : WorkOnly s (s.accepts qi ws x) := by
  unfold State.accepts State.dispatched State.took State.modWide
  exact (WorkOnly.modCore s _ _).trans ((WorkOnly.modQueue _ _ _).trans (WorkOnly.modQueue _ _ _))

theorem WorkOnly.begun (s : State) (qi : Nat) (ws : Words) (x : Wide) : WorkOnly s (s.begun qi ws x) := by
  unfold State.begun State.begins State.modWide
  exact (WorkOnly.accepts s qi ws x).trans ((WorkOnly.modQueue _ _ _).trans (WorkOnly.chalkBegin _ _ _ _ _ _))

theorem State.cores_of_errorless (h : s.errorless = t.errorless) : s.cores = t.cores := by
  have hc := congrArg State.cores h
  exact hc

theorem State.engines_of_errorless (h : s.errorless = t.errorless) : s.engines = t.engines := by
  have he := congrArg State.engines h
  exact he

theorem State.begun_cores (s : State) (qi : Nat) (ws : Words) (x : Wide) : (s.begun qi ws x).cores = (s.took qi).cores := by
  rw [State.begun, State.begins, State.cores_of_errorless (State.errorless_chalkBegin _ _ _ _ _ _)]
  rfl

theorem State.begun_engines (s : State) (qi : Nat) (ws : Words) (x : Wide) : (s.begun qi ws x).engines = s.engines := by
  rw [State.begun, State.begins, State.engines_of_errorless (State.errorless_chalkBegin _ _ _ _ _ _)]
  rfl

theorem State.begun_engine (s : State) (qi : Nat) (ws : Words) (x : Wide) (e : Nat) : (s.begun qi ws x).engine e = s.engine e := by
  rw [State.engine, State.begun_engines, State.engine]

theorem State.begun_queuePrio (s : State) (qi i : Nat) (ws : Words) (x : Wide) : (s.begun qi ws x).queuePrio i = s.queuePrio i := by
  rw [State.queuePrio, State.queuePrio, State.reg_of_regs (WorkOnly.begun s qi ws x).regs]

/-- Taking the turn leaves the tile queues. -/
theorem State.took_tileQ (hc : SMap.rising s.cores = true) (qi k : Nat) : ((s.took qi).core k).tileQ = (s.core k).tileQ := by
  rw [State.took]
  by_cases hk : k = s.serving qi
  · rw [hk]; simp only [State.core_modCore hc]
  · simp only [State.core_modCore_ne hc hk]

theorem State.begun_tileQ (hc : SMap.rising s.cores = true) (qi k : Nat) (ws : Words) (x : Wide) :
    ((s.begun qi ws x).core k).tileQ = (s.core k).tileQ := by
  rw [State.core, State.begun_cores]
  exact State.took_tileQ hc qi k

/-- A queue of which only the commands in flight have changed, and which holds as many. -/
structure InflightOnly (x y : CoreQ) : Prop where
  same : y = { x with inflight := y.inflight }
  nil : y.inflight = [] ↔ x.inflight = []

theorem State.joinClose_left (s : State) (qi : Nat) (w : Wide) : s.joinClose qi w = { s with queues := (s.joinClose qi w).queues } := by
  rw [State.joinClose]
  split <;> rfl

theorem State.rising_joinClose (hq : SMap.rising s.queues = true) (qi : Nat) (w : Wide) : SMap.rising (s.joinClose qi w).queues = true := by
  rw [State.joinClose]
  split
  · exact SMap.rising_mapVals hq
  · exact hq

/-- R184: a STREAM_CLOSE that comes to wait is a command in flight. -/
theorem State.joinClose_queue (hq : SMap.rising s.queues = true) (qi i : Nat) (w : Wide) :
    InflightOnly (s.queue i) ((s.joinClose qi w).queue i) := by
  rw [State.joinClose]
  split
  · have hget := SMap.get_mapVals (d := ({} : CoreQ)) (k := i) (f := fun _ q => { q with inflight := q.inflight.map (fun u =>
        if u.closes (s.streamKey w) then { u with stage := .issued, waits := u.waits ++ [(qi, w.cseq)] } else u) }) hq (fun _ => rfl)
    exact ⟨hget.trans (by rw [State.queue, State.queue, hget]), by rw [State.queue, hget]; exact List.map_eq_nil_iff⟩
  · exact ⟨rfl, Iff.rfl⟩

theorem WorkOnly.joinClose (s : State) (qi : Nat) (w : Wide) : WorkOnly s (s.joinClose qi w) := by
  rw [State.joinClose_left]
  exact ⟨rfl, id⟩

theorem WorkOnly.markExhausted (s : State) (qi : Nat) : WorkOnly s (s.markExhausted qi) := by
  rw [State.markExhausted_left]
  exact ⟨rfl, id⟩

theorem State.begun_queue (hq : SMap.rising s.queues = true) (qi : Nat) (ws : Words) (x : Wide) :
    (s.begun qi ws x).queue qi = { (s.accepts qi ws x).queue qi with inflight := ((s.begun qi ws x).queue qi).inflight } := by
  have hb : (s.begun qi ws x).queue qi = ((s.accepts qi ws x).modWide qi x.cseq (fun w => { w with stage := .issued, issueTime := s.now })).queue qi := by
    rw [State.queue, State.begun, State.begins_queues]
    rfl
  rw [hb, State.modWide, State.queue_modQueue (State.rising_accepts hq ws x)]

theorem State.joinClose_busy (hq : SMap.rising s.queues = true) (h : s.busy qi) (i : Nat) (w : Wide) : (s.joinClose i w).busy qi :=
  fun hnil => h ((State.joinClose_queue hq i qi w).nil.mp hnil)

/-- What the end of an issue leaves of the rest: a STREAM_CLOSE may wait for the command, and the submission be marked as exhausted. -/
theorem State.issued_left (hq : SMap.rising s.queues = true) (h : s.busy qi) (w : Wide) :
    (s.joinClose qi w).checkExhausted qi = { s with queues := ((s.joinClose qi w).checkExhausted qi).queues } := by
  rw [State.checkExhausted_busy (State.rising_joinClose hq qi w) (State.joinClose_busy hq h qi w), State.markExhausted_left, State.joinClose_left]

theorem State.issued_queue (hq : SMap.rising s.queues = true) (h : s.busy qi) (w : Wide) :
    let y := ((s.joinClose qi w).checkExhausted qi).queue qi
    y = { s.queue qi with sub := y.sub, inflight := y.inflight } := by
  dsimp only
  have hj := (State.joinClose_queue hq qi qi w).same
  rw [State.checkExhausted_busy (State.rising_joinClose hq qi w) (State.joinClose_busy hq h qi w),
    State.markExhausted_queue (State.rising_joinClose hq qi w)]
  split
  · rw [hj]
  · generalize (s.joinClose qi w).queue qi = y at hj
    rw [hj]

theorem WorkOnly.issued (hq : SMap.rising s.queues = true) (h : s.busy qi) (w : Wide) : WorkOnly s ((s.joinClose qi w).checkExhausted qi) := by
  rw [State.checkExhausted_busy (State.rising_joinClose hq qi w) (State.joinClose_busy hq h qi w)]
  exact (WorkOnly.joinClose s qi w).trans (WorkOnly.markExhausted _ _)

/-! ### A command that issues, and one that waits -/

/-- R206: what a command that its unit takes leaves. -/
theorem wideRow_taken {c q : Nat} {ok : Wide → Bool} {ws : Words} {x : Wide} (hq : SMap.rising s.queues = true) (h : s.passes c q ws x)
    (hop : x.opcode ≠ 0xA) (hok : ok { w := ws } = true) {v : State}
    (hv : (s.begun (8 * c + q) ws x).issueOp (s.serving (8 * c + q)) (8 * c + q) x = some v) :
    wideRow c q ok ws s = .next ((v.joinClose (8 * c + q) x).checkExhausted (8 * c + q)) := by
  rw [wideRow_passes h _ hok, State.tryIssue_passed hq h (Or.inl hop), hv, Option.map_some, Option.getD_some]

/-- R206: a command that its unit does not take is recorded, and waits. -/
theorem wideRow_waits {c q : Nat} {ok : Wide → Bool} {ws : Words} {x : Wide} (hq : SMap.rising s.queues = true) (h : s.passes c q ws x)
    (hop : x.opcode ≠ 0xA) (hok : ok { w := ws } = true)
    (hv : (s.begun (8 * c + q) ws x).issueOp (s.serving (8 * c + q)) (8 * c + q) x = none) :
    wideRow c q ok ws s = .next ((s.accepts (8 * c + q) ws x).checkExhausted (8 * c + q)) := by
  rw [wideRow_passes h _ hok, State.tryIssue_passed hq h (Or.inl hop), hv, Option.map_none, Option.getD_none]

/-- MM, QUANT and PRESS issue into the tile queue of their core. -/
def Wide.tiled (w : Wide) : Prop := w.opcode = 1 ∨ w.opcode = 4 ∨ w.opcode = 5

/-- The issue of a command into the tile queue of its core. -/
theorem State.issueOp_tiled {core : Nat} {w : Wide} (h : w.tiled) :
    s.issueOp core qi w = if w.tiles = 0 then some (s.complete qi w.cseq stOk) else s.enqueueTiles core qi w.cseq := by
  rcases h with h | h | h <;> simp [State.issueOp, h, State.issueMm, State.issuePress]

/-- R242: what a command leaves that a tile queue has taken. -/
theorem State.enqueued_left (hq : SMap.rising s.queues = true) (hc : SMap.rising s.cores = true) (hb : s.busy qi) (core n : Nat) (x : Wide)
    (ht : t = ((s.modCore core (fun y => { y with tileQ := y.tileQ ++ [(qi, n)] })).joinClose qi x).checkExhausted qi) :
    (t.core core).tileQ = (s.core core).tileQ ++ [(qi, n)] ∧
      t.queue qi = { s.queue qi with sub := (t.queue qi).sub, inflight := (t.queue qi).inflight } ∧ WorkOnly s t := by
  have hmod : SMap.rising (s.modCore core (fun y => { y with tileQ := y.tileQ ++ [(qi, n)] })).queues = true := hq
  have hmodb : (s.modCore core (fun y => { y with tileQ := y.tileQ ++ [(qi, n)] })).busy qi := hb
  have hwork := WorkOnly.modCore s core (fun y => { y with tileQ := y.tileQ ++ [(qi, n)] })
  have hcore := State.core_modCore (i := core) (f := fun y => { y with tileQ := y.tileQ ++ [(qi, n)] }) hc
  have hqueue : (s.modCore core (fun y => { y with tileQ := y.tileQ ++ [(qi, n)] })).queue qi = s.queue qi := rfl
  generalize s.modCore core _ = m at hmod hmodb hwork hcore hqueue ht
  have hcores : t.cores = m.cores := by rw [ht, State.issued_left hmod hmodb x]
  subst ht
  refine ⟨?_, ?_, hwork.trans (WorkOnly.issued hmod hmodb x)⟩
  · rw [State.core, hcores]
    exact congrArg Core.tileQ hcore
  · rw [← hqueue]
    exact State.issued_queue hmod hmodb x

/-- R242: its queue is past the command, and the tile queue holds it. -/
theorem State.tiled_taken {ws : Words} {x : Wide} (htidy : s.tidy = true) (core : Nat)
    (ht : t = (((s.begun qi ws x).modCore core (fun y => { y with tileQ := y.tileQ ++ [(qi, x.cseq)] })).joinClose qi x).checkExhausted qi) :
    (t.core core).tileQ = (s.core core).tileQ ++ [(qi, x.cseq)] ∧
      t.queue qi = { (s.accepts qi ws x).queue qi with sub := (t.queue qi).sub, inflight := (t.queue qi).inflight } ∧
      (∀ a, a < 2 ^ 63 → t.memByte a = s.memByte a) := by
  have hq := State.tidy_queues htidy
  have hc : SMap.rising (s.begun qi ws x).cores = true := by rw [State.begun_cores]; exact SMap.rising_set (State.tidy_cores htidy)
  obtain ⟨htile, hqueue, hwork⟩ := State.enqueued_left (State.rising_begun hq ws x) hc (State.begun_busy hq ws x) core x.cseq x ht
  refine ⟨by rw [htile, State.begun_tileQ (State.tidy_cores htidy)], ?_, fun a ha =>
    ((WorkOnly.begun s qi ws x).trans hwork).memByte (State.tidy_mem htidy) ha⟩
  rw [hqueue, State.begun_queue hq]

/-- The rows of MM, QUANT and PRESS. -/
theorem exec_tiled {c q : Nat} {ws : Words} {x : Wide} {i : Instr} (h : s.passes c q ws x)
    (hi : (x.opcode = 1 ∧ i = .mm c q ws) ∨ (x.opcode = 4 ∧ i = .quant c q ws) ∨
     (x.opcode = 5 ∧ isReduction x.pressOp = false ∧ x.pressOp ≠ 0x40 ∧ i = .pressElementwise c q ws) ∨
     (x.opcode = 5 ∧ isReduction x.pressOp = true ∧ i = .pressReduction c q ws) ∨
     (x.opcode = 5 ∧ x.pressOp = 0x40 ∧ i = .normAcc c q ws)) :
    x.tiled ∧ ∃ ok : Wide → Bool, exec i s = wideRow c q ok ws s ∧ ok { w := ws } = true := by
  have hn : Wide.n0 { w := ws } = x.n0 := by rw [Wide.n0, Wide.n0, State.passes_words h]
  have ho : Wide.opcode { w := ws } = x.opcode := by rw [Wide.opcode, Wide.opcode, hn]
  have hp : Wide.pressOp { w := ws } = x.pressOp := by rw [Wide.pressOp, Wide.pressOp, hn]
  generalize ({ w := ws } : Wide) = y at ho hp
  rcases hi with ⟨h1, rfl⟩ | ⟨h1, rfl⟩ | ⟨h1, hred, h40, rfl⟩ | ⟨h1, hred, rfl⟩ | ⟨h1, h40, rfl⟩
  · exact ⟨Or.inl h1, _, rfl, by simp [ho, h1]⟩
  · exact ⟨Or.inr (Or.inl h1), _, rfl, by simp [ho, h1]⟩
  · exact ⟨Or.inr (Or.inr h1), _, rfl, by simp [ho, hp, h1, hred, h40]⟩
  · exact ⟨Or.inr (Or.inr h1), _, rfl, by simp [ho, hp, h1, hred]⟩
  · exact ⟨Or.inr (Or.inr h1), _, rfl, by simp [ho, hp, h1, h40]⟩

/-! ### SEAM -/

theorem State.emask_engines_foldl (f : Engine → Engine) (hf : ∀ e, f (f e) = f e) (l : List Nat) (s : State) (hr : SMap.rising s.engines = true) (k : Nat) :
    (l.foldl (fun s g => s.modEngine g f) s).engine k = if k ∈ l then f (s.engine k) else s.engine k := by
  induction l generalizing s with
  | nil => rfl
  | cons g l ih =>
    rw [List.foldl_cons, ih _ (SMap.rising_set hr)]
    by_cases hk : k = g
    · subst hk
      rw [State.engine_modEngine hr, hf, if_pos List.mem_cons_self, ite_self]
    · rw [State.engine_modEngine_ne hr hk]
      simp only [List.mem_cons, hk, false_or]

theorem State.emask_engines_left (f : Engine → Engine) (l : List Nat) (s : State) :
    l.foldl (fun s g => s.modEngine g f) s = { s with engines := (l.foldl (fun s g => s.modEngine g f) s).engines } := by
  induction l generalizing s with
  | nil => rfl
  | cons g l ih => rw [List.foldl_cons, ih]; rfl

/-! ### LOADW -/

/-- Setting a value other than the default: what the key reads, in any map. -/
theorem SMap.get_set_value {α : Type} [DecidableEq α] {d v : α} (hv : v ≠ d) (m : SMap α) (k : Nat) : SMap.get d (SMap.set d m k v) k = v := by
  have hcons : ∀ m : SMap α, SMap.get d (SMap.cons d k v m) k = v := fun m => by
    rw [SMap.cons, if_neg hv, SMap.get, if_neg (Nat.lt_irrefl k), if_pos rfl]
  induction m with
  | nil => exact hcons []
  | cons e m ih =>
    obtain ⟨j, w⟩ := e
    rw [SMap.set]
    split
    · exact hcons _
    · split
      · exact hcons _
      · next hlt hne => rw [SMap.get, if_neg hlt, if_neg hne, ih]

theorem Engine.configured_congr {e e' : Engine} {p : Nat} (hm : e'.mode = e.mode) (hp : (e'.pleat p).lastHeritage = (e.pleat p).lastHeritage)
    (x : Wide) (loadw : Bool) : e'.configured p x loadw = e.configured p x loadw := by
  simp only [Engine.configured, Wide.needs, Engine.modeOf, hm, hp]
  rfl

/-- R116: a load of a pleat that is configured for it joins the engine's queue of loads. -/
theorem Engine.place_loadw (e : Engine) (p : Nat) (x : Wide) {run : TileRun} (hl : run.loadw = true) (hat : run.loadAt = none) :
    e.place p x run = { e.setPleat p { e.pleat p with run := some run } with
      loadQ := if e.configured p x true then e.loadQ ++ [p] else e.loadQ } := by
  have hpleat : (e.setPleat p { e.pleat p with run := some run }).pleat p = { e.pleat p with run := some run } :=
    SMap.get_set_value (fun h => absurd (congrArg Pleat.run h) (Option.some_ne_none run)) _ _
  have hconf := Engine.configured_congr (e := e) (e' := e.setPleat p { e.pleat p with run := some run }) rfl (by rw [hpleat]) x true
  simp only [Engine.place, hl, hat, Option.isNone_none, Bool.true_and, hconf]
  split <;> rfl

theorem State.issueOp_loadw {core : Nat} {w : Wide} (h : w.opcode = 2) : s.issueOp core qi w = s.issueLoadw core qi w := by
  simp [State.issueOp, h]

theorem State.issueOp_seam {core : Nat} {w : Wide} (h : w.opcode = 3) : s.issueOp core qi w = s.issueSeam core qi w := by
  simp [State.issueOp, h]

/-- What a step of the engines leaves as the issue ends. -/
theorem State.issued_engines {m : State} (hq : SMap.rising m.queues = true) (hb : m.busy qi) (x : Wide)
    (ht : t = (m.joinClose qi x).checkExhausted qi) :
    (∀ k, t.engine k = m.engine k) ∧ t.cores = m.cores ∧ WorkOnly m t := by
  have heng : t.engines = m.engines := by rw [ht, State.issued_left hq hb x]
  refine ⟨fun k => by rw [State.engine, State.engine, heng], by rw [ht, State.issued_left hq hb x], ?_⟩
  rw [ht]
  exact WorkOnly.issued hq hb x

theorem WorkOnly.setEngine (s : State) (e : Nat) (x : Engine) : WorkOnly s (s.setEngine e x) := ⟨rfl, id⟩

/-- R224: a LOADW that its pleat takes. -/
theorem State.loadw_taken {ws : Words} {x : Wide} (htidy : s.tidy = true) (g : Nat) (y : Engine)
    (ht : t = (((s.begun qi ws x).setEngine g y).joinClose qi x).checkExhausted qi) :
    t.engine g = y ∧ (∀ k, k ≠ g → t.engine k = s.engine k) ∧ t.cores = (s.begun qi ws x).cores ∧
      (∀ a, a < 2 ^ 63 → t.memByte a = s.memByte a) := by
  have hq := State.rising_begun (State.tidy_queues htidy) (qi := qi) ws x
  have hb := State.begun_busy (State.tidy_queues htidy) (qi := qi) ws x
  have heng : SMap.rising (s.begun qi ws x).engines = true := by rw [State.begun_engines]; exact State.tidy_engines htidy
  have hkept := State.begun_engine s qi ws x
  have hwork := WorkOnly.begun s qi ws x
  generalize s.begun qi ws x = u at hq hb heng hkept hwork ht ⊢
  obtain ⟨he, hc, hw⟩ := State.issued_engines (m := u.setEngine g y) hq hb x ht
  refine ⟨?_, fun k hk => ?_, hc, fun a ha => (hwork.trans ((WorkOnly.setEngine u g y).trans hw)).memByte (State.tidy_mem htidy) ha⟩
  · rw [he, State.engine_setEngine heng]
  · rw [he, State.engine_setEngine_ne heng hk, hkept]

/-! ### SEAM, as it is taken -/

/-- R225: a SEAM that its engines take. -/
theorem State.seam_taken {ws : Words} {x : Wide} (htidy : s.tidy = true) (es : List Nat) (n : Nat) (w : SeamWait)
    (ht : t = ((es.foldl (fun s g => s.modEngine g (fun e => { e with seam := some w }))
      ((s.begun qi ws x).modWide qi n (fun y => { y with tiles := es.length }))).joinClose qi x).checkExhausted qi) :
    (∀ e ∈ es, t.engine e = { s.engine e with seam := some w }) ∧ (∀ k, k ∉ es → t.engine k = s.engine k) ∧
      (∀ a, a < 2 ^ 63 → t.memByte a = s.memByte a) := by
  have hq := State.rising_modWide (State.rising_begun (State.tidy_queues htidy) (qi := qi) ws x) qi n (fun y => { y with tiles := es.length })
  have hb := State.busy_modWide (State.rising_begun (State.tidy_queues htidy) (qi := qi) ws x)
    (State.begun_busy (State.tidy_queues htidy) (qi := qi) ws x) n (fun y => { y with tiles := es.length })
  have heng : SMap.rising (s.begun qi ws x).engines = true := by rw [State.begun_engines]; exact State.tidy_engines htidy
  have hkept := State.begun_engine s qi ws x
  have hwork := (WorkOnly.begun s qi ws x).trans (WorkOnly.modWide (s.begun qi ws x) qi n (fun y => { y with tiles := es.length }))
  have heng' : SMap.rising ((s.begun qi ws x).modWide qi n (fun y => { y with tiles := es.length })).engines = true := by
    rw [State.modWide, State.modQueue_engines]; exact heng
  have hkept' : ∀ k, ((s.begun qi ws x).modWide qi n (fun y => { y with tiles := es.length })).engine k = s.engine k := fun k => by
    rw [State.engine, State.modWide, State.modQueue_engines]; exact hkept k
  generalize (s.begun qi ws x).modWide qi n _ = u at hq hb heng' hkept' hwork ht
  have hget := State.emask_engines_foldl (fun e => { e with seam := some w }) (fun _ => rfl) es u heng'
  have hleft := State.emask_engines_left (fun e => { e with seam := some w }) es u
  generalize es.foldl _ u = v at hget hleft ht
  have hqueues : v.queues = u.queues := by rw [hleft]
  have hvw : WorkOnly u v := by rw [hleft]; exact ⟨rfl, id⟩
  obtain ⟨he, -, hw⟩ := State.issued_engines (m := v) (by rw [hqueues]; exact hq) ((State.busy_of_queues hqueues).mpr hb) x ht
  refine ⟨fun e hmem => ?_, fun k hk => ?_, fun a ha => (hwork.trans (hvw.trans hw)).memByte (State.tidy_mem htidy) ha⟩
  · rw [he, hget, if_pos hmem, hkept']
  · rw [he, hget, if_neg hk, hkept']

theorem State.waits_cores (hq : SMap.rising s.queues = true) (ws : Words) (x : Wide) :
    ((s.accepts qi ws x).checkExhausted qi).cores = (s.took qi).cores := by
  rw [State.checkExhausted_busy (State.rising_accepts hq ws x) (State.accepts_busy hq ws x), State.markExhausted_left]
  rfl

theorem State.passes_opcode {c q n : Nat} {ws : Words} {x : Wide} (h : s.passes c q ws x) (hn : x.opcode = n) :
    (Wide.opcode { w := ws } == n) = true := by
  rw [(Wide.opcode_of_words (w := { w := ws }) (x := x) (State.passes_words h).symm).1, hn, beq_self_eq_true]

/-- R224: where LOADW's pleat is idle, the engine takes it. -/
theorem State.issueLoadw_idle {core : Nat} {x : Wide}
    (h : s.pleatIdle (s.engine (x.lwEngine core)) x.lwPleat (s.queuePrio qi) = true) :
    s.issueLoadw core qi x = some (s.setEngine (x.lwEngine core) ((s.engine (x.lwEngine core)).place x.lwPleat x
      { queue := qi, cseq := x.cseq, otile := 0, tile := 0, rows := 0, loadw := true })) := by
  simp only [State.issueLoadw, h, if_true]

theorem State.issueLoadw_busy {core : Nat} {x : Wide}
    (h : s.pleatIdle (s.engine (x.lwEngine core)) x.lwPleat (s.queuePrio qi) = false) : s.issueLoadw core qi x = none := by
  simp only [State.issueLoadw, h, Bool.false_eq_true, if_false]

/-- What SEAM waits for at the engines of its mask (R225). -/
def Wide.seamWait (x : Wide) (qi : Nat) : SeamWait := { queue := qi, cseq := x.cseq, map := x.n1, modes := x.n2 % 2 ^ 32 }

/-- R225: SEAM is taken where none of its engines has another. -/
theorem State.issueSeam_free {core : Nat} {x : Wide} (hne : emaskEngines core (fld x.n0 31 28) ≠ [])
    (h : ∀ e ∈ emaskEngines core (fld x.n0 31 28), (s.engine e).seam = none) :
    s.issueSeam core qi x = some ((emaskEngines core (fld x.n0 31 28)).foldl (fun s g => s.modEngine g (fun e => { e with seam := some (x.seamWait qi) }))
      (s.modWide qi x.cseq (fun y => { y with tiles := (emaskEngines core (fld x.n0 31 28)).length }))) := by
  have hany : (emaskEngines core (fld x.n0 31 28)).any (fun g => (s.engine g).seam.isSome) = false :=
    List.any_eq_false.mpr fun e he => by rw [h e he]; exact Bool.false_ne_true
  simp only [State.issueSeam, hany, Bool.false_eq_true, if_false, List.isEmpty_iff, if_neg hne, Wide.seamWait]

theorem State.issueSeam_held {core : Nat} {x : Wide} (h : ∃ e ∈ emaskEngines core (fld x.n0 31 28), (s.engine e).seam ≠ none) :
    s.issueSeam core qi x = none := by
  obtain ⟨e, he, hs⟩ := h
  have hany : (emaskEngines core (fld x.n0 31 28)).any (fun g => (s.engine g).seam.isSome) = true :=
    List.any_eq_true.mpr ⟨e, he, Option.isSome_iff_ne_none.mpr hs⟩
  simp only [State.issueSeam, hany, if_true]

theorem State.issueSeam_none {core : Nat} {x : Wide} (h : emaskEngines core (fld x.n0 31 28) = []) :
    s.issueSeam core qi x = some (s.complete qi x.cseq stOk) := by
  simp only [State.issueSeam, h, List.any_nil, Bool.false_eq_true, if_false, List.isEmpty_nil, if_true]

/-- Settles O36: a command whose unit takes it leaves its place in the unit and its record in its queue; one whose unit does not take it
leaves its record alone. -/
theorem arrayCommands : Obligations.ArrayCommands := by
  unfold Obligations.ArrayCommands
  refine ⟨?tiled, ?engines⟩
  case tiled =>
    intro s c q ws x i htidy h hi qi u core
    have hq := State.tidy_queues htidy
    obtain ⟨htiled, ok, hrow, hok⟩ := exec_tiled h hi
    have hne : x.opcode ≠ 0xA := by rcases htiled with h | h | h <;> omega
    have hlen : (u.core core).tileQ = (s.core core).tileQ := State.begun_tileQ (State.tidy_cores htidy) qi core ws x
    have hissue : ∀ v, (if x.tiles = 0 then some (u.complete qi x.cseq stOk) else u.enqueueTiles core qi x.cseq) = v →
        (s.begun (8 * c + q) ws x).issueOp (s.serving (8 * c + q)) (8 * c + q) x = v := fun v hv =>
      (State.issueOp_tiled htiled).trans hv
    refine ⟨fun hn hroom => ?_, fun hn hfull => ?_, fun h0 => ?_⟩
    · have hv := hissue _ ((if_neg hn).trans (if_neg (by rw [hlen]; omega)))
      rw [gives, hrow, wideRow_taken hq h hne hok hv]
      refine ⟨_, rfl, rfl, ?_⟩
      obtain ⟨htile, hqueue, hmem⟩ := State.tiled_taken (qi := 8 * c + q) (ws := ws) (x := x) htidy core rfl
      rw [State.accepts_queue hq, State.newWide_cseq, State.took_queue] at hqueue
      have hcseq := congrArg CoreQ.cseq hqueue
      have hpc := congrArg CoreQ.pc hqueue
      have hg := congrArg CoreQ.g hqueue
      have ha := congrArg CoreQ.a hqueue
      exact ⟨htile.trans (by rw [State.passes_cseq h, State.took_queue]), hcseq, hpc, hg, ha, hmem⟩
    · have hv := hissue _ ((if_neg hn).trans (if_pos (by rw [hlen]; omega)))
      rw [gives, hrow, wideRow_waits hq h hne hok hv]
      refine ⟨_, rfl, rfl, ?_⟩
      rw [State.core, State.waits_cores hq]
      exact State.took_tileQ (State.tidy_cores htidy) _ _
    · have hv := hissue _ (if_pos h0)
      rw [gives, hrow, wideRow_taken hq h hne hok hv]
      exact ⟨_, rfl, rfl⟩
  case engines =>
    intro s c q ws x htidy h qi u core
    have hq := State.tidy_queues htidy
    have heng : ∀ e, u.engine e = s.engine e := State.begun_engine s qi ws x
    have hprio : u.queuePrio qi = s.queuePrio qi := State.begun_queuePrio s qi qi ws x
    refine ⟨fun hop => ?_, fun hop => ?_⟩
    · have hok : (fun w : Wide => w.opcode == 2) { w := ws } = true := State.passes_opcode h hop
      have hne : x.opcode ≠ 0xA := by omega
      have hrow : exec (.loadw c q ws) s = wideRow c q (fun w => w.opcode == 2) ws s := rfl
      refine ⟨fun hidle => ?_, fun hbusy => ?_⟩
      · have hv := (State.issueOp_loadw hop).trans (State.issueLoadw_idle (s := u) (qi := qi) (core := core) (by rw [hprio]; exact hidle))
        rw [gives, hrow, wideRow_taken hq h hne hok hv]
        obtain ⟨he, hrest, hcores, hmem⟩ := State.loadw_taken (qi := 8 * c + q) (ws := ws) (x := x) htidy (x.lwEngine core) _ rfl
        refine ⟨_, rfl, ?_, hrest, hcores, hmem⟩
        exact he.trans ((Engine.place_loadw _ _ _ rfl rfl).trans (by rw [heng]; rfl))
      · have hv := (State.issueOp_loadw hop).trans (State.issueLoadw_busy (s := u) (qi := qi) (core := core) (by rw [hprio]; exact hbusy))
        rw [gives, hrow, wideRow_waits hq h hne hok hv]
        exact ⟨_, rfl, rfl⟩
    · have hok : (fun w : Wide => w.opcode == 3) { w := ws } = true := State.passes_opcode h hop
      have hne : x.opcode ≠ 0xA := by omega
      have hrow : exec (.seam c q ws) s = wideRow c q (fun w => w.opcode == 3) ws s := rfl
      refine ⟨fun hes hfree => ?_, fun hheld => ?_, fun hnil => ?_⟩
      · have hv := (State.issueOp_seam hop).trans (State.issueSeam_free (s := u) (qi := qi) hes fun e he => by rw [heng]; exact hfree e he)
        rw [gives, hrow, wideRow_taken hq h hne hok hv]
        exact ⟨_, rfl, State.seam_taken (qi := 8 * c + q) htidy _ _ _ rfl⟩
      · have hv := (State.issueOp_seam hop).trans (State.issueSeam_held (s := u) (qi := qi) (by
          obtain ⟨e, he, hs⟩ := hheld
          exact ⟨e, he, by rw [heng]; exact hs⟩))
        rw [gives, hrow, wideRow_waits hq h hne hok hv]
        exact ⟨_, rfl, rfl⟩
      · have hv := (State.issueOp_seam hop).trans (State.issueSeam_none (s := u) (qi := qi) hnil)
        rw [gives, hrow, wideRow_taken hq h hne hok hv, State.joinClose_unnamed (fun k => by simp [State.namesStream, hop])]
        exact ⟨_, rfl, rfl⟩

end Sys2Proof.Machine
end

section
/-! SUPPORT. What the retirement of a command leaves (R206): the other commands of its queue, the tacks, the registry and the module's memory. -/

namespace Sys2Proof.Machine

variable {s t u : State} {qi : Nat}

/-! ### The queue keeps its commands -/

/-- From `s` to `t` queue `qi` changes in what its commands in flight have come to, and holds the same ones. -/
structure SameCommands (qi : Nat) (s t : State) : Prop where
  rising : SMap.rising t.queues = true
  queue : ∃ l, t.queue qi = { s.queue qi with inflight := l } ∧ l.map Wide.cseq = (s.queue qi).inflight.map Wide.cseq

namespace SameCommands

theorem refl (h : SMap.rising s.queues = true) : SameCommands qi s s := ⟨h, _, rfl, rfl⟩

theorem of_queues (h : SameCommands qi s t) (hu : u.queues = t.queues) : SameCommands qi s u :=
  ⟨hu ▸ h.rising, by rw [State.queue, hu]; exact h.queue⟩

theorem modWide (h : SameCommands qi s t) (i n : Nat) {f : Wide → Wide} (hf : ∀ w, (f w).cseq = w.cseq) : SameCommands qi s (t.modWide i n f) := by
  obtain ⟨l, hl, hmap⟩ := h.queue
  refine ⟨SMap.rising_set h.rising, ?_⟩
  by_cases hi : qi = i
  · subst hi
    refine ⟨_, by rw [State.modWide, State.queue_modQueue h.rising, hl], ?_⟩
    rw [List.map_map, ← hmap]
    refine List.map_congr_left fun w _ => ?_
    simp only [Function.comp]
    split
    · exact hf w
    · rfl
  · exact ⟨l, by rw [State.modWide, State.queue_modQueue_ne h.rising hi, hl], hmap⟩

theorem complete (h : SameCommands qi s t) (i n st : Nat) : SameCommands qi s (t.complete i n st) :=
  h.modWide i n fun w => by split <;> rfl

theorem mapWide (h : SameCommands qi s t) {f : Wide → Wide} (hf : ∀ w, (f w).cseq = w.cseq) :
    SameCommands qi s { t with queues := SMap.mapVals {} (fun _ q => { q with inflight := q.inflight.map f }) t.queues } := by
  obtain ⟨l, hl, hmap⟩ := h.queue
  have hget := SMap.get_mapVals (d := ({} : CoreQ)) (k := qi) (f := fun _ q => { q with inflight := q.inflight.map f }) h.rising (fun _ => rfl)
  refine ⟨SMap.rising_mapVals h.rising, _, hget.trans (by rw [show SMap.get _ t.queues qi = _ from hl]), ?_⟩
  rw [List.map_map, ← hmap]
  exact List.map_congr_left fun w _ => hf w

theorem unwaitAll (h : SameCommands qi s t) (i n : Nat) : SameCommands qi s (t.unwaitAll i n) :=
  h.mapWide fun w => by
    simp only [Wide.unwait]
    split
    · rfl
    · split <;> rfl

theorem endRecord (h : SameCommands qi s t) (i : Nat) (w : Wide) (b : Bool) : SameCommands qi s (t.endRecord i w b) := by
  simp only [State.endRecord]
  split
  · exact h
  · exact (h.modWide i w.cseq (f := fun w => { w with endMade := true }) fun _ => rfl).of_queues (State.chalkEnd_queues ..)

theorem wakeWaiters (h : SameCommands qi s t) (n : Nat) : SameCommands qi s (t.wakeWaiters n) := by
  simp only [State.wakeWaiters]
  exact foldl_keeps (P := SameCommands qi s) (fun u x hu => hu.complete _ _ _) _ (h.of_queues rfl)

theorem tackSet (h : SameCommands qi s t) (n v : Nat) : SameCommands qi s (t.tackSet n v) := (h.of_queues (u := t.setTack n _) rfl).wakeWaiters n

theorem tackAdd (h : SameCommands qi s t) (n v : Nat) : SameCommands qi s (t.tackAdd n v) := (h.of_queues (u := t.setTack n _) rfl).wakeWaiters n

theorem tackArrive (h : SameCommands qi s t) (n v i k : Nat) : SameCommands qi s (t.tackArrive n v i k) := by
  have hwake := (h.of_queues (u := t.setTack n ((t.tack n).arrive v)) rfl).wakeWaiters n
  simp only [State.tackArrive]
  split
  · exact hwake.of_queues (State.logQueue_queues _ _ _ _ _)
  · exact hwake

end SameCommands

theorem State.sendStream_left (s : State) (dst n : Nat) (m : Msg) :
    s.sendStream dst n m = { s with link := (s.sendStream dst n m).link, remoteSent := (s.sendStream dst n m).remoteSent } := by
  simp only [State.sendStream, State.leave, State.countSent]
  split
  · rfl
  · split
    · split
      · split <;> rfl
      · rfl
    · rfl

/-! ### The module's memory and the registry of streams -/

/-- From `s` to `t` no byte of the module's memory changes, and no key of the registry. -/
structure StoreKept (s t : State) : Prop where
  wf : Memory.wf s.mem = true → Memory.wf t.mem = true
  bytes : Memory.wf s.mem = true → ∀ a, a < 2 ^ 63 → t.memByte a = s.memByte a
  registry : t.registry = s.registry

theorem State.chalkEnd_wf (h : Memory.wf s.mem = true) (a b c d e f : Nat) : Memory.wf (s.chalkEnd a b c d e f).mem = true := by
  simp only [State.chalkEnd, State.chalkEach]
  refine foldl_keeps (P := fun s => Memory.wf s.mem = true) (fun s k h => ?_) _ h
  split
  · split
    · exact State.chalkTrigger_wf (State.chalkPut_wf h _ _) _ _ _
    · exact State.chalkPut_wf h _ _
  · exact h

namespace StoreKept

theorem refl (s : State) : StoreKept s s := ⟨id, fun _ _ _ => rfl, rfl⟩

theorem trans (h : StoreKept s t) (h' : StoreKept t u) : StoreKept s u :=
  ⟨h'.wf ∘ h.wf, fun hm a ha => (h'.bytes (h.wf hm) a ha).trans (h.bytes hm a ha), h'.registry.trans h.registry⟩

theorem of_work (h : WorkOnly s t) : StoreKept s t := by
  refine ⟨h.wf, fun hm a ha => h.memByte hm ha, ?_⟩
  have hr := congrArg State.registry h.same
  exact hr

theorem of_mem (hm : t.mem = s.mem) (hr : t.registry = s.registry) : StoreKept s t :=
  ⟨fun h => hm ▸ h, fun _ a _ => by rw [State.memByte_of_mem hm], hr⟩

theorem queues (s : State) (x : SMap CoreQ) : StoreKept s { s with queues := x } := of_mem rfl rfl

theorem endRecord (s : State) (i : Nat) (w : Wide) (b : Bool) : StoreKept s (s.endRecord i w b) := by
  simp only [State.endRecord]
  split
  · exact refl s
  · exact of_work ((WorkOnly.modWide s _ _ _).trans (WorkOnly.of_reports (State.errorless_chalkEnd ..) fun h => State.chalkEnd_wf h ..))

theorem wakeWaiters (s : State) (n : Nat) : StoreKept s (s.wakeWaiters n) := by
  simp only [State.wakeWaiters]
  obtain ⟨qs, hqs⟩ := State.foldl_complete_eq (fun _ => stOk) ((s.tack n).waiters.filter (fun x => x.met (s.tack n).value))
    (s.setTack n { s.tack n with waiters := (s.tack n).waiters.filter (fun w => !w.met (s.tack n).value) })
  rw [hqs]
  exact of_mem rfl rfl

theorem setTack (s : State) (n : Nat) (x : Tack) : StoreKept s (s.setTack n x) := of_mem rfl rfl

theorem tackSet (s : State) (n v : Nat) : StoreKept s (s.tackSet n v) := (setTack s n _).trans (wakeWaiters _ n)
theorem tackAdd (s : State) (n v : Nat) : StoreKept s (s.tackAdd n v) := (setTack s n _).trans (wakeWaiters _ n)

theorem tackArrive (s : State) (n v i k : Nat) : StoreKept s (s.tackArrive n v i k) := by
  simp only [State.tackArrive]
  split
  · exact (setTack s n _).trans ((wakeWaiters _ n).trans (of_work (WorkOnly.logQueue _ _ _ _ _)))
  · exact (setTack s n _).trans (wakeWaiters _ n)

end StoreKept

/-! ### The effects of a command's retirement -/

/-- The effects of a command's retirement on the rest of the module: its end record, its tack, its key, its norms, its return tack, and the
commands that wait for it. -/
def State.retireEffects (s : State) (qi : Nat) (w : Wide) : State :=
  let core := s.serving qi
  let s := s.endRecord qi w false
  let s := (((s.retireTack qi w).retireStream w).releaseNorm qi w)
  let s := if w.retEn then s.tackAdd w.retTack 1 else s
  let s := s.retireRemote qi w
  ((s.addGctr (312 + core) 1).addCtx w.domain 0 1).unwaitAll qi w.cseq

/-- A queue as its head has retired. -/
def CoreQ.retired (q : CoreQ) (core : Nat) (w : Wide) : CoreQ :=
  { q with
    inflight := q.inflight.filter (fun u => u.cseq != w.cseq), rseq := w.cseq, lastStatus := w.status, lastOutcome := w.outcome,
    sub := q.sub.map (fun x => { x with lastCseq := some w.cseq, lastCore := some core, status := if x.status = stOk then w.status else x.status }) }

/-- R206: retirement has its effects, the command leaves its queue, and the queue makes its record. -/
theorem State.retire_eq {x : Submission} (s : State) (qi : Nat) (w : Wide) {u v : State} (hu : s.retireEffects qi w = u)
    (hv : u.modQueue qi (fun q => q.retired (s.serving qi) w) = v) (hx : (v.queue qi).sub = some x) :
    s.retire qi w = (((if w.wantsRec x.recAll then
      (v.noteLost x.hostq w.cseq w.status).pushRec qi x.hostq ((v.noteLost x.hostq w.cseq w.status).wideRec qi w x.userTag)
      else v.noteLost x.hostq w.cseq w.status).settleTrap qi).checkEnd qi) := by
  subst hu hv
  rw [State.retire]
  dsimp only
  change (match (((s.retireEffects qi w).modQueue qi (fun q => q.retired (s.serving qi) w)).queue qi).sub with | some x => _ | none => _) = _
  rw [hx]
  rfl

theorem State.retireTack_other {w : Wide} (h : w.opcode ≠ 7) : s.retireTack qi w = s := by
  rw [State.retireTack, if_pos (Or.inl h)]

theorem State.retireRemote_other {w : Wide} (h : w.opcode ≠ 7) : s.retireRemote qi w = s := by
  rw [State.retireRemote, if_neg (fun hc => h hc.1)]

theorem SameCommands.retireTack (h : SameCommands qi s t) (i : Nat) (w : Wide) : SameCommands qi s (t.retireTack i w) := by
  simp only [State.retireTack]
  split
  · exact h
  · split
    · exact h.tackSet _ _
    · split
      · split
        · exact h
        · exact h.tackAdd _ _
      · split
        · exact h.tackArrive _ _ _ _
        · exact h

theorem SameCommands.retireStream (h : SameCommands qi s t) (w : Wide) : SameCommands qi s (t.retireStream w) := by
  simp only [State.retireStream]
  split
  · exact h.of_queues rfl
  · split
    · exact h.of_queues rfl
    · exact h

theorem SameCommands.releaseNorm (h : SameCommands qi s t) (i : Nat) (w : Wide) : SameCommands qi s (t.releaseNorm i w) := by
  simp only [State.releaseNorm]
  split
  · split
    · next recs _ _ =>
      have hmap := h.mapWide (f := fun u => if u.opcode == 9 && u.normOf == some (i, w.cseq) && u.normRec.isNone then
        { u with normRec := some (((recs.drop (64 * u.updClip)).take 64)) } else u) fun u => by split <;> rfl
      exact hmap.of_queues rfl
    · exact h
  · exact h

theorem SameCommands.retireRemote (h : SameCommands qi s t) (i : Nat) (w : Wide) : SameCommands qi s (t.retireRemote i w) := by
  simp only [State.retireRemote]
  split
  · simp only [State.remoteAdd]
    split
    · exact h.tackAdd _ _
    · split
      · exact h
      · refine h.of_queues ?_
        rw [State.addCtx_queues, State.sendStream_left]
  · exact h

/-- The effects of a command's retirement leave the commands of a queue as they stand in order. -/
theorem SameCommands.retireEffects (h : SMap.rising s.queues = true) (i : Nat) (w : Wide) : SameCommands qi s (s.retireEffects i w) := by
  simp only [State.retireEffects]
  have h1 := ((((SameCommands.refl (qi := qi) h).endRecord i w false).retireTack i w).retireStream w).releaseNorm i w
  have h2 : SameCommands qi s (if w.retEn then
      ((((s.endRecord i w false).retireTack i w).retireStream w).releaseNorm i w).tackAdd w.retTack 1
      else (((s.endRecord i w false).retireTack i w).retireStream w).releaseNorm i w) := by
    split
    · exact h1.tackAdd _ _
    · exact h1
  generalize (if w.retEn then _ else _ : State) = v at h2 ⊢
  exact (SameCommands.of_queues (u := ((v.retireRemote i w).addGctr (312 + s.serving i) 1).addCtx w.domain 0 1) (h2.retireRemote i w) rfl).unwaitAll i w.cseq

namespace StoreKept

theorem retireTack (s : State) (i : Nat) (w : Wide) : StoreKept s (s.retireTack i w) := by
  simp only [State.retireTack]
  split
  · exact refl s
  · split
    · exact tackSet s _ _
    · split
      · split
        · exact refl s
        · exact tackAdd s _ _
      · split
        · exact tackArrive s _ _ _ _
        · exact refl s

theorem releaseNorm (s : State) (i : Nat) (w : Wide) : StoreKept s (s.releaseNorm i w) := by
  simp only [State.releaseNorm]
  split
  · split
    · exact of_mem rfl rfl
    · exact refl s
  · exact refl s

theorem retireRemote (s : State) (i : Nat) (w : Wide) : StoreKept s (s.retireRemote i w) := by
  simp only [State.retireRemote]
  split
  · simp only [State.remoteAdd]
    split
    · exact tackAdd s _ _
    · split
      · exact refl s
      · rw [State.sendStream_left]
        exact of_mem rfl rfl
  · exact refl s

theorem returnTack (s : State) (w : Wide) : StoreKept s (if w.retEn then s.tackAdd w.retTack 1 else s) := by
  split
  · exact tackAdd s _ _
  · exact refl s

theorem counts (s : State) (i n d k : Nat) : StoreKept s (((s.addGctr n 1).addCtx d 0 1).unwaitAll i k) := of_mem rfl rfl

end StoreKept

theorem State.retireStream_mem (s : State) (w : Wide) : (s.retireStream w).mem = s.mem := by
  simp only [State.retireStream]
  split
  · rfl
  · split <;> rfl

/-- The registry after the retirement of a command (R184). -/
def Registry.after (r : Registry) (w : Wide) : Registry :=
  if w.opcode = 0xA ∧ w.op = 4 ∧ w.status = stOk then
    { r with keys := r.keys ++ [(w.msK0, w.msSeed)], highWater := max r.highWater (r.keys ++ [(w.msK0, w.msSeed)]).length }
  else if w.opcode = 0xA ∧ w.op = 5 ∧ w.status = stOk then { r with keys := r.keys.filter (fun k => k.1 != w.msK0) }
  else r

theorem State.retireStream_registry (s : State) (w : Wide) : (s.retireStream w).registry = s.registry.after w := by
  simp only [State.retireStream, Registry.after]
  split
  · rfl
  · split <;> rfl

/-- A retirement leaves the module's memory, and of the registry what the command itself does to it. -/
theorem State.retireEffects_store (s : State) (qi : Nat) (w : Wide) :
    (Memory.wf s.mem = true → Memory.wf (s.retireEffects qi w).mem = true ∧ ∀ a, a < 2 ^ 63 → (s.retireEffects qi w).memByte a = s.memByte a) ∧
      (s.retireEffects qi w).registry = s.registry.after w := by
  have hpre := (StoreKept.endRecord s qi w false).trans (StoreKept.retireTack _ qi w)
  generalize hp : (s.endRecord qi w false).retireTack qi w = p at hpre
  have hmem := State.retireStream_mem p w
  have hrest := (StoreKept.releaseNorm (p.retireStream w) qi w).trans ((StoreKept.returnTack _ w).trans ((StoreKept.retireRemote _ qi w).trans
    (StoreKept.counts _ qi (312 + s.serving qi) w.domain w.cseq)))
  have heff : s.retireEffects qi w = (((((if w.retEn then ((p.retireStream w).releaseNorm qi w).tackAdd w.retTack 1
      else (p.retireStream w).releaseNorm qi w).retireRemote qi w).addGctr (312 + s.serving qi) 1).addCtx w.domain 0 1).unwaitAll qi w.cseq) := by
    rw [← hp]; rfl
  rw [← heff] at hrest
  refine ⟨fun hm => ?_, ?_⟩
  · have hwf : Memory.wf (p.retireStream w).mem = true := by rw [hmem]; exact hpre.wf hm
    refine ⟨hrest.wf hwf, fun a ha => ?_⟩
    rw [hrest.bytes hwf a ha, State.memByte_of_mem hmem, hpre.bytes hm a ha]
  · rw [hrest.registry, State.retireStream_registry, hpre.registry]

theorem State.tacks_of_errorless (h : s.errorless = t.errorless) : s.tacks = t.tacks := by
  have ht := congrArg State.tacks h
  exact ht

theorem State.endRecord_tacks (s : State) (qi : Nat) (w : Wide) (b : Bool) : (s.endRecord qi w b).tacks = s.tacks := by
  simp only [State.endRecord]
  split
  · rfl
  · exact (State.tacks_of_errorless (State.errorless_chalkEnd ..)).trans rfl

theorem State.retireStream_tacks (s : State) (w : Wide) : (s.retireStream w).tacks = s.tacks := by
  simp only [State.retireStream]
  split
  · rfl
  · split <;> rfl

theorem State.releaseNorm_tacks (s : State) (i : Nat) (w : Wide) : (s.releaseNorm i w).tacks = s.tacks := by
  simp only [State.releaseNorm]
  split
  · split <;> rfl
  · rfl

theorem State.tack_of_tacks (h : s.tacks = t.tacks) (n : Nat) : s.tack n = t.tack n := by rw [State.tack, State.tack, h]

theorem State.counts_tacks (s : State) (i n d k : Nat) : (((s.addGctr n 1).addCtx d 0 1).unwaitAll i k).tacks = s.tacks := rfl

/-- R277: of the tacks, the retirement of a command that is no TACK increments its return tack alone. -/
theorem State.retireEffects_tacks {w : Wide} (hr : SMap.rising s.tacks = true) (h : w.opcode ≠ 7) (qi : Nat) :
    (w.retEn = true → ((s.retireEffects qi w).tack w.retTack).value = ((s.tack w.retTack).value + 1) % 2 ^ 32) ∧
      (∀ n, (w.retEn = false ∨ n ≠ w.retTack) → (s.retireEffects qi w).tack n = s.tack n) := by
  have hpre : ((((s.endRecord qi w false).retireTack qi w).retireStream w).releaseNorm qi w).tacks = s.tacks := by
    rw [State.releaseNorm_tacks, State.retireStream_tacks, State.retireTack_other h, State.endRecord_tacks]
  have heff : (s.retireEffects qi w).tacks = (if w.retEn then
      ((((s.endRecord qi w false).retireTack qi w).retireStream w).releaseNorm qi w).tackAdd w.retTack 1
      else (((s.endRecord qi w false).retireTack qi w).retireStream w).releaseNorm qi w).tacks := by
    simp only [State.retireEffects, State.retireRemote_other h, State.counts_tacks]
  generalize (((s.endRecord qi w false).retireTack qi w).retireStream w).releaseNorm qi w = u at hpre heff
  obtain ⟨-, hother, hadd⟩ := State.tackAdd_left (s := u) (by rw [hpre]; exact hr) w.retTack 1
  refine ⟨fun hen => ?_, fun n hn => ?_⟩
  · rw [if_pos hen] at heff
    rw [State.tack_of_tacks heff, hadd, State.tack_of_tacks hpre]
  · rw [State.tack_of_tacks heff]
    split
    · next hen =>
      rw [hother n (hn.resolve_left (by rw [hen]; exact Bool.noConfusion)), State.tack_of_tacks hpre]
    · exact State.tack_of_tacks hpre n

/-! ### The queue's records, and the end of its submission -/

theorem State.tacks_of_eventless (h : s.eventless = t.eventless) : s.tacks = t.tacks := by
  have ht := congrArg State.tacks h
  exact ht

theorem State.writeRec_tacks (s : State) (hq : Nat) (r : PendingRec) : (s.writeRec hq r).tacks = s.tacks := by
  simp only [State.writeRec]
  split
  · rfl
  · split
    · rw [State.tacks_of_eventless (State.eventless_raiseMsix _ _ _), State.setHostq_tacks, State.tacks_of_eventless (State.eventless_writeHost ..)]
    · rw [State.setHostq_tacks, State.tacks_of_eventless (State.eventless_writeHost ..)]

theorem State.drainRecsN_tacks (s : State) (qi hq n : Nat) : (s.drainRecsN qi hq n).tacks = s.tacks := by
  induction n generalizing s with
  | zero => rfl
  | succ n ih =>
    simp only [State.drainRecsN]
    split
    · rfl
    · split
      · rw [ih, State.writeRec_tacks, State.setQueue_tacks]
      · rfl

theorem State.pushRec_tacks (s : State) (qi hq : Nat) (r : PendingRec) : (s.pushRec qi hq r).tacks = s.tacks := by
  rw [State.pushRec, State.drainRecs, State.drainRecsN_tacks, State.modQueue_tacks]

theorem State.lostDone_tacks (s : State) (p : HostPort) : (s.lostDone p).tacks = s.tacks := by
  simp only [State.lostDone]
  split
  · rw [State.tacks_of_eventless (State.eventless_raiseEvent _ _ _), State.setPort_tacks]
  · rfl

theorem State.settle_tacks (s : State) (hq : Nat) : (s.settle hq).tacks = s.tacks := State.lostDone_tacks _ _

theorem State.lostStep_tacks (s : State) (hq e : Nat) : (s.lostStep hq e).tacks = s.tacks := by
  simp only [State.lostStep]
  split
  · split
    · rfl
    · split
      · exact State.settle_tacks _ _
      · split
        · exact State.settle_tacks _ _
        · split
          · exact State.settle_tacks _ _
          · rfl
  · rfl

theorem State.settleStop_tacks (s : State) (hq : Nat) : (s.settleStop hq).tacks = s.tacks := by
  simp only [State.settleStop]
  split <;> rfl

theorem State.returnHome_tacks (s : State) (qi : Nat) : (s.returnHome qi).tacks = s.tacks := by
  simp only [State.returnHome]
  split <;> rfl

theorem State.endSubmission_tacks (s : State) (qi st : Nat) : (s.endSubmission qi st).tacks = s.tacks := by
  simp only [State.endSubmission]
  split
  · rfl
  · rw [State.returnHome_tacks, State.lostStep_tacks, State.settleStop_tacks, State.pushRec_tacks, State.setQueue_tacks]

/-- What the end of its submission may leave of a queue: the submission, what it holds of it, and its records. -/
def CoreQ.endsAs (x y : CoreQ) : Prop :=
  ∃ sub lh rst fl tr rs mv, y = { x with sub := sub, lastHq := lh, rstack := rst, inflight := fl, trap := tr, recs := rs, movedTo := mv } ∧
    (fl = x.inflight ∨ (fl = [] ∧ x.inflight = []))

/-- From `s` to `t` queue `qi` may make records and end its submission. -/
structure EndsOnly (qi : Nat) (s t : State) : Prop where
  work : WorkOnly s t
  tacks : t.tacks = s.tacks
  queue : (s.queue qi).endsAs (t.queue qi)

theorem State.checkEnd_ends (h : SMap.rising s.queues = true) (qi : Nat) : EndsOnly qi s (s.checkEnd qi) := by
  have hkeep : EndsOnly qi s s := ⟨WorkOnly.refl s, rfl, _, _, _, _, _, _, _, rfl, .inl rfl⟩
  have hend : ∀ (u : State) (x : Submission) (st : Nat), WorkOnly s u → u.tacks = s.tacks → u.queues = s.queues → (s.queue qi).sub = some x →
      (s.queue qi).inflight = [] → EndsOnly qi s (u.endSubmission qi st) := fun u x st hw ht hq hx hnil => by
    have hqu : u.queue qi = s.queue qi := by rw [State.queue, State.queue, hq]
    obtain ⟨rs, m, hend⟩ := State.endSubmission_queue (s := u) (by rw [hq]; exact h) (by rw [hqu]; exact hx) st
    refine ⟨hw.trans (WorkOnly.endSubmission u qi st), by rw [State.endSubmission_tacks, ht], ?_⟩
    rw [hend, hqu]
    exact ⟨_, _, _, _, _, _, _, rfl, .inr ⟨rfl, hnil⟩⟩
  simp only [State.checkEnd]
  split
  · next x hx =>
    split
    · next hcond =>
      have hnil : (s.queue qi).inflight = [] := by
        simp only [Bool.and_eq_true, List.isEmpty_iff] at hcond
        exact hcond.1.1.2
      split
      · exact hend _ x _ (WorkOnly.modHostq s _ _) rfl rfl hx hnil
      · exact hend s x _ (WorkOnly.refl s) rfl rfl hx hnil
    · exact hkeep
  · exact hkeep

/-- What a retired command's record and the end of its submission leave of a queue without a trap. -/
theorem State.records_ends (h : SMap.rising s.queues = true) (htrap : (s.queue qi).trap = none) {x : Submission} (c st : Nat) (rec : Bool) (tag : Nat)
    (w : Wide) : EndsOnly qi s (((if rec then (s.noteLost x.hostq c st).pushRec qi x.hostq ((s.noteLost x.hostq c st).wideRec qi w tag)
      else s.noteLost x.hostq c st).settleTrap qi).checkEnd qi) := by
  have hnote : SMap.rising (s.noteLost x.hostq c st).queues = true := h
  have hnq : (s.noteLost x.hostq c st).queue qi = s.queue qi := rfl
  have hnt : (s.noteLost x.hostq c st).tacks = s.tacks := rfl
  have hnw : WorkOnly s (s.noteLost x.hostq c st) := WorkOnly.modHostq s _ _
  generalize s.noteLost x.hostq c st = n at hnote hnq hnt hnw
  obtain ⟨v, hv, hvw, hvt, hvq, hvr⟩ : ∃ v : State, (if rec then n.pushRec qi x.hostq (n.wideRec qi w tag) else n) = v ∧ WorkOnly s v ∧
      v.tacks = s.tacks ∧ (∃ rs, v.queue qi = { s.queue qi with recs := rs }) ∧ SMap.rising v.queues = true := by
    refine ⟨_, rfl, ?_⟩
    split
    · obtain ⟨rs, hrs⟩ := State.pushRec_queue hnote qi x.hostq (n.wideRec qi w tag)
      exact ⟨hnw.trans (WorkOnly.pushRec _ _ _ _), by rw [State.pushRec_tacks, hnt], ⟨rs, by rw [hrs, hnq]⟩, State.pushRec_rising hnote _ _ _⟩
    · exact ⟨hnw, hnt, ⟨_, by rw [hnq]⟩, hnote⟩
  obtain ⟨rs, hrs⟩ := hvq
  have hset : v.settleTrap qi = v := by
    simp only [State.settleTrap, hrs, htrap]
  rw [hv, hset]
  obtain ⟨hw, ht, sub, lh, rst, fl, tr, rs', mv, hq, hfl⟩ := State.checkEnd_ends hvr qi
  refine ⟨hvw.trans hw, ht.trans hvt, sub, lh, rst, fl, tr, rs', mv, by rw [hq, hrs], ?_⟩
  rw [hrs] at hfl
  exact hfl

end Sys2Proof.Machine
end

section
/-! CERTIFICATE. Issue of waiting commands, and retirement in order (R206, R249, R251, R277). -/

namespace Sys2Proof.Machine

variable {s t u : State} {qi : Nat}

theorem settleLoad_none (h : ∀ b, s.tailor.boundary = some b → b.load = false) : s.settleLoad = s := by
  simp only [State.settleLoad]
  split
  · next b hb => simp only [h b hb, Bool.false_and, Bool.false_eq_true, if_false]
  · rfl

/-- R206: the head of a queue retires where it is complete, nothing holds it, and its record has room. -/
theorem State.retireHead_eq {w : Wide} {rest : List Wide} {x : Submission} (hfl : (s.queue qi).inflight = w :: rest) (hx : (s.queue qi).sub = some x)
    (hst : w.stage = .complete) (hheld : w.held = none) (hstop : (s.queue qi).stopped = false) (hseq : w.cseq ≤ (s.queue qi).cseq) :
    s.retireHead qi = if w.status ≠ 0 ∧ (s.queue qi).trapOnStatus = true ∧ w.skipped = false then s.trapWide qi w.cseq trStatus w.status
      else if s.recRoom qi = true then s.retire qi w else s := by
  have hlt : decide ((s.queue qi).cseq < w.cseq) = false := decide_eq_false (by omega)
  simp only [State.retireHead, hfl, hx, List.head?_cons, hst, hheld, hstop, hlt, bne_self_eq_false, Option.isSome_none, Bool.or_self,
    Bool.false_eq_true, if_false]
  have hiff : (w.status != stOk && (s.queue qi).trapOnStatus && !w.skipped) = true ↔
      w.status ≠ 0 ∧ (s.queue qi).trapOnStatus = true ∧ w.skipped = false := by
    simp only [stOk, Bool.and_eq_true, bne_iff_ne, Bool.not_eq_true', and_assoc]
  by_cases htrap : w.status ≠ 0 ∧ (s.queue qi).trapOnStatus = true ∧ w.skipped = false
  · rw [if_pos htrap, if_pos (hiff.mpr htrap)]
  · rw [if_neg htrap, if_neg (fun hc => htrap (hiff.mp hc))]
    cases s.recRoom qi <;> rfl

/-- The retirement of the head of a queue. -/
theorem State.retire_left {w : Wide} {rest : List Wide} {x : Submission} (ht : s.tidy = true) (hfl : (s.queue qi).inflight = w :: rest)
    (hdist : ∀ u ∈ rest, u.cseq ≠ w.cseq) (hx : (s.queue qi).sub = some x) (htrap : (s.queue qi).trap = none) :
    ∃ v : State, EndsOnly qi v (s.retire qi w) ∧ v.tacks = (s.retireEffects qi w).tacks ∧ v.registry = (s.retireEffects qi w).registry ∧
      v.mem = (s.retireEffects qi w).mem ∧
      ∃ l sub, v.queue qi = { s.queue qi with inflight := l, sub := sub, rseq := w.cseq, lastStatus := w.status, lastOutcome := w.outcome } ∧
        l.map Wide.cseq = rest.map Wide.cseq := by
  obtain ⟨hr, l, hl, hmap⟩ := SameCommands.retireEffects (qi := qi) (State.tidy_queues ht) qi w
  refine ⟨(s.retireEffects qi w).modQueue qi (fun q => q.retired (s.serving qi) w), ?_, rfl, rfl, rfl, ?_⟩
  · have hq : ((s.retireEffects qi w).modQueue qi (fun q => q.retired (s.serving qi) w)).queue qi =
        CoreQ.retired { s.queue qi with inflight := l } (s.serving qi) w := by rw [State.queue_modQueue hr, hl]
    rw [State.retire_eq s qi w rfl rfl (x := { x with
      lastCseq := some w.cseq, lastCore := some (s.serving qi), status := if x.status = stOk then w.status else x.status }) (by rw [hq]; simp only [CoreQ.retired, hx, Option.map_some])]
    exact State.records_ends (SMap.rising_set hr) (by rw [hq]; exact htrap) _ _ _ _ _
  · refine ⟨_, _, by rw [State.queue_modQueue hr, hl, CoreQ.retired], ?_⟩
    have hfilter : (l.filter (fun u => u.cseq != w.cseq)).map Wide.cseq = (l.map Wide.cseq).filter (fun n => n != w.cseq) :=
      (List.filter_map (f := Wide.cseq) (p := fun n => n != w.cseq) (l := l)).symm
    have hrest : (rest.map Wide.cseq).filter (fun n => n != w.cseq) = rest.map Wide.cseq := by
      rw [List.filter_eq_self]
      intro n hn
      obtain ⟨u, hu, rfl⟩ := List.mem_map.mp hn
      exact bne_iff_ne.mpr (hdist u hu)
    rw [hfilter, hmap, hfl, List.map_cons, List.filter_cons_of_neg (by simp), hrest]

theorem State.foldl_unwaitAll_tacks (qi : Nat) (l : List Wide) (s : State) : (l.foldl (fun s w => s.unwaitAll qi w.cseq) s).tacks = s.tacks := by
  induction l generalizing s with
  | nil => rfl
  | cons w l ih => rw [List.foldl_cons, ih]; rfl

theorem State.begins_cores (s : State) (qi : Nat) (w : Wide) : (s.begins qi w).cores = s.cores := by
  rw [State.begins, State.cores_of_errorless (State.errorless_chalkBegin ..)]
  rfl

theorem State.dropWork_value (hr : SMap.rising s.tacks = true) (qi k : Nat) : ((s.dropWork qi).tack k).value = (s.tack k).value := by
  simp only [State.dropWork]
  split
  · rfl
  · rw [State.tack, State.foldl_unwaitAll_tacks]
    have hget := SMap.get_mapVals (d := ({} : Tack)) (k := k) (f := fun _ t => { t with waiters := t.waiters.filter (fun x => x.queue != qi) }) hr
      (fun _ => rfl)
    have hvalue := congrArg Tack.value hget
    exact hvalue

/-- R251: what a queue's trap leaves as it settles: the count of retired commands and the values of the tacks. -/
theorem State.settleTrap_left (hq : SMap.rising s.queues = true) (ht : SMap.rising s.tacks = true) (qi k : Nat) :
    ((s.settleTrap qi).queue qi).rseq = (s.queue qi).rseq ∧ ((s.settleTrap qi).tack k).value = (s.tack k).value := by
  simp only [State.settleTrap]
  split
  · next r x htrap hsub =>
    split
    · exact ⟨rfl, rfl⟩
    · split
      · generalize hm : s.modHostq x.hostq _ = m
        have hmq : m.queues = s.queues := by rw [← hm]; rfl
        have hmt : m.tacks = s.tacks := by rw [← hm]; rfl
        obtain ⟨hdr, hdq⟩ := (HoldsOther.refl (s := m) (by rw [hmq]; exact hq)).dropWork qi
        obtain ⟨l, hl⟩ := hdq qi
        have hval := State.dropWork_value (s := m) (by rw [hmt]; exact ht) qi k
        have hmq' : m.queue qi = s.queue qi := by rw [State.queue, State.queue, hmq]
        generalize m.dropWork qi = d at hdr hl hval
        have hnew : (d.modQueue qi (fun q => { q with trap := none, inflight := [] })).queue qi = { d.queue qi with trap := none, inflight := [] } :=
          State.queue_modQueue hdr
        obtain ⟨rs, mv, hend⟩ := State.endSubmission_queue (s := d.modQueue qi (fun q => { q with trap := none, inflight := [] }))
          (SMap.rising_set hdr) (b := x) (by rw [hnew, hl, hmq']; exact hsub) (trapStatus r.cause (r.code % 256))
        refine ⟨by rw [hend, hnew, hl, hmq'], ?_⟩
        rw [State.tack_of_tacks (State.endSubmission_tacks _ _ _)]
        exact hval.trans (by rw [State.tack_of_tacks hmt])
      · generalize hm : s.setQueue qi { s.queue qi with trap := some { r with recorded := true } } = m
        have hmq : m.queue qi = { s.queue qi with trap := some { r with recorded := true } } := by rw [← hm, State.queue_setQueue hq]
        have hmr : SMap.rising m.queues = true := by rw [← hm]; exact SMap.rising_set hq
        have hmt : m.tacks = s.tacks := by rw [← hm]; rfl
        obtain ⟨rs, hrs⟩ := State.pushRec_queue hmr qi x.hostq _
        exact ⟨by rw [hrs, hmq], by rw [State.tack_of_tacks (State.pushRec_tacks _ _ _ _), State.tack_of_tacks hmt]⟩
  · exact ⟨rfl, rfl⟩

/-- R252: a wide command that traps leaves the count of retired commands and the values of the tacks. -/
theorem State.trapWide_left (ht : s.tidy = true) (n c st k : Nat) :
    ((s.trapWide qi n c st).queue qi).rseq = (s.queue qi).rseq ∧ ((s.trapWide qi n c st).tack k).value = (s.tack k).value := by
  simp only [State.trapWide]
  generalize hm : s.modQueue qi _ = m
  have hmr : SMap.rising m.queues = true := by rw [← hm]; exact SMap.rising_set (State.tidy_queues ht)
  have hmq : (m.queue qi).rseq = (s.queue qi).rseq := by rw [← hm, State.queue_modQueue (State.tidy_queues ht)]
  have hmt : m.tacks = s.tacks := by rw [← hm]; rfl
  obtain ⟨h1, h2⟩ := State.settleTrap_left hmr (by rw [hmt]; exact State.tidy_tacks ht) qi k
  exact ⟨h1.trans hmq, h2.trans (by rw [State.tack_of_tacks hmt])⟩

/-- R206: a command that waits is offered to its unit where its queue runs. -/
theorem exec_commandIssue {c q : Nat} {w : Wide} (hc : c < 24) (hq : q < 8) (halive : s.alive = true) (hstop : (s.queue (8 * c + q)).stopped = false)
    (hfence : (s.core (s.serving (8 * c + q))).fence = .inService) (hw : (s.queue (8 * c + q)).unissued = some w) :
    exec (.commandIssue c q) s = .next (if w.unchecked then (if s.adaptHeld then s else s.checkAndIssue (8 * c + q) w)
      else s.tryIssue (8 * c + q) w) := by
  refine (if_pos ⟨hc, hq⟩).trans (congrArg _ ?_)
  simp only [doCommandIssue, halive, hstop, hfence, hw, Bool.not_true, Bool.false_or, bne_self_eq_false, Bool.false_eq_true, if_false]

/-- R206: an MM, QUANT or PRESS that waited takes its place in the tile queue of its core. -/
theorem State.tryIssue_tiled {w : Wide} (ht : s.tidy = true) (hl : s.lapsed w = false) (htiled : w.tiled) (hn : w.tiles ≠ 0)
    (hroom : (s.core (s.serving qi)).tileQ.length < 32) :
    s.tryIssue qi w = ((s.begins qi w).modCore (s.serving qi) (fun y => { y with tileQ := y.tileQ ++ [(qi, w.cseq)] })).joinClose qi w := by
  have hc := State.tidy_cores ht
  have hcores : (s.begins qi w).cores = s.cores := State.begins_cores s qi w
  have hcore : (s.begins qi w).core (s.serving qi) = s.core (s.serving qi) := by rw [State.core, State.core, hcores]
  have hno : ¬(w.opcode = 0xA ∧ w.op < 4) := by rcases htiled with h | h | h <;> omega
  have hissue : (s.begins qi w).issueOp (s.serving qi) qi w =
      some ((s.begins qi w).modCore (s.serving qi) (fun y => { y with tileQ := y.tileQ ++ [(qi, w.cseq)] })) := by
    rw [State.issueOp_tiled htiled, if_neg hn, State.enqueueTiles, hcore, if_neg (by omega)]
  simp only [State.begins] at hissue ⊢
  simp only [State.tryIssue, hl, Bool.false_eq_true, if_false, if_neg hno, hissue, Option.map_some, Option.getD_some]

/-- R206, R242: and leaves the other cores, its queue but for the command, and the module's memory. -/
theorem State.tryIssue_tiled_left {w : Wide} (ht : s.tidy = true) (core : Nat)
    (hu : u = (s.begins qi w).modCore core (fun y => { y with tileQ := y.tileQ ++ [(qi, w.cseq)] })) :
    ((u.joinClose qi w).core core).tileQ = (s.core core).tileQ ++ [(qi, w.cseq)] ∧ (∀ k, k ≠ core → (u.joinClose qi w).core k = s.core k) ∧
      (u.joinClose qi w).queue qi = { s.queue qi with inflight := ((u.joinClose qi w).queue qi).inflight } ∧
      (∀ a, a < 2 ^ 63 → (u.joinClose qi w).memByte a = s.memByte a) := by
  have hq := State.tidy_queues ht
  have hqueues := State.begins_queues s qi w
  have hcores : (s.begins qi w).cores = s.cores := State.begins_cores s qi w
  have hwork : WorkOnly s (s.begins qi w) := (WorkOnly.modWide s qi _ _).trans (WorkOnly.chalkBegin _ _ _ _ _ _)
  generalize s.begins qi w = b at hqueues hcores hwork hu
  have hub : u.queues = b.queues := by rw [hu]; rfl
  have huc : ∀ k, u.core k = if k = core then { s.core core with tileQ := (s.core core).tileQ ++ [(qi, w.cseq)] } else s.core k := fun k => by
    have hc : SMap.rising b.cores = true := by rw [hcores]; exact State.tidy_cores ht
    have hbc : ∀ k, b.core k = s.core k := fun k => by rw [State.core, State.core, hcores]
    rw [hu]
    by_cases hk : k = core
    · subst hk
      rw [State.core_modCore hc, if_pos rfl, hbc]
    · rw [State.core_modCore_ne hc hk, if_neg hk, hbc]
  have hmw : SMap.rising (s.modWide qi w.cseq (fun w => { w with stage := .issued, issueTime := s.now })).queues = true := State.rising_modWide hq _ _ _
  have huq : u.queue qi = { s.queue qi with inflight := (u.queue qi).inflight } := by
    rw [State.queue, hub, hqueues, ← State.queue, State.modWide, State.queue_modQueue hq]
  have hrise : SMap.rising u.queues = true := by rw [hub, hqueues]; exact hmw
  have hj := (State.joinClose_queue hrise qi qi w).same
  have hleft := State.joinClose_left u qi w
  have huw : WorkOnly s u := by rw [hu]; exact hwork.trans (WorkOnly.modCore b _ _)
  have hjc : ∀ k, (u.joinClose qi w).core k = u.core k := fun k => by rw [State.core, State.core, hleft]
  refine ⟨?_, fun k hk => ?_, ?_, fun a ha => (huw.trans (WorkOnly.joinClose u qi w)).memByte (State.tidy_mem ht) ha⟩
  · rw [hjc, huc, if_pos rfl]
  · rw [hjc, huc, if_neg hk]
  · rw [huq] at hj
    exact hj

/-- Settles O43: what waits is offered to its unit again; the head retires with its effects, and its queue is left but for the record and the
end of its submission. -/
theorem issueAndRetirement : Obligations.IssueAndRetirement := by
  unfold Obligations.IssueAndRetirement
  refine ⟨?issue, ?retire⟩
  case issue =>
    intro s c q w hc hq qi core halive hstop hfence hw
    have hrow := exec_commandIssue hc hq halive hstop hfence hw
    refine ⟨fun hu => ?_, fun hu ha => ?_, fun hu ha => ?_, fun hu hl => ?_, fun htidy hu hl hop hn hroom => ?_⟩
    · rw [gives, hrow, hu]
      exact ⟨_, rfl, rfl⟩
    · rw [gives, hrow, hu, ha]
      exact ⟨_, rfl, rfl⟩
    · rw [gives, hrow, hu, ha]
      exact ⟨_, rfl, rfl⟩
    · rw [gives, hrow, hu]
      refine ⟨_, rfl, ?_⟩
      rw [State.tryIssue, if_pos hl]
      rfl
    · rw [gives, hrow, hu]
      refine ⟨_, rfl, ?_⟩
      obtain ⟨htile, hcores, hqueue, hmem⟩ := State.tryIssue_tiled_left (qi := 8 * c + q) (w := w) htidy (s.serving (8 * c + q)) rfl
      rw [← State.tryIssue_tiled htidy hl hop hn hroom] at htile hcores hqueue hmem
      have hcseq := congrArg CoreQ.cseq hqueue
      have hpc := congrArg CoreQ.pc hqueue
      exact ⟨htile, hcores, hcseq, hpc, hmem⟩
  case retire =>
    intro s c q w rest x hc hq htidy halive hload qi k hfl hdist hx hst hheld hstop htrap hseq row trapping room
    have hrow : exec row s = .next (if trapping then s.trapWide qi w.cseq trStatus w.status else if room then s.retire qi w else s) := by
      have hhead := State.retireHead_eq (qi := qi) hfl hx hst hheld hstop hseq
      refine (if_pos ⟨hc, hq⟩).trans (congrArg _ ?_)
      rw [doCommandRetire, if_pos halive, settleLoad_none hload]
      exact hhead
    refine ⟨fun h => ?_, fun h hr => ?_, fun h hr => ?_⟩
    · rw [gives, hrow, if_pos h]
      exact ⟨_, rfl, rfl, State.trapWide_left htidy _ _ _ _⟩
    · rw [gives, hrow, if_neg h, if_neg hr]
      exact ⟨_, rfl, rfl⟩
    · rw [gives, hrow, if_neg h, if_pos hr]
      obtain ⟨v, hends, htacks, hreg, hmem, l, sub, hqv, hmap⟩ := State.retire_left htidy hfl hdist hx htrap
      obtain ⟨hstore, hafter⟩ := State.retireEffects_store s qi w
      obtain ⟨hwf, hbytes⟩ := hstore (State.tidy_mem htidy)
      have htack : ∀ n, (s.retire qi w).tack n = (s.retireEffects qi w).tack n := State.tack_of_tacks (hends.tacks.trans htacks)
      have hregistry : (s.retire qi w).registry = s.registry.after w :=
        ((StoreKept.of_work hends.work).registry.trans hreg).trans hafter
      obtain ⟨sub', lh, rst, fl, tr, rs, mv, hend, hfls⟩ := hends.queue
      rw [hqv] at hend hfls
      have htack7 := fun h7 => State.retireEffects_tacks (qi := qi) (State.tidy_tacks htidy) (w := w) h7
      have hcseq := congrArg CoreQ.cseq hend
      have hpc := congrArg CoreQ.pc hend
      have hg := congrArg CoreQ.g hend
      have ha := congrArg CoreQ.a hend
      refine ⟨_, rfl, congrArg CoreQ.rseq hend, congrArg CoreQ.lastStatus hend, congrArg CoreQ.lastOutcome hend, hcseq, hpc, hg, ha, ?_, fun h7 hen => ?_, fun h7 n hn => ?_, fun ho hp hs => ?_,
        fun ho hp hs => ?_, fun ho => ?_, fun a ha => ?_⟩
      · rw [hend]
        rcases hfls with hfls | ⟨hfls, hnil⟩
        · exact (congrArg (List.map Wide.cseq) hfls).trans hmap
        · rw [← hmap, show l = [] from hnil, hfls]
      · rw [htack, (htack7 h7).1 hen]
      · rw [htack, (htack7 h7).2 n hn]
      · rw [hregistry, Registry.after, if_pos ⟨ho, hp, hs⟩]
      · rw [hregistry, Registry.after, if_neg (by rw [hp]; simp), if_pos ⟨ho, hp, hs⟩]
      · rw [hregistry, Registry.after, if_neg fun hx => ho.elim (fun hno => hno hx.1) (fun hno => hno hx.2.2),
          if_neg fun hx => ho.elim (fun hno => hno hx.1) (fun hno => hno hx.2.2)]
      · have hwfv : Memory.wf v.mem = true := by rw [hmem]; exact hwf
        rw [hends.work.memByte hwfv ha, State.memByte_of_mem hmem, hbytes a ha]

end Sys2Proof.Machine
end

section
/-! SUPPORT. The first of a list in rising order after a given place, in turn (R246, R321), and the bytes that a store leaves. -/

namespace Sys2Proof.Machine

variable {s : State}

/-! ### Taking turns -/

/-- The first member of a list that is not below `k`, or else the first of all. -/
def firstFrom (k : Nat) (l : List Nat) : Option Nat :=
  match l.find? (fun n => decide (k ≤ n)) with
  | some n => some n
  | none => l.head?

/-- The place of `n` in the turns that begin at `k`, of members below `b`. -/
def turnFrom (k b n : Nat) : Nat := if k ≤ n then n else n + b

/-- What is taken is the member whose turn comes first. -/
theorem firstFrom_least {k b : Nat} {l : List Nat} (hl : l.Pairwise (· < ·)) (hb : ∀ n ∈ l, n < b) {n : Nat} (h : firstFrom k l = some n) :
    n ∈ l ∧ ∀ m ∈ l, turnFrom k b n ≤ turnFrom k b m := by
  simp only [firstFrom] at h
  split at h
  · next r hr =>
    obtain rfl := Option.some.inj h
    obtain ⟨hk, as, bs, rfl, has⟩ := List.find?_eq_some_iff_append.mp hr
    have hk : k ≤ r := of_decide_eq_true hk
    refine ⟨List.mem_append_right _ List.mem_cons_self, fun m hm => ?_⟩
    have hrb := hb r (List.mem_append_right _ List.mem_cons_self)
    simp only [turnFrom, if_pos hk]
    rcases List.mem_append.mp hm with hm | hm
    · have hlow : ¬k ≤ m := by simpa using has m hm
      rw [if_neg hlow]
      omega
    · have hle : r ≤ m := by
        rcases List.mem_cons.mp hm with rfl | hm
        · exact Nat.le_refl _
        · exact Nat.le_of_lt ((List.pairwise_cons.mp (List.pairwise_append.mp hl).2.1).1 m hm)
      split <;> omega
  · next hnone =>
    have hlow : ∀ m ∈ l, ¬k ≤ m := fun m hm => by simpa using List.find?_eq_none.mp hnone m hm
    cases l with
    | nil => exact absurd h (by simp)
    | cons a l =>
      obtain rfl := Option.some.inj h
      refine ⟨List.mem_cons_self, fun m hm => ?_⟩
      rw [turnFrom, turnFrom, if_neg (hlow _ List.mem_cons_self), if_neg (hlow m hm)]
      rcases List.mem_cons.mp hm with rfl | hm
      · exact Nat.le_refl _
      · exact Nat.add_le_add_right (Nat.le_of_lt ((List.pairwise_cons.mp hl).1 m hm)) b

theorem firstFrom_none {k : Nat} {l : List Nat} (h : firstFrom k l = none) : l = [] := by
  simp only [firstFrom] at h
  split at h
  · exact absurd h (by simp)
  · exact List.head?_eq_none_iff.mp h

theorem turnFrom_inj {k b n m : Nat} (hn : n < b) (hm : m < b) (h : turnFrom k b n = turnFrom k b m) : n = m := by
  simp only [turnFrom] at h
  split at h <;> split at h <;> omega

theorem firstFrom_iff {k b : Nat} {l : List Nat} (hl : l.Pairwise (· < ·)) (hb : ∀ n ∈ l, n < b) (n : Nat) :
    firstFrom k l = some n ↔ n ∈ l ∧ ∀ m ∈ l, turnFrom k b n ≤ turnFrom k b m := by
  refine ⟨firstFrom_least hl hb, fun ⟨hn, hleast⟩ => ?_⟩
  cases h : firstFrom k l with
  | none => rw [firstFrom_none h] at hn; exact absurd hn List.not_mem_nil
  | some r =>
    obtain ⟨hr, hrleast⟩ := firstFrom_least hl hb h
    rw [turnFrom_inj (hb r hr) (hb n hn) (Nat.le_antisymm (hrleast n hn) (hleast r hr))]

/-! ### The bytes of a store -/

/-- A store of bytes is read back. -/
theorem State.memByte_setBytes_in (h : Memory.wf s.mem = true) {a i : Nat} {bs : List Byte} (hi : i < bs.length) :
    (s.setBytes a bs).memByte (a + i) = bs.getD i 0 := by
  induction bs generalizing s a i with
  | nil => exact absurd hi (Nat.not_lt_zero i)
  | cons b bs ih =>
    rw [State.setBytes]
    cases i with
    | zero => rw [State.memByte_setBytes_out (State.setByte_wf a b h) (by omega), Nat.add_zero, State.memByte_setByte h]; rfl
    | succ i =>
      have hlen : i < bs.length := by simpa using hi
      rw [show a + (i + 1) = a + 1 + i by omega, ih (State.setByte_wf a b h) hlen]
      rfl

theorem State.rawBytes_setBytes (h : Memory.wf s.mem = true) {a n : Nat} {bs : List Byte} (hn : bs.length = n) : (s.setBytes a bs).rawBytes a n = bs := by
  subst hn
  refine List.ext_getElem (by simp [State.rawBytes, upto]) fun i h1 h2 => ?_
  have hget := State.memByte_setBytes_in (a := a) h h2
  simp only [State.rawBytes, upto, List.getElem_map, List.getElem_range]
  rw [hget, List.getD_eq_getElem?_getD, List.getElem?_eq_getElem h2, Option.getD_some]

theorem State.rawBytes_of_mem {s t : State} (h : s.mem = t.mem) (a n : Nat) : s.rawBytes a n = t.rawBytes a n := by
  simp only [State.rawBytes, State.memByte, h]

theorem ofLe_leBytes (n v : Nat) : ofLe (leBytes n v) = v % 256 ^ n := by
  induction n generalizing v with
  | zero => simp [leBytes, ofLe, Nat.mod_one]
  | succ n ih =>
    have hbyte : (BitVec.ofNat 8 v).toNat = v % 256 := BitVec.toNat_ofNat v 8
    rw [leBytes, ofLe, ih, hbyte, Nat.pow_succ', Nat.mod_mul (x := v) (a := 256)]

end Sys2Proof.Machine
end

section
/-! CERTIFICATE. A core queue takes its next submission (R244 to R246, R250). -/

namespace Sys2Proof.Machine

variable {s : State} {qi n : Nat}

/-- The host queues that have a submission for a core queue. -/
def State.feeders (s : State) (qi : Nat) : List Nat := (upto 128).filter (fun n => (s.hostq n).serves qi)

theorem State.mem_feeders : n ∈ s.feeders qi ↔ n < 128 ∧ (s.hostq n).serves qi = true := by
  simp only [State.feeders, List.mem_filter, upto, List.mem_range]

theorem State.nextHostq_eq (s : State) (qi : Nat) : s.nextHostq qi = firstFrom (s.queue qi).lastHq (s.feeders qi) := rfl

/-- R246: the next submission is of the first host queue after the one last served that has one. -/
theorem State.nextHostq_iff (s : State) (qi n : Nat) :
    s.nextHostq qi = some n ↔ (s.hostq n).serves qi = true ∧ n < 128 ∧
      ∀ m, m < 128 → (s.hostq m).serves qi = true → turnFrom (s.queue qi).lastHq 128 n ≤ turnFrom (s.queue qi).lastHq 128 m := by
  have hsorted : (s.feeders qi).Pairwise (· < ·) := List.Pairwise.filter _ List.pairwise_lt_range
  rw [State.nextHostq_eq, firstFrom_iff hsorted fun m hm => (State.mem_feeders.mp hm).1, State.mem_feeders, and_comm (a := n < 128), and_assoc]
  refine and_congr_right fun _ => and_congr_right fun _ => ?_
  exact ⟨fun h m hm hs => h m (State.mem_feeders.mpr ⟨hm, hs⟩), fun h m hm => h m (State.mem_feeders.mp hm).1 (State.mem_feeders.mp hm).2⟩

/-! ### The entry -/

theorem entryBytes_length (e : SubEntry) : (entryBytes e).length = 32 := by
  simp only [entryBytes, List.length_append, leBytes_length]

/-- R246: the fields of an entry, as its bytes hold them. -/
theorem entryBytes_fields (e : SubEntry) :
    leAt (entryBytes e) 0 8 = e.stream % 2 ^ 64 ∧ leAt (entryBytes e) 8 4 = e.words % 2 ^ 32 ∧ leAt (entryBytes e) 12 4 = e.userTag % 2 ^ 32 ∧
      leAt (entryBytes e) 16 4 = e.flags % 2 ^ 32 := by
  have hfield : ∀ (as cs : List Byte) (n v : Nat), leAt (as ++ (leBytes n v ++ cs)) as.length n = v % 256 ^ n := fun as cs n v => by
    rw [leAt, List.drop_left, List.take_left' (leBytes_length n v), ofLe_leBytes]
  have hassoc : entryBytes e = leBytes 8 e.stream ++ (leBytes 4 e.words ++ (leBytes 4 e.userTag ++ (leBytes 4 e.flags ++ leBytes 12 0))) := by
    simp only [entryBytes, List.append_assoc]
  have hstream := hfield [] (leBytes 4 e.words ++ (leBytes 4 e.userTag ++ (leBytes 4 e.flags ++ leBytes 12 0))) 8 e.stream
  have hwords := hfield (leBytes 8 e.stream) (leBytes 4 e.userTag ++ (leBytes 4 e.flags ++ leBytes 12 0)) 4 e.words
  have htag := hfield (leBytes 8 e.stream ++ leBytes 4 e.words) (leBytes 4 e.flags ++ leBytes 12 0) 4 e.userTag
  have hflags := hfield (leBytes 8 e.stream ++ leBytes 4 e.words ++ leBytes 4 e.userTag) (leBytes 12 0) 4 e.flags
  simp only [List.nil_append, List.length_nil, List.length_append, leBytes_length, List.append_assoc, Nat.reduceAdd, ← hassoc] at hstream hwords htag hflags
  exact ⟨hstream, hwords, htag, hflags⟩

theorem bit_zero_word (v : Nat) : bit (v % 4294967296) 0 = bit v 0 ∧ bit (v % 18446744073709551616) 0 = bit v 0 := by
  have h32 : v % 4294967296 % 2 = v % 2 := by omega
  have h64 : v % 18446744073709551616 % 2 = v % 2 := by omega
  simp only [bit, Nat.shiftRight_zero, h32, h64, and_self]

theorem bit_one_word (v : Nat) : bit (v % 4294967296) 1 = bit v 1 := by
  have h32 : v % 4294967296 / 2 % 2 = v / 2 % 2 := by omega
  simp only [bit, Nat.shiftRight_eq_div_pow, Nat.pow_one, h32]

/-- R246: the submission that an entry of host queue `n` asks for. -/
theorem submissionOf_entry (n : Nat) (e : SubEntry) :
    submissionOf n (entryBytes e) = {
      port := portOf (n / 64), hq := n % 64, userTag := e.userTag % 2 ^ 32, recAll := bit e.flags 0, irq := bit e.flags 1, onHost := bit e.stream 0,
      base := e.stream % 2 ^ 64 / 8 * 8, words := e.words % 2 ^ 32 } := by
  obtain ⟨hstream, hwords, htag, hflags⟩ := entryBytes_fields e
  simp only [submissionOf, hstream, hwords, htag, hflags, Nat.reducePow, bit_one_word, (bit_zero_word _).1, (bit_zero_word _).2]

/-- The state as queue `qi` has taken the submission of `e` from host queue `n`. -/
def State.withSubmission (s : State) (qi n : Nat) (e : SubEntry) : State :=
  let x := submissionOf n (entryBytes e)
  (((s.setBytes (hostAddr (portOf (n / 64)) ((s.hostq n).entryAt (s.hostq n).shead)) (entryBytes e)).modHostq n (fun h =>
    { h with shead := (h.shead + 1) % 65536, lastTag := x.userTag, lost := h.lost.map (fun l => { l with userTag := x.userTag }) })).addGctr
    (848 + 4 * (n / 64) + 2) 32).setQueue qi
    { s.queue qi with g := [], a := [], rstack := [], pc := BitVec.ofNat 64 x.base, sub := some x, replayTo := 0 }

/-- R244: an idle core queue in service asks for the next submission. -/
theorem doSubmissionStart_some (ht : s.tidy = true) (halive : s.alive = true) (hfence : (s.core (s.serving qi)).fence = .inService)
    (hsub : (s.queue qi).sub = none) (hstop : (s.queue qi).stopped = false) (htrap : (s.queue qi).trap = none) (hrecs : (s.queue qi).recs = [])
    (e : SubEntry) (hn : s.nextHostq qi = some n) :
    doSubmissionStart qi e s = (s.withSubmission qi n e).checkExhausted qi := by
  have hmem := State.rawBytes_setBytes (a := hostAddr (portOf (n / 64)) ((s.hostq n).entryAt (s.hostq n).shead)) (State.tidy_mem ht) (entryBytes_length e)
  have hidle : (!s.alive || (s.queue qi).sub.isSome || (s.queue qi).stopped || (s.queue qi).trap.isSome || !(s.queue qi).recs.isEmpty ||
      (s.core (s.serving qi)).fence != .inService) = false := by rw [halive, hfence, hsub, hstop, htrap, hrecs]; rfl
  rw [doSubmissionStart]
  dsimp only
  rw [hidle, if_neg Bool.false_ne_true, hn]
  dsimp only
  rw [hmem]
  rfl

theorem doSubmissionStart_none (e : SubEntry) (hn : s.nextHostq qi = none) : doSubmissionStart qi e s = s := by
  simp only [doSubmissionStart, hn]
  split <;> rfl

/-- What it takes leaves. -/
theorem State.withSubmission_left (ht : s.tidy = true) (qi n : Nat) (e : SubEntry) :
    let t := s.withSubmission qi n e
    let x := submissionOf n (entryBytes e)
    t.queue qi = { s.queue qi with g := [], a := [], rstack := [], pc := BitVec.ofNat 64 x.base, sub := some x, replayTo := 0 } ∧
      (∀ j, j ≠ qi → t.queue j = s.queue j) ∧ (t.hostq n).shead = ((s.hostq n).shead + 1) % 65536 ∧ (∀ m, m ≠ n → t.hostq m = s.hostq m) ∧
      t = { s with queues := t.queues, hostqs := t.hostqs, gctr := t.gctr, mem := t.mem } ∧
      t.mem = (s.setBytes (hostAddr (portOf (n / 64)) ((s.hostq n).entryAt (s.hostq n).shead)) (entryBytes e)).mem := by
  intro t x
  have heq := State.setBytes_eq (s := s) (hostAddr (portOf (n / 64)) ((s.hostq n).entryAt (s.hostq n).shead)) (entryBytes e)
  simp only [t, State.withSubmission]
  generalize s.setBytes _ _ = m at heq
  have hmq : m.queues = s.queues := by rw [heq]
  have hmh : m.hostqs = s.hostqs := by rw [heq]
  have hrq : SMap.rising m.queues = true := by rw [hmq]; exact State.tidy_queues ht
  have hrh : SMap.rising m.hostqs = true := by rw [hmh]; exact State.tidy_hostqs ht
  have hhq : ∀ k, m.hostq k = s.hostq k := fun k => by rw [State.hostq, State.hostq, hmh]
  refine ⟨?_, fun j hj => ?_, ?_, fun k hk => ?_, ?_, rfl⟩
  · exact SMap.get_set_same hrq
  · rw [State.queue_setQueue_ne (by exact hrq) hj]
    simp only [State.queue, State.addGctr_queues, State.modHostq_queues, hmq]
  · rw [State.hostq, State.setQueue_hostqs, State.addGctr_hostqs]
    have hget := State.hostq_modHostq (i := n) (f := fun h => { h with
      shead := (h.shead + 1) % 65536, lastTag := x.userTag, lost := h.lost.map (fun l => { l with userTag := x.userTag }) }) hrh
    have hhead := congrArg HostQ.shead hget
    rw [hhq] at hhead
    exact hhead
  · rw [State.hostq, State.setQueue_hostqs, State.addGctr_hostqs]
    have hget := State.hostq_modHostq_ne (f := fun h => { h with
      shead := (h.shead + 1) % 65536, lastTag := x.userTag, lost := h.lost.map (fun l => { l with userTag := x.userTag }) }) hrh hk
    rw [hhq] at hget
    exact hget
  · rw [heq]
    rfl

/-- Settles O44: the host queues that have a submission are taken in turn, and the entry's bytes are read back as they were written. -/
theorem submissionStarts : Obligations.SubmissionStarts := by
  unfold Obligations.SubmissionStarts
  intro s c q n e hc hq htidy halive qi k first words hfence hsub hstop htrap hrecs hwords hfits
  have hrow : exec (.submissionStart c q e) s = .next (doSubmissionStart qi e s) := if_pos ⟨hc, hq⟩
  refine ⟨State.nextHostq_iff s qi n, ?starts, fun hn => ?_⟩
  case starts =>
    intro hn h a
    rw [doSubmissionStart_some htidy halive hfence hsub hstop htrap hrecs e hn] at hrow
    obtain ⟨hqueue, hqueues, hhead, hhostqs, heq, hmem⟩ := State.withSubmission_left htidy qi n e
    have ha : hostAddr (portOf (n / 64)) (h.entryAt h.shead) = a := (Nat.add_assoc _ _ _).symm
    change _ = (s.setBytes (hostAddr (portOf (n / 64)) (h.entryAt h.shead)) (entryBytes e)).mem at hmem
    rw [ha] at hmem
    have hraw : (s.withSubmission qi n e).rawBytes a 32 = entryBytes e :=
      (State.rawBytes_of_mem hmem a 32).trans (State.rawBytes_setBytes (State.tidy_mem htidy) (entryBytes_length e))
    obtain ⟨hf1, hf2, hf3, hf4⟩ := entryBytes_fields e
    rw [submissionOf_entry] at hqueue
    have hleft : (s.withSubmission qi n e).wordsLeft qi 1 = true := by
      have hpc : (BitVec.ofNat 64 first).toNat = first := by
        rw [BitVec.toNat_ofNat, Nat.mod_eq_of_lt (by omega)]
      rw [State.wordsLeft, hqueue]
      simp only [Bool.and_eq_true, decide_eq_true_eq]
      change first ≤ (BitVec.ofNat 64 first).toNat ∧ (BitVec.ofNat 64 first).toNat + 8 * 1 ≤ first + 8 * words
      rw [hpc]
      omega
    refine ⟨_, hrow, ?_⟩
    rw [State.checkExhausted, if_pos hleft]
    refine ⟨hqueue, hqueues, hhead, hhostqs, heq, by rw [hraw]; exact hf1, by rw [hraw]; exact hf2, by rw [hraw]; exact hf3,
      by rw [hraw]; exact hf4, fun b hb => ?_⟩
    rw [State.memByte_of_mem hmem]
    exact State.memByte_setBytes_out (State.tidy_mem htidy) (by rw [entryBytes_length]; exact hb)
  · rw [doSubmissionStart_none e hn] at hrow
    exact ⟨s, hrow, rfl⟩

end Sys2Proof.Machine
end

section
/-! SUPPORT. The flit that a fabric port sends in sequence (R361, R363, R364, R366). -/

namespace Sys2Proof.Machine

variable {s : State} {p : Nat}

theorem put_lt (v : Nat) {hi lo : Nat} (h : lo ≤ hi) : put v hi lo ≤ 2 ^ (hi + 1) - 2 ^ lo := by
  have hlt : v % 2 ^ (hi + 1 - lo) + 1 ≤ 2 ^ (hi + 1 - lo) := Nat.mod_lt _ (Nat.two_pow_pos _)
  have hmul := Nat.mul_le_mul_right (2 ^ lo) hlt
  rw [← Nat.pow_add, Nat.sub_add_cancel (by omega), Nat.add_mul, Nat.one_mul] at hmul
  rw [put, Nat.shiftLeft_eq]
  omega

/-- R363: the acknowledgement's fields. -/
theorem FabPort.ackFields_le (x : FabPort) : x.ackFields ≤ 2 ^ 58 + (2 ^ 57 - 2 ^ 45) := by
  rw [FabPort.ackFields]
  split
  · omega
  · have h1 := put_lt 1 (hi := 58) (lo := 58) (by omega)
    have h2 := put_lt ((x.rxSeq + 4095) % 4096) (hi := 56) (lo := 45) (by omega)
    omega

/-- R366: the credits that a flit returns are fields of its header, and the port's books alone change. -/
theorem FabPort.returnCredits_left (x : FabPort) (first : Nat) :
    (x.returnCredits first).1 ≤ 2 ^ 45 - 2 ^ 37 ∧ (x.returnCredits first).2 = { x with vcs := (x.returnCredits first).2.vcs } := by
  rw [FabPort.returnCredits]
  split
  · next v n _ =>
    have h1 := put_lt v (hi := 44) (lo := 43) (by omega)
    have h2 := put_lt n (hi := 42) (lo := 37) (by omega)
    refine ⟨?_, rfl⟩
    dsimp only
    omega
  · exact ⟨by omega, rfl⟩

theorem flitCrc_seq (h : Nat) (bs : List Byte) {m n : Nat} (hmn : m % 4096 = n % 4096) : flitCrc h bs m = flitCrc h bs n := by
  rw [flitCrc, flitCrc, hmn]

/-- The flit `hd`, `pl` has left port `p` in sequence, and is kept for a resend; `ctrlq` and `outq` wait to be sent. -/
structure Sequenced (p : Nat) (s t : State) (hd : Nat) (pl : List Byte) (ctrlq : List Ctrl) (outq : SMap (List Flit)) : Prop where
  left : t = { s with link := t.link, gctr := t.gctr }
  txSeq : (t.fport p).txSeq = ((s.fport p).txSeq + 1) % 4096
  others : ∀ j, j ≠ p → t.fport j = s.fport j
  sent : t.link.sentFlits = s.link.sentFlits ++ [(p, Flit.mk hd pl (flitCrc hd pl (s.fport p).txSeq))]
  replay : (t.fport p).replay = (s.fport p).replay ++ [Kept.mk (s.fport p).txSeq hd pl]
  ctrlq : (t.fport p).ctrlq = ctrlq
  outq : (t.fport p).outq = outq

/-- R361: a sequenced flit: its kind and channel are its header's upper fields. -/
theorem State.sendSequenced_left (h : SMap.rising s.link.ports = true) (p kind vc flags : Nat) (pl : List Byte) (first : Nat) :
    ∃ hd, Sequenced p s (s.sendSequenced p kind vc flags pl first) hd (pad240 pl) (s.fport p).ctrlq (s.fport p).outq ∧
      (flags < 2 ^ 37 → kind < 8 → vc < 4 → fld hd 63 59 = 4 * kind + vc) := by
  simp only [State.sendSequenced]
  generalize hx : (s.fport p).setBook vc _ = x
  have hxs : x = { s.fport p with vcs := x.vcs } := by rw [← hx]; rfl
  obtain ⟨hcr, hy⟩ := x.returnCredits_left first
  generalize x.returnCredits first = y at hcr hy
  obtain ⟨cr, y⟩ := y
  dsimp only at hcr hy ⊢
  have hys : y = { s.fport p with vcs := y.vcs } := by rw [hy, hxs]
  have hack := y.ackFields_le
  have hseq : y.txSeq = (s.fport p).txSeq := by rw [hys]
  have hreplay : y.replay = (s.fport p).replay := by rw [hys]
  have hctrl : y.ctrlq = (s.fport p).ctrlq := by rw [hys]
  have hout : y.outq = (s.fport p).outq := by rw [hys]
  generalize hhd : put kind 63 61 + put vc 60 59 + y.ackFields + cr + flags = hd
  have hcrc := flitCrc_seq hd (pad240 pl) (show ((y.txSeq + 1) % 4096 + 4095) % 4096 = (s.fport p).txSeq % 4096 by omega)
  obtain ⟨z, hz, hzseq, hzreplay, hzctrl, hzout⟩ : ∃ z : FabPort, { y with
      txSeq := (y.txSeq + 1) % 4096, unacked := 0, replay := y.replay ++ [Kept.mk y.txSeq hd (pad240 pl)] } = z ∧
      z.txSeq = ((s.fport p).txSeq + 1) % 4096 ∧ z.replay = (s.fport p).replay ++ [Kept.mk (s.fport p).txSeq hd (pad240 pl)] ∧
      z.ctrlq = (s.fport p).ctrlq ∧ z.outq = (s.fport p).outq :=
    ⟨_, rfl, by rw [← hseq], by rw [← hseq, ← hreplay], hctrl, hout⟩
  rw [hz]
  have hget : (s.setFport p z).fport p = z := State.fport_setFport h
  have hother : ∀ j, j ≠ p → (s.setFport p z).fport j = s.fport j := fun j hj => State.fport_setFport_ne h hj
  have hsent : (s.setFport p z).link.sentFlits = s.link.sentFlits := rfl
  have hleft : s.setFport p z = { s with link := (s.setFport p z).link } := rfl
  generalize s.setFport p z = m at hget hother hsent hleft
  have hfport : ∀ j, ((m.emit p hd (pad240 pl) ((y.txSeq + 1) % 4096 + 4095)).addGctr (752 + p) 256).fport j = m.fport j := fun _ => rfl
  refine ⟨hd, ⟨?_, ?_, fun j hj => ?_, ?_, ?_, ?_, ?_⟩, fun hf hk hv => ?_⟩
  · rw [hleft]
    rfl
  · rw [hfport, hget, hzseq]
  · rw [hfport, hother j hj]
  · rw [← hcrc, ← hsent]
    rfl
  · rw [hfport, hget, hzreplay]
  · rw [hfport, hget, hzctrl]
  · rw [hfport, hget, hzout]
  · rw [← hhd]
    have h1 : put kind 63 61 = kind * 2 ^ 61 := by rw [put, Nat.mod_eq_of_lt (by simpa using hk), Nat.shiftLeft_eq]
    have h2 : put vc 60 59 = vc * 2 ^ 59 := by rw [put, Nat.mod_eq_of_lt (by simpa using hv), Nat.shiftLeft_eq]
    rw [h1, h2, fld, Nat.shiftRight_eq_div_pow]
    omega

/-- A flit sent once its queue has let it go. -/
theorem Sequenced.of_setFport {t : State} {hd : Nat} {pl : List Byte} {cq : List Ctrl} {oq : SMap (List Flit)} {x : FabPort}
    (h : SMap.rising s.link.ports = true) (hseq : x.txSeq = (s.fport p).txSeq) (hreplay : x.replay = (s.fport p).replay)
    (ht : Sequenced p (s.setFport p x) t hd pl cq oq) : Sequenced p s t hd pl cq oq := by
  obtain ⟨hleft, htx, hother, hsent, hkept, hctrl, hout⟩ := ht
  rw [State.fport_setFport h, hseq] at htx hsent hkept
  refine ⟨hleft.trans rfl, htx, fun j hj => ?_, hsent, ?_, hctrl, hout⟩
  · rw [hother j hj, State.fport_setFport_ne h hj]
  · rw [hkept, hreplay]

/-- R364: the first of the CTRL flits that wait leaves. -/
theorem State.emitCtrl_left (h : SMap.rising s.link.ports = true) (p : Nat) (c : Ctrl) :
    ∃ hd, Sequenced p s (s.emitCtrl p c) hd (pad240 ((s.fport p).ctrlPayload s.now c)) (s.fport p).ctrlq.tail (s.fport p).outq ∧ fld hd 63 59 = 11 := by
  simp only [State.emitCtrl]
  obtain ⟨x, hx, hseq, hreplay, hctrl, hout⟩ : ∃ x : FabPort, { s.fport p with
      ctrlq := (s.fport p).ctrlq.tail, t1 := if c = .timeReq then s.now else (s.fport p).t1 } = x ∧
      x.txSeq = (s.fport p).txSeq ∧ x.replay = (s.fport p).replay ∧ x.ctrlq = (s.fport p).ctrlq.tail ∧ x.outq = (s.fport p).outq :=
    ⟨_, rfl, rfl, rfl, rfl, rfl⟩
  rw [hx]
  obtain ⟨hd, hsend, hfld⟩ := State.sendSequenced_left (s := s.setFport p x) (SMap.rising_set h) p fkCtrl 3 0
    ((s.fport p).ctrlPayload s.now c) c.first
  rw [State.fport_setFport h, hctrl, hout] at hsend
  exact ⟨hd, Sequenced.of_setFport h hseq hreplay hsend, hfld (by omega) (by decide) (by omega)⟩

end Sys2Proof.Machine
end

section
/-! CERTIFICATE. A decision point of an arbiter (R319 to R322, R326, R364, R369, R370). -/

namespace Sys2Proof.Machine

variable {s : State} {x : Arbiter} {masked : Nat → Bool} {prio : Nat → Nat} {asks : List Nat}

/-! ### The set of the requesters that ask -/

theorem mem_setIns {l : List Nat} {k r : Nat} : r ∈ setIns l k ↔ r = k ∨ r ∈ l := by
  induction l with
  | nil => simp only [setIns, List.mem_singleton, List.not_mem_nil, or_false]
  | cons j l ih =>
    simp only [setIns]
    split
    · simp only [List.mem_cons]
    · split
      · next hk => simp only [List.mem_cons, hk, or_self_left]
      · simp only [List.mem_cons, ih]
        exact or_left_comm

theorem setIns_pairwise {l : List Nat} (h : l.Pairwise (· < ·)) (k : Nat) : (setIns l k).Pairwise (· < ·) := by
  induction l with
  | nil => exact List.pairwise_singleton _ _
  | cons j l ih =>
    obtain ⟨hj, hl⟩ := List.pairwise_cons.mp h
    simp only [setIns]
    split
    · next hk =>
      refine List.pairwise_cons.mpr ⟨fun r hr => ?_, h⟩
      rcases List.mem_cons.mp hr with rfl | hr
      · exact hk
      · exact Nat.lt_trans hk (hj r hr)
    · split
      · exact h
      · refine List.pairwise_cons.mpr ⟨fun r hr => ?_, ih hl⟩
        rcases mem_setIns.mp hr with rfl | hr
        · omega
        · exact hj r hr

theorem mem_foldl_setIns {l acc : List Nat} {r : Nat} : r ∈ l.foldl setIns acc ↔ r ∈ l ∨ r ∈ acc := by
  induction l generalizing acc with
  | nil => simp only [List.foldl_nil, List.not_mem_nil, false_or]
  | cons k l ih =>
    rw [List.foldl_cons, ih, mem_setIns, List.mem_cons]
    exact or_left_comm.trans or_assoc.symm

theorem foldl_setIns_pairwise {l acc : List Nat} (h : acc.Pairwise (· < ·)) : (l.foldl setIns acc).Pairwise (· < ·) := by
  induction l generalizing acc with
  | nil => exact h
  | cons k l ih => exact ih (setIns_pairwise h k)

/-! ### One decision -/

/-- What a requester has lost and sits out. -/
def Arbiter.req (x : Arbiter) (r : Nat) : Requester := SMap.get {} x.reqs r

/-- R322: masking clears what a masked requester has lost. -/
theorem Arbiter.clearMasked_req (h : SMap.rising x.reqs = true) (r : Nat) : (x.clearMasked masked).req r = if masked r then {} else x.req r := by
  have hget := SMap.get_mapVals (d := ({} : Requester)) (k := r) (f := fun r q => if masked r then { q with losses := 0, wait := 0 } else q) h
    (fun k => by split <;> rfl)
  refine hget.trans ?_
  rfl

/-- The requesters that may be granted. -/
def Arbiter.cands (x : Arbiter) (masked : Nat → Bool) (asks : List Nat) : List Nat := asks.filter (fun r => !masked r && (x.req r).wait == 0)

/-- The owner asks alone, and may be granted. -/
def Arbiter.parks (x : Arbiter) (masked : Nat → Bool) (asks : List Nat) : Prop := asks = [x.owner] ∧ masked x.owner = false ∧ (x.req x.owner).wait = 0

/-- R320: what the requesters sit out, a round later. -/
def Arbiter.waited (x : Arbiter) : SMap Requester := SMap.mapVals ({} : Requester) (fun _ q => { q with wait := q.wait - 1 }) x.reqs

theorem Arbiter.waited_get (h : SMap.rising x.reqs = true) (r : Nat) : SMap.get {} x.waited r = { x.req r with wait := (x.req r).wait - 1 } :=
  SMap.get_mapVals h (fun _ => rfl)

theorem Arbiter.parks_iff : (asks == [x.owner] && !masked x.owner && (x.req x.owner).wait == 0) = true ↔ x.parks masked asks := by
  simp only [Arbiter.parks, Bool.and_eq_true, beq_iff_eq, Bool.not_eq_true', and_assoc]

theorem Arbiter.decide_parks (h : x.parks masked asks) : x.decide prio masked asks = (some x.owner, { x with granted := x.owner + 1 }) := by
  rw [Arbiter.decide]
  exact if_pos (Arbiter.parks_iff.mpr h)

/-- R320: the losers' counts after a decision. -/
def Requester.lose (q : Requester) : Requester := { losses := min (q.losses + 1) 9, wait := min (2 ^ (min (q.losses + 1) 9 - 1)) 256 }

/-- The candidates of the highest priority. -/
def Arbiter.best (x : Arbiter) (prio : Nat → Nat) (masked : Nat → Bool) (asks : List Nat) : List Nat :=
  (x.cands masked asks).filter (fun r => prio r == (x.cands masked asks).foldl (fun m r => max m (prio r)) 0)

theorem Arbiter.decide_eq (h : ¬x.parks masked asks) :
    x.decide prio masked asks = match firstFrom (x.lastWinner + 1) (x.best prio masked asks) with
      | none => (none, { x with reqs := x.waited })
      | some w => (some w, { x with owner := w, lastWinner := w, granted := w + 1, reqs :=
          (x.cands masked asks).foldl (fun m r => SMap.set ({} : Requester) m r (if r = w then {} else (SMap.get {} m r).lose)) x.waited }) := by
  rw [Arbiter.decide]
  dsimp only
  refine (if_neg (fun hc => h (Arbiter.parks_iff.mp hc))).trans ?_
  rfl

theorem Arbiter.decide_none (h : ¬x.parks masked asks) (hnone : ∀ r, r ∉ x.cands masked asks) :
    x.decide prio masked asks = (none, { x with reqs := x.waited }) := by
  have hbest : x.best prio masked asks = [] := by
    rw [Arbiter.best, List.eq_nil_iff_forall_not_mem.mpr hnone, List.filter_nil]
  rw [Arbiter.decide_eq h, hbest]
  rfl

theorem le_foldl_max {f : Nat → Nat} {l : List Nat} {a : Nat} : a ≤ l.foldl (fun m r => max m (f r)) a ∧ ∀ r ∈ l, f r ≤ l.foldl (fun m r => max m (f r)) a := by
  induction l generalizing a with
  | nil => exact ⟨Nat.le_refl _, fun _ h => absurd h List.not_mem_nil⟩
  | cons k l ih =>
    obtain ⟨ha, hl⟩ := ih (a := max a (f k))
    refine ⟨Nat.le_trans (Nat.le_max_left _ _) ha, fun r hr => ?_⟩
    rcases List.mem_cons.mp hr with rfl | hr
    · exact Nat.le_trans (Nat.le_max_right _ _) ha
    · exact hl r hr

theorem foldl_max_le {f : Nat → Nat} {l : List Nat} {a b : Nat} (ha : a ≤ b) (hl : ∀ r ∈ l, f r ≤ b) : l.foldl (fun m r => max m (f r)) a ≤ b := by
  induction l generalizing a with
  | nil => exact ha
  | cons k l ih =>
    exact ih (Nat.max_le.mpr ⟨ha, hl k List.mem_cons_self⟩) fun r hr => hl r (List.mem_cons_of_mem k hr)

/-- A walk that sets each key of a list without repetition once. -/
theorem SMap.get_foldl_set {α : Type} [DecidableEq α] {d : α} (f : Nat → α → α) {l : List Nat} (hl : l.Nodup) {m : SMap α} (hm : SMap.rising m = true)
    (k : Nat) : SMap.get d (l.foldl (fun m r => SMap.set d m r (f r (SMap.get d m r))) m) k = if k ∈ l then f k (SMap.get d m k) else SMap.get d m k := by
  induction l generalizing m with
  | nil => rfl
  | cons r l ih =>
    obtain ⟨hnot, hnd⟩ := List.nodup_cons.mp hl
    rw [List.foldl_cons, ih hnd (SMap.rising_set hm)]
    by_cases hk : k = r
    · subst hk
      rw [if_neg hnot, if_pos List.mem_cons_self, SMap.get_set_same hm]
    · rw [SMap.get_set_other hm hk]
      simp only [List.mem_cons, hk, false_or]

/-- R320, R321: of the candidates of the highest priority the first after the last winner is granted; the others lose. -/
theorem Arbiter.decide_grants (hx : SMap.rising x.reqs = true) (hsort : asks.Pairwise (· < ·)) (hlt : ∀ r ∈ asks, r < 256) (h : ¬x.parks masked asks)
    {w : Nat} (hw : w ∈ x.cands masked asks) (hprio : ∀ r ∈ x.cands masked asks, prio r ≤ prio w)
    (hturn : ∀ r ∈ x.cands masked asks, prio r = prio w → turnFrom (x.lastWinner + 1) 256 w ≤ turnFrom (x.lastWinner + 1) 256 r) :
    ∃ reqs, x.decide prio masked asks = (some w, { x with owner := w, lastWinner := w, granted := w + 1, reqs := reqs }) ∧
      SMap.get {} reqs w = {} ∧ (∀ r, r ≠ w → r ∈ x.cands masked asks → SMap.get {} reqs r = (x.req r).lose) ∧
      (∀ r, r ∉ x.cands masked asks → SMap.get {} reqs r = { x.req r with wait := (x.req r).wait - 1 }) := by
  have hcsort : (x.cands masked asks).Pairwise (· < ·) := List.Pairwise.filter _ hsort
  have htop : (x.cands masked asks).foldl (fun m r => max m (prio r)) 0 = prio w :=
    Nat.le_antisymm (foldl_max_le (Nat.zero_le _) hprio) (le_foldl_max.2 w hw)
  have hmem : ∀ r, r ∈ x.best prio masked asks ↔ r ∈ x.cands masked asks ∧ prio r = prio w := fun r => by
    rw [Arbiter.best, List.mem_filter, htop, beq_iff_eq]
  have hfirst : firstFrom (x.lastWinner + 1) (x.best prio masked asks) = some w := by
    refine (firstFrom_iff (b := 256) (List.Pairwise.filter _ hcsort) (fun r hr => hlt r (List.mem_filter.mp ((hmem r).mp hr).1).1) w).mpr
      ⟨(hmem w).mpr ⟨hw, rfl⟩, fun r hr => hturn r ((hmem r).mp hr).1 ((hmem r).mp hr).2⟩
  have hget := SMap.get_foldl_set (d := ({} : Requester)) (fun r q => if r = w then {} else q.lose) (hcsort.imp Nat.ne_of_lt) (m := x.waited)
    (SMap.rising_mapVals hx)
  refine ⟨_, by rw [Arbiter.decide_eq h, hfirst], ?_, fun r hne hr => ?_, fun r hr => ?_⟩
  · rw [hget, if_pos hw, if_pos rfl]
  · rw [hget, if_pos hr, if_neg hne, Arbiter.waited_get hx, Requester.lose, Requester.lose]
  · rw [hget, if_neg hr, Arbiter.waited_get hx]

/-! ### What a grant does -/

/-- R319, R326, R364: a grant of a hub takes tokens; a grant of a fabric port sends a flit; no other does more. -/
def State.grantedTo (s : State) (a : ArbPort) (n : Nat) : Option Nat → State
  | none => s
  | some w => match a with
    | .egress p => s.sendGranted p w
    | .hubIngress h => s.grantHub h w (min (burstMost a) n)
    | _ => s

/-- The requesters of a list that ask and are not masked. -/
def State.askers (s : State) (a : ArbPort) (req : List Nat) : List Nat :=
  (req.filter (fun r => decide (r < arbWidth a) && s.arbAsks a r && !s.arbMasked a r)).foldl setIns []

/-- R320: a decision point is a decision and what its grant does. -/
theorem doArbiter_eq (h : s.arbRuns a = true) (req : List Nat) {g : Option Nat} {y : Arbiter}
    (hd : ((SMap.get {} s.arbiters (arbKey a)).clearMasked (s.arbMasked a)).decide (s.arbPrio a) (s.arbMasked a) (s.askers a req) = (g, y)) :
    doArbiter a req s = State.grantedTo { s with arbiters := SMap.set {} s.arbiters (arbKey a) y } a
      (match g with | some w => (req.filter (· == w)).length | none => 0) g := by
  have hround : s.arbRound a (s.arbPrio a) (s.arbMasked a) (s.askers a req) = (g, { s with arbiters := SMap.set {} s.arbiters (arbKey a) y }) := by
    rw [State.arbRound, hd]
  rw [State.askers] at hround
  simp only [doArbiter, h, Bool.not_true, Bool.false_eq_true, if_false, hround]
  cases g with
  | none => cases a <;> rfl
  | some w => cases a <;> rfl

theorem State.emit_arbiters (s : State) (p h : Nat) (bs : List Byte) (n : Nat) : (s.emit p h bs n).arbiters = s.arbiters := rfl

theorem State.sendSequenced_arbiters (s : State) (p kind vc flags : Nat) (pl : List Byte) (first : Nat) :
    (s.sendSequenced p kind vc flags pl first).arbiters = s.arbiters := by
  simp only [State.sendSequenced, State.addGctr_arbiters, State.emit_arbiters, State.setFport_arbiters]

theorem State.grantedTo_arbiters (s : State) (a : ArbPort) (n : Nat) (g : Option Nat) : (s.grantedTo a n g).arbiters = s.arbiters := by
  cases g with
  | none => rfl
  | some w =>
    cases a with
    | egress p =>
      simp only [State.grantedTo, State.sendGranted]
      split
      · rw [State.emitCtrl, State.sendSequenced_arbiters, State.setFport_arbiters]
      · rw [State.sendSequenced_arbiters, State.modFport_arbiters]
      · rfl
    | _ => rfl

/-- R319: the blocks of a burst take their tokens, and wait to be carried out. -/
theorem State.grantHub_left (h : SMap.rising s.hubs = true) (k w n : Nat) :
    s.grantHub k w n = { s with hubs := (s.grantHub k w n).hubs } ∧ (∀ j, j ≠ k → (s.grantHub k w n).hub j = s.hub j) ∧
      (s.grantHub k w n).hub k = { s.hub k with
        tokens := SMap.set 0 (s.hub k).tokens w (SMap.get 0 (s.hub k).tokens w + min (min n 8) (64 - SMap.get 0 (s.hub k).tokens w)),
        requests := (s.hub k).requests ++ List.replicate (min (min n 8) (64 - SMap.get 0 (s.hub k).tokens w)) w,
        ucieNext := nextUcie (s.hub k).ucieLive (s.hub k).ucieNext } :=
  ⟨rfl, fun _ hj => State.hub_modHub_ne h hj, State.hub_modHub h⟩

/-- R364: the flit of a channel's queue leaves, or of VC3 a CTRL flit before it. -/
theorem State.sendGranted_left (h : SMap.rising s.link.ports = true) (k : Nat) {w : Nat} (hw : w < 4)
    (hasks : SMap.get [] (s.fport k).outq w ≠ [] ∨ (w = 3 ∧ (s.fport k).ctrlq ≠ [])) :
    ∃ hd pl cq oq, Sequenced k s (s.sendGranted k w) hd (pad240 pl) cq oq ∧
      (∀ c cs, w = 3 → (s.fport k).ctrlq = c :: cs → fld hd 63 59 = 11 ∧ pl = (s.fport k).ctrlPayload s.now c ∧ cq = cs ∧ oq = (s.fport k).outq) ∧
      (∀ f fs, (w ≠ 3 ∨ (s.fport k).ctrlq = []) → SMap.get [] (s.fport k).outq w = f :: fs → f.header < 2 ^ 37 →
        fld hd 63 59 = 4 + w ∧ pl = f.payload ∧ oq = SMap.set [] (s.fport k).outq w fs ∧ cq = (s.fport k).ctrlq) := by
  by_cases hctrl : w = 3 ∧ (s.fport k).ctrlq ≠ []
  · obtain ⟨rfl, hne⟩ := hctrl
    obtain ⟨c, cs, hc⟩ := List.exists_cons_of_ne_nil hne
    obtain ⟨hd, hsend, hfld⟩ := State.emitCtrl_left h k c
    have hsg : s.sendGranted k 3 = s.emitCtrl k c := by
      simp only [State.sendGranted, hc, if_true, List.head?_cons]
    refine ⟨hd, _, _, _, by rw [hsg]; exact hsend, fun c' cs' _ hc' => ?_, fun f fs hno _ _ => ?_⟩
    · obtain ⟨rfl, rfl⟩ := List.cons.inj (hc.symm.trans hc')
      exact ⟨hfld, rfl, by rw [hc]; rfl, rfl⟩
    · rcases hno with hno | hno
      · exact absurd rfl hno
      · exact absurd hno hne
  · obtain ⟨f, fs, hf⟩ := List.exists_cons_of_ne_nil (hasks.resolve_right hctrl)
    have hhead : (if w = 3 then (s.fport k).ctrlq.head? else none) = none := by
      split
      · next h3 =>
        have hnil : (s.fport k).ctrlq = [] := Decidable.byContradiction fun hne => hctrl ⟨h3, hne⟩
        rw [hnil]; rfl
      · rfl
    have hsg : s.sendGranted k w = (s.modFport k (fun x => { x with outq := SMap.set [] x.outq w fs })).sendSequenced k fkData w f.header f.payload := by
      simp only [State.sendGranted, hhead, hf]
    obtain ⟨x, hx, hseq, hreplay, hcq, hoq⟩ : ∃ x : FabPort, { s.fport k with outq := SMap.set [] (s.fport k).outq w fs } = x ∧
        x.txSeq = (s.fport k).txSeq ∧ x.replay = (s.fport k).replay ∧ x.ctrlq = (s.fport k).ctrlq ∧ x.outq = SMap.set [] (s.fport k).outq w fs :=
      ⟨_, rfl, rfl, rfl, rfl, rfl⟩
    rw [State.modFport, hx] at hsg
    obtain ⟨hd, hsend, hfld⟩ := State.sendSequenced_left (s := s.setFport k x) (SMap.rising_set h) k fkData w f.header f.payload 0
    rw [State.fport_setFport h, hcq, hoq] at hsend
    refine ⟨hd, _, _, _, by rw [hsg]; exact Sequenced.of_setFport h hseq hreplay hsend, fun c cs h3 hc => ?_, fun f' fs' _ hf' hlt => ?_⟩
    · exact absurd ⟨h3, by rw [hc]; exact List.cons_ne_nil _ _⟩ hctrl
    · obtain ⟨rfl, rfl⟩ := List.cons.inj (hf.symm.trans hf')
      refine ⟨?_, rfl, rfl, rfl⟩
      rw [hfld hlt (by decide) hw]
      rfl

/-! ### A decision point -/

theorem State.mem_askers {p : ArbPort} {req : List Nat} (h : ∀ r ∈ req, r < arbWidth p ∧ s.arbAsks p r = true) (r : Nat) :
    r ∈ s.askers p req ↔ r ∈ req ∧ s.arbMasked p r = false := by
  simp only [State.askers, mem_foldl_setIns, List.not_mem_nil, or_false, List.mem_filter, Bool.and_eq_true, decide_eq_true_eq, Bool.not_eq_true']
  exact ⟨fun hr => ⟨hr.1, hr.2.2⟩, fun hr => ⟨hr.1, h r hr.1, hr.2⟩⟩

theorem arbWidth_le (p : ArbPort) : arbWidth p ≤ 256 := by
  cases p <;> simp only [arbWidth] <;> omega

theorem State.askers_sorted (s : State) (p : ArbPort) (req : List Nat) : (s.askers p req).Pairwise (· < ·) :=
  foldl_setIns_pairwise List.Pairwise.nil

/-- A list in rising order whose members are all one. -/
theorem eq_singleton_of_sorted {l : List Nat} {k : Nat} (h : l.Pairwise (· < ·)) (hk : ∀ r, r ∈ l ↔ r = k) : l = [k] := by
  cases l with
  | nil => exact absurd ((hk k).mpr rfl) List.not_mem_nil
  | cons a l =>
    obtain rfl := (hk a).mp List.mem_cons_self
    cases l with
    | nil => rfl
    | cons b l =>
      obtain rfl := (hk b).mp (List.mem_cons_of_mem _ List.mem_cons_self)
      exact absurd ((List.pairwise_cons.mp h).1 b List.mem_cons_self) (Nat.lt_irrefl b)

/-- R320: what a decision point leaves: the arbiter as its decision does, and what its grant does. -/
theorem exec_arbiterGrant {p : ArbPort} {req : List Nat} (hruns : s.arbRuns p = true) (hok : arbOk p = true) (hr : SMap.rising s.arbiters = true)
    {g : Option Nat} {y : Arbiter}
    (hd : ((SMap.get {} s.arbiters (arbKey p)).clearMasked (s.arbMasked p)).decide (s.arbPrio p) (s.arbMasked p) (s.askers p req) = (g, y)) :
    ∃ t : State, exec (.arbiterGrant p req) s = .next t ∧ SMap.get ({} : Arbiter) t.arbiters (arbKey p) = y ∧
      t = State.grantedTo { s with arbiters := SMap.set {} s.arbiters (arbKey p) y } p
        (match g with | some w => (req.filter (· == w)).length | none => 0) g := by
  refine ⟨_, (if_pos hok).trans (congrArg _ (doArbiter_eq hruns req hd)), ?_, rfl⟩
  rw [State.grantedTo_arbiters]
  exact SMap.get_set_same hr

theorem State.tidy_arbitersTidy (h : s.tidy = true) : arbitersTidy s.arbiters = true := by simp [State.tidy] at h; simp [h]

/-- Settles O45: the decision is that of `Arbiter.decide` among the requesters that ask; what a grant does is a grant of its hub or its port. -/
theorem arbiterRounds : Obligations.ArbiterRounds := by
  unfold Obligations.ArbiterRounds
  intro s p req htidy hruns hok hne hasks x masked at0 cand turnOf now parked row granted
  have hreqs : SMap.rising x.reqs = true := SMap.get_all (P := fun a : Arbiter => SMap.rising a.reqs = true) rfl s.arbiters
    (fun e he => List.all_eq_true.mp (State.tidy_arbitersTidy htidy) e he) (arbKey p)
  have hclear : ∀ r, (x.clearMasked masked).req r = at0 r := fun r => Arbiter.clearMasked_req hreqs r
  have hcreqs : SMap.rising (x.clearMasked masked).reqs = true := SMap.rising_mapVals hreqs
  have hmem : ∀ r, r ∈ s.askers p req ↔ r ∈ req ∧ masked r = false := State.mem_askers hasks
  have hcand : ∀ r, r ∈ (x.clearMasked masked).cands masked (s.askers p req) ↔ cand r := fun r => by
    simp only [Arbiter.cands, List.mem_filter, hmem, hclear, Bool.and_eq_true, Bool.not_eq_true', beq_iff_eq]
    exact ⟨fun h => ⟨h.1.1, h.1.2, h.2.2⟩, fun h => ⟨⟨h.1, h.2.1⟩, h.2.1, h.2.2⟩⟩
  have hparks : (x.clearMasked masked).parks masked (s.askers p req) ↔ parked := by
    have howner : cand x.owner ↔ x.owner ∈ req ∧ masked x.owner = false ∧ (at0 x.owner).wait = 0 := Iff.rfl
    have hone : s.askers p req = [x.owner] ↔ ∀ r, (r ∈ req ∧ masked r = false) ↔ r = x.owner := by
      refine ⟨fun h r => ?_, fun h => eq_singleton_of_sorted (State.askers_sorted s p req) fun r => (hmem r).trans (h r)⟩
      rw [← hmem, h, List.mem_singleton]
    change s.askers p req = [x.owner] ∧ masked x.owner = false ∧ ((x.clearMasked masked).req x.owner).wait = 0 ↔ _
    rw [hone, hclear]
    refine ⟨fun ⟨h1, h2, h3⟩ => ⟨fun r hr hm => (h1 r).mp ⟨hr, hm⟩, ((h1 x.owner).mpr rfl).1, h2, h3⟩, fun ⟨h1, h2⟩ => ?_⟩
    obtain ⟨ho, hm, hw⟩ := howner.mp h2
    refine ⟨fun r => ⟨fun hr => h1 r hr.1 hr.2, fun hr => ?_⟩, hm, hw⟩
    rw [hr]
    exact ⟨ho, hm⟩
  have hgrant : ∀ w y, w ∈ req → granted w (State.grantedTo { s with arbiters := y } p (req.filter (· == w)).length (some w)) := by
    intro w y hw
    obtain ⟨hlt, hask⟩ := hasks w hw
    simp only [granted]
    clear granted row parked turnOf cand now hne hok hruns hcand hclear hcreqs hreqs hmem hparks at0 masked x
    cases p with
    | hubIngress h =>
      have hu : SMap.rising ({ s with arbiters := y } : State).hubs = true := State.tidy_hubs (s := s) htidy
      obtain ⟨hleft, hother, hhub⟩ := State.grantHub_left hu h w (min (burstMost (.hubIngress h)) (req.filter (· == w)).length)
      have hmin : min (min (burstMost (.hubIngress h)) (req.filter (· == w)).length) 8 = min (burstMost (.hubIngress h)) (req.filter (· == w)).length :=
        Nat.min_eq_left (Nat.le_trans (Nat.min_le_left _ _) (Nat.le_refl 8))
      rw [hmin] at hhub
      refine ⟨?_, hother, hhub⟩
      rfl
    | egress k =>
      have hu : SMap.rising ({ s with arbiters := y } : State).link.ports = true := State.tidy_ports (s := s) htidy
      obtain ⟨-, hq⟩ := Bool.and_eq_true_iff.mp hask
      have hask' : SMap.get [] (s.fport k).outq w ≠ [] ∨ (w = 3 ∧ (s.fport k).ctrlq ≠ []) := by
        simpa [List.isEmpty_iff] using hq
      obtain ⟨hd, pl, cq, oq, ⟨hleft, htx, hother, hsent, hreplay, hcq, hoq⟩, hctrl, hflit⟩ :=
        State.sendGranted_left (s := { s with arbiters := y }) hu k hlt hask'
      refine ⟨?_, htx, hother, hd, pl, hsent, hreplay, fun c cs h3 hc => ?_, fun f fs hno hf hl => ?_⟩
      · rw [State.grantedTo_arbiters]
        exact hleft
      · obtain ⟨h1, h2, h4, h5⟩ := hctrl c cs h3 hc
        exact ⟨h1, h2, hcq.trans h4, hoq.trans h5⟩
      · obtain ⟨h1, h2, h4, h5⟩ := hflit f fs hno hf hl
        exact ⟨h1, h2, hoq.trans h4, hcq.trans h5⟩
    | _ => rfl
  refine ⟨fun hp => ?_, fun hp hnone => ?_, fun w hp hw hprio hturn => ?_⟩
  · obtain ⟨t, hrow, hnow, ht⟩ := exec_arbiterGrant (req := req) hruns hok (State.tidy_arbiters htidy) (Arbiter.decide_parks (hparks.mpr hp))
    refine ⟨t, hrow, ?_, ?_, ?_, ?_, fun r => ?_⟩
    · rw [ht]
      exact hgrant _ _ hp.2.1
    · rw [show now t = _ from hnow]; rfl
    · rw [show now t = _ from hnow]; rfl
    · rw [show now t = _ from hnow]; rfl
    · have hreq := congrArg (fun y : Arbiter => SMap.get ({} : Requester) y.reqs r) hnow
      exact hreq.trans (hclear r)
  · have hnil : ∀ r, r ∉ (x.clearMasked masked).cands masked (s.askers p req) := fun r hr => hnone r ((hcand r).mp hr)
    obtain ⟨t, hrow, hnow, ht⟩ := exec_arbiterGrant (req := req) hruns hok (State.tidy_arbiters htidy) (Arbiter.decide_none (fun h => hp (hparks.mp h)) hnil)
    refine ⟨t, hrow, ?_, ?_, ?_, fun r => ?_⟩
    · rw [ht]
      rfl
    · rw [show now t = _ from hnow]; rfl
    · rw [show now t = _ from hnow]; rfl
    · have hreq := congrArg (fun y : Arbiter => SMap.get ({} : Requester) y.reqs r) hnow
      rw [← hclear]
      exact hreq.trans (Arbiter.waited_get hcreqs r)
  · obtain ⟨reqs, hd, hwin, hlose, hrest⟩ := Arbiter.decide_grants (prio := s.arbPrio p) hcreqs (State.askers_sorted s p req)
      (fun r hr => Nat.lt_of_lt_of_le (hasks r ((hmem r).mp hr).1).1 (arbWidth_le p)) (fun h => hp (hparks.mp h)) ((hcand w).mpr hw)
      (fun r hr => hprio r ((hcand r).mp hr)) (fun r hr heq => hturn r ((hcand r).mp hr) heq)
    obtain ⟨t, hrow, hnow, ht⟩ := exec_arbiterGrant (req := req) hruns hok (State.tidy_arbiters htidy) hd
    have hget : ∀ r, SMap.get ({} : Requester) (now t).reqs r = SMap.get {} reqs r := fun r =>
      congrArg (fun y : Arbiter => SMap.get ({} : Requester) y.reqs r) hnow
    refine ⟨t, hrow, ?_, ?_, ?_, ?_, ?_, fun r hne hr => ?_, fun r hr => ?_⟩
    · rw [ht]
      exact hgrant _ _ hw.1
    · rw [show now t = _ from hnow]
    · rw [show now t = _ from hnow]
    · rw [show now t = _ from hnow]
    · rw [hget, hwin]
    · rw [hget, hlose r hne ((hcand r).mpr hr), hclear]
      rfl
    · rw [hget, hrest r (fun h => hr ((hcand r).mp h)), hclear]

end Sys2Proof.Machine
end

section
/-! SUPPORT. The core store and the bobbins of a core, zeroed (R318, R474). -/

namespace Sys2Proof.Machine

variable {s : State}

/-- A walk that fills ranges of `n` bytes with zero. -/
theorem State.memByte_zeroFills (h : Memory.wf s.mem = true) (f : Nat → Nat) (n : Nat) (l : List Nat) (a : Nat) :
    ((∃ e ∈ l, f e ≤ a ∧ a < f e + n) ∨ s.memByte a = 0 → (l.foldl (fun s e => s.zeroFill (f e) n) s).memByte a = 0) ∧
      ((¬∃ e ∈ l, f e ≤ a ∧ a < f e + n) → (l.foldl (fun s e => s.zeroFill (f e) n) s).memByte a = s.memByte a) := by
  induction l generalizing s with
  | nil => exact ⟨fun h => h.resolve_left (fun ⟨_, he, _⟩ => absurd he List.not_mem_nil), fun _ => rfl⟩
  | cons e l ih =>
    obtain ⟨hin, hout⟩ := ih (State.zeroFill_wf (f e) n h)
    have hstep := State.memByte_zeroFill h (f e) n a
    refine ⟨fun hor => hin ?_, fun hno => ?_⟩
    · by_cases he : f e ≤ a ∧ a < f e + n
      · exact .inr (hstep.trans (if_pos he))
      · rcases hor with ⟨g, hg, hga⟩ | hz
        · rcases List.mem_cons.mp hg with rfl | hg
          · exact absurd hga he
          · exact .inl ⟨g, hg, hga⟩
        · exact .inr ((hstep.trans (if_neg he)).trans hz)
    · rw [List.foldl_cons, hout fun ⟨g, hg, hga⟩ => hno ⟨g, List.mem_cons_of_mem e hg, hga⟩, hstep,
        if_neg fun he => hno ⟨e, List.mem_cons_self, he⟩]

/-- The bytes of a core's store and of its engines' bobbins (R301). -/
def inSram (c a : Nat) : Prop := (0x0D0000000000 + 0x2000000 * c ≤ a ∧ a < 0x0D0000000000 + 0x2000000 * (c + 1)) ∨
  ∃ e, e < 4 ∧ 0x0D1000000000 + 0x400000 * (4 * c + e) ≤ a ∧ a < 0x0D1000000000 + 0x400000 * (4 * c + e) + 0x200000

theorem State.memByte_scrubCore (h : Memory.wf s.mem = true) (c a : Nat) :
    (inSram c a → (s.scrubCore c).memByte a = 0) ∧ (¬inSram c a → (s.scrubCore c).memByte a = s.memByte a) := by
  have hstore := State.memByte_zeroFill h (0x0D0000000000 + 0x2000000 * c) 0x2000000 a
  have hbase : 0x0D0000000000 + 0x2000000 * (c + 1) = 0x0D0000000000 + 0x2000000 * c + 0x2000000 := by omega
  obtain ⟨hin, hout⟩ := State.memByte_zeroFills (State.zeroFill_wf (0x0D0000000000 + 0x2000000 * c) 0x2000000 h)
    (fun e => 0x0D1000000000 + 0x400000 * (4 * c + e)) 0x200000 (upto 4) a
  have hmem : ∀ e, e ∈ upto 4 ↔ e < 4 := fun e => by rw [upto, List.mem_range]
  unfold State.scrubCore inSram
  rw [hbase]
  generalize 0x0D0000000000 + 0x2000000 * c = b at hstore hin hout
  refine ⟨fun hi => hin ?_, fun hi => (hout fun ⟨e, he, hr⟩ => hi (.inr ⟨e, (hmem e).mp he, hr⟩)).trans ?_⟩
  · rcases hi with hi | ⟨e, he, hr⟩
    · exact .inr (hstore.trans (if_pos hi))
    · exact .inl ⟨e, (hmem e).mpr he, hr⟩
  · rw [hstore, if_neg fun hc => hi (.inl hc)]

/-- Zeroing a core's SRAM changes memory alone. -/
theorem State.scrubCore_left (s : State) (c : Nat) :
    s.scrubCore c = { s with mem := (s.scrubCore c).mem, poison := (s.scrubCore c).poison, covered := (s.scrubCore c).covered } := by
  have hfold : ∀ (l : List Nat) (u : State), ∃ m p v, l.foldl (fun s e => s.zeroFill (0x0D1000000000 + 0x400000 * (4 * c + e)) 0x200000) u =
      { u with mem := m, poison := p, covered := v } := by
    intro l
    induction l with
    | nil => exact fun u => ⟨_, _, _, rfl⟩
    | cons e l ih =>
      intro u
      obtain ⟨m, p, v, heq⟩ := ih (u.zeroFill (0x0D1000000000 + 0x400000 * (4 * c + e)) 0x200000)
      exact ⟨m, p, v, by rw [List.foldl_cons, heq]; rfl⟩
  obtain ⟨m, p, v, heq⟩ := hfold (upto 4) (s.zeroFill (0x0D0000000000 + 0x2000000 * c) 0x2000000)
  rw [State.scrubCore, heq]
  rfl

end Sys2Proof.Machine
end

section
/-! CERTIFICATE. The upkeep of a hub, and the change of a core's SRAM domain (R303, R305, R310, R318, R474). -/

namespace Sys2Proof.Machine

variable {s : State} {h : Nat}

/-! ### Retunes (R305, R310) -/

theorem doRetune_restarting (hr : s.unitRestarts 2 30000000 h = true) (drift : List (Nat × Int × Bool)) : doRetune h drift s = s := by
  rw [doRetune, if_pos (by simp [State.hubWorks, State.hubRestarts, hr])]

/-- The state as the hub's oscillators are read. -/
def State.readsOscillators (s : State) (h : Nat) : State := { s with now := max s.now ((s.hub h).lastRetune + 256000000) }

/-- R305: a pass over one channel that has not moved, or is fenced, retunes none. -/
theorem doRetune_still (hw : s.hubWorks h = true) {d : Nat × Int × Bool} (hd : (s.readsOscillators h).drifted h [d] = []) :
    doRetune h [d] s = (s.readsOscillators h).modHub h (fun x => { x with lastRetune := (s.readsOscillators h).now }) := by
  rw [State.readsOscillators] at hd ⊢
  simp only [doRetune, hw, Bool.not_true, Bool.false_eq_true, if_false, hd]
  rfl

/-- R305: a pass over one channel that has moved retunes it; the results may join the training record. -/
theorem doRetune_moved (hw : s.hubWorks h = true) {k : Nat} {d : Int} {ok : Bool} (hd : (s.readsOscillators h).drifted h [(k, d, ok)] = [(k, d, ok)]) :
    ∃ due : Bool, doRetune h [(k, d, ok)] s = (fun t : State => if due then t.queueTraining h else t)
      (((s.readsOscillators h).retune h k 0 d ok).modHub h (fun x => { x with
        lastRetune := ((s.readsOscillators h).retune h k 0 d ok).now,
        lastTrainingWrite := if due then ((s.readsOscillators h).retune h k 0 d ok).now else x.lastTrainingWrite })) := by
  rw [State.readsOscillators] at hd ⊢
  simp only [doRetune, hw, Bool.not_true, Bool.false_eq_true, if_false, hd]
  exact ⟨_, rfl⟩

theorem filter_single {α : Type} (p : α → Bool) (x : α) : [x].filter p = bif p x then [x] else [] := by
  rw [List.filter_cons, List.filter_nil]
  cases p x
  · rfl
  · rfl

theorem State.drifted_one (s : State) (h k : Nat) (d : Int) (ok : Bool) (hk : k < 48) :
    s.drifted h [(k, d, ok)] = if (s.channel (48 * h + k)).fenced = false ∧ 30 < (d - (s.channel (48 * h + k)).delay).natAbs then [(k, d, ok)] else [] := by
  have hiff : (decide (k < 48) && !(s.channel (48 * h + k)).fenced && decide (30 < (d - (s.channel (48 * h + k)).delay).natAbs)) = true ↔
      (s.channel (48 * h + k)).fenced = false ∧ 30 < (d - (s.channel (48 * h + k)).delay).natAbs := by
    simp only [hk, decide_true, Bool.true_and, Bool.and_eq_true, Bool.not_eq_true', decide_eq_true_eq]
  rw [State.drifted, filter_single]
  by_cases hc : (s.channel (48 * h + k)).fenced = false ∧ 30 < (d - (s.channel (48 * h + k)).delay).natAbs
  · rw [if_pos hc]
    simp only [hiff.mpr hc]
    rfl
  · rw [if_neg hc]
    simp only [Bool.eq_false_iff.mpr (mt hiff.mp hc)]
    rfl

/-- R305, R310: the retune of the first pair of a pass. -/
theorem State.retune_first (s : State) (h k : Nat) (d : Int) (ok : Bool) :
    let c := s.channel (48 * h + k)
    let u := s.setChannel (48 * h + k) { c with
      delay := if ok then d else c.delay, heldFrom := s.now, heldUntil := s.now + 1500, failedRetunes := if ok then 0 else c.failedRetunes + 1 }
    s.retune h k 0 d ok = if !ok && decide (2 ≤ c.failedRetunes + 1) then u.raiseError 0x0205 degrading .channel (48 * h + k) none 0 else u := rfl

theorem State.channels_of_errorless {t : State} (he : s.errorless = t.errorless) : s.channels = t.channels := by
  have hc := congrArg State.channels he
  exact hc

theorem State.queueTraining_left (s : State) (h : Nat) : s.queueTraining h = { s with sec := (s.queueTraining h).sec } := by
  rw [State.queueTraining]
  split <;> rfl

theorem State.mayQueueTraining (s : State) (h : Nat) (due : Bool) : ∃ x, (if due then s.queueTraining h else s) = { s with sec := x } := by
  cases due with
  | false => exact ⟨s.sec, rfl⟩
  | true => exact ⟨_, State.queueTraining_left s h⟩

/-- Settles O47: a pass over one channel retunes it or not; the other steps write their one unit, and the change of a domain zeroes the
core's SRAM. -/
theorem hubUpkeepAndSramDomains : Obligations.HubUpkeepAndSramDomains := by
  unfold Obligations.HubUpkeepAndSramDomains
  refine ⟨?hub, ?sram⟩
  case hub =>
    intro s h htidy hh hlost
    have hrow : ∀ drift, exec (.dqRetune h drift) s = .next (doRetune h drift s) := fun drift => if_pos hh
    have hch := State.tidy_channels htidy
    have hhr := State.tidy_hubs htidy
    refine ⟨fun hr drift => ⟨s, by rw [hrow, doRetune_restarting hr], rfl⟩, ?retune, fun hready => ⟨fun rate => ?_, fun k hk => ?_⟩⟩
    case retune =>
      intro hw k d hk ch now c moved
      have hone := fun ok => State.drifted_one (s.readsOscillators h) h k d ok hk
      refine ⟨fun hm ok => ?_, fun hm hf => ?_, fun hm hf h1 => ?_⟩
      · refine ⟨_, by rw [hrow, doRetune_still hw ((hone ok).trans (if_neg fun hc => hm hc.2))], rfl, ?_⟩
        exact State.hub_modHub (s := s.readsOscillators h) hhr
      · obtain ⟨due, hdue⟩ := doRetune_moved hw ((hone true).trans (if_pos ⟨hf, hm⟩))
        obtain ⟨x, hx⟩ := State.mayQueueTraining (((s.readsOscillators h).retune h k 0 d true).modHub h (fun x => { x with
          lastRetune := ((s.readsOscillators h).retune h k 0 d true).now,
          lastTrainingWrite := if due then ((s.readsOscillators h).retune h k 0 d true).now else x.lastTrainingWrite })) h due
        refine ⟨_, by rw [hrow, hdue], ?_⟩
        dsimp only
        rw [hx]
        refine ⟨State.channel_setChannel (s := s.readsOscillators h) hch, fun j hj => State.channel_setChannel_ne (s := s.readsOscillators h) hch hj, ?_, rfl⟩
        have hhub := congrArg Hub.lastRetune (State.hub_modHub (s := (s.readsOscillators h).retune h k 0 d true) (i := h) (f := fun x => { x with
          lastRetune := ((s.readsOscillators h).retune h k 0 d true).now,
          lastTrainingWrite := if due then ((s.readsOscillators h).retune h k 0 d true).now else x.lastTrainingWrite }) hhr)
        exact hhub
      · obtain ⟨due, hdue⟩ := doRetune_moved hw ((hone false).trans (if_pos ⟨hf, hm⟩))
        obtain ⟨x, hx⟩ := State.mayQueueTraining (((s.readsOscillators h).retune h k 0 d false).modHub h (fun x => { x with
          lastRetune := ((s.readsOscillators h).retune h k 0 d false).now,
          lastTrainingWrite := if due then ((s.readsOscillators h).retune h k 0 d false).now else x.lastTrainingWrite })) h due
        refine ⟨_, by rw [hrow, hdue], ?_⟩
        dsimp only
        rw [hx]
        have hretune := State.retune_first (s.readsOscillators h) h k d false
        have h2 : (2 ≤ ((s.readsOscillators h).channel (48 * h + k)).failedRetunes + 1) := Nat.succ_le_succ h1
        simp only [Bool.not_false, Bool.true_and, decide_eq_true h2, if_true] at hretune
        generalize hu : (s.readsOscillators h).setChannel (48 * h + k) _ = u at hretune
        have huch : u.channel (48 * h + k) = { c with heldFrom := now, heldUntil := now + 1500, failedRetunes := c.failedRetunes + 1 } := by
          rw [← hu]; exact State.channel_setChannel (s := s.readsOscillators h) hch
        have huerr : u.errq.raised = s.errq.raised := by rw [← hu]; rfl
        rw [hretune]
        have hchan := State.channels_of_errorless (State.errorless_raiseError u 0x0205 degrading .channel (48 * h + k) none 0)
        have hraised := State.raiseError_raised u 0x0205 degrading .channel (48 * h + k) none 0
        generalize u.raiseError _ _ _ _ _ _ = w at hchan hraised
        refine ⟨?_, ?_⟩
        · rw [← huch, State.channel, State.channel, ← hchan]
          rfl
        · rw [← huerr]
          exact hraised
    · refine ⟨_, if_pos hh, ?_⟩
      rw [doMr4, if_pos (by rw [hready, hlost]; rfl)]
      exact ⟨rfl, rfl, State.hub_modHub hhr⟩
    · refine ⟨_, if_pos ⟨hh, hk⟩, ?_⟩
      dsimp only [doZq]
      rw [if_pos (by rw [hready, hlost]; rfl)]
      exact ⟨rfl, rfl, State.channel_modChannel hch⟩
  case sram =>
    intro s c htidy hc halive k inside
    have hcr := State.tidy_cores htidy
    refine ⟨fun d hd hquiet => ?_, fun hquiet => ?_, fun hbusy => ?_, fun hbusy hf => ?_⟩
    · obtain ⟨u, hu⟩ : ∃ u, s.modCore c (fun x => { x with sramDomain := d, sramPending := none, scrubBusy := true, blocksScrub := 512 - x.blocksOut }) = u :=
        ⟨_, rfl⟩
      have hrow : exec (.sramDomainChange c) s = .next (u.scrubCore c) := by
        refine (if_pos hc).trans (congrArg _ ?_)
        rw [doSramChange, hd]
        dsimp only
        rw [if_pos (by rw [halive, hquiet]; rfl), hu]
      have hmem : u.mem = s.mem := by rw [← hu]; rfl
      have hbytes := fun a => State.memByte_scrubCore (s := u) (by rw [hmem]; exact State.tidy_mem htidy) c a
      have hcores : (u.scrubCore c).cores = u.cores := by rw [State.scrubCore_left]
      refine ⟨_, hrow, ?_, ?_, fun j hj => ?_, fun a ha => (hbytes a).1 ha, fun a ha => ?_⟩
      · rw [State.scrubCore_left, ← hu]
        rfl
      · rw [State.core, hcores, ← hu]
        exact State.core_modCore hcr
      · rw [State.core, hcores, ← hu]
        exact State.core_modCore_ne hcr hj
      · rw [(hbytes a).2 ha, State.memByte_of_mem hmem]
    · refine ⟨s, (if_pos hc).trans (congrArg _ ?_), rfl⟩
      rw [doSramChange]
      split
      · rw [if_neg (by rw [hquiet, Bool.and_false]; exact Bool.false_ne_true)]
      · rfl
    · refine ⟨_, (if_pos hc).trans (congrArg _ (if_pos ?_)), rfl, State.core_modCore hcr⟩
      rw [halive, hbusy]
      rfl
    · refine ⟨_, (if_pos hc).trans (congrArg _ ((if_neg ?_).trans (if_pos ?_))), rfl, State.core_modCore hcr⟩
      · rw [hbusy, Bool.and_false]
        exact Bool.false_ne_true
      · rw [halive, hf]
        rfl

end Sys2Proof.Machine
end

section
/-! CERTIFICATE. Block streams of the die network and the UCIe modules (O48). -/

namespace Sys2Proof.Machine

variable {s t : State} {b : BlockStream}

/-- The stream the other way is another stream. -/
theorem blockStreamKey_reverseOf (h : streamExists b = true) : blockStreamKey (reverseOf b) ≠ blockStreamKey b := by
  cases b with
  | die a c =>
    simp only [streamExists, Bool.and_eq_true, decide_eq_true_eq, bne_iff_ne] at h
    obtain ⟨⟨ha, hc⟩, hne⟩ := h
    simp only [reverseOf, blockStreamKey]
    omega
  | ucie i m up =>
    simp only [reverseOf, blockStreamKey]
    cases up <;> simp [b2n]

theorem State.blockLink_setBlockLink (h : SMap.rising s.blockLinks = true) (b : BlockStream) (x : BlockLink) : (s.setBlockLink b x).blockLink b = x :=
  SMap.get_set_same h

theorem State.blockLink_setBlockLink_ne (h : SMap.rising s.blockLinks = true) {b c : BlockStream} (hne : blockStreamKey c ≠ blockStreamKey b) (x : BlockLink) :
    (s.setBlockLink b x).blockLink c = s.blockLink c := SMap.get_set_other h hne

theorem State.blockLinks_of_errorless (h : s.errorless = t.errorless) : s.blockLinks = t.blockLinks := by
  have hh := congrArg State.blockLinks h
  exact hh

/-- What a failed block changes besides its report: its hub's count of resends. -/
theorem State.blockFailed_left (b : BlockStream) (n : Nat) :
    (s.blockFailed b n).errorless = State.errorless { s with hubs := (s.blockFailed b n).hubs } := by
  have hplain : ∀ t : State, t.errorless = s.errorless → t.errorless = State.errorless { s with hubs := t.hubs } := fun t ht => by
    rw [State.hubs_of_errorless ht]
    exact ht
  cases b with
  | die a c =>
    rw [State.blockFailed]
    split <;> exact hplain _ (State.errorless_raiseError ..)
  | ucie h m up =>
    rw [State.blockFailed]
    split
    · have herr := State.errorless_raiseError (s.modHub h fun x => { x with resends := sat 16 (x.resends + 1) }) 0x0206 corrected .ucie (6 * h + m) none n
      rw [herr, State.hubs_of_errorless herr]
      rfl
    · rfl

/-- Within the limit of its stream, a failed block is reported once. -/
theorem State.blockFailed_raised (b : BlockStream) {n : Nat} (hn : n ≤ 4) : (s.blockFailed b n).errq.raised = s.errq.raised + 1 := by
  cases b with
  | die a c =>
    rw [State.blockFailed]
    exact (congrArg (fun u : State => u.errq.raised) (if_pos (Nat.le_trans hn (by decide)))).trans (State.raiseError_raised ..)
  | ucie h m up =>
    rw [State.blockFailed, if_pos hn]
    exact State.raiseError_raised ..

/-- Settles O48. -/
theorem blockStreams : Obligations.BlockStreams := by
  unfold Obligations.BlockStreams
  intro s htidy halive
  have hlinks := State.tidy_blockLinks htidy
  have hlive : ¬(!s.alive) = true := by rw [halive]; exact Bool.false_ne_true
  refine ⟨fun b blk hb => ?receive, fun b hb howed => ?ack, fun h m ok hh hm hucie hmany => ?retrain⟩
  case receive =>
    intro x
    have hrow : exec (.blockReceive b blk) s = .next (doBlock b blk s) := if_pos hb
    refine ⟨fun hpass hroom hack => ?_, fun ok k hpass hroom hack => ?_, fun hpass hroom => ?_, fun hfail hnack hfly => ?_, fun hfail hor => ?_⟩
    · have hdo : doBlock b blk s = s.setBlockLink b { x with
          expected := (x.expected + 1) % 65536, nextSeq := (x.expected + 1) % 65536, replay := x.replay ++ [(x.expected, blk)],
          resends := 0, ackOwed := true, nackSent := false, ahead := 0 } := by
        dsimp only [doBlock]
        rw [if_neg hlive, if_pos hpass, if_neg (by rw [hroom]; exact Bool.false_ne_true), hack]
      rw [hdo] at hrow
      exact ⟨_, hrow, rfl, State.blockLink_setBlockLink hlinks b _, fun k hk => SMap.get_set_other hlinks hk⟩
    · intro y left
      have hne := blockStreamKey_reverseOf hb
      obtain ⟨u, hu⟩ : ∃ u, s.setBlockLink b { x with
          expected := (x.expected + 1) % 65536, nextSeq := (x.expected + 1) % 65536, replay := x.replay ++ [(x.expected, blk)],
          resends := 0, ackOwed := true, nackSent := false, ahead := 0 } = u := ⟨_, rfl⟩
      have hulinks : SMap.rising u.blockLinks = true := hu ▸ SMap.rising_set hlinks
      have hur : u.blockLink (reverseOf b) = y := hu ▸ State.blockLink_setBlockLink_ne hlinks hne _
      have hdo : doBlock b blk s = u.setBlockLink (reverseOf b) (y.acked ok k) := by
        dsimp only [doBlock]
        rw [if_neg hlive, if_pos hpass, if_neg (by rw [hroom]; exact Bool.false_ne_true), hack]
        dsimp only
        rw [hu, hur]
      rw [hdo] at hrow
      refine ⟨_, hrow, ?_, State.blockLink_setBlockLink hulinks _ _, ?_⟩
      · rw [← hu]
        rfl
      · rw [State.blockLink_setBlockLink_ne hulinks (Ne.symm hne), ← hu, State.blockLink_setBlockLink hlinks]
    · refine ⟨s, hrow.trans (congrArg _ ?_), rfl⟩
      dsimp only [doBlock]
      rw [if_neg hlive, if_pos hpass, if_pos (by rw [hroom]; rfl)]
    · refine ⟨_, hrow.trans (congrArg _ ?_), rfl⟩
      dsimp only [doBlock]
      rw [if_neg hlive, if_neg (by rw [hfail]; exact Bool.false_ne_true), if_pos (by rw [Bool.and_eq_true]; exact ⟨hnack, hfly⟩)]
    · obtain ⟨u, hu⟩ : ∃ u, s.setBlockLink b { x with resends := x.resends + 1, nackSent := true, ahead := (laterBy blk x.expected).getD 0 } = u := ⟨_, rfl⟩
      have hdo : doBlock b blk s = u.blockFailed b (x.resends + 1) := by
        dsimp only [doBlock]
        rw [if_neg hlive, if_neg (by rw [hfail]; exact Bool.false_ne_true),
          if_neg (by rw [Bool.and_eq_true]; rintro ⟨h1, h2⟩; rcases hor with h | h <;> simp_all [x]), hu]
      rw [hdo] at hrow
      have hleft := State.blockFailed_left (s := u) b (x.resends + 1)
      have hbl : (u.blockFailed b (x.resends + 1)).blockLinks = u.blockLinks :=
        State.blockLinks_of_errorless (t := { u with hubs := (u.blockFailed b (x.resends + 1)).hubs }) hleft
      refine ⟨_, hrow, ?_, ?_, fun hlt => ?_⟩
      · rw [State.blockLink, hbl, ← hu]
        exact State.blockLink_setBlockLink hlinks b _
      · rw [hleft, hbl, ← hu]
        rfl
      · rw [State.blockFailed_raised b hlt, ← hu]
        rfl
  case ack =>
    refine ⟨_, (if_pos hb).trans (congrArg _ (if_pos ?_)), rfl, State.blockLink_setBlockLink hlinks b _⟩
    rw [halive, howed]
    rfl
  case retrain =>
    have hne : blockStreamKey (.ucie h m true) ≠ blockStreamKey (.ucie h m false) := blockStreamKey_reverseOf (b := .ucie h m false) (by
      rw [streamExists, Bool.and_eq_true, decide_eq_true_eq, decide_eq_true_eq]; exact ⟨hh, hm⟩)
    have hneeds : (s.alive && s.needsRetrain h m && bit (s.hub h).ucieLive m) = true := by
      rw [halive, hucie, State.needsRetrain, Bool.true_and, Bool.and_true, Bool.or_eq_true, decide_eq_true_eq, decide_eq_true_eq]
      exact hmany
    obtain ⟨u, hu⟩ : ∃ u, s.setBlockLink (.ucie h m true) { s.blockLink (.ucie h m true) with resends := 0 } = u := ⟨_, rfl⟩
    have hul : SMap.rising u.blockLinks = true := hu ▸ SMap.rising_set hlinks
    obtain ⟨v, hv⟩ : ∃ v, u.setBlockLink (.ucie h m false) { u.blockLink (.ucie h m false) with resends := 0 } = v := ⟨_, rfl⟩
    obtain ⟨w, hw⟩ : ∃ w, v.modHub h (fun x => { x with retrains := sat 8 (x.retrains + 1) }) = w := ⟨_, rfl⟩
    have hup : (w.blockLink (.ucie h m true)).resends = 0 := by
      rw [← hw]
      change (v.blockLink _).resends = 0
      rw [← hv, State.blockLink_setBlockLink_ne hul hne, ← hu, State.blockLink_setBlockLink hlinks]
    have hdown : (w.blockLink (.ucie h m false)).resends = 0 := by
      rw [← hw]
      change (v.blockLink _).resends = 0
      rw [← hv, State.blockLink_setBlockLink hul]
    have hvh : v.hubs = s.hubs := by rw [← hv, ← hu]; rfl
    have hhub : (w.hub h).retrains = min ((s.hub h).retrains + 1) 255 := by
      rw [← hw, State.hub_modHub (by rw [hvh]; exact State.tidy_hubs htidy), State.hub, hvh]
      rfl
    have hwleft : { s with blockLinks := w.blockLinks, hubs := w.hubs } = w := by rw [← hw, ← hv, ← hu]; rfl
    have hwraised : w.errq.raised = s.errq.raised := by rw [← hw, ← hv, ← hu]; rfl
    have hreport : ∀ t : State, t.errorless = w.errorless → t.errq.raised = w.errq.raised + 1 →
        (t.blockLink (.ucie h m true)).resends = 0 ∧ (t.blockLink (.ucie h m false)).resends = 0 ∧
        (t.hub h).retrains = min ((s.hub h).retrains + 1) 255 ∧ t.errq.raised = s.errq.raised + 1 ∧
        t.errorless = State.errorless { s with blockLinks := t.blockLinks, hubs := t.hubs } := fun t ht hr => by
      have hbl := State.blockLinks_of_errorless ht
      have hhubs := State.hubs_of_errorless ht
      refine ⟨?_, ?_, ?_, by rw [hr, hwraised], by rw [hbl, hhubs, hwleft, ht]⟩
      · rw [State.blockLink, hbl]; exact hup
      · rw [State.blockLink, hbl]; exact hdown
      · rw [State.hub, hhubs]; exact hhub
    refine ⟨_, (if_pos ⟨hh, hm⟩).trans (congrArg _ (if_pos hneeds)), ?_⟩
    dsimp only
    rw [hu, hv, hw]
    split
    · exact hreport _ (State.errorless_raiseError ..) (State.raiseError_raised ..)
    · exact hreport _ (State.errorless_raiseError ..) (State.raiseError_raised ..)

end Sys2Proof.Machine
end
section
/-! SUPPORT. What stays of every fabric port where a module is lost: all of it but the flits that wait to leave (R370, R393). -/

namespace Sys2Proof.Machine

variable {s t u : State}

/-- A fabric port without the flits that wait to leave. -/
def FabPort.still (x : FabPort) : FabPort := { x with outq := [] }

/-- The link block without its ports, streams and collectives, and what it has sent: its audits, its time, the messages held. -/
def Link.quiet (l : Link) : Link :=
  { l with ports := [], lost := [], streams := [], comms := [], colls := [], conflicts := 0, rr := 0, sentFlits := [], sentMsgs := [] }

/-- From `s` to `t` every fabric port keeps all but the flits that wait to leave, the rest of the link block stands, and no lost module is forgotten. -/
structure PortsStand (s t : State) : Prop where
  quiet : t.link.quiet = s.link.quiet
  lost : ∀ id, id ∈ s.link.lost → id ∈ t.link.lost
  rising : SMap.rising s.link.ports = true → SMap.rising t.link.ports = true
  ports : SMap.rising s.link.ports = true → ∀ k, (t.fport k).still = (s.fport k).still

namespace PortsStand

theorem of_ports (h : t.link.ports = s.link.ports) (hq : t.link.quiet = s.link.quiet) (hl : t.link.lost = s.link.lost) : PortsStand s t :=
  ⟨hq, fun _ hid => hl ▸ hid, fun hr => h ▸ hr, fun _ k => by rw [State.fport, h]; rfl⟩

theorem refl (s : State) : PortsStand s s := of_ports rfl rfl rfl

theorem trans (h : PortsStand s t) (h' : PortsStand t u) : PortsStand s u :=
  ⟨h'.quiet.trans h.quiet, fun id hid => h'.lost id (h.lost id hid), fun hr => h'.rising (h.rising hr), fun hr k => (h'.ports (h.rising hr) k).trans (h.ports hr k)⟩

theorem foldl {α : Type} {f : State → α → State} (hf : ∀ s a, PortsStand s (f s a)) (l : List α) (s : State) : PortsStand s (l.foldl f s) :=
  foldl_keeps (P := PortsStand s) (fun t a h => h.trans (hf t a)) l (refl s)

theorem of_eventless (h : t.eventless = s.eventless) : PortsStand s t := of_ports (by
  have hl := congrArg (fun x : State => x.link.ports) h
  exact hl) (by
  have hl := congrArg (fun x : State => x.link.quiet) h
  exact hl) (by
  have hl := congrArg (fun x : State => x.link.lost) h
  exact hl)

theorem of_errorless (h : t.errorless = s.errorless) : PortsStand s t := of_ports (by
  have hl := congrArg (fun x : State => x.link.ports) h
  exact hl) (by
  have hl := congrArg (fun x : State => x.link.quiet) h
  exact hl) (by
  have hl := congrArg (fun x : State => x.link.lost) h
  exact hl)

theorem complete (s : State) (qi c st : Nat) : PortsStand s (s.complete qi c st) := of_ports rfl rfl rfl
theorem modWide (s : State) (qi c : Nat) (f : Wide → Wide) : PortsStand s (s.modWide qi c f) := of_ports rfl rfl rfl
theorem setTack (s : State) (n : Nat) (x : Tack) : PortsStand s (s.setTack n x) := of_ports rfl rfl rfl
theorem setStream (s : State) (d n : Nat) (x : Stream) : PortsStand s (s.setStream d n x) := of_ports rfl rfl rfl

theorem enterSourceLost (s : State) (n : Nat) : PortsStand s (s.enterSourceLost n) :=
  (setTack s n _).trans (foldl (fun t _ => complete t _ _ _) _ _)

theorem loseSources (s : State) (id : Nat) : PortsStand s (s.loseSources id) := by
  simp only [State.loseSources]
  exact foldl (fun t _ => enterSourceLost t _) _ _

/-! ### Messages -/

theorem queueFlits (s : State) (p : Nat) (m : Msg) : PortsStand s (s.queueFlits p m) := by
  refine ⟨rfl, fun _ => id, fun hr => SMap.rising_set hr, fun hr k => ?_⟩
  by_cases hk : k = p
  · subst hk
    exact (congrArg FabPort.still (State.fport_modFport hr)).trans rfl
  · exact congrArg FabPort.still (State.fport_modFport_ne hr hk)

theorem dispatchMsg (s : State) (p : Nat) (m : Msg) : PortsStand s (s.dispatchMsg p m) :=
  (show PortsStand s { s with link := { s.link with rr := (p + 1) % 48, sentMsgs := s.link.sentMsgs ++ [(p, m)] } } from of_ports rfl rfl rfl).trans
    (queueFlits _ p m)

theorem leave (s : State) (dst n : Nat) (m : Msg) : PortsStand s (s.leave dst n m) := by
  have hcount : ∀ (t : State) (m : Msg), PortsStand t (t.countSent m) := fun t m => by
    rw [State.countSent]
    split <;> exact of_ports rfl rfl rfl
  simp only [State.leave]
  split
  · exact (setStream s dst n _).trans ((hcount _ _).trans (dispatchMsg _ _ _))
  · exact setStream s dst n _

theorem sendStream (s : State) (dst n : Nat) (m : Msg) : PortsStand s (s.sendStream dst n m) := by
  simp only [State.sendStream]
  split
  · exact refl s
  · split
    · exact leave s dst n m
    · exact of_ports rfl rfl rfl

theorem sendColl (s : State) (comm k sig rank mkind x l i part : Nat) (data : List Byte) :
    PortsStand s (s.sendColl comm k sig rank mkind x l i part data) := (sendStream s _ _ _).trans (of_ports rfl rfl rfl)

theorem sendAborts (s : State) (comm k status : Nat) : PortsStand s (s.sendAborts comm k status) := foldl (fun t _ => sendColl t ..) _ _

/-! ### The end of a norm command, and of collectives -/

theorem countBytes (s : State) (d : Option Nat) (rd : Bool) (a n : Nat) : PortsStand s (s.countBytes d rd a n) := by
  rw [State.countBytes_eq]
  exact of_ports rfl rfl rfl

theorem putBytes (s : State) (a : Nat) (bs : List Byte) : PortsStand s (s.putBytes a bs) := by
  induction bs generalizing s a with
  | nil => exact refl s
  | cons b bs ih =>
    refine trans ?_ (ih _ _)
    split <;> exact of_ports rfl rfl rfl

theorem writeBytes (s : State) (a : Nat) (bs : List Byte) : PortsStand s (s.writeBytes a bs) := (putBytes s a bs).trans (of_ports rfl rfl rfl)

theorem normGroup (s : State) (c : Coll) (status : Nat) (acc : List Byte) (g : Nat) : PortsStand s (s.normGroup c status acc g).1 := by
  have hdone : ∀ (t : State) a bs d b n, PortsStand t (((t.writeBytes a bs).countBytes d b a n).clearSlots g) := fun t a bs d b n =>
    ((writeBytes t a bs).trans (countBytes _ d b a n)).trans (of_ports rfl rfl rfl)
  simp only [State.normGroup]
  split
  · exact hdone ..
  · have hfree : PortsStand s s.freeNorm.2 := of_ports rfl rfl rfl
    exact hfree.trans (hdone ..)

theorem normGroups (s : State) (c : Coll) (status : Nat) (gs : List Nat) (acc : List Byte) : PortsStand s (s.normGroups c status gs acc).1 := by
  induction gs generalizing s acc with
  | nil => exact refl s
  | cons g gs ih => exact (normGroup s c status acc g).trans (ih _ _)

theorem normEvent (s : State) (step g : Nat) (r : NormRec) : PortsStand s (s.normEvent step g r) := by
  rw [State.normEvent]
  split
  · exact refl s
  · exact of_eventless (State.eventless_raiseEvent ..)

theorem endNorm (s : State) (c : Coll) (status : Nat) : PortsStand s (s.endNorm c status) := by
  have hgroups := normGroups s c status (maskGroups c.groups) []
  simp only [State.endNorm]
  generalize s.normGroups c status (maskGroups c.groups) [] = x at hgroups
  obtain ⟨t, recs, st⟩ := x
  have hevents : ∀ (b : Prop) [Decidable b], PortsStand t (if b then c.norms.foldl (fun s x => s.normEvent c.step x.1 x.2) t else t) := by
    intro b _
    split
    · exact foldl (fun t _ => normEvent t _ _ _) _ _
    · exact refl t
  exact hgroups.trans ((hevents _).trans ((modWide _ _ _ _).trans (complete _ _ _ _)))

theorem reductionEnds (s : State) (c : Coll) (status : Nat) : PortsStand s (s.reductionEnds c status) := by
  simp only [State.reductionEnds]
  split
  · split <;> exact of_ports rfl rfl rfl
  · exact refl s

theorem finish (s : State) (qi c : Nat) : PortsStand s (s.finish qi c) := by
  simp only [State.finish]
  split
  · exact complete s _ _ _
  · exact refl s

theorem leaveColl (s : State) (c : Coll) (status : Nat) : PortsStand s (s.leaveColl c status) := by
  have hfill : ∀ (t : State) key, PortsStand t (t.fillFromColl c key) := fun t key => of_ports rfl rfl rfl
  have hdone : ∀ u : State, PortsStand u (if status = stOk then u.finish c.queue c.cseq else u.complete c.queue c.cseq status) := fun u => by
    split
    · exact finish u _ _
    · exact complete u _ _ _
  simp only [State.leaveColl]
  generalize ht : ({ s with link := _ } : State) = t
  refine trans (t := t) (by rw [← ht]; exact of_ports rfl rfl rfl) ?_
  split
  · exact reductionEnds t c status
  · exact endNorm t c status
  · refine trans ?_ (hdone _)
    split
    · exact hfill t _
    · exact refl t

theorem settleCommN (s : State) (comm j : Nat) : PortsStand s (s.settleCommN comm j) := by
  induction j generalizing s with
  | zero => exact refl s
  | succ j ih =>
    simp only [State.settleCommN]
    split
    · split
      · exact (leaveColl s _ _).trans (ih _)
      · exact refl s
    · exact refl s

theorem endColl (s : State) (c : Coll) (status : Nat) : PortsStand s (s.endColl c status) :=
  (show PortsStand s (s.setColl { c with endedAs := some (c.endedAs.getD status), nodes := [], results := [] }) from of_ports rfl rfl rfl).trans
    (settleCommN _ _ _)

theorem endColls (s : State) (p : Coll → Bool) (status : Nat) : PortsStand s (s.endColls p status) := by
  simp only [State.endColls]
  refine foldl (fun t c => ?_) _ _
  exact (sendAborts t c.comm c.k status).trans (endColl _ c status)

/-! ### A lost module -/

/-- What a module that is newly lost changes: it is one of the lost, and its commands and collectives end. -/
theorem ofLoss (s t : State) (id : Nat) (cs : List Nat) (h : PortsStand s t) :
    PortsStand s (cs.foldl (fun s c => if (s.comm c).lost.isNone then s.setComm c { s.comm c with lost := some id } else s)
      ((t.loseSources id).endColls (fun c => cs.contains c.comm) stPeerLost)) := by
  refine h.trans (((loseSources t id).trans (endColls _ _ _)).trans (foldl (fun t c => ?_) _ _))
  split <;> exact of_ports rfl rfl rfl

theorem declareLost (s : State) (id : Nat) : PortsStand s (s.declareLost id) := by
  simp only [State.declareLost]
  split
  · exact refl s
  · exact ofLoss s _ id _ ⟨rfl, fun _ hid => mem_setIns.mpr (.inr hid), fun hr => hr, fun _ _ => rfl⟩

theorem meshLoss (s : State) (id : Nat) : PortsStand s (s.meshLoss id) := by
  rw [State.meshLoss]
  split
  · exact refl s
  · exact declareLost s id

end PortsStand

variable {p : Nat} {x : FabPort}

/-- A port that is written, with a module lost or not, has what was written but for the flits that wait to leave; each other port stands so. -/
theorem PortsStand.of_setFport (h : SMap.rising s.link.ports = true) (hu : PortsStand (s.setFport p x) u) :
    (u.fport p).still = x.still ∧ ∀ k, k ≠ p → (u.fport k).still = (s.fport k).still := by
  have hports := hu.ports (SMap.rising_set h)
  refine ⟨(hports p).trans ?_, fun k hk => (hports k).trans ?_⟩
  · rw [State.fport_setFport h]
  · rw [State.fport_setFport_ne h hk]

theorem PortsStand.portLoss (s : State) (b : Bool) (id : Nat) : PortsStand s (if b then s.meshLoss id else s) := by
  split
  · exact meshLoss s id
  · exact refl s

/-- A port that goes DOWN. -/
theorem State.fport_portDown (h : SMap.rising s.link.ports = true) (p cause : Nat) :
    ((s.portDown p cause).fport p).still = (s.fport p).dropped .down cause s.now ∧
      ∀ k, k ≠ p → ((s.portDown p cause).fport k).still = (s.fport k).still :=
  PortsStand.of_setFport h (PortsStand.portLoss _ _ _)

/-- A port that is fenced. -/
theorem State.fport_fencePort (h : SMap.rising s.link.ports = true) (p : Nat) :
    ((s.fencePort p).fport p).still = (s.fport p).dropped .fenced (s.fport p).cause s.now ∧
      ∀ k, k ≠ p → ((s.fencePort p).fport k).still = (s.fport k).still :=
  PortsStand.of_setFport h (PortsStand.portLoss _ _ _)

end Sys2Proof.Machine
end

section
/-! CERTIFICATE. The life of a fabric port (O49): training, INIT, retraining, and the loss of its signal. -/

namespace Sys2Proof.Machine

variable {s t : State} {p cause : Nat}

/-- The retrains of a port within the hour, this one the last (R356). -/
def State.retrains (s : State) (p : Nat) : List Nat := (s.fport p).retrainTimes.filter (fun e => decide (s.now ≤ e + 3600000000000)) ++ [s.now]

/-- A retrain keeps its count and its cause and empties the port; the third within an hour fences it. -/
theorem State.fport_retrainPort (h : SMap.rising s.link.ports = true) (p cause : Nat) :
    let y := (s.retrainPort p cause).fport p
    y.cause = cause ∧ y.state = (if 3 ≤ (s.retrains p).length then .fenced else .down) ∧ y.retrainTimes = s.retrains p ∧ y.replay = [] ∧ y.inq = [] := by
  obtain ⟨u, hu⟩ : ∃ u, s.setFport p { s.fport p with retrainTimes := s.retrains p } = u := ⟨_, rfl⟩
  have hur : SMap.rising u.link.ports = true := hu ▸ SMap.rising_set h
  have hup : u.fport p = { s.fport p with retrainTimes := s.retrains p } := hu ▸ State.fport_setFport h
  have hstill : ∀ y z : FabPort, y.still = z → y.cause = z.cause ∧ y.state = z.state ∧ y.retrainTimes = z.retrainTimes ∧ y.replay = z.replay ∧ y.inq = z.inq :=
    fun y z hyz => hyz ▸ ⟨rfl, rfl, rfl, rfl, rfl⟩
  have hdef : s.retrainPort p cause = if 3 ≤ (s.retrains p).length
      then ((u.modFport p fun x => { x with cause := cause }).fencePort p).errPort 0x0305 degrading p else u.portDown p cause := by
    rw [← hu]
    rfl
  rw [hdef]
  by_cases h3 : 3 ≤ (s.retrains p).length
  · obtain ⟨v, hv⟩ : ∃ v, u.modFport p (fun x => { x with cause := cause }) = v := ⟨_, rfl⟩
    have hvr : SMap.rising v.link.ports = true := hv ▸ SMap.rising_set hur
    have hvp : v.fport p = { u.fport p with cause := cause } := hv ▸ State.fport_modFport hur
    have hfence := (State.fport_fencePort hvr p).1
    have hreport := (PortsStand.of_errorless (State.errorless_raiseError (v.fencePort p) 0x0305 degrading .port p none ((v.fencePort p).portDetail p))).ports
      ((PortsStand.portLoss (v.setFport p ((v.fport p).dropped .fenced (v.fport p).cause v.now)) _ _).rising (SMap.rising_set hvr)) p
    rw [if_pos h3, if_pos h3, hv]
    have hall := hstill _ _ (hreport.trans hfence)
    rw [hvp, hup] at hall
    exact hall
  · rw [if_neg h3, if_neg h3]
    have hall := hstill _ _ (State.fport_portDown hur p cause).1
    rw [hup] at hall
    exact hall

/-- A retrain reports at most. -/
theorem State.retrainPort_raised (s : State) (p cause : Nat) : s.errq.raised ≤ (s.retrainPort p cause).errq.raised := by
  have hloss : ∀ t u : State, LossOnly t u → u.errq = t.errq := fun t u h => by
    have h' := congrArg State.errq h.same
    exact h'
  simp only [State.retrainPort]
  split
  · rw [State.errPort, State.raiseError_raised, hloss _ _ (LossOnly.fencePort _ p)]
    exact Nat.le_succ _
  · rw [hloss _ _ (LossOnly.portDown _ p cause)]
    exact Nat.le_refl _

theorem State.ready_of_linkLive (h : s.linkLive = true) : s.ready = true := by
  rw [State.linkLive, Bool.and_eq_true] at h
  exact h.1

/-- Settles O49. -/
theorem portLifecycle : Obligations.PortLifecycle := by
  unfold Obligations.PortLifecycle
  intro s p htidy hp hlive x only lastFlit
  have hports := State.tidy_ports htidy
  refine ⟨fun hre ok pol i hi => ?restarts, fun hre hen hst pol => ?trains, fun hre hen hst hat => ?retry, fun hre hst hstep => ?send,
    fun f hkind hpass hst hstep => ?init, ?again, fun hor => ?loss⟩
  case restarts =>
    have hlost : (s.linkLive && !s.linkRestarts p) = false := by rw [hre]; exact Bool.and_false _
    simp only [List.mem_cons, List.not_mem_nil, or_false] at hi
    rcases hi with rfl | rfl | rfl | rfl
    · refine ⟨s, (if_pos hp).trans (congrArg _ (if_neg ?_)), rfl⟩
      simp [hlost]
    · refine ⟨s, (if_pos hp).trans (congrArg _ (if_neg ?_)), rfl⟩
      simp [hlost]
    · refine ⟨s, (if_pos hp).trans (congrArg _ (if_neg ?_)), rfl⟩
      simp [hlost]
    · refine ⟨s, (if_pos hp).trans (congrArg _ (if_neg ?_)), rfl⟩
      simp [hlost]
  case trains =>
    have hgo : (s.linkLive && !s.linkRestarts p && s.portEnabled p &&
        ((x.state == .down && decide (x.retryAt ≤ s.now)) || (x.state == .training && x.step == 0))) = true := by
      rw [hlive, hre, State.portEnabled, hen]
      rcases hst with ⟨h1, h2⟩ | ⟨h1, h2⟩ <;> simp [h1, h2]
    exact ⟨⟨_, (if_pos hp).trans (congrArg _ (if_pos hgo)), rfl⟩, ⟨_, (if_pos hp).trans (congrArg _ (if_pos hgo)), rfl⟩⟩
  case retry =>
    refine ⟨_, (if_pos hp).trans (congrArg _ (if_pos ?_)), rfl, State.fport_setFport hports, rfl⟩
    rw [hlive, hre, State.portEnabled, hen]
    simp [x, hst, hat]
  case send =>
    have hgo : (s.linkLive && !s.linkRestarts p && x.state == .training && decide (4 ≤ x.step)) = true := by
      rw [hlive, hre]
      simp [hst, hstep]
    have hport : (State.setFport (s.emit p (put fkInit 63 61) (pad240 (s.initPayload p)) 0) p
        (FabPort.tryUp { x with sentReady := x.sentReady || x.ownReady })).fport p = FabPort.tryUp { x with sentReady := x.sentReady || x.ownReady } :=
      State.fport_setFport (s := s.emit p (put fkInit 63 61) (pad240 (s.initPayload p)) 0) hports
    refine ⟨_, (if_pos hp).trans (congrArg _ (if_pos hgo)), rfl, rfl, hport, fun hpartner hready => ?_⟩
    rw [hport, FabPort.tryUp, if_pos (by rw [Bool.and_eq_true, Bool.or_eq_true]; exact ⟨hready, hpartner⟩)]
    exact ⟨rfl, rfl, rfl⟩
  case init =>
    intro y
    have hstp : (s.fport p).state = .training := hst
    have hstepp : 4 ≤ (s.fport p).step := hstep
    have hdo : doInit p f s = if s.initDuplicate f.payload then State.errPort (s.setFport p { y.dropped .fenced y.cause s.now with duplicate := true }) 0x0305 degrading p
        else if s.initOk f.payload then s.setFport p (FabPort.tryUp { y with step := 5, ownReady := true, partnerReady := bit (leAt f.payload 7 1) 0 })
        else s.setFport p (y.dropped .down 6 s.now) := by
      dsimp only [doInit]
      rw [if_neg (by rw [hlive, hkind, hpass]; exact Bool.false_ne_true), if_neg (by simp [FabPort.linked, hstp]), if_pos (by simp [hstp, hstepp])]
      rfl
    have hrow : exec (.init p f) s = .next (doInit p f s) := if_pos hp
    rw [hdo] at hrow
    refine ⟨fun hdup => ?_, fun hdup hok => ?_, fun hdup hok => ?_⟩
    · rw [if_pos hdup] at hrow
      have hport : (s.setFport p { y.dropped .fenced y.cause s.now with duplicate := true }).fport p = { y.dropped .fenced y.cause s.now with duplicate := true } :=
        State.fport_setFport hports
      generalize hu : s.setFport p { y.dropped .fenced y.cause s.now with duplicate := true } = u at hrow hport
      have hstands := (PortsStand.of_errorless (State.errorless_raiseError u 0x0305 degrading .port p none (u.portDetail p))).ports (hu ▸ SMap.rising_set hports) p
      refine ⟨_, hrow, ?_, ?_, ?_⟩
      · exact (congrArg FabPort.state hstands).trans (congrArg FabPort.state hport)
      · exact (congrArg FabPort.duplicate hstands).trans (congrArg FabPort.duplicate hport)
      · rw [State.errPort, State.raiseError_raised, ← hu]
        rfl
    · rw [if_neg (by rw [hdup]; exact Bool.false_ne_true), if_pos hok] at hrow
      exact ⟨_, hrow, rfl⟩
    · rw [if_neg (by rw [hdup]; exact Bool.false_ne_true), if_neg (by rw [hok]; exact Bool.false_ne_true)] at hrow
      exact ⟨_, hrow, rfl⟩
  case again =>
    intro again
    refine ⟨fun f hkind hpass hlinked => ?_, fun hre hst => ?_⟩
    · have hdo : doInit p f s = s.retrainPort p 6 := by
        dsimp only [doInit]
        rw [if_neg (by rw [hlive, hkind, hpass]; exact Bool.false_ne_true), if_pos hlinked]
      refine ⟨_, (if_pos hp).trans (congrArg _ hdo), ?_⟩
      exact State.fport_retrainPort hports p 6
    · have hgo : (s.linkLive && !s.linkRestarts p && x.state == .recovery) = true := by rw [hlive, hre, hst]; rfl
      obtain ⟨now, hnow⟩ : ∃ n, max s.now (x.since + 50000) = n := ⟨_, rfl⟩
      have herr : (State.errPort { s with now := now } 0x0303 corrected p).errorless = State.errorless { s with now := now } := State.errorless_raiseError ..
      have hraised : (State.errPort { s with now := now } 0x0303 corrected p).errq.raised = s.errq.raised + 1 := State.raiseError_raised ..
      have hrow : exec (.recoveryTimeout p) s = .next ((State.errPort { s with now := now } 0x0303 corrected p).retrainPort p 3) := by
        rw [← hnow]
        exact (if_pos hp).trans (congrArg _ (if_pos hgo))
      generalize State.errPort { s with now := now } 0x0303 corrected p = u at herr hraised hrow
      have huports : u.link.ports = s.link.ports := by
        have hl := congrArg (fun x : State => x.link.ports) herr
        exact hl
      have hunow : u.now = now := by
        have hn := congrArg State.now herr
        exact hn
      have hux : u.fport p = x := by rw [State.fport, huports]; rfl
      have hagain := State.fport_retrainPort (s := u) (by rw [huports]; exact hports) p 3
      rw [State.retrains, hux, hunow] at hagain
      rw [hnow]
      refine ⟨_, hrow, hagain, ?_⟩
      rw [← hraised]
      exact State.retrainPort_raised u p 3
  case loss =>
    have hgo : (s.ready && ((s.fport p).linked || (s.fport p).state == .training)) = true := by
      rw [State.ready_of_linkLive hlive, Bool.true_and, Bool.or_eq_true, beq_iff_eq]
      exact hor
    obtain ⟨hport, hothers⟩ := State.fport_portDown hports p 1
    refine ⟨_, (if_pos hp).trans (congrArg _ (if_pos hgo)), congrArg FabPort.state hport, congrArg FabPort.cause hport, congrArg FabPort.since hport,
      hothers, fun hno => ?_⟩
    rw [State.portDown]
    have hnone : (x.linked && !x.partnerSwitch) = false := by rcases hno with h | h <;> simp [h]
    exact if_neg (by rw [hnone]; exact Bool.false_ne_true)

end Sys2Proof.Machine
end

section
/-! CERTIFICATE. What a received flit does (O50): acknowledgements, acceptance in sequence, the flits of the control channel. -/

namespace Sys2Proof.Machine

variable {s t u : State} {p : Nat} {f : Flit}

/-! ### A port and its books -/

/-- A value other than the default that is set leaves every other key, in any map. -/
theorem SMap.get_set_value_ne {α : Type} [DecidableEq α] {d v : α} (hv : v ≠ d) (m : SMap α) {k k' : Nat} (hk : k' ≠ k) :
    SMap.get d (SMap.set d m k v) k' = SMap.get d m k' := by
  induction m with
  | nil =>
    rw [SMap.set, SMap.cons, if_neg hv]
    change (if k' < k then d else if k' = k then v else d) = d
    rw [if_neg hk, ite_self]
  | cons e m ih =>
    obtain ⟨j, w⟩ := e
    rw [SMap.set]
    split
    · next hlt =>
      rw [SMap.cons, if_neg hv, SMap.get, if_neg hk]
      split
      · rw [SMap.get, if_pos (by omega)]
      · rfl
    · split
      · next heq =>
        subst heq
        rw [SMap.cons, if_neg hv, SMap.get, SMap.get, if_neg hk, if_neg hk]
      · rw [SMap.get, SMap.get, ih]

theorem State.fport_of_errorless (h : t.errorless = s.errorless) (k : Nat) : t.fport k = s.fport k := by
  have hl := congrArg (fun x : State => x.link.ports) h
  exact congrArg (fun m : SMap FabPort => SMap.get {} m k) hl

theorem State.rising_of_errorless (h : t.errorless = s.errorless) (hr : SMap.rising s.link.ports = true) : SMap.rising t.link.ports = true :=
  (PortsStand.of_errorless h).rising hr

/-! ### A flit on an UP port -/

theorem State.onLink_up (hlive : s.linkLive = true) (hup : (s.fport p).state = .up) (g : State → State) : s.onLink p g = g s := by
  have hheld : s.endHeld p = s := by
    rw [State.endHeld, if_neg (by rw [hup]; decide)]
  have hlinked : (s.fport p).linked = true := by rw [FabPort.linked, hup]; rfl
  rw [State.onLink, hlive, hlinked]
  dsimp only
  rw [if_pos (by rfl), hheld, if_pos hlinked]

theorem State.sequenced_up (hlive : s.linkLive = true) (hup : (s.fport p).state = .up) (f : Flit) (g : State → State) :
    s.sequenced p f g = if f.passes (s.fport p).rxSeq then g (s.acceptFlit p f) else s.dropFlit p := State.onLink_up hlive hup _

/-- A port that has accepted a flit in sequence, its credits taken. -/
def FabPort.accepted (x : FabPort) (f : Flit) : FabPort :=
  FabPort.takeCredits { x.setBook f.vc { x.book f.vc with occ := (x.book f.vc).occ + 1 } with
    rxSeq := (x.rxSeq + 1) % 4096, nackOpen := false, unacked := x.unacked + 1 } f

/-- The state as a flit without an acknowledgement is accepted. -/
def State.flitAccepted (s : State) (p : Nat) (f : Flit) : State := (s.setFport p ((s.fport p).accepted f)).addGctr (800 + p) 256

theorem State.flitAccepted_fport (h : SMap.rising s.link.ports = true) : (s.flitAccepted p f).fport p = (s.fport p).accepted f :=
  State.fport_setFport (s := s) h

theorem State.flitAccepted_rising (h : SMap.rising s.link.ports = true) : SMap.rising (s.flitAccepted p f).link.ports = true := SMap.rising_set h

theorem State.acceptFlit_plain (h : SMap.rising s.link.ports = true) (hack : f.ackValid = false) (hdue : (s.fport p).unacked + 1 < 64) :
    s.acceptFlit p f = s.flitAccepted p f := by
  have hport := State.flitAccepted_fport (f := f) (p := p) h
  have hun : ((s.flitAccepted p f).fport p).unacked < 64 := by rw [hport]; exact hdue
  have hdef : s.acceptFlit p f = if 64 ≤ (((s.flitAccepted p f).takeAck p f).fport p).unacked
      then ((s.flitAccepted p f).takeAck p f).sendUnsequenced p fkIdle [] else (s.flitAccepted p f).takeAck p f := rfl
  have htake : (s.flitAccepted p f).takeAck p f = s.flitAccepted p f := by
    rw [State.takeAck, hack]
    rfl
  rw [hdef, htake, if_neg (Nat.not_le.mpr hun)]

/-- No more changes than the link block, its counters, and port `p` to `z`. -/
structure PortOnly (s t : State) (p : Nat) (z : FabPort) : Prop where
  same : t = { s with link := t.link, gctr := t.gctr }
  port : t.fport p = z
  others : ∀ k, k ≠ p → t.fport k = s.fport k

theorem PortOnly.all {z : FabPort} (h : PortOnly s t p z) :
    t = { s with link := t.link, gctr := t.gctr } ∧ t.fport p = z ∧ ∀ k, k ≠ p → t.fport k = s.fport k := ⟨h.same, h.port, h.others⟩

/-- What a flit that is accepted writes to its port. -/
theorem PortOnly.of_flitAccepted (h : SMap.rising s.link.ports = true) (z : FabPort) : PortOnly s ((s.flitAccepted p f).setFport p z) p z :=
  ⟨rfl, State.fport_setFport (State.flitAccepted_rising h), fun k hk => by
    rw [State.fport_setFport_ne (State.flitAccepted_rising h) hk]
    exact State.fport_setFport_ne (s := s) h hk⟩

/-! ### CTRL flits that ask to leave -/

theorem State.fport_sendCtrl (h : SMap.rising s.link.ports = true) (hup : (s.fport p).state = .up) (c : Ctrl) :
    (s.sendCtrl p c).fport p = { s.fport p with ctrlq := (s.fport p).ctrlq ++ [c] } := by
  exact (State.fport_modFport h).trans (if_pos (by rw [hup]; rfl))

/-- CTRL flits of a walk wait behind those that wait. -/
theorem State.sendCtrls_left (h : SMap.rising s.link.ports = true) (hup : (s.fport p).state = .up) (c : Ctrl) (l : List Nat) :
    let t := l.foldl (fun s _ => s.sendCtrl p c) s
    SMap.rising t.link.ports = true ∧ t.fport p = { s.fport p with ctrlq := (s.fport p).ctrlq ++ List.replicate l.length c } ∧
      t.errq = s.errq ∧ t.link.quiet = s.link.quiet := by
  induction l generalizing s with
  | nil => exact ⟨h, by simp, rfl, rfl⟩
  | cons a l ih =>
    have hstep := State.fport_sendCtrl h hup c
    obtain ⟨hr, hport, herr, hquiet⟩ := ih (s := s.sendCtrl p c) (SMap.rising_set h) (by rw [hstep]; exact hup)
    refine ⟨hr, ?_, herr, hquiet⟩
    rw [List.foldl_cons, hport, hstep]
    simp [List.replicate_succ]

/-! ### AUDIT: credits that were lost -/

/-- The credits of a virtual channel that are lost, by an AUDIT's figures (R368). -/
def FabPort.lostCredits (x : FabPort) (bs : List Byte) (v : Nat) : Nat := rxDepth v - x.auditSum bs v

/-- One virtual channel's credits returned: its count of fixes, a report, CREDIT flits; the other channels' books stand. -/
structure AuditFixed (s t : State) (p : Nat) (bs : List Byte) (lost : Nat) (others : Nat → Prop) : Prop where
  rising : SMap.rising t.link.ports = true
  up : (t.fport p).state = .up
  quiet : t.link.quiet = s.link.quiet
  books : ∀ w, others w → (t.fport p).book w = (s.fport p).book w
  none : lost = 0 → t = s
  some : lost ≠ 0 → s.errq.raised + 1 ≤ t.errq.raised ∧ (s.fport p).ctrlq.length < (t.fport p).ctrlq.length ∧
    (t.fport p).auditFixes = min ((s.fport p).auditFixes + lost) 255

theorem State.auditFix_fixed (h : SMap.rising s.link.ports = true) (hup : (s.fport p).state = .up) (v : Nat) (bs : List Byte) :
    AuditFixed s (s.auditFix p v bs) p bs ((s.fport p).lostCredits bs v) (fun w => w ≠ v) := by
  obtain ⟨x, hx⟩ : ∃ x, s.fport p = x := ⟨_, rfl⟩
  have hdef : s.auditFix p v bs = if x.auditSum bs v < rxDepth v then
      (upto (cdiv ((x.book v).owed + (rxDepth v - x.auditSum bs v)) 63)).foldl (fun s _ => s.sendCtrl p (.credit v))
        (State.errPort (s.setFport p { x.setBook v { x.book v with owed := (x.book v).owed + (rxDepth v - x.auditSum bs v) } with
          auditFixes := sat 8 (x.auditFixes + (rxDepth v - x.auditSum bs v)) }) 0x0302 corrected p) else s := by rw [← hx]; rfl
  rw [hdef, hx, FabPort.lostCredits]
  generalize hd : rxDepth v - x.auditSum bs v = d
  by_cases hlt : x.auditSum bs v < rxDepth v
  · have hpos : d ≠ 0 := by omega
    rw [if_pos hlt]
    obtain ⟨y, hy⟩ : ∃ y, ({ x.setBook v { x.book v with owed := (x.book v).owed + d } with auditFixes := sat 8 (x.auditFixes + d) } : FabPort) = y := ⟨_, rfl⟩
    obtain ⟨w, hw⟩ : ∃ w, s.setFport p y = w := ⟨_, rfl⟩
    have hwr : SMap.rising w.link.ports = true := hw ▸ SMap.rising_set h
    have hwp : w.fport p = y := hw ▸ State.fport_setFport h
    have herr : (w.errPort 0x0302 corrected p).errorless = w.errorless := State.errorless_raiseError ..
    have hraised : (w.errPort 0x0302 corrected p).errq.raised = w.errq.raised + 1 := State.raiseError_raised ..
    have hup' : ((w.errPort 0x0302 corrected p).fport p).state = .up := by
      rw [State.fport_of_errorless herr, hwp, ← hy]
      exact hx ▸ hup
    obtain ⟨hr, hport, herrq, hquiet⟩ := State.sendCtrls_left (State.rising_of_errorless herr hwr) hup' (.credit v) (upto (cdiv ((x.book v).owed + d) 63))
    rw [hy, hw]
    rw [State.fport_of_errorless herr, hwp] at hport
    generalize List.foldl _ (w.errPort 0x0302 corrected p) _ = t at hr hport herrq hquiet
    refine ⟨hr, ?_, ?_, fun k hk => ?_, fun h0 => absurd h0 hpos, fun _ => ⟨?_, ?_, ?_⟩⟩
    · rw [hport, ← hy]
      exact hx ▸ hup
    · exact hquiet.trans ((PortsStand.of_errorless herr).quiet.trans (by rw [← hw]; rfl))
    · rw [hport, ← hy, hx]
      exact SMap.get_set_value_ne (fun hdft => hpos (by have := congrArg VcBook.owed hdft; simp at this; omega)) _ hk
    · rw [herrq, hraised, ← hw]
      exact Nat.le_refl _
    · rw [hport, ← hy, hx]
      have hlen : (upto (cdiv ((x.book v).owed + d) 63)).length = cdiv ((x.book v).owed + d) 63 := List.length_range
      have hcd : 0 < cdiv ((x.book v).owed + d) 63 := by unfold cdiv; omega
      simp only [FabPort.setBook, List.length_append, List.length_replicate, hlen]
      omega
    · rw [hport, ← hy, hx]
      rfl
  · have h0 : d = 0 := by omega
    rw [if_neg hlt]
    exact ⟨h, hup, rfl, fun _ _ => rfl, fun _ => rfl, fun hne => absurd h0 hne⟩

/-- The walk over the virtual channels. -/
theorem State.auditFixes_fixed (h : SMap.rising s.link.ports = true) (hup : (s.fport p).state = .up) (bs : List Byte) (l : List Nat) (hl : l.Nodup) :
    AuditFixed s (l.foldl (fun s v => s.auditFix p v bs) s) p bs ((l.map ((s.fport p).lostCredits bs)).sum) (fun w => w ∉ l) := by
  induction l generalizing s with
  | nil => exact ⟨h, hup, rfl, fun _ _ => rfl, fun _ => rfl, fun hne => absurd rfl hne⟩
  | cons v l ih =>
    obtain ⟨hv, hl⟩ := List.nodup_cons.mp hl
    have hone := State.auditFix_fixed h hup v bs
    have hrest := ih hone.rising hone.up hl
    have hsame : l.map (((s.auditFix p v bs).fport p).lostCredits bs) = l.map ((s.fport p).lostCredits bs) := by
      refine List.map_congr_left fun w hw => ?_
      rw [FabPort.lostCredits, FabPort.lostCredits, FabPort.auditSum, FabPort.auditSum, hone.books w (fun he => hv (he ▸ hw))]
    rw [hsame] at hrest
    rw [List.foldl_cons, List.map_cons, List.sum_cons]
    generalize (s.fport p).lostCredits bs v = a at hone
    generalize (l.map ((s.fport p).lostCredits bs)).sum = b at hrest
    generalize s.auditFix p v bs = u at hone hrest
    generalize List.foldl _ u l = t at hrest
    refine ⟨hrest.rising, hrest.up, hrest.quiet.trans hone.quiet, fun w hw => ?_, fun h0 => ?_, fun hne => ?_⟩
    · rw [List.mem_cons, not_or] at hw
      exact (hrest.books w hw.2).trans (hone.books w hw.1)
    · exact (hrest.none (by omega)).trans (hone.none (by omega))
    · by_cases ha : a = 0
      · have hu := hone.none ha
        subst ha hu
        rw [Nat.zero_add] at hne ⊢
        exact hrest.some hne
      · by_cases hb : b = 0
        · have hu := hrest.none hb
          subst hu hb
          rw [Nat.add_zero a]
          exact hone.some ha
        · obtain ⟨hra, hqa, hfa⟩ := hone.some ha
          obtain ⟨hrb, hqb, hfb⟩ := hrest.some hb
          refine ⟨by omega, by omega, ?_⟩
          rw [hfb, hfa]
          omega

/-- A retrain of a port leaves the books of the link block. -/
theorem State.retrainPort_quiet (s : State) (p cause : Nat) : (s.retrainPort p cause).link.quiet = s.link.quiet := by
  have hset : ∀ (t : State) (x : FabPort) (b : Bool) id, (if b then (t.setFport p x).meshLoss id else t.setFport p x).link.quiet = t.link.quiet :=
    fun t x b id => (PortsStand.portLoss (t.setFport p x) b id).quiet
  simp only [State.retrainPort]
  split
  · exact (PortsStand.of_errorless (State.errorless_raiseError ..)).quiet.trans (hset _ _ _ _)
  · exact hset _ _ _ _

/-! ### The flits -/

theorem State.sequenced_plain (h : SMap.rising s.link.ports = true) (hlive : s.linkLive = true) (hup : (s.fport p).state = .up)
    (hplain : f.passes (s.fport p).rxSeq = true ∧ f.ackValid = false ∧ (s.fport p).unacked + 1 < 64) (g : State → State) :
    s.sequenced p f g = g (s.flitAccepted p f) := by
  obtain ⟨hpass, hack, hdue⟩ := hplain
  rw [State.sequenced_up hlive hup, if_pos hpass, State.acceptFlit_plain h hack hdue]

/-- A flit that fails its check: the port's count, and one nack. -/
theorem State.dropFlit_left (h : SMap.rising s.link.ports = true) (p : Nat) :
    let x := s.fport p
    (s.dropFlit p).fport p = { x with crcFail := min (x.crcFail + 1) 65535, nackOpen := true } ∧
      (s.dropFlit p).errorless = State.errorless { s with link := (s.dropFlit p).link } ∧
      (s.dropFlit p).errq.raised = (if x.nackOpen then s.errq.raised else s.errq.raised + 1) := by
  intro x
  obtain ⟨y, hy⟩ : ∃ y, ({ x with crcFail := sat 16 (x.crcFail + 1), nackOpen := true } : FabPort) = y := ⟨_, rfl⟩
  obtain ⟨w, hw⟩ : ∃ w, s.setFport p y = w := ⟨_, rfl⟩
  have hwp : w.fport p = y := hw ▸ State.fport_setFport h
  have hdef : s.dropFlit p = if x.nackOpen then w else (w.errPort 0x0301 corrected p).sendNack p := by rw [← hw, ← hy]; rfl
  rw [hdef]
  by_cases hopen : x.nackOpen = true
  · rw [if_pos hopen, if_pos hopen]
    exact ⟨by rw [hwp, ← hy]; rfl, by rw [← hw]; rfl, by rw [← hw]; rfl⟩
  · rw [if_neg hopen, if_neg hopen]
    have herr : (w.errPort 0x0301 corrected p).errorless = w.errorless := State.errorless_raiseError ..
    have hraised : (w.errPort 0x0301 corrected p).errq.raised = w.errq.raised + 1 := State.raiseError_raised ..
    have hport := State.fport_of_errorless herr p
    generalize w.errPort 0x0301 corrected p = u at herr hraised hport
    refine ⟨?_, ?_, ?_⟩
    · change u.fport p = _
      rw [hport, hwp, ← hy]
      rfl
    · have hnack : (u.sendNack p).errorless = u.errorless := rfl
      have hlink : State.errorless { s with link := (u.sendNack p).link } = State.errorless { s with link := u.link } := rfl
      have hul : { u.link with sentFlits := [] } = { w.link with sentFlits := [] } := by
        have hl := congrArg State.link herr
        exact hl
      have hsl : State.errorless { s with link := u.link } = State.errorless { s with link := w.link } :=
        congrArg (fun l => { State.errorless s with link := l }) hul
      rw [hnack, hlink, hsl, herr, ← hw]
      rfl
    · exact hraised.trans (by rw [← hw]; rfl)

/-- A nack is counted, reported, and answered by resends. -/
theorem State.takeNack_left (h : SMap.rising s.link.ports = true) (p seq : Nat) :
    let t := s.takeNack p seq
    (t.fport p).replays = min ((s.fport p).replays + 1) (2 ^ 32 - 1) ∧ (t.fport p).nackedSeq = seq ∧ s.errq.raised + 1 ≤ t.errq.raised ∧ t.queues = s.queues := by
  intro t
  obtain ⟨v, hv⟩ : ∃ v, s.modFport p (fun x => x.ackTo ((seq + 4095) % 4096)) = v := ⟨_, rfl⟩
  have hvr : SMap.rising v.link.ports = true := hv ▸ SMap.rising_set h
  have hvp : v.fport p = (s.fport p).ackTo ((seq + 4095) % 4096) := hv ▸ State.fport_modFport h
  obtain ⟨n, hn⟩ : ∃ n, (if (v.fport p).nackedSeq = seq ∧ (v.fport p).nackCount ≠ 0 then (v.fport p).nackCount + 1 else 1) = n := ⟨_, rfl⟩
  obtain ⟨w, hw⟩ : ∃ w, v.setFport p { v.fport p with nackedSeq := seq, nackCount := n, replays := sat 32 ((v.fport p).replays + 1) } = w := ⟨_, rfl⟩
  have hwr : SMap.rising w.link.ports = true := hw ▸ SMap.rising_set hvr
  have hwp : w.fport p = { v.fport p with nackedSeq := seq, nackCount := n, replays := sat 32 ((v.fport p).replays + 1) } := hw ▸ State.fport_setFport hvr
  have herr : (w.errPort 0x0301 corrected p).errorless = w.errorless := State.errorless_raiseError ..
  have hraised : (w.errPort 0x0301 corrected p).errq.raised = w.errq.raised + 1 := State.raiseError_raised ..
  have htdef : t = if 8 ≤ n ∧ (v.fport p).state = .up then (w.errPort 0x0301 corrected p).enterRecovery p
      else (w.errPort 0x0301 corrected p).resend p (v.fport p).replay := by rw [← hw, ← hn, ← hv]; rfl
  have hresend : ∀ (z : State) (l : List Kept), (z.resend p l).link.ports = z.link.ports ∧ (z.resend p l).errq = z.errq ∧ (z.resend p l).queues = z.queues :=
    fun z l => foldl_keeps (f := fun (s : State) (k : Kept) => (s.emit p k.header k.payload k.seq).addGctr (752 + p) 256)
      (P := fun u : State => u.link.ports = z.link.ports ∧ u.errq = z.errq ∧ u.queues = z.queues) (fun u k hu => hu) l ⟨rfl, rfl, rfl⟩
  have hq : w.queues = s.queues := by rw [← hw, ← hv]; rfl
  have hr : w.errq = s.errq := by rw [← hw, ← hv]; rfl
  have huport := (State.fport_of_errorless herr p).trans hwp
  have hur := State.rising_of_errorless herr hwr
  have huq : (w.errPort 0x0301 corrected p).queues = s.queues := ((State.queues_of_errorless herr).1).trans hq
  rw [hr] at hraised
  generalize w.errPort 0x0301 corrected p = u at htdef huport hur huq hraised
  have hdone : ∀ (z : State) (l : List Kept), (z.fport p).replays = (u.fport p).replays → (z.fport p).nackedSeq = (u.fport p).nackedSeq →
      u.errq.raised ≤ z.errq.raised → z.queues = u.queues → t = z.resend p l →
      (t.fport p).replays = min ((s.fport p).replays + 1) (2 ^ 32 - 1) ∧ (t.fport p).nackedSeq = seq ∧ s.errq.raised + 1 ≤ t.errq.raised ∧ t.queues = s.queues := by
    intro z l hz1 hz2 hz3 hz4 ht
    obtain ⟨hp1, hp2, hp3⟩ := hresend z l
    have htp : t.fport p = z.fport p := by rw [ht, State.fport, hp1]; rfl
    refine ⟨?_, ?_, ?_, ?_⟩
    · rw [htp, hz1, huport, hvp]
      rfl
    · rw [htp, hz2, huport]
    · rw [ht, hp2, ← hraised]
      exact hz3
    · rw [ht, hp3, hz4, huq]
  by_cases h8 : 8 ≤ n ∧ (v.fport p).state = .up
  · rw [if_pos h8] at htdef
    obtain ⟨y, hy⟩ : ∃ y, u.setFport p { u.fport p with state := .recovery, since := u.now, recoveries := sat 8 ((u.fport p).recoveries + 1), nackCount := 0 } = y := ⟨_, rfl⟩
    have hyp : y.fport p = { u.fport p with state := .recovery, since := u.now, recoveries := sat 8 ((u.fport p).recoveries + 1), nackCount := 0 } :=
      hy ▸ State.fport_setFport hur
    have hyerr : (y.errPort 0x0301 corrected p).errorless = y.errorless := State.errorless_raiseError ..
    have hyraised : (y.errPort 0x0301 corrected p).errq.raised = y.errq.raised + 1 := State.raiseError_raised ..
    have hyport := (State.fport_of_errorless hyerr p).trans hyp
    refine hdone (y.errPort 0x0301 corrected p) (u.fport p).replay ?_ ?_ ?_ ?_ ?_
    · rw [hyport]
    · rw [hyport]
    · rw [hyraised, ← hy]
      exact Nat.le_succ _
    · rw [(State.queues_of_errorless hyerr).1, ← hy]
      rfl
    · rw [htdef, ← hy]
      rfl
  · rw [if_neg h8] at htdef
    exact hdone u _ rfl rfl (Nat.le_refl _) rfl htdef

/-- What a step of the time base leaves: every port, and every byte of the module's memory. -/
theorem State.discipline_left (hm : Memory.wf s.mem = true) (off : Int) :
    (∀ k, (s.discipline off).fport k = s.fport k) ∧ ∀ a, a < 2 ^ 63 → (s.discipline off).memByte a = s.memByte a := by
  have hlock : ∀ (z : State) (o : Int), (z.firstLock o).link.ports = z.link.ports ∧ (z.firstLock o).mem = z.mem := fun z o => by
    rw [State.firstLock]
    split <;> exact ⟨rfl, rfl⟩
  have hdone : ∀ (z w : State), w.link.ports = z.link.ports → w.mem = z.mem → z.link.ports = s.link.ports → (∀ a, a < 2 ^ 63 → z.memByte a = s.memByte a) →
      (∀ k, w.fport k = s.fport k) ∧ ∀ a, a < 2 ^ 63 → w.memByte a = s.memByte a := fun z w hwp hwm hzp hzm =>
    ⟨fun k => by rw [State.fport, hwp, hzp]; rfl, fun a ha => (State.memByte_of_mem hwm a).trans (hzm a ha)⟩
  simp only [State.discipline]
  split
  · generalize hd : ({ s.draw.2.draw.2 with link := _ } : State) = z
    have hzm : z.mem = s.mem := by rw [← hd]; rfl
    have hzp : z.link.ports = s.link.ports := by rw [← hd]; rfl
    have hev := WorkOnly.raiseEvent z (s.draw.1.toNat % 2 ^ 16) s.draw.2.draw.1.toNat
    have hport : (z.raiseEvent (s.draw.1.toNat % 2 ^ 16) s.draw.2.draw.1.toNat).link.ports = z.link.ports := by
      have hl := congrArg (fun x : State => x.link.ports) (State.eventless_raiseEvent z (s.draw.1.toNat % 2 ^ 16) s.draw.2.draw.1.toNat)
      exact hl
    obtain ⟨h1, h2⟩ := hlock (z.raiseEvent (s.draw.1.toNat % 2 ^ 16) s.draw.2.draw.1.toNat) off
    exact hdone _ _ h1 h2 (hport.trans hzp) fun a ha => (hev.memByte (by rw [hzm]; exact hm) ha).trans (State.memByte_of_mem hzm a)
  · split
    · exact ⟨fun _ => rfl, fun _ _ => rfl⟩
    · generalize hd : ({ s with link := _ } : State) = z
      obtain ⟨h1, h2⟩ := hlock z off
      exact hdone z _ h1 h2 (by rw [← hd]) fun a _ => by rw [← hd]; rfl

/-! ### AUDIT and TIME_RESP, accepted -/

@[simp] theorem FabPort.freeBuffers_state (x : FabPort) (vc n : Nat) : (x.freeBuffers vc n).state = x.state := rfl
@[simp] theorem FabPort.freeBuffers_auditFixes (x : FabPort) (vc n : Nat) : (x.freeBuffers vc n).auditFixes = x.auditFixes := rfl
@[simp] theorem FabPort.freeBuffers_ctrlq (x : FabPort) (vc n : Nat) : (x.freeBuffers vc n).ctrlq = x.ctrlq := rfl
theorem Link.deficits_of_quiet {l l' : Link} (h : l.quiet = l'.quiet) : l.deficits = l'.deficits := by
  have h' := congrArg Link.deficits h
  exact h'

theorem Link.surpluses_of_quiet {l l' : Link} (h : l.quiet = l'.quiet) : l.surpluses = l'.surpluses := by
  have h' := congrArg Link.surpluses h
  exact h'

@[simp] theorem State.ctrlDone_errq (s : State) (p : Nat) (f : Flit) : (s.ctrlDone p f).errq = s.errq := rfl
@[simp] theorem State.ctrlDone_audits (s : State) (p : Nat) (f : Flit) : (s.ctrlDone p f).link.audits = s.link.audits := rfl
@[simp] theorem State.ctrlDone_deficits (s : State) (p : Nat) (f : Flit) : (s.ctrlDone p f).link.deficits = s.link.deficits := rfl
@[simp] theorem State.ctrlDone_surpluses (s : State) (p : Nat) (f : Flit) : (s.ctrlDone p f).link.surpluses = s.link.surpluses := rfl
@[simp] theorem State.flitAccepted_audits (s : State) (p : Nat) (f : Flit) : (s.flitAccepted p f).link.audits = s.link.audits := rfl
@[simp] theorem State.flitAccepted_deficits (s : State) (p : Nat) (f : Flit) : (s.flitAccepted p f).link.deficits = s.link.deficits := rfl
@[simp] theorem State.flitAccepted_surpluses (s : State) (p : Nat) (f : Flit) : (s.flitAccepted p f).link.surpluses = s.link.surpluses := rfl
@[simp] theorem State.flitAccepted_time (s : State) (p : Nat) (f : Flit) : (s.flitAccepted p f).link.time = s.link.time := rfl
@[simp] theorem State.flitAccepted_now (s : State) (p : Nat) (f : Flit) : (s.flitAccepted p f).now = s.now := rfl
@[simp] theorem State.flitAccepted_errq (s : State) (p : Nat) (f : Flit) : (s.flitAccepted p f).errq = s.errq := rfl
@[simp] theorem State.flitAccepted_mem (s : State) (p : Nat) (f : Flit) : (s.flitAccepted p f).mem = s.mem := rfl
@[simp] theorem State.flitAccepted_isGm (s : State) (p : Nat) (f : Flit) : (s.flitAccepted p f).isGm = s.isGm := rfl
theorem State.flitAccepted_left (s : State) (p : Nat) (f : Flit) :
    s.flitAccepted p f = { s with link := (s.flitAccepted p f).link, gctr := (s.flitAccepted p f).gctr } := rfl

theorem not_any_upto {q : Nat → Bool} {n : Nat} (hq : ∀ v ∈ upto n, q v = false) : ¬(upto n).any q = true := fun h => by
  obtain ⟨v, hv, hqv⟩ := List.any_eq_true.mp h
  rw [hq v hv] at hqv
  cases hqv

theorem State.setFport_left (s : State) (p : Nat) (x : FabPort) : s.setFport p x = { s with link := (s.setFport p x).link } := rfl
theorem State.sendCtrl_left (s : State) (p : Nat) (c : Ctrl) : s.sendCtrl p c = { s with link := (s.sendCtrl p c).link } := rfl

theorem State.linkAndCounters_trans (hu : u = { s with link := u.link, gctr := u.gctr }) (ht : t = { u with link := t.link }) :
    t = { s with link := t.link, gctr := t.gctr } := by
  have hgctr : t.gctr = u.gctr := by
    have h := congrArg State.gctr ht
    exact h
  have hlinked := ht.trans (congrArg (fun z : State => { z with link := t.link }) hu)
  rw [hgctr]
  exact hlinked

/-- An AUDIT that finds every channel even. -/
theorem State.audit_even (h : SMap.rising s.link.ports = true) (heq : ∀ v ∈ upto 4, (s.fport p).auditSum f.payload v = rxDepth v) :
    let t := s.audit p f
    (t = { s with link := t.link } ∧ t.fport p = (s.fport p).freeBuffers f.vc 1 ∧ ∀ k, k ≠ p → t.fport k = s.fport k) ∧
      t.link.audits = (s.link.audits + 1) % 2 ^ 32 ∧ t.link.deficits = s.link.deficits ∧ t.link.surpluses = s.link.surpluses := by
  intro t
  have hno := fun v hv => decide_eq_false (p := rxDepth v < (s.fport p).auditSum f.payload v) (by rw [heq v hv]; exact Nat.lt_irrefl _)
  have hno' := fun v hv => decide_eq_false (p := (s.fport p).auditSum f.payload v < rxDepth v) (by rw [heq v hv]; exact Nat.lt_irrefl _)
  obtain ⟨w, hw⟩ : ∃ w, ({ s with link := { s.link with audits := (s.link.audits + 1) % 2 ^ 32 } } : State) = w := ⟨_, rfl⟩
  have ht : t = w.ctrlDone p f := by
    rw [← hw]
    exact (if_neg (not_any_upto hno)).trans (if_neg (not_any_upto hno'))
  have hwr : SMap.rising w.link.ports = true := by rw [← hw]; exact h
  have hws : w.ctrlDone p f = { s with link := (w.ctrlDone p f).link } := by rw [← hw]; rfl
  rw [ht, State.ctrlDone_audits, State.ctrlDone_deficits, State.ctrlDone_surpluses]
  refine ⟨⟨hws, (State.fport_modFport hwr).trans ?_, fun k hk => (State.fport_modFport_ne hwr hk).trans ?_⟩, ?_, ?_, ?_⟩ <;> rw [← hw] <;> rfl

/-- An AUDIT that finds credits too many: the port retrains. -/
theorem State.audit_surplus (h : SMap.rising s.link.ports = true) {v : Nat} (hv : v ∈ upto 4) (hlt : rxDepth v < (s.fport p).auditSum f.payload v) :
    let t := s.audit p f
    t.link.surpluses = min (s.link.surpluses + 1) 65535 ∧ (t.fport p).cause = 4 ∧ ((t.fport p).state = .down ∨ (t.fport p).state = .fenced) ∧
      s.errq.raised + 1 ≤ t.errq.raised := by
  intro t
  obtain ⟨w, hw⟩ : ∃ w, ({ s with link := { s.link with audits := (s.link.audits + 1) % 2 ^ 32, surpluses := sat 16 (s.link.surpluses + 1) } } : State) = w := ⟨_, rfl⟩
  have ht : t = State.retrainPort (w.errPort 0x0304 contained p) p 4 := by
    rw [← hw]
    exact if_pos (List.any_eq_true.mpr ⟨v, hv, decide_eq_true hlt⟩)
  have hwr : SMap.rising w.link.ports = true := by rw [← hw]; exact h
  have hwn : w.link.surpluses = min (s.link.surpluses + 1) 65535 := by rw [← hw]; rfl
  have hwe : w.errq = s.errq := by rw [← hw]
  have herr : (w.errPort 0x0304 contained p).errorless = w.errorless := State.errorless_raiseError ..
  have hraised : (w.errPort 0x0304 contained p).errq.raised = w.errq.raised + 1 := State.raiseError_raised ..
  have hquiet := (PortsStand.of_errorless herr).quiet
  have hur := State.rising_of_errorless herr hwr
  rw [hwe] at hraised
  rw [ht]
  generalize w.errPort 0x0304 contained p = u at hraised hquiet hur
  obtain ⟨hcause, hstate, _⟩ := State.fport_retrainPort hur p 4
  have hsur := Link.surpluses_of_quiet ((State.retrainPort_quiet u p 4).trans hquiet)
  refine ⟨hsur.trans hwn, hcause, ?_, ?_⟩
  · rw [hstate]
    split
    · exact .inr rfl
    · exact .inl rfl
  · rw [← hraised]
    exact State.retrainPort_raised u p 4

/-- An AUDIT that finds credits lost, and none too many: they are returned. -/
theorem State.audit_deficit (h : SMap.rising s.link.ports = true) (hup : (s.fport p).state = .up)
    (hle : ∀ v ∈ upto 4, (s.fport p).auditSum f.payload v ≤ rxDepth v) {v : Nat} (hv : v ∈ upto 4) (hlt : (s.fport p).auditSum f.payload v < rxDepth v) :
    let t := s.audit p f
    t.link.deficits = min (s.link.deficits + 1) 65535 ∧ (t.fport p).state = .up ∧ s.errq.raised + 1 ≤ t.errq.raised ∧
      (t.fport p).auditFixes = min ((s.fport p).auditFixes + (((upto 4).map (fun v => ((s.fport p).auditSum f.payload v, rxDepth v))).map (fun e => e.2 - e.1)).sum) 255 ∧
      (s.fport p).ctrlq.length < (t.fport p).ctrlq.length := by
  intro t
  obtain ⟨w, hw⟩ : ∃ w, ({ s with link := { s.link with audits := (s.link.audits + 1) % 2 ^ 32, deficits := sat 16 (s.link.deficits + 1) } } : State) = w := ⟨_, rfl⟩
  have hno := fun v hv => decide_eq_false (p := rxDepth v < (s.fport p).auditSum f.payload v) (Nat.not_lt.mpr (hle v hv))
  have ht : t = ((upto 4).foldl (fun (s : State) v => s.auditFix p v f.payload) w).ctrlDone p f := by
    rw [← hw]
    exact (if_neg (not_any_upto hno)).trans (if_pos (List.any_eq_true.mpr ⟨v, hv, decide_eq_true hlt⟩))
  have hwp : w.fport p = s.fport p := by rw [← hw]; rfl
  have hwr : SMap.rising w.link.ports = true := by rw [← hw]; exact h
  have hwn : w.link.deficits = min (s.link.deficits + 1) 65535 := by rw [← hw]; rfl
  have hwe : w.errq = s.errq := by rw [← hw]
  have hfixed := State.auditFixes_fixed hwr (by rw [hwp]; exact hup) f.payload (upto 4) List.nodup_range
  have hlost : 0 < (s.fport p).lostCredits f.payload v := by
    rw [FabPort.lostCredits]
    omega
  have hpos : ((upto 4).map ((s.fport p).lostCredits f.payload)).sum ≠ 0 :=
    Nat.pos_iff_ne_zero.mp (List.sum_pos_iff_exists_pos_nat.mpr ⟨_, List.mem_map_of_mem hv, hlost⟩)
  rw [ht]
  rw [hwp] at hfixed
  obtain ⟨hraised, hctrlq, hfixes⟩ := hfixed.some hpos
  have hsums : ((upto 4).map (fun v => ((s.fport p).auditSum f.payload v, rxDepth v))).map (fun e => e.2 - e.1) =
      (upto 4).map ((s.fport p).lostCredits f.payload) := List.map_map
  rw [hsums]
  have hquiet := Link.deficits_of_quiet hfixed.quiet
  have hfree := State.fport_modFport (f := fun x : FabPort => x.freeBuffers f.vc 1) (i := p) hfixed.rising
  have hstate := hfixed.up
  rw [hwp] at hctrlq hfixes
  rw [hwe] at hraised
  generalize List.foldl _ w (upto 4) = u at hraised hctrlq hfixes hquiet hfree hstate
  have hport : (u.ctrlDone p f).fport p = (u.fport p).freeBuffers f.vc 1 := hfree
  refine ⟨(State.ctrlDone_deficits u p f).trans (hquiet.trans hwn), ?_, by rw [State.ctrlDone_errq]; exact hraised, ?_, ?_⟩
  · rw [hport, FabPort.freeBuffers_state]
    exact hstate
  · rw [hport, FabPort.freeBuffers_auditFixes]
    exact hfixes
  · rw [hport, FabPort.freeBuffers_ctrlq]
    exact hctrlq

/-- A TIME_RESP: the port's delay; the time of a module that is not the grandmaster may move. -/
theorem State.timeResp_left (h : SMap.rising s.link.ports = true) (hm : Memory.wf s.mem = true) :
    let t1 : Int := leAt f.payload 1 8
    let t2 : Int := leAt f.payload 9 8
    let t3 : Int := leAt f.payload 17 8
    let corr := sext 64 (leAt f.payload 25 8)
    let t := s.timeResp p f
    (t.fport p).delay = some (((s.now : Int) - t1 - (t3 - t2)) * 65536 - corr) ∧ (t.fport p).rxSeq = (s.fport p).rxSeq ∧
      (∀ a, a < 2 ^ 63 → t.memByte a = s.memByte a) ∧ (s.isGm = true → t.now = s.now ∧ t.link.time = s.link.time) := by
  intro t1 t2 t3 corr t
  obtain ⟨w, hw⟩ : ∃ w, (s.ctrlDone p f).modFport p (fun x => { x with delay := some (timeDelay t1 t2 t3 s.now corr) }) = w := ⟨_, rfl⟩
  have hdr : SMap.rising (s.ctrlDone p f).link.ports = true := SMap.rising_set h
  have hdp : (s.ctrlDone p f).fport p = (s.fport p).freeBuffers f.vc 1 := State.fport_modFport h
  have hwp : w.fport p = { (s.fport p).freeBuffers f.vc 1 with delay := some (timeDelay t1 t2 t3 s.now corr) } := by
    rw [← hw, State.fport_modFport hdr, hdp]
  have hwm : w.mem = s.mem := by rw [← hw]; rfl
  have hgm : w.isGm = s.isGm := by rw [← hw]; rfl
  have hwn : w.now = s.now := by rw [← hw]; rfl
  have hwt : w.link.time = s.link.time := by rw [← hw]; rfl
  have hdone : ∀ z : State, (∀ k, z.fport k = w.fport k) → (∀ a, a < 2 ^ 63 → z.memByte a = w.memByte a) →
      (z.fport p).delay = some (((s.now : Int) - t1 - (t3 - t2)) * 65536 - corr) ∧ (z.fport p).rxSeq = (s.fport p).rxSeq ∧
        ∀ a, a < 2 ^ 63 → z.memByte a = s.memByte a := fun z hzp hzm => by
    rw [hzp, hwp]
    exact ⟨rfl, rfl, fun a ha => (hzm a ha).trans (State.memByte_of_mem hwm a)⟩
  have htdef : t = if w.isGm then w
      else match w.parentPort with
        | some q =>
          let u : State := { w with link := { w.link with time := { w.link.time with parent := q, offset := if q = p then timeOffset t1 t2 t3 s.now corr else w.link.time.offset } } }
          if q = p then u.discipline (timeOffset t1 t2 t3 s.now corr) else u
        | none => w := by
    rw [← hw]
    rfl
  by_cases hg : s.isGm = true
  · rw [if_pos (hgm.trans hg)] at htdef
    rw [htdef]
    obtain ⟨h1, h2, h3⟩ := hdone w (fun _ => rfl) (fun _ _ => rfl)
    exact ⟨h1, h2, h3, fun _ => ⟨hwn, hwt⟩⟩
  · rw [if_neg (by rw [hgm]; exact hg)] at htdef
    suffices hall : (∀ k, t.fport k = w.fport k) ∧ ∀ a, a < 2 ^ 63 → t.memByte a = w.memByte a by
      obtain ⟨h1, h2, h3⟩ := hdone t hall.1 hall.2
      exact ⟨h1, h2, h3, fun h => absurd h hg⟩
    cases hpar : w.parentPort with
    | none =>
      rw [hpar] at htdef
      rw [htdef]
      exact ⟨fun _ => rfl, fun _ _ => rfl⟩
    | some q =>
      rw [hpar] at htdef
      dsimp only at htdef
      by_cases hq : q = p
      · rw [if_pos hq, if_pos hq] at htdef
        rw [htdef]
        generalize hu : ({ w with link := _ } : State) = u
        have hum : u.mem = s.mem := by rw [← hu]; exact hwm
        obtain ⟨hport, hbytes⟩ := State.discipline_left (s := u) (by rw [hum]; exact hm) (timeOffset t1 t2 t3 s.now corr)
        exact ⟨fun k => (hport k).trans (by rw [← hu]; rfl), fun a ha => (hbytes a ha).trans (by rw [← hu]; rfl)⟩
      · rw [if_neg hq, if_neg hq] at htdef
        rw [htdef]
        exact ⟨fun _ => rfl, fun _ _ => rfl⟩

/-- A DATA flit that carries a whole message. -/
theorem State.dataFlit_whole (hfirst : f.isFirst = true) (hlast : f.isLast = true) (hlen : f.payload.length / 240 = 1) :
    let m := Msg.ofWire f.payload
    let x := s.fport p
    s.dataFlit p f = if m.mkind = 0 ∨ 0xE < m.mkind
      then (s.setFport p (FabPort.freeBuffers { x with assembling := SMap.set [] x.assembling f.vc [] } f.vc 1)).errMsg p m.src
      else (s.setFport p { x with assembling := SMap.set [] x.assembling f.vc [], inq := x.inq ++ [(f.vc, 1, m)] }).wakeFor m := by
  intro m x
  have hbs : (if f.isFirst then [] else SMap.get [] x.assembling f.vc) ++ f.payload = f.payload := by rw [if_pos hfirst, List.nil_append]
  have hmore : ¬(!f.isLast) = true := by rw [hlast]; exact Bool.false_ne_true
  have hdef : s.dataFlit p f = _ := if_neg hmore
  rw [hbs, hlen] at hdef
  exact hdef

/-- Settles O50. -/
theorem flitReception : Obligations.FlitReception := by
  unfold Obligations.FlitReception
  intro s p f htidy hp hlive hup x y only plain
  have hr := State.tidy_ports htidy
  have hv := fun z => (PortOnly.of_flitAccepted (f := f) (p := p) hr z).all
  have hvr := State.flitAccepted_rising (f := f) (p := p) hr
  have hvp : (s.flitAccepted p f).fport p = y := State.flitAccepted_fport hr
  have hseq := fun (hplain : plain) => State.sequenced_plain hr hlive hup hplain
  have hdone : ∀ z : FabPort, z = y.freeBuffers f.vc 1 → (s.flitAccepted p f).ctrlDone p f = (s.flitAccepted p f).setFport p z := fun z hz => by
    rw [State.ctrlDone, State.modFport, hvp, hz]
  refine ⟨fun hk hpass hack hnack => ?idle, fun hk hpass => ?idleFails, fun hk hpass hack hnack => ?nack, fun hk hpass hack => ?hold, fun hk hfail => ?fails,
    fun hk hplain hfirst hlast hact => ?message, fun hk hplain hlast => ?part, fun hk hplain => ⟨fun hty => ?credit, fun hty => ?audit, fun hty => ?timeReq, fun hty => ?timeResp⟩⟩
  case idle =>
    refine ⟨_, (if_pos hp).trans (congrArg _ ((if_pos hk).trans ((State.onLink_up hlive hup _).trans (if_pos hpass)))), ?_⟩
    rw [State.takeAck, if_neg (by rw [hack]; exact Bool.false_ne_true), if_neg (by rw [hnack]; exact Bool.false_ne_true), State.modFport, FabPort.ackTo]
    dsimp only
    rw [if_neg (by rw [hup]; rintro ⟨h, _⟩; cases h)]
  case idleFails =>
    exact ⟨s, (if_pos hp).trans (congrArg _ ((if_pos hk).trans ((State.onLink_up hlive hup _).trans (if_neg (by rw [hpass]; exact Bool.false_ne_true))))), rfl⟩
  case nack =>
    refine ⟨_, (if_pos hp).trans (congrArg _ ((if_pos hk).trans ((State.onLink_up hlive hup _).trans (if_pos hpass)))), ?_⟩
    rw [State.takeAck, if_neg (by rw [hack]; exact Bool.false_ne_true), if_pos hnack]
    exact State.takeNack_left hr p f.ackSeq
  case hold =>
    refine ⟨_, (if_pos hp).trans (congrArg _ ?_), rfl⟩
    have hlinked : (s.fport p).linked = true := by rw [FabPort.linked, hup]; rfl
    have hkind : f.kind = fkHold := hk
    dsimp only [doHold]
    rw [if_pos (by rw [hlive, hkind, hpass, hlinked]; rfl), if_neg (by rw [hack]; exact Bool.false_ne_true), if_neg (by rw [hup]; decide)]
    rfl
  case fails =>
    refine ⟨_, (if_pos hp).trans (congrArg _ ((if_pos hk).trans ((State.sequenced_up hlive hup f _).trans (if_neg (by rw [hfail]; exact Bool.false_ne_true))))), ?_⟩
    exact State.dropFlit_left hr p
  case message =>
    intro m
    have hrow : exec (.data p f) s = .next ((s.flitAccepted p f).dataFlit p f) := (if_pos hp).trans (congrArg _ ((if_pos hk).trans (hseq hplain _)))
    have hlen : f.payload.length / 240 = 1 := by
      obtain ⟨hpass, _⟩ := hplain
      rw [Flit.passes, Bool.and_eq_true, beq_iff_eq] at hpass
      rw [hpass.1]
    have hdata : (s.flitAccepted p f).dataFlit p f = if m.mkind = 0 ∨ 0xE < m.mkind
        then State.errMsg ((s.flitAccepted p f).setFport p (FabPort.freeBuffers { y with assembling := SMap.set [] y.assembling f.vc [] } f.vc 1)) p m.src
        else State.wakeFor ((s.flitAccepted p f).setFport p { y with assembling := SMap.set [] y.assembling f.vc [], inq := y.inq ++ [(f.vc, 1, m)] }) m := by
      rw [State.dataFlit_whole hfirst hlast hlen, hvp]
    rw [hdata] at hrow
    refine ⟨fun hkind => ?_, fun hkind => ?_⟩
    · have hwake : ∀ z : State, z.power.state = .active → z.wakeFor m = z := fun z hz => by
        have hup : z.wake = z := by rw [State.wake, if_neg (by rw [hz]; rintro (h | h) <;> cases h)]
        rw [State.wakeFor, hup, ite_self]
      rw [if_neg (by omega), hwake _ (by exact hact)] at hrow
      exact ⟨_, hrow, hv _⟩
    · rw [if_pos hkind] at hrow
      obtain ⟨w, hw⟩ : ∃ w, (s.flitAccepted p f).setFport p (FabPort.freeBuffers { y with assembling := SMap.set [] y.assembling f.vc [] } f.vc 1) = w := ⟨_, rfl⟩
      have hwp : w.fport p = FabPort.freeBuffers { y with assembling := SMap.set [] y.assembling f.vc [] } f.vc 1 := hw ▸ State.fport_setFport hvr
      rw [hw] at hrow
      have hport := (State.fport_of_errorless (State.errorless_raiseError w 0x0304 contained .port p none (put m.src 13 0 + 2 ^ 16)) p).trans hwp
      have hraised := State.raiseError_raised w 0x0304 contained .port p none (put m.src 13 0 + 2 ^ 16)
      refine ⟨_, hrow, ?_, ?_, ?_⟩
      · exact hraised.trans (by rw [← hw]; rfl)
      · have hinq := congrArg FabPort.inq hport
        exact hinq
      · have hrx := congrArg FabPort.rxSeq hport
        exact hrx
  case part =>
    have hdata : (s.flitAccepted p f).dataFlit p f = (s.flitAccepted p f).setFport p { y with
        assembling := SMap.set [] y.assembling f.vc ((if f.isFirst then [] else SMap.get [] x.assembling f.vc) ++ f.payload) } := by
      dsimp only [State.dataFlit]
      rw [if_pos (by rw [hlast]; rfl), hvp]
      rfl
    exact ⟨_, (if_pos hp).trans (congrArg _ ((if_pos hk).trans ((hseq hplain _).trans hdata))), hv _⟩
  case credit =>
    have hctrl : isCtrl f 1 = true := by rw [isCtrl, Flit.ctrlType, hk, hty]; rfl
    exact ⟨_, (if_pos hp).trans (congrArg _ ((if_pos hctrl).trans ((hseq hplain _).trans (hdone _ rfl)))), hv _⟩
  case timeReq =>
    have hctrl : isCtrl f 3 = true := by rw [isCtrl, Flit.ctrlType, hk, hty]; rfl
    obtain ⟨w, hw⟩ : ∃ w, (s.flitAccepted p f).setFport p (y.freeBuffers f.vc 1) = w := ⟨_, rfl⟩
    have hwr : SMap.rising w.link.ports = true := hw ▸ SMap.rising_set hvr
    have hwp : w.fport p = y.freeBuffers f.vc 1 := hw ▸ State.fport_setFport hvr
    have hwup : (w.fport p).state = .up := by rw [hwp]; exact hup
    have hsend := State.fport_sendCtrl hwr hwup (.timeResp (leAt f.payload 1 8) s.now)
    refine ⟨_, (if_pos hp).trans (congrArg _ ((if_pos hctrl).trans ((hseq hplain _).trans (congrArg (fun z : State => z.sendCtrl p (.timeResp (leAt f.payload 1 8) s.now))
      ((hdone _ rfl).trans hw))))), ?_, ?_, fun k hk' => ?_⟩
    · have hws := State.linkAndCounters_trans (State.flitAccepted_left s p f) (State.setFport_left (s.flitAccepted p f) p (y.freeBuffers f.vc 1))
      rw [hw] at hws
      exact State.linkAndCounters_trans hws (State.sendCtrl_left w p _)
    · have hyctrlq : y.ctrlq = x.ctrlq := rfl
      rw [hsend, hwp, FabPort.freeBuffers_ctrlq, hyctrlq]
    · exact (State.fport_modFport_ne hwr hk').trans (by rw [← hw]; exact (hv _).2.2 k hk')
  case audit =>
    intro sums
    have hctrl : isCtrl f 2 = true := by rw [isCtrl, Flit.ctrlType, hk, hty]; rfl
    have hdo : doAudit p f s = s.sequenced p f (fun t => t.audit p f) := if_pos hctrl
    have hrow : exec (.audit p f) s = .next (doAudit p f s) := if_pos hp
    rw [hdo, hseq hplain] at hrow
    have hin : ∀ v ∈ upto 4, (y.auditSum f.payload v, rxDepth v) ∈ sums := fun v hv => List.mem_map_of_mem hv
    have hvup : ((s.flitAccepted p f).fport p).state = .up := by rw [hvp]; exact hup
    refine ⟨fun heq => ?_, fun ⟨e, he, hlt⟩ => ?_, fun hle ⟨e, he, hlt⟩ => ?_⟩
    · obtain ⟨⟨hsame, hport, hothers⟩, haudits, hdeficits, hsurpluses⟩ :=
        State.audit_even hvr (fun v hv => by rw [hvp]; exact heq _ (hin v hv))
      exact ⟨_, hrow, ⟨State.linkAndCounters_trans (State.flitAccepted_left s p f) hsame, by rw [hport, hvp],
        fun k hk' => (hothers k hk').trans (State.fport_setFport_ne (s := s) hr hk')⟩, haudits, hdeficits, hsurpluses⟩
    · obtain ⟨v', hv', rfl⟩ := List.mem_map.mp he
      obtain ⟨hcount, hcause, hstate, hraised⟩ := State.audit_surplus hvr hv' (by rw [hvp]; exact hlt)
      exact ⟨_, hrow, hcount, hcause, hstate, hraised⟩
    · obtain ⟨v', hv', rfl⟩ := List.mem_map.mp he
      have hdeficit := State.audit_deficit hvr hvup (f := f) (fun v hv => by rw [hvp]; exact hle _ (hin v hv)) hv' (by rw [hvp]; exact hlt)
      obtain ⟨hcount, hstate, hraised, hfixes, hctrlq⟩ := hdeficit
      rw [hvp] at hfixes hctrlq
      have hyfixes : y.auditFixes = x.auditFixes := rfl
      have hyctrlq : y.ctrlq = x.ctrlq := rfl
      rw [hyfixes] at hfixes
      rw [hyctrlq] at hctrlq
      exact ⟨_, hrow, hcount, hstate, hraised, hfixes, hctrlq⟩
  case timeResp =>
    intro t1 t2 t3 corr
    have hctrl : isCtrl f 4 = true := by rw [isCtrl, Flit.ctrlType, hk, hty]; rfl
    have hdo : doTimeResp p f s = s.sequenced p f (fun t => t.timeResp p f) := if_pos hctrl
    have hrow : exec (.timeResp p f) s = .next (doTimeResp p f s) := if_pos hp
    rw [hdo, hseq hplain] at hrow
    obtain ⟨hdelay, hseqno, hbytes, hgm⟩ := State.timeResp_left hvr (f := f) (p := p) (by rw [State.flitAccepted_mem]; exact State.tidy_mem htidy)
    rw [hvp] at hseqno
    rw [State.flitAccepted_now] at hdelay
    rw [State.flitAccepted_isGm, State.flitAccepted_now, State.flitAccepted_time] at hgm
    exact ⟨_, hrow, hdelay, hseqno, fun a ha => (hbytes a ha).trans (State.memByte_of_mem (State.flitAccepted_mem s p f) a), hgm⟩

end Sys2Proof.Machine
end

section
/-! CERTIFICATE. The timers of the link (O51): nacks and acknowledgements, CTRL flits that fall due, the grandmaster's announcements. -/

namespace Sys2Proof.Machine

variable {s t : State} {p : Nat}

theorem State.sendCtrl_up (hup : (s.fport p).state = .up) (c : Ctrl) :
    s.sendCtrl p c = s.setFport p { s.fport p with ctrlq := (s.fport p).ctrlq ++ [c] } := by
  rw [State.sendCtrl, State.modFport]
  exact congrArg (s.setFport p) (if_pos (by rw [hup]; rfl))

theorem State.dispatchMsg_left (s : State) (p : Nat) (m : Msg) : s.dispatchMsg p m = { s with link := (s.dispatchMsg p m).link } := rfl
theorem State.dispatchMsg_sentMsgs (s : State) (p : Nat) (m : Msg) : (s.dispatchMsg p m).link.sentMsgs = s.link.sentMsgs ++ [(p, m)] := rfl
theorem State.dispatchMsg_stream (s : State) (p : Nat) (m : Msg) (d n : Nat) : (s.dispatchMsg p m).stream d n = s.stream d n := rfl
theorem State.setStream_left (s : State) (d n : Nat) (x : Stream) : s.setStream d n x = { s with link := (s.setStream d n x).link } := rfl
theorem State.setStream_sentMsgs (s : State) (d n : Nat) (x : Stream) : (s.setStream d n x).link.sentMsgs = s.link.sentMsgs := rfl

theorem State.link_trans {u : State} (hu : u = { s with link := u.link }) (ht : t = { u with link := t.link }) : t = { s with link := t.link } :=
  ht.trans (congrArg (fun z : State => { z with link := t.link }) hu)

/-! ### TIME_ANNOUNCE -/

theorem FabPort.partnerId_of_still {x y : FabPort} (h : x.still = y.still) : x.partnerId = y.partnerId := by
  have h' := congrArg FabPort.partnerId h
  exact h'

/-- The announcements of a walk over ports, each sent unkept. -/
theorem State.announceUnkept_left (h : SMap.rising s.link.ports = true) (l : List Nat) :
    let t := l.foldl (fun s p => s.dispatchMsg p (s.announcement (s.fport p).partnerId)) s
    t = { s with link := t.link } ∧ t.link.sentMsgs = s.link.sentMsgs ++ l.map (fun q => (q, s.announcement (s.fport q).partnerId)) := by
  induction l generalizing s with
  | nil => exact ⟨rfl, (List.append_nil _).symm⟩
  | cons q l ih =>
    intro t
    obtain ⟨u, hu⟩ : ∃ u, s.dispatchMsg q (s.announcement (s.fport q).partnerId) = u := ⟨_, rfl⟩
    have hstands := hu ▸ PortsStand.dispatchMsg s q (s.announcement (s.fport q).partnerId)
    obtain ⟨hsame, hsent⟩ := ih (s := u) (hstands.rising h)
    have ht : t = l.foldl (fun s p => s.dispatchMsg p (s.announcement (s.fport p).partnerId)) u := by rw [← hu]; rfl
    have hannounce : ∀ id, u.announcement id = s.announcement id := fun id => by rw [← hu]; rfl
    have hmap : l.map (fun k => (k, u.announcement (u.fport k).partnerId)) = l.map (fun k => (k, s.announcement (s.fport k).partnerId)) :=
      List.map_congr_left fun k _ => by rw [hannounce, FabPort.partnerId_of_still (hstands.ports h k)]
    have hus : u = { s with link := u.link } := by rw [← hu]; rfl
    have husent : u.link.sentMsgs = s.link.sentMsgs ++ [(q, s.announcement (s.fport q).partnerId)] := by rw [← hu]; rfl
    rw [← ht] at hsame hsent
    refine ⟨hsame.trans (congrArg (fun z : State => { z with link := t.link }) hus), ?_⟩
    rw [hsent, hmap, husent, List.append_assoc]
    rfl

/-- The one UP port is the one that reaches its partner. -/
theorem State.choosePort_only (h48 : p < 48) (honly : (List.range 48).filter (fun q => (s.fport q).state == .up) = [p])
    (hdirect : (s.fport p).partnerSwitch = false) : s.choosePort (s.fport p).partnerId 48 = some p := by
  have hfilter : (upto 48).filter (fun q => s.portReaches q (s.fport p).partnerId) = [p] := by
    have hup : ∀ q, s.portReaches q (s.fport p).partnerId =
        ((fun q => bit (s.reg 0x03100008) 31 || ((s.fport q).partnerId == (s.fport p).partnerId && !(s.fport q).partnerSwitch)) q && ((s.fport q).state == .up)) :=
      fun q => by rw [State.portReaches, Bool.and_comm]
    rw [List.filter_congr fun q _ => hup q, ← List.filter_filter]
    change List.filter _ ((List.range 48).filter _) = [p]
    rw [honly, List.filter_cons_of_pos (by simp [hdirect])]
    rfl
  have hne : (p != 48) = true := by
    rw [bne_iff_ne]
    omega
  simp only [State.choosePort, hfilter, List.any_cons, List.any_nil, hne, Bool.or_false, if_true, List.filter_cons_of_pos, List.filter_nil, List.find?]
  split
  · next h =>
    split at h
    · exact h.symm
    · cases h
  · rfl

theorem State.fabricId_lt (s : State) : s.fabricId < 2 ^ 14 := Nat.mod_lt _ (by decide)

theorem State.announcement_t3 (s : State) (id : Nat) : (s.announcement id).t3 = b2n s.ownPps + s.fabricId * 2 := by
  have hid := s.fabricId_lt
  simp only [State.announcement, put, Nat.shiftLeft_eq]
  omega

/-- What the announcement to `id` is, with `k` for its sequence number. -/
theorem State.announcement_eq (s : State) (id k : Nat) :
    { s.announcement id with t1 := put 448 63 48 + put k 47 24 + (s.announcement id).t1 % 2 ^ 24 } =
      Msg.mk (msgT0 id s.fabricId 0xE 0 1) (448 * 2 ^ 48 + k % 2 ^ 24 * 2 ^ 24) 0 (b2n s.ownPps + s.fabricId * 2) [] := by
  have ht1 : put 448 63 48 + put k 47 24 + (s.announcement id).t1 % 2 ^ 24 = 448 * 2 ^ 48 + k % 2 ^ 24 * 2 ^ 24 := by
    simp only [State.announcement, put, Nat.shiftLeft_eq]
    omega
  rw [ht1, ← State.announcement_t3 s id]
  rfl

/-- The announcement as it stands has the sequence number 0. -/
theorem State.announcement_unkept (s : State) (id : Nat) :
    s.announcement id = Msg.mk (msgT0 id s.fabricId 0xE 0 1) (448 * 2 ^ 48 + 0 % 2 ^ 24 * 2 ^ 24) 0 (b2n s.ownPps + s.fabricId * 2) [] := by
  rw [← State.announcement_t3 s id]
  rfl

theorem Msg.mkind_announcement (id src : Nat) (t1 t2 t3 : Nat) (d : List Byte) : (Msg.mk (msgT0 id src 0xE 0 1) t1 t2 t3 d).mkind = 0xE := by
  simp only [Msg.mkind, msgT0, put, fld, Nat.shiftLeft_eq, Nat.shiftRight_eq_div_pow]
  omega

theorem State.transportRoom_of_data {m m' : Msg} (h : m.data = m'.data) : s.transportRoom m = s.transportRoom m' := by
  rw [State.transportRoom, State.transportRoom, h]

/-- A message that leaves at a port: its copy is kept. -/
theorem State.leave_toPort {dst n : Nat} {m m' : Msg} (hport : s.choosePort dst 48 = some p)
    (hm : { m with t1 := put n 63 48 + put (s.stream dst n).nextMseq 47 24 + m.t1 % 2 ^ 24 } = m') :
    s.leave dst n m = ((s.setStream dst n { s.stream dst n with
      nextMseq := ((s.stream dst n).nextMseq + 1) % 2 ^ 24,
      unacked := (s.stream dst n).unacked ++ [SentMsg.mk (s.stream dst n).nextMseq m' p s.now 0] }).countSent m').dispatchMsg p m' := by
  subst hm
  simp only [State.leave, hport, Option.getD_some]

/-- Settles O51. -/
theorem linkTimers : Obligations.LinkTimers := by
  unfold Obligations.LinkTimers
  intro s p htidy hp hlive x sends asks
  have hr := State.tidy_ports htidy
  have hasks : ∀ c, x.state = .up → asks c (s.sendCtrl p c) := fun c hup => State.sendCtrl_up hup c
  have htalks : (x.state = .up ∨ x.state = .recovery) → x.talks = true := fun h => by
    rw [FabPort.talks, Bool.or_eq_true, beq_iff_eq, beq_iff_eq]
    exact h
  refine ⟨fun hst hopen hlt => ?nack, fun hst hun => ?ack, fun v n hup howed => ?credit, fun hup => ?audit, fun hup => ?timeReq, fun hgm => ?announce⟩
  case nack =>
    have hgo : (s.linkLive && (s.fport p).talks && (s.fport p).nackOpen) = true := by rw [hlive, htalks hst, hopen]; rfl
    refine ⟨_, (if_pos hp).trans (congrArg _ (if_pos hgo)), rfl, ?_⟩
    have hheader : put fkIdle 63 61 + put 1 58 58 + put 1 57 57 + put (s.fport p).rxSeq 56 45 = 3 * 2 ^ 57 + (s.fport p).rxSeq * 2 ^ 45 := by
      have hlt' : (s.fport p).rxSeq < 4096 := hlt
      simp only [put, fkIdle, Nat.shiftLeft_eq]
      omega
    rw [State.sendNack, hheader]
    rfl
  case ack =>
    have hgo : (s.linkLive && (s.fport p).talks && (s.fport p).unacked != 0) = true := by
      rw [hlive, htalks hst, Bool.true_and, Bool.true_and, bne_iff_ne]
      exact hun
    have hheader : put fkIdle 63 61 + (s.fport p).ackFields = 2 ^ 58 + ((s.fport p).rxSeq + 4095) % 4096 * 2 ^ 45 := by
      rw [FabPort.ackFields, if_neg hun]
      simp only [put, fkIdle, Nat.shiftLeft_eq]
      omega
    refine ⟨_, (if_pos hp).trans (congrArg _ (if_pos hgo)), rfl, State.fport_setFport (s := s) hr, ?_⟩
    rw [State.sendUnsequenced]
    rw [hheader]
    rfl
  case credit =>
    have hdo : doCreditReturn p s = if s.linkLive && (s.fport p).state == .up && !(s.fport p).ctrlq.contains (.credit v) then s.sendCtrl p (.credit v) else s := by
      rw [doCreditReturn, howed]
    refine ⟨fun hnot => ⟨_, (if_pos hp).trans (congrArg _ (hdo.trans (if_pos ?_))), hasks _ hup⟩, fun hin => ⟨s, (if_pos hp).trans (congrArg _ (hdo.trans (if_neg ?_))), rfl⟩⟩
    · have hnot' : (s.fport p).ctrlq.contains (.credit v) = false := by
        rw [Bool.eq_false_iff, ne_eq, List.contains_iff_mem]
        exact hnot
      have hup' : (s.fport p).state = .up := hup
      rw [hlive, hup', hnot']
      rfl
    · have hin' : (s.fport p).ctrlq.contains (.credit v) = true := List.contains_iff_mem.mpr hin
      rw [hin', Bool.not_true, Bool.and_false]
      exact Bool.false_ne_true
  case audit =>
    have hgo : (s.linkLive && (s.fport p).state == .up) = true := by rw [hlive, Bool.true_and, beq_iff_eq]; exact hup
    exact ⟨_, (if_pos hp).trans (congrArg _ (if_pos hgo)), hasks _ hup⟩
  case timeReq =>
    have hgo : (s.linkLive && (s.fport p).state == .up) = true := by rw [hlive, Bool.true_and, beq_iff_eq]; exact hup
    exact ⟨_, (if_pos hp).trans (congrArg _ (if_pos hgo)), hasks _ hup⟩
  case announce =>
    intro ups msg
    have hrow : exec .timeAnnounceTimer s = .next s.announce := congrArg _ (if_pos (by rw [hlive, hgm]; rfl))
    obtain ⟨kept, hkept⟩ : ∃ k : Nat → Bool, (fun p => !(s.fport p).partnerSwitch && !s.isLost (s.fport p).partnerId) = k := ⟨_, rfl⟩
    obtain ⟨u, hu⟩ : ∃ u, ((ups.filter kept).map (fun p => (s.fport p).partnerId)).eraseDups.foldl (fun s id => s.sendStream id 448 (s.announcement id)) s = u := ⟨_, rfl⟩
    have hdef : s.announce = (ups.filter (fun p => !kept p)).foldl (fun s p => s.dispatchMsg p (s.announcement (s.fport p).partnerId)) u := by
      rw [← hu, ← hkept]
      rfl
    rw [hdef] at hrow
    refine ⟨fun hall => ?_, fun honly hdirect hlost => ?_⟩
    · have hnone : ∀ q ∈ ups, kept q = false := fun q hq => by
        rw [← hkept]
        dsimp only
        rw [hall q hq]
        rfl
      have hempty : ups.filter kept = [] := List.filter_eq_nil_iff.mpr fun q hq h => by
        rw [hnone q hq] at h
        cases h
      have hfull : ups.filter (fun p => !kept p) = ups := List.filter_eq_self.mpr fun q hq => by rw [hnone q hq]; rfl
      have hus : u = s := by
        rw [← hu, hempty]
        rfl
      rw [hfull, hus] at hrow
      obtain ⟨hsame, hsent⟩ := State.announceUnkept_left hr ups
      refine ⟨_, hrow, hsame, ?_⟩
      rw [hsent]
      refine congrArg _ (List.map_congr_left fun q _ => congrArg (Prod.mk q) ?_)
      exact State.announcement_unkept s (s.fport q).partnerId
    · intro st m hwait hroom hbytes
      have hk : kept p = true := by
        have hdirect' : (s.fport p).partnerSwitch = false := hdirect
        rw [← hkept]
        dsimp only
        rw [hdirect', hlost]
        rfl
      have hups : ups.filter kept = [p] := by rw [honly, List.filter_cons_of_pos hk, List.filter_nil]
      have hrest : ups.filter (fun p => !kept p) = [] := by
        rw [honly, List.filter_cons_of_neg (by rw [hk]; exact Bool.false_ne_true), List.filter_nil]
      have hus : s.sendStream x.partnerId 448 (s.announcement x.partnerId) = u := by
        rw [← hu, hups]
        rfl
      rw [hrest, List.foldl_nil] at hrow
      have hport := State.choosePort_only hp honly hdirect
      have hmsg := State.announcement_eq s x.partnerId st.nextMseq
      obtain ⟨v, hv⟩ : ∃ v, s.setStream x.partnerId 448 { st with
          nextMseq := (st.nextMseq + 1) % 2 ^ 24, unacked := st.unacked ++ [SentMsg.mk st.nextMseq m p s.now 0] } = v := ⟨_, rfl⟩
      have hdata : (s.announcement x.partnerId).data = [] := rfl
      have hdata' : m.data = [] := rfl
      have hleave : u = v.dispatchMsg p m := by
        rw [← hus, State.sendStream, if_neg (by rw [hlost]; exact Bool.false_ne_true)]
        dsimp only
        rw [if_pos ⟨hwait, by
          rw [State.mayLeave, Bool.and_eq_true, Bool.and_eq_true, decide_eq_true_eq]
          exact ⟨⟨hroom, rfl⟩, (State.transportRoom_of_data (hdata.trans hdata'.symm)).trans hbytes⟩⟩]
        have hcount : ∀ z : State, z.countSent m = z := fun z => by
          rw [State.countSent, if_neg (by rw [Msg.mkind_announcement]; decide)]
        rw [State.leave_toPort hport hmsg, hcount]
        exact congrArg (fun z : State => z.dispatchMsg p m) hv
      have hstream : v.stream x.partnerId 448 = { st with
          nextMseq := (st.nextMseq + 1) % 2 ^ 24, unacked := st.unacked ++ [SentMsg.mk st.nextMseq m p s.now 0] } := by
        rw [← hv]
        exact SMap.get_set_value (fun h => absurd (congrArg Stream.unacked h) (by simp)) _ _
      have hvs : v = { s with link := v.link } := by rw [← hv, State.setStream_left]
      have hvsent : v.link.sentMsgs = s.link.sentMsgs := by rw [← hv, State.setStream_sentMsgs]
      rw [hleave] at hrow
      refine ⟨_, hrow, State.link_trans hvs (State.dispatchMsg_left v p m), ?_, (State.dispatchMsg_stream v p m _ _).trans hstream⟩
      rw [State.dispatchMsg_sentMsgs, hvsent]

end Sys2Proof.Machine
end

section
/-! SUPPORT. Messages served in their turn (R372, R375): what serving one changes of the link block alone, and its reply. -/

namespace Sys2Proof.Machine

variable {s t u : State} {p vc n : Nat} {m : Msg}

/-- From `s` to `t` no more changes than traffic of the link block: ports, streams, what was sent and where the next message leaves. -/
structure TrafficOnly (s t : State) : Prop where
  same : t = { s with link := { s.link with ports := t.link.ports, streams := t.link.streams, rr := t.link.rr, sentMsgs := t.link.sentMsgs } }

namespace TrafficOnly

theorem refl (s : State) : TrafficOnly s s := ⟨rfl⟩

theorem trans (h : TrafficOnly s t) (h' : TrafficOnly t u) : TrafficOnly s u :=
  ⟨h'.same.trans (congrArg (fun z : State => { z with link := { z.link with
    ports := u.link.ports, streams := u.link.streams, rr := u.link.rr, sentMsgs := u.link.sentMsgs } }) h.same)⟩

theorem left (h : TrafficOnly s t) : t = { s with link := t.link } := by
  rw [h.same]

theorem modFport (s : State) (p : Nat) (f : FabPort → FabPort) : TrafficOnly s (s.modFport p f) := ⟨rfl⟩
theorem setStream (s : State) (d n : Nat) (x : Stream) : TrafficOnly s (s.setStream d n x) := ⟨rfl⟩
theorem dispatchMsg (s : State) (p : Nat) (m : Msg) : TrafficOnly s (s.dispatchMsg p m) := ⟨rfl⟩

theorem sendReply (s : State) (m : Msg) : TrafficOnly s (s.sendReply m) := by
  rw [State.sendReply]
  split
  · exact dispatchMsg s _ m
  · exact refl s

theorem sendAck (s : State) (m : Msg) (st : Nat) : TrafficOnly s (s.sendAck m st) := sendReply s _
theorem respond (s : State) (m : Msg) (k : Nat) (bs : List Byte) : TrafficOnly s (s.respond m k bs) := sendReply s _

/-! ### What stands -/

theorem mem (h : TrafficOnly s t) : t.mem = s.mem := by rw [h.same]
theorem tacks (h : TrafficOnly s t) : t.tacks = s.tacks := by rw [h.same]
theorem errq (h : TrafficOnly s t) : t.errq = s.errq := by rw [h.same]
theorem now (h : TrafficOnly s t) : t.now = s.now := by rw [h.same]
theorem remoteApplied (h : TrafficOnly s t) : t.remoteApplied = s.remoteApplied := by rw [h.same]
theorem remoteRejected (h : TrafficOnly s t) : t.remoteRejected = s.remoteRejected := by rw [h.same]
theorem time (h : TrafficOnly s t) : t.link.time = s.link.time := by rw [h.same]
theorem held (h : TrafficOnly s t) : t.link.held = s.link.held := by rw [h.same]
theorem lost (h : TrafficOnly s t) : t.link.lost = s.link.lost := by rw [h.same]
theorem colls (h : TrafficOnly s t) : t.link.colls = s.link.colls := by rw [h.same]
theorem comms (h : TrafficOnly s t) : t.link.comms = s.link.comms := by rw [h.same]
theorem fabricId (h : TrafficOnly s t) : t.fabricId = s.fabricId := by rw [h.same]; rfl
theorem memByte (h : TrafficOnly s t) (a : Nat) : t.memByte a = s.memByte a := State.memByte_of_mem h.mem a
theorem unreachable (h : TrafficOnly s t) (a : Nat) : t.unreachable a = s.unreachable a := by rw [h.same]; rfl
theorem unitPoisoned (h : TrafficOnly s t) (a : Nat) : t.unitPoisoned a = s.unitPoisoned a := by rw [h.same]; rfl
theorem poisoned (h : TrafficOnly s t) (a n : Nat) : t.poisoned a n = s.poisoned a n := by rw [h.same]; rfl
theorem remoteMay (h : TrafficOnly s t) (m : Msg) : t.remoteMay m = s.remoteMay m := by rw [h.same]; rfl
theorem tack (h : TrafficOnly s t) (k : Nat) : t.tack k = s.tack k := State.tack_of_tacks h.tacks k

end TrafficOnly

/-! ### A message is served -/

/-- A port whose message is served: its buffers are free, and it waits no more. -/
def State.served (s : State) (p : Nat) (m : Msg) (vc n : Nat) : State :=
  s.modFport p (fun x => { x.freeBuffers vc n with inq := x.inq.eraseP (fun e => e.2.2 == m) })

theorem doMessage_served {kind : Nat} (hkind : m.mkind = kind) (hlive : s.linkLive = true) (hrest : s.resting = false ∨ m.mkind = 0xE)
    (hfind : (s.fport p).inq.find? (fun e => e.2.2 == m) = some (vc, n, m)) : doMessage kind p m s = (s.served p m vc n).receive p m := by
  subst hkind
  have hgo : ¬(m.mkind != m.mkind || !s.linkLive || (s.resting && m.mkind != 0xE)) = true := by
    rw [bne_self_eq_false, hlive]
    rcases hrest with h | h
    · rw [h]
      exact Bool.false_ne_true
    · rw [h, bne_self_eq_false, Bool.and_false]
      exact Bool.false_ne_true
  have hholds : (s.fport p).holds' m = some (vc, n, m) := hfind
  rw [doMessage, if_neg hgo, hholds]
  rfl

/-- A message of its stream that is next, with none that waits behind it. -/
theorem State.deliverMsg_inTurn {st : Stream} (hst : s.stream m.src m.streamNo = st) (hseq : m.mseq = st.expected) (hre : st.reorder = []) :
    let x := (s.setStream m.src m.streamNo { st with expected := (m.mseq + 1) % 2 ^ 24 }).perform p m
    s.deliverMsg p m = x.1.sendAck m x.2 := by
  intro x
  subst hst
  have hdef : s.deliverMsg p m = (x.1.sendAck m x.2).drainReorder p m.src m.streamNo (s.stream m.src m.streamNo).reorder.length := if_pos hseq
  rw [hdef, hre]
  rfl

/-- A message from a live module to this one that is neither its management's nor a response is taken in its stream. -/
theorem State.receive_deliver (hkind : m.mkind ≠ 13 ∧ m.mkind ≠ 14 ∧ m.mkind ≠ 7 ∧ m.mkind ≠ 3 ∧ m.mkind ≠ 5) (hdst : m.dst = s.fabricId)
    (hlost : s.isLost m.src = false) : s.receive p m = s.deliverMsg p m := by
  obtain ⟨h13, h14, h7, h3, h5⟩ := hkind
  rw [State.receive, if_neg (by rintro ⟨h | h, _⟩ <;> omega), if_neg h13, if_neg h14, if_neg (by simp [hdst, hlost]), if_neg h7,
    if_neg (by rintro (h | h) <;> omega)]

/-- What the address form of a message that is refused leaves: a report. -/
theorem State.addressForm_refused (hno : s.remoteMay m = false) : s.addressForm p m = (s.errMsg p m.src, stContained) := by
  rw [State.addressForm, hno, if_pos (by simp)]

theorem State.addressForm_put (hkind : m.mkind = 1) (hmay : s.remoteMay m = true) :
    s.addressForm p m = ((s.writeBytes m.t2 m.data).countBytes none false m.t2 m.data.length, stOk) := by
  rw [State.addressForm, if_neg (by simp [hkind, hmay]), if_pos hkind]

/-- A remote read of units that hold no poison: the bytes of memory. -/
theorem State.remoteRead_clean {a : Nat} (h : s.poisoned a n = false) :
    s.remoteRead a n = ((List.range n).map (fun j => s.memByte (a + j)), s.countBytes none true a n) := by
  have hunit : ∀ i < n, s.unitPoisoned ((a + i) / 256) = false := fun i hi => by
    rw [State.poisoned, List.any_eq_false] at h
    refine Bool.eq_false_iff.mpr (h ((a + i) / 256) ?_)
    rw [unitsOf, if_neg (by omega)]
    exact List.mem_map.mpr ⟨(a + i) / 256 - a / 256, List.mem_range.mpr (by omega), by omega⟩
  have hbytes : (upto n).map (fun i => if s.unitPoisoned ((a + i) / 256) then (Config.freeValue (s.freeCtr + i)).truncate 8 else s.memByte (a + i)) =
      (List.range n).map (fun j => s.memByte (a + j)) :=
    List.map_congr_left fun i hi => if_neg (by rw [hunit i (List.mem_range.mp hi)]; exact Bool.false_ne_true)
  simp only [State.remoteRead, hbytes, h, Bool.false_eq_true, if_false]

theorem State.addressForm_get (hkind : m.mkind = 2) (hmay : s.remoteMay m = true) (hclean : s.poisoned m.t2 m.t3 = false) :
    s.addressForm p m = (State.respond (s.countBytes none true m.t2 m.t3) m 3 ((List.range m.t3).map (fun j => s.memByte (m.t2 + j))), stOk) := by
  rw [State.addressForm, if_neg (by simp [hkind, hmay]), if_neg (by omega), if_pos hkind, State.remoteRead_clean hclean]

theorem State.addressForm_atomic (hkind : m.mkind = 4) (hop : m.atomicOp ≠ 3) (hmay : s.remoteMay m = true)
    (hclean : s.poisoned (m.t2 / 8 * 8) 8 = false) :
    let a := m.t2 / 8 * 8
    let bs := (List.range 8).map (fun j => s.memByte (a + j))
    s.addressForm p m = (State.respond (((s.countBytes none true a 8).writeLe a 8 (atomicNew m.atomicOp (ofLe bs) m.t3 (leAt m.data 0 8))).countBytes none false a 8) m 5 bs, stOk) := by
  intro a bs
  have hwhere : Msg.where' m = a := if_pos hkind
  rw [State.addressForm, if_neg (by simp [hkind, hmay, hop]), if_neg (by omega), if_neg (by omega), hwhere]
  dsimp only
  rw [State.remoteRead_clean hclean]

/-! ### Memory of the address form -/

theorem State.countBytes_mem (s : State) (d : Option Nat) (rd : Bool) (a n : Nat) : (s.countBytes d rd a n).mem = s.mem := by
  rw [State.countBytes_eq]

theorem State.countBytes_unreachable (s : State) (d : Option Nat) (rd : Bool) (a n x : Nat) : (s.countBytes d rd a n).unreachable x = s.unreachable x := by
  rw [State.countBytes_eq]
  rfl

/-- Bytes written and counted: those that can be reached read back, and no other changes. -/
theorem State.memByte_written (hm : Memory.wf s.mem = true) (a : Nat) (bs : List Byte) (d : Option Nat) (k : Nat) :
    (∀ j, j < bs.length → s.unreachable (a + j) = false → ((s.writeBytes a bs).countBytes d false a k).memByte (a + j) = bs.getD j 0) ∧
      ∀ x, x < a ∨ a + bs.length ≤ x → ((s.writeBytes a bs).countBytes d false a k).memByte x = s.memByte x := by
  have hcount := State.memByte_of_mem (State.countBytes_mem (s.writeBytes a bs) d false a k)
  exact ⟨fun j hj hreach => (hcount _).trans (State.memByte_putBytes_in hm hj hreach), fun x hx => (hcount _).trans (State.memByte_putBytes_out hm hx)⟩

theorem State.written_tacks (s : State) (a : Nat) (bs : List Byte) (k : Nat) : ((s.writeBytes a bs).countBytes none false a k).tacks = s.tacks := by
  obtain ⟨po, co, g, c, h⟩ := State.writeBytes_counted s a k bs
  rw [h]

/-! ### What a message of each kind does -/

theorem State.perform_address (h : m.mkind = 1 ∨ m.mkind = 2 ∨ m.mkind = 4) : s.perform p m = s.addressForm p m := if_pos h

theorem State.perform_peerDown (h : m.mkind = 13) : s.perform p m = (s.declareLost (m.t3 % 2 ^ 14), stOk) := by
  rw [State.perform, if_neg (by rintro (h' | h' | h') <;> omega), if_pos h]

theorem State.perform_announce (h : m.mkind = 14) : s.perform p m = (s.hearGm (bit m.t3 0) (fld m.t3 14 1), stOk) := by
  rw [State.perform, if_neg (by rintro (h' | h' | h') <;> omega), if_neg (by omega), if_pos h]

theorem State.perform_tackAdd (h : m.mkind = 6) : s.perform p m = ((s.addCtx m.domain 6 (256 * m.flits)).remoteTack p m, stOk) := by
  rw [State.perform, if_neg (by rintro (h' | h' | h') <;> omega), if_neg (by omega), if_neg (by omega), if_pos h]

theorem State.perform_coll (h : 8 ≤ m.mkind ∧ m.mkind ≤ 12) : s.perform p m = ((s.addCtx m.domain 6 (256 * m.flits)).collMsg p m, stOk) := by
  rw [State.perform, if_neg (by rintro (h' | h' | h') <;> omega), if_neg (by omega), if_neg (by omega), if_neg (by omega)]

/-! ### Management messages -/

theorem State.inStream_iff (s : State) (m : Msg) : s.inStream m = true ↔ (m.dst = s.fabricId ∧ s.isLost m.src = false) ∧ m.streamNo = 448 := by
  rw [State.inStream, Bool.and_eq_true, Bool.and_eq_true, beq_iff_eq, beq_iff_eq, Bool.not_eq_true']

theorem State.receive_management (h : m.mkind = 13 ∨ m.mkind = 14) (hin : s.inStream m = true) : s.receive p m = s.deliverMsg p m := if_pos ⟨h, hin⟩

theorem State.receive_peerDown (h : m.mkind = 13) (hin : ¬s.inStream m = true) : s.receive p m = s.declareLost (m.t3 % 2 ^ 14) :=
  (if_neg fun h' => hin h'.2).trans (if_pos h)

theorem State.receive_announce (h : m.mkind = 14) (hin : ¬s.inStream m = true) : s.receive p m = s.hearGm (bit m.t3 0) (fld m.t3 14 1) :=
  (if_neg fun h' => hin h'.2).trans ((if_neg (by omega)).trans (if_pos h))

theorem State.receive_ack (h : m.mkind = 7) (hdst : m.dst = s.fabricId) (hlost : s.isLost m.src = false) : s.receive p m = s.takeMsgAck m := by
  rw [State.receive, if_neg (by rintro ⟨h' | h', _⟩ <;> omega), if_neg (by omega), if_neg (by omega), if_neg (by simp [hdst, hlost]), if_pos h]

theorem State.receive_response (h : m.mkind = 3 ∨ m.mkind = 5) : s.receive p m = s := by
  rw [State.receive, if_neg (by rintro ⟨h' | h', _⟩ <;> omega), if_neg (by omega), if_neg (by omega), if_neg (c := m.mkind = 7) (by omega), if_pos h, ite_self]

end Sys2Proof.Machine
end
section
/-! CERTIFICATE. What a received message does (O52). -/

namespace Sys2Proof.Machine

variable {s t u : State} {p vc n : Nat} {m : Msg}

/-- A tack operation of another module, taken or refused (R261, R269). -/
theorem State.remoteTack_taken (h : SMap.rising s.tacks = true) (hok : (s.tack (m.t2 % 2 ^ 14)).remoteOk = true) :
    let k := m.t2 % 2 ^ 14
    let t := s.remoteTack p m
    (t.tack k).value = ((s.tack k).value + m.t3 % 2 ^ 32) % 2 ^ 32 ∧ (∀ j, j ≠ k → t.tack j = s.tack j) ∧
      t.remoteApplied = (s.remoteApplied + 1) % 2 ^ 64 ∧ t.mem = s.mem := by
  intro k t
  obtain ⟨w, hw⟩ : ∃ w, ({ s with remoteApplied := (s.remoteApplied + 1) % 2 ^ 64 } : State) = w := ⟨_, rfl⟩
  have ht : t = w.tackAdd k (m.t3 % 2 ^ 32) := by
    rw [← hw]
    exact if_pos hok
  have hwt : w.tacks = s.tacks := by rw [← hw]
  obtain ⟨hsame, hothers, hport⟩ := State.tackAdd_left (s := w) (by rw [hwt]; exact h) k (m.t3 % 2 ^ 32)
  rw [ht]
  refine ⟨?_, fun j hj => (hothers j hj).trans (State.tack_of_tacks hwt j), ?_, ?_⟩
  · rw [hport, State.tack_of_tacks hwt k]
  · rw [hsame, ← hw]
  · rw [hsame, ← hw]

theorem State.remoteTack_refused (hno : (s.tack (m.t2 % 2 ^ 14)).remoteOk = false) :
    let t := s.remoteTack p m
    t.tacks = s.tacks ∧ t.remoteRejected = (s.remoteRejected + 1) % 2 ^ 64 ∧ t.errq.raised = s.errq.raised + 1 := by
  intro t
  obtain ⟨w, hw⟩ : ∃ w, ({ s with remoteRejected := (s.remoteRejected + 1) % 2 ^ 64 } : State) = w := ⟨_, rfl⟩
  have ht : t = w.errMsg p m.src := by
    rw [← hw]
    exact if_neg (by rw [hno]; exact Bool.false_ne_true)
  have herr : (w.errMsg p m.src).errorless = w.errorless := State.errorless_raiseError ..
  have hrej : (w.errMsg p m.src).remoteRejected = w.remoteRejected := by
    have h := congrArg State.remoteRejected herr
    exact h
  rw [ht]
  refine ⟨?_, ?_, ?_⟩
  · rw [State.tacks_of_errorless herr, ← hw]
  · rw [hrej, ← hw]
  · refine (State.raiseError_raised ..).trans ?_
    rw [← hw]

/-- A message of a collective that this member has not reached is held. -/
theorem State.collMsg_held (hnone : s.coll m.comm m.k = none) (hnot : s.notReached m.comm m.k = true) (hdata : m.mkind ≠ 10)
    (habort : m.mkind = 12 → m.t3 % 256 ≠ stPeerLost) (hcomm : (s.comm m.comm).lost = none) :
    s.collMsg p m = { s with link := { s.link with held := s.link.held ++ [(p, m)] } } := by
  have hloss : (if m.mkind = 0x0C then s.abortLoss m.comm m.src (m.t3 % 256) else s) = s := by
    split
    · next h => rw [State.abortLoss, if_neg fun hs => habort h hs.1]
    · rfl
  rw [State.collMsg, hnone]
  dsimp only
  rw [hloss, hnot, hcomm, if_pos (by rfl), State.holdColl, if_neg hdata, if_neg hdata]

/-- A module that is declared lost is one of the lost, where it is another. -/
theorem State.mem_lost_declareLost {id : Nat} (hne : id ≠ s.fabricId) : id ∈ (s.declareLost id).link.lost := by
  simp only [State.declareLost]
  split
  · next h =>
    rw [Bool.or_eq_true, beq_iff_eq] at h
    exact of_decide_eq_true (h.resolve_right hne)
  · generalize hw : ({ s with link := _ } : State) = w
    have hin : id ∈ w.link.lost := by
      rw [← hw]
      exact mem_setIns.mpr (.inl rfl)
    exact (PortsStand.ofLoss w w id _ (PortsStand.refl w)).lost id hin

/-! ### ACK -/

/-- What a map holds at a key stands in it, or is the default. -/
theorem SMap.get_mem_or {α : Type} (d : α) (m : SMap α) (k : Nat) : SMap.get d m k = d ∨ (k, SMap.get d m k) ∈ m := by
  induction m with
  | nil => exact .inl rfl
  | cons e m ih =>
    rw [SMap.get]
    split
    · exact .inl rfl
    · split
      · next h =>
        subst h
        exact .inr List.mem_cons_self
      · exact ih.imp_right (List.mem_cons_of_mem e)

/-- What a key that is set adds to a map. -/
theorem SMap.mem_of_mem_set {α : Type} [DecidableEq α] {d : α} {m : SMap α} {k : Nat} {v : α} {e : Nat × α} (h : e ∈ SMap.set d m k v) :
    e = (k, v) ∨ e ∈ m := by
  have hcons : ∀ l : SMap α, e ∈ SMap.cons d k v l → e = (k, v) ∨ e ∈ l := fun l hl => by
    rw [SMap.cons] at hl
    split at hl
    · exact .inr hl
    · exact List.mem_cons.mp hl
  induction m with
  | nil => exact hcons [] h
  | cons f m ih =>
    rw [SMap.set] at h
    split at h
    · exact hcons _ h
    · split at h
      · exact (hcons _ h).imp_right (List.mem_cons_of_mem f)
      · rcases List.mem_cons.mp h with rfl | h
        · exact .inr List.mem_cons_self
        · exact (ih h).imp_right (List.mem_cons_of_mem f)

/-- With no message that waits, freed copies let none leave. -/
theorem State.drainStreams_idle (h : ∀ e ∈ s.link.streams, e.2.waiting = []) : s.drainStreams = s := by
  have hnone : s.link.streams.filter (fun e => !e.2.waiting.isEmpty) = [] := List.filter_eq_nil_iff.mpr fun e he hw => by
    rw [h e he] at hw
    cases hw
  rw [State.drainStreams, hnone]
  rfl

theorem State.waiting_setStream {d k : Nat} {x : Stream} (h : ∀ e ∈ s.link.streams, e.2.waiting = []) (hx : x.waiting = []) :
    ∀ e ∈ (s.setStream d k x).link.streams, e.2.waiting = [] := fun e he => by
  rcases SMap.mem_of_mem_set he with rfl | he
  · exact hx
  · exact h e he

theorem State.stream_waiting (h : ∀ e ∈ s.link.streams, e.2.waiting = []) (d k : Nat) : (s.stream d k).waiting = [] := by
  rcases SMap.get_mem_or ({} : Stream) s.link.streams (512 * d + k) with hd | hm
  · exact congrArg Stream.waiting hd
  · exact h _ hm

/-- The grandmaster that is heard, where none was. -/
theorem State.hearGm_first (h : s.link.time.gmId = none) (pps : Bool) (id : Nat) :
    s.hearGm pps id = { s with link := { s.link with time := { s.link.time with gmId := some id, gmPps := pps, heardAt := s.now } } } := by
  have hnone : s.heardGm = none := by rw [State.heardGm, h]
  simp only [State.hearGm, hnone, if_true]

theorem State.hearGm_left (s : State) (pps : Bool) (id : Nat) : s.hearGm pps id = { s with link := (s.hearGm pps id).link } := by
  simp only [State.hearGm]
  split <;> split <;> rfl

/-- Settles O52. -/
theorem messages : Obligations.Messages := by
  unfold Obligations.Messages
  intro s p m vc n htidy hp hlive hrest hfind u live st inTurn v
  have hm := State.tidy_mem htidy
  have hu : TrafficOnly s u := TrafficOnly.modFport s p _
  have hv : TrafficOnly s v := hu.trans (TrafficOnly.setStream u _ _ _)
  have hserved : ∀ kind, m.mkind = kind → doMessage kind p m s = u.receive p m := fun kind hk => doMessage_served hk hlive hrest hfind
  have hdst : live → m.dst = u.fabricId ∧ u.isLost m.src = false := fun h => ⟨h.1.trans hu.fabricId.symm, h.2⟩
  have hdeliver : inTurn → u.deliverMsg p m = (v.perform p m).1.sendAck m (v.perform p m).2 := fun h => State.deliverMsg_inTurn (st := st) rfl h.1 h.2
  have hturn : live → inTurn → (m.mkind ≠ 13 ∧ m.mkind ≠ 14 ∧ m.mkind ≠ 7 ∧ m.mkind ≠ 3 ∧ m.mkind ≠ 5) →
      u.receive p m = (v.perform p m).1.sendAck m (v.perform p m).2 := fun hl ht hk =>
    (State.receive_deliver hk (hdst hl).1 (hdst hl).2).trans (hdeliver ht)
  have hin : u.inStream m = true ↔ live ∧ m.streamNo = 448 := by
    rw [State.inStream_iff, hu.fabricId]
    exact Iff.rfl
  refine ⟨fun hl ht => ⟨fun hk hmay => ?put, fun hk hmay => ?refused, fun hk hmay hclean => ?get, fun hk hop hmay hclean => ?atomic, fun hk => ?tack, fun i hi => ?coll⟩,
    fun hl hk => ?ack, fun i hi => ?response, ?management⟩
  case put =>
    have hdo := (hserved 1 hk).trans (hturn hl ht (by omega))
    rw [State.perform_address (.inl hk), State.addressForm_put hk (hv.remoteMay m ▸ hmay)] at hdo
    have hrow : exec (.put p m) s = .next (doMessage 1 p m s) := if_pos hp
    rw [hdo] at hrow
    obtain ⟨hinside, houtside⟩ := State.memByte_written (s := v) (hv.mem ▸ hm) m.t2 m.data none m.data.length
    have hack := (TrafficOnly.sendAck ((v.writeBytes m.t2 m.data).countBytes none false m.t2 m.data.length) m stOk).memByte
    exact ⟨_, hrow, rfl, fun j hj hreach => (hack _).trans (hinside j hj ((hv.unreachable _).trans hreach)),
      fun a ha => (hack a).trans ((houtside a ha).trans (hv.memByte a))⟩
  case refused =>
    have hdo := (hserved 1 hk).trans (hturn hl ht (by omega))
    rw [State.perform_address (.inl hk), State.addressForm_refused ((hv.remoteMay m).trans hmay)] at hdo
    have hrow : exec (.put p m) s = .next (doMessage 1 p m s) := if_pos hp
    rw [hdo] at hrow
    have hack := TrafficOnly.sendAck (v.errMsg p m.src) m stContained
    have hraised : (v.errMsg p m.src).errq.raised = v.errq.raised + 1 := State.raiseError_raised ..
    have hkept : WorkOnly v (v.errMsg p m.src) := WorkOnly.raiseError ..
    refine ⟨_, hrow, ?_, fun a ha => (hack.memByte a).trans ((hkept.memByte (hv.mem ▸ hm) ha).trans (hv.memByte a))⟩
    rw [hack.errq, hraised, hv.errq]
  case get =>
    have hdo := (hserved 2 hk).trans (hturn hl ht (by omega))
    rw [State.perform_address (.inr (.inl hk)), State.addressForm_get hk ((hv.remoteMay m).trans hmay) ((hv.poisoned _ _).trans hclean)] at hdo
    have hrow : exec (.get p m) s = .next (doMessage 2 p m s) := if_pos hp
    rw [hdo, funext hv.memByte] at hrow
    refine ⟨_, hrow, rfl, ?_⟩
    exact (TrafficOnly.sendAck _ m stOk).mem.trans ((TrafficOnly.respond _ m 3 _).mem.trans ((State.countBytes_mem ..).trans hv.mem))
  case atomic =>
    intro a old new
    have hdo := (hserved 4 hk).trans (hturn hl ht (by omega))
    rw [State.perform_address (.inr (.inr hk)), State.addressForm_atomic hk hop ((hv.remoteMay m).trans hmay) ((hv.poisoned _ _).trans hclean)] at hdo
    have hrow : exec (.atomic p m) s = .next (doMessage 4 p m s) := if_pos hp
    have hnew : atomicNew m.atomicOp (ofLe ((List.range 8).map (fun j => v.memByte (a + j)))) m.t3 (leAt m.data 0 8) = new := by
      rw [funext hv.memByte]
      rfl
    rw [hdo] at hrow
    dsimp only at hrow
    rw [hnew] at hrow
    obtain ⟨w, hw⟩ : ∃ w, v.countBytes none true a 8 = w := ⟨_, rfl⟩
    have hwm : w.mem = s.mem := by rw [← hw, State.countBytes_mem, hv.mem]
    have hwt : w.tacks = s.tacks := by rw [← hw, State.countBytes_eq]; exact hv.tacks
    have hwr : ∀ x, w.unreachable x = s.unreachable x := fun x => by rw [← hw, State.countBytes_unreachable, hv.unreachable]
    obtain ⟨hinside, houtside⟩ := State.memByte_written (s := w) (hwm ▸ hm) a (leBytes 8 new) none 8
    have htacks := State.written_tacks w a (leBytes 8 new) 8
    rw [leBytes_length] at hinside houtside
    rw [hw] at hrow
    have hreply := (TrafficOnly.respond ((w.writeBytes a (leBytes 8 new)).countBytes none false a 8) m 5 ((List.range 8).map (fun j => v.memByte (a + j)))).trans
      (TrafficOnly.sendAck _ m stOk)
    refine ⟨_, hrow, fun j hj hreach => ?_, fun b hb => ?_, hreply.tacks.trans (htacks.trans hwt)⟩
    · exact (hreply.memByte _).trans ((hinside j hj ((hwr _).trans hreach)).trans (leBytes_getD 8 new j hj))
    · exact (hreply.memByte b).trans ((houtside b hb).trans (State.memByte_of_mem hwm b))
  case tack =>
    intro k
    have hdo := (hserved 6 hk).trans (hturn hl ht (by omega))
    rw [State.perform_tackAdd hk] at hdo
    have hrow : exec (.tackAdd p m) s = .next (doMessage 6 p m s) := if_pos hp
    rw [hdo] at hrow
    obtain ⟨w, hw⟩ : ∃ w, v.addCtx m.domain 6 (256 * m.flits) = w := ⟨_, rfl⟩
    rw [hw] at hrow
    have hwt : w.tacks = s.tacks := by rw [← hw]; exact hv.tacks
    have hwa : w.remoteApplied = s.remoteApplied := by rw [← hw]; exact hv.remoteApplied
    have hwr : w.remoteRejected = s.remoteRejected := by rw [← hw]; exact hv.remoteRejected
    have hwe : w.errq = s.errq := by rw [← hw]; exact hv.errq
    have hwm : w.mem = s.mem := by rw [← hw]; exact hv.mem
    have hack := TrafficOnly.sendAck (w.remoteTack p m) m stOk
    refine ⟨fun hok => ?_, fun hno => ?_⟩
    · obtain ⟨hvalue, hothers, happlied, hmem⟩ := State.remoteTack_taken (s := w) (p := p) (m := m) (by rw [hwt]; exact State.tidy_tacks htidy)
        (by rw [State.tack_of_tacks hwt]; exact hok)
      refine ⟨_, hrow, ?_, fun j hj => ?_, ?_, hack.mem.trans (hmem.trans hwm)⟩
      · rw [hack.tack, hvalue, State.tack_of_tacks hwt]
      · rw [hack.tack, hothers j hj, State.tack_of_tacks hwt]
      · rw [hack.remoteApplied, happlied, hwa]
    · obtain ⟨htacks, hrejected, hraised⟩ := State.remoteTack_refused (s := w) (p := p) (m := m) (by rw [State.tack_of_tacks hwt]; exact hno)
      refine ⟨_, hrow, hack.tacks.trans (htacks.trans hwt), ?_, ?_⟩
      · rw [hack.remoteRejected, hrejected, hwr]
      · rw [hack.errq, hraised, hwe]
  case coll =>
    obtain ⟨w, hw⟩ : ∃ w, v.addCtx m.domain 6 (256 * m.flits) = w := ⟨_, rfl⟩
    suffices hrow : exec i s = .next ((w.collMsg p m).sendAck m 0) by
      refine ⟨_, hrow, by rw [hw], fun hnone hnot hdata habort hcomm => ?_⟩
      have hack := TrafficOnly.sendAck (w.collMsg p m) m 0
      have hwc : w.coll m.comm m.k = s.coll m.comm m.k := by
        rw [← hw, State.coll, State.coll]
        exact congrArg (fun l : List Coll => l.find? (fun c => c.comm == m.comm && c.k == m.k)) hv.colls
      have hwcomm : w.comm m.comm = s.comm m.comm := by
        rw [← hw]
        exact congrArg (fun l : SMap CommState => SMap.get {} l m.comm) hv.comms
      have hwheld : w.link.held = s.link.held := by rw [← hw]; exact hv.held
      have hwm : w.mem = s.mem := by rw [← hw]; exact hv.mem
      have hheld := State.collMsg_held (s := w) (p := p) (hwc.trans hnone) (by rw [State.notReached, hwcomm]; exact hnot) hdata habort (by rw [hwcomm]; exact hcomm)
      refine ⟨?_, ?_⟩
      · rw [hack.held, hheld, ← hwheld]
      · rw [hack.mem, hheld, ← hwm]
    have hdo : ∀ kind, m.mkind = kind → 8 ≤ kind ∧ kind ≤ 12 → doMessage kind p m s = (w.collMsg p m).sendAck m 0 := fun kind hk hr => by
      rw [hserved kind hk, hturn hl ht (by omega), State.perform_coll (by omega), hw]
      rfl
    rcases hi with ⟨hk, rfl⟩ | ⟨hk, rfl⟩ | ⟨hk, rfl⟩ | ⟨hk, rfl⟩ | ⟨hk, rfl⟩
    · exact (if_pos hp).trans (congrArg _ (hdo 8 hk (by omega)))
    · exact (if_pos hp).trans (congrArg _ (hdo 9 hk (by omega)))
    · exact (if_pos hp).trans (congrArg _ (hdo 10 hk (by omega)))
    · exact (if_pos hp).trans (congrArg _ (hdo 11 hk (by omega)))
    · exact (if_pos hp).trans (congrArg _ (hdo 12 hk (by omega)))
  case ack =>
    intro w
    have hdo := (hserved 7 hk).trans (State.receive_ack (p := p) hk (hdst hl).1 (hdst hl).2)
    refine ⟨_, (if_pos hp).trans (congrArg _ hdo), rfl, fun hwait => ?_⟩
    exact State.drainStreams_idle (State.waiting_setStream (s := u) hwait (State.stream_waiting (s := s) hwait m.src m.streamNo))
  case response =>
    have hdo : ∀ kind, m.mkind = kind → kind = 3 ∨ kind = 5 → doMessage kind p m s = u := fun kind hk hr =>
      (hserved kind hk).trans (State.receive_response (by rw [hk]; exact hr))
    rcases hi with ⟨hk, rfl⟩ | ⟨hk, rfl⟩
    · exact ⟨u, (if_pos hp).trans (congrArg _ (hdo 3 hk (.inl rfl))), rfl⟩
    · exact ⟨u, (if_pos hp).trans (congrArg _ (hdo 5 hk (.inr rfl))), rfl⟩
  case management =>
    intro direct
    have hnotDirect : ¬direct ↔ u.inStream m = true := by rw [hin, Classical.not_not]
    refine ⟨fun hk hor => ?_, fun hk hor => ?_⟩
    · have hrow : exec (.peerDown p m) s = .next (doMessage 13 p m s) := if_pos hp
      rw [hserved 13 hk] at hrow
      by_cases hd : direct
      · rw [State.receive_peerDown hk (fun h => hnotDirect.mpr h hd)] at hrow
        exact ⟨_, hrow, fun _ => rfl, fun h => absurd hd h, fun hne => State.mem_lost_declareLost (by rw [hu.fabricId]; exact hne)⟩
      · rw [State.receive_management (.inl hk) (hnotDirect.mp hd), hdeliver (hor.resolve_left hd), State.perform_peerDown hk] at hrow
        refine ⟨_, hrow, fun h => absurd h hd, fun _ => rfl, fun hne => ?_⟩
        rw [(TrafficOnly.sendAck (v.declareLost (m.t3 % 2 ^ 14)) m stOk).lost]
        exact State.mem_lost_declareLost (by rw [hv.fabricId]; exact hne)
    · have hrow : exec (.timeAnnounce p m) s = .next (doMessage 14 p m s) := if_pos hp
      rw [hserved 14 hk] at hrow
      have hheard : ∀ w, TrafficOnly s w → ∀ t, TrafficOnly (w.hearGm (bit m.t3 0) (fld m.t3 14 1)) t → t = { s with link := t.link } ∧
          (s.link.time.gmId = none → t.link.time.gmId = some (fld m.t3 14 1) ∧ t.link.time.gmPps = bit m.t3 0 ∧ t.link.time.heardAt = s.now) := fun w hw t ht => by
        refine ⟨State.link_trans (State.link_trans hw.left (State.hearGm_left w _ _)) ht.left, fun hnone => ?_⟩
        rw [ht.time, State.hearGm_first (by rw [hw.time]; exact hnone)]
        exact ⟨rfl, rfl, hw.now⟩
      by_cases hd : direct
      · rw [State.receive_announce hk (fun h => hnotDirect.mpr h hd)] at hrow
        exact ⟨_, hrow, hheard u hu _ (TrafficOnly.refl _)⟩
      · rw [State.receive_management (.inr hk) (hnotDirect.mp hd), hdeliver (hor.resolve_left hd), State.perform_announce hk] at hrow
        exact ⟨_, hrow, hheard v hv _ (TrafficOnly.sendAck _ m stOk)⟩

end Sys2Proof.Machine
end

section
/-! CERTIFICATE. The timers of the transport and the record of lost modules (O53). -/

namespace Sys2Proof.Machine

variable {s t u : State} {p : Nat}

/-! ### Ports that go DOWN together -/

theorem State.portDown_rising (h : SMap.rising s.link.ports = true) (p cause : Nat) : SMap.rising (s.portDown p cause).link.ports = true :=
  (PortsStand.portLoss (s.setFport p ((s.fport p).dropped .down cause s.now)) _ _).rising (SMap.rising_set h)

/-- What ports that go DOWN in a walk leave: they are DOWN with the cause, and every other port stands. -/
structure PortsDown (s t : State) (l : List Nat) (cause : Nat) : Prop where
  rising : SMap.rising t.link.ports = true
  now : t.now = s.now
  down : ∀ k ∈ l, (t.fport k).state = .down ∧ (t.fport k).cause = cause
  others : ∀ k, k ∉ l → (t.fport k).still = (s.fport k).still

theorem FabPort.down_of_still {x y : FabPort} {cause : Nat} (h : x.still = y) (hy : y.state = .down ∧ y.cause = cause) :
    x.state = .down ∧ x.cause = cause := by
  have hs := congrArg FabPort.state h
  have hc := congrArg FabPort.cause h
  exact ⟨Eq.trans hs hy.1, Eq.trans hc hy.2⟩

theorem State.portsDown (h : SMap.rising s.link.ports = true) (l : List Nat) (cause : Nat) :
    PortsDown s (l.foldl (fun s p => s.portDown p cause) s) l cause := by
  induction l generalizing s with
  | nil => exact ⟨h, rfl, fun _ hk => absurd hk List.not_mem_nil, fun _ _ => rfl⟩
  | cons p l ih =>
    obtain ⟨hport, hothers⟩ := State.fport_portDown h p cause
    have hnow := (LossOnly.portDown s p cause).now
    have hrest := ih (State.portDown_rising h p cause)
    rw [List.foldl_cons]
    generalize s.portDown p cause = u at hport hothers hnow hrest
    refine ⟨hrest.rising, hrest.now.trans hnow, fun k hk => ?_, fun k hk => ?_⟩
    · by_cases hl : k ∈ l
      · exact hrest.down k hl
      · have hkp : k = p := (List.mem_cons.mp hk).resolve_right hl
        subst hkp
        exact FabPort.down_of_still ((hrest.others k hl).trans hport) ⟨rfl, rfl⟩
    · rw [List.mem_cons, not_or] at hk
      exact (hrest.others k hk.2).trans (hothers k hk.1)

/-- While the module is frozen a port that goes DOWN loses no module. -/
theorem State.portDown_frozen (hf : s.freeze.frozen = true) (p cause : Nat) : s.portDown p cause = s.setFport p ((s.fport p).dropped .down cause s.now) := by
  have hno : ¬((s.fport p).linked && !(s.fport p).partnerSwitch && !(s.setFport p ((s.fport p).dropped .down cause s.now)).freeze.frozen) = true := by
    have hf' : (s.setFport p ((s.fport p).dropped .down cause s.now)).freeze.frozen = true := hf
    rw [hf', Bool.not_true, Bool.and_false]
    exact Bool.false_ne_true
  exact if_neg hno

theorem State.portsDown_frozen (h : SMap.rising s.link.ports = true) (hf : s.freeze.frozen = true) (l : List Nat) (cause : Nat) :
    let t := l.foldl (fun s p => s.portDown p cause) s
    t.now = s.now ∧ t.freeze = s.freeze ∧ ∀ k, k ∉ l → t.fport k = s.fport k := by
  induction l generalizing s with
  | nil => exact ⟨rfl, rfl, fun _ _ => rfl⟩
  | cons p l ih =>
    intro t
    obtain ⟨u, hu⟩ : ∃ u, s.setFport p ((s.fport p).dropped .down cause s.now) = u := ⟨_, rfl⟩
    have ht : t = l.foldl (fun s p => s.portDown p cause) u := by
      rw [← hu, ← State.portDown_frozen hf]
      rfl
    obtain ⟨hnow, hfreeze, hothers⟩ := ih (s := u) (hu ▸ SMap.rising_set h) (hu ▸ hf)
    rw [ht]
    refine ⟨hnow.trans (by rw [← hu]; rfl), hfreeze.trans (by rw [← hu]; rfl), fun k hk => ?_⟩
    rw [List.mem_cons, not_or] at hk
    rw [hothers k hk.2, ← hu, State.fport_setFport_ne h hk.1]

/-! ### The straggler watch -/

/-- Of the longest wait so far and another, the longer; of equals the first (R482). -/
def Await.longer : Option Await → Await → Option Await
  | some b, a => if a.since < b.since then some a else some b
  | none, a => some a

theorem Coll.longest_fold (y : Coll) : y.longest = y.awaits.foldl Await.longer none := by
  have hstep : (fun (m : Option Await) (a : Await) => match m with | some b => if a.since < b.since then some a else m | none => some a) = Await.longer := by
    funext m a
    cases m <;> rfl
  rw [← hstep]
  rfl

/-- The longest wait so far is one of those before. -/
theorem Await.foldl_longer (l : List Await) (m : Option Await) :
    l.foldl Await.longer m = m ∨ ∃ b ∈ l, l.foldl Await.longer m = some b := by
  induction l generalizing m with
  | nil => exact .inl rfl
  | cons c l ih =>
    rcases ih (Await.longer m c) with h | ⟨b, hb, h⟩
    · have hlonger : Await.longer m c = m ∨ Await.longer m c = some c := by
        cases m with
        | none => exact .inr rfl
        | some b =>
          rw [Await.longer]
          split
          · exact .inr rfl
          · exact .inl rfl
      exact hlonger.imp h.trans fun hc => ⟨c, List.mem_cons_self, h.trans hc⟩
    · exact .inr ⟨b, List.mem_cons_of_mem c hb, h⟩

theorem Await.foldl_longer_stays {a : Await} {l : List Await} (h : ∀ b ∈ l, a.since ≤ b.since) : l.foldl Await.longer (some a) = some a := by
  induction l with
  | nil => rfl
  | cons b l ih =>
    have hstays : Await.longer (some a) b = some a := if_neg (Nat.not_lt.mpr (h b List.mem_cons_self))
    rw [List.foldl_cons, hstays]
    exact ih fun c hc => h c (List.mem_cons_of_mem b hc)

/-- The first of the longest waits (R482). -/
theorem Coll.longest_eq {y : Coll} {older younger : List Await} {a : Await} (h : y.awaits = older ++ a :: younger) (hold : ∀ b ∈ older, a.since < b.since)
    (hyoung : ∀ b ∈ younger, a.since ≤ b.since) : y.longest = some a := by
  have htaken : Await.longer (older.foldl Await.longer none) a = some a := by
    rcases Await.foldl_longer older none with hnone | ⟨b, hb, hsome⟩
    · rw [hnone]
      rfl
    · rw [hsome, Await.longer, if_pos (hold b hb)]
  rw [Coll.longest_fold, h, List.foldl_append, List.foldl_cons, htaken, Await.foldl_longer_stays hyoung]

/-! ### The first of the held ports -/

theorem foldl_min_eq {f : Nat → Nat} {l : List Nat} {a b : Nat} (hle : ∀ q ∈ l, b ≤ f q) (ha : b ≤ a) (hin : a = b ∨ ∃ q ∈ l, f q = b) :
    l.foldl (fun m q => min m (f q)) a = b := by
  induction l generalizing a with
  | nil =>
    rcases hin with h | ⟨q, hq, _⟩
    · exact h
    · exact absurd hq List.not_mem_nil
  | cons q l ih =>
    have hq := hle q List.mem_cons_self
    rw [List.foldl_cons]
    refine ih (fun r hr => hle r (List.mem_cons_of_mem q hr)) (Nat.le_min.mpr ⟨ha, hq⟩) ?_
    rcases hin with h | ⟨r, hr, h⟩
    · exact .inl (by omega)
    · rcases List.mem_cons.mp hr with rfl | hr
      · exact .inl (by omega)
      · exact .inr ⟨r, hr, h⟩

/-- R395: the limit of HELD, where a port is held. -/
theorem State.holdLimit_held (hready : s.ready = true) (hf : s.freeze.frozen = false) {q : Nat} {ps : List Nat}
    (hheld : (upto 48).filter (fun p => (s.fport p).state == .held) = q :: ps) :
    let u : State := { s with now := max s.now (ps.foldl (fun m q => min m (s.fport q).since) (s.fport q).since + 500000000) }
    doHoldLimit s = ((q :: ps).filter (fun q => decide ((u.fport q).since + 500000000 ≤ u.now))).foldl (fun s q => s.portDown q 5) u := by
  intro u
  rw [doHoldLimit, if_neg (by rw [hready]; exact Bool.false_ne_true), if_neg (by rw [hf]; exact Bool.false_ne_true)]
  dsimp only
  rw [hheld]

theorem State.colls_of_errorless (h : t.errorless = s.errorless) : t.link.colls = s.link.colls := by
  have hl := congrArg (fun x : State => x.link.colls) h
  exact hl

/-- R482: the watch on a collective that has begun and has reports left. -/
theorem doStraggler_reports {c k : Nat} {y : Coll} {a : Await} (hlive : s.linkLive = true) (hms : fld (s.reg 0x03210008) 15 0 ≠ 0) (hcoll : s.coll c k = some y)
    (hbegun : y.unbegun = false) (hended : y.endedAs = none) (hreports : y.reports < 8) (hlong : y.longest = some a) :
    ∃ payload, doStraggler c k s = ((State.setColl { s with now := max s.now (a.since + 1000000 * fld (s.reg 0x03210008) 15 0 * (y.reportsOf a + 1)) }
      (y.reported a)).raiseEvent 0x0230 payload).chalkStraggler := by
  rw [doStraggler, if_neg (by simp [hlive, hms]), hcoll]
  dsimp only
  rw [if_neg (by simp [hbegun, hended, hreports]), hlong]
  exact ⟨_, rfl⟩

/-- Settles O53. -/
theorem transportTimers : Obligations.TransportTimers := by
  unfold Obligations.TransportTimers
  refine ⟨fun s dst n q k hdst hn hlive hfind => ?resend, fun s htidy hready => ?hold, fun s c k y older younger a hc hlive hms hcoll hbegun hended hreports hsplit hold hyoung => ?straggler,
    fun s p w v hw hs => ?clear⟩
  case resend =>
    intro now kept
    have hlive' : ¬(!s.linkLive) = true := by rw [hlive]; exact Bool.false_ne_true
    have hport : ({ s with now := now } : State).choosePort dst k.port = s.choosePort dst k.port := rfl
    have hrow : exec (.transportResendTimeout dst n q) s = .next (doResendTimeout dst n q s) := if_pos ⟨hdst, hn⟩
    refine ⟨fun hnone => ⟨_, hrow, ?_⟩, fun j hj => ⟨fun h8 => ⟨_, hrow, ?_⟩, fun h8 => ?_⟩⟩
    · rw [doResendTimeout, if_neg hlive']
      dsimp only
      rw [hfind]
      dsimp only
      rw [hport, hnone]
    · rw [doResendTimeout, if_neg hlive']
      dsimp only
      rw [hfind]
      dsimp only
      rw [hport, hj]
      dsimp only
      rw [if_pos h8]
    · intro u
      refine ⟨_, hrow, ?_⟩
      rw [doResendTimeout, if_neg hlive']
      dsimp only
      rw [hfind]
      dsimp only
      rw [hport, hj]
      dsimp only
      rw [if_neg (Nat.not_le.mpr h8)]
  case hold =>
    have hr := State.tidy_ports htidy
    have hready' : ¬(!s.ready) = true := by rw [hready]; exact Bool.false_ne_true
    refine ⟨fun hf hh => ?_, fun hf p hp hheld hfirst => ?_⟩
    · obtain ⟨w, hw⟩ : ∃ w, ({ s with now := max s.now (s.freeze.began + 500000000), freeze := { s.freeze with holding := false, holdExpired := true } } : State) = w := ⟨_, rfl⟩
      have hwf : w.freeze.frozen = true := by rw [← hw]; exact hf
      have hwr : SMap.rising w.link.ports = true := by rw [← hw]; exact hr
      have hwp : ∀ k, w.fport k = s.fport k := fun k => by rw [← hw]; rfl
      obtain ⟨l, hl⟩ : ∃ l, (upto 48).filter (fun p => (w.fport p).linked) = l := ⟨_, rfl⟩
      have hrow : exec .holdLimitExpiry s = .next (l.foldl (fun s p => s.portDown p 5) w) := by
        rw [← hl, ← hw]
        exact congrArg _ ((if_neg hready').trans ((if_pos hf).trans (if_pos hh)))
      have hmem : ∀ k, k ∈ l ↔ k < 48 ∧ (s.fport k).linked = true := fun k => by
        rw [← hl, List.mem_filter, hwp]
        exact and_congr_left fun _ => List.mem_range
      have hdown := State.portsDown hwr l 5
      obtain ⟨hnow, hfreeze, hothers⟩ := State.portsDown_frozen hwr hwf l 5
      refine ⟨_, hrow, ?_, ?_, fun k hk hlinked => hdown.down k ((hmem k).mpr ⟨hk, hlinked⟩), fun k hk hno => ?_⟩
      · rw [hnow, ← hw]
      · rw [hfreeze, ← hw]
      · rw [hothers k fun h => absurd ((hmem k).mp h).2 (by rw [hno]; exact Bool.false_ne_true), hwp]
    · obtain ⟨held, hheldDef⟩ : ∃ l, (upto 48).filter (fun p => (s.fport p).state == .held) = l := ⟨_, rfl⟩
      have hmem : ∀ k, k ∈ held ↔ k < 48 ∧ (s.fport k).state = .held := fun k => by
        rw [← hheldDef, List.mem_filter, beq_iff_eq]
        exact and_congr_left fun _ => List.mem_range
      cases hcases : held with
      | nil => exact absurd ((hmem p).mpr ⟨hp, hheld⟩) (by rw [hcases]; exact List.not_mem_nil)
      | cons q ps =>
        have hleast : ∀ r ∈ q :: ps, (s.fport p).since ≤ (s.fport r).since := fun r hr => by
          obtain ⟨hr48, hrheld⟩ := (hmem r).mp (hcases ▸ hr)
          exact hfirst r hr48 hrheld
        have hmin : ps.foldl (fun m q => min m (s.fport q).since) (s.fport q).since = (s.fport p).since := by
          refine foldl_min_eq (fun r hr => hleast r (List.mem_cons_of_mem q hr)) (hleast q List.mem_cons_self) ?_
          rcases List.mem_cons.mp (hcases ▸ (hmem p).mpr ⟨hp, hheld⟩) with rfl | h
          · exact .inl rfl
          · exact .inr ⟨p, h, rfl⟩
        obtain ⟨u, hu⟩ : ∃ u, ({ s with now := max s.now ((s.fport p).since + 500000000) } : State) = u := ⟨_, rfl⟩
        have hup : ∀ k, u.fport k = s.fport k := fun k => by rw [← hu]; rfl
        have hun : u.now = max s.now ((s.fport p).since + 500000000) := by rw [← hu]
        have hdo := State.holdLimit_held hready hf (hheldDef.trans hcases)
        rw [hmin, hu] at hdo
        have hrow : exec .holdLimitExpiry s = .next ((held.filter (fun q => decide ((u.fport q).since + 500000000 ≤ u.now))).foldl (fun s q => s.portDown q 5) u) := by
          rw [hcases]
          exact congrArg _ hdo
        have hdown := State.portsDown (s := u) (by rw [← hu]; exact hr) (held.filter (fun q => decide ((u.fport q).since + 500000000 ≤ u.now))) 5
        have hpin : p ∈ held.filter (fun q => decide ((u.fport q).since + 500000000 ≤ u.now)) :=
          List.mem_filter.mpr ⟨(hmem p).mpr ⟨hp, hheld⟩, decide_eq_true (by rw [hup, hun]; exact Nat.le_max_right _ _)⟩
        obtain ⟨hstate, hcause⟩ := hdown.down p hpin
        refine ⟨_, hrow, hdown.now.trans hun, hstate, hcause, fun k hk hno => ?_⟩
        have hout : k ∉ held.filter (fun q => decide ((u.fport q).since + 500000000 ≤ u.now)) := fun h => hno ((hmem k).mp (List.mem_filter.mp h).1).2
        exact (hdown.others k hout).trans (congrArg FabPort.still (hup k))
  case straggler =>
    intro before
    obtain ⟨payload, hdo⟩ := doStraggler_reports hlive hms hcoll hbegun hended hreports (Coll.longest_eq hsplit hold hyoung)
    obtain ⟨w, hw⟩ : ∃ w, State.setColl { s with now := max s.now (a.since + 1000000 * fld (s.reg 0x03210008) 15 0 * (y.reportsOf a + 1)) } (y.reported a) = w := ⟨_, rfl⟩
    rw [hw] at hdo
    have herr : (w.raiseEvent 0x0230 payload).chalkStraggler.errorless = w.errorless :=
      (State.errorless_chalkStraggler _).trans (State.errorless_of_eventless (State.eventless_raiseEvent w 0x0230 payload))
    refine ⟨_, (if_pos hc).trans (congrArg _ hdo), ?_, ?_, ?_, ?_⟩
    · rw [State.now_of_errorless herr, ← hw]
      rfl
    · rw [State.colls_of_errorless herr, ← hw]
      rfl
    · rw [State.tacks_of_errorless herr, ← hw]
      rfl
    · rw [(State.queues_of_errorless herr).1, ← hw]
      rfl
  case clear =>
    have hexec : exec (.lnkPeerLostClear p w v) s = .next (doPeerLostClear p w v s) := if_pos hw
    have hoff : 0x01000000 ≤ 0x03110000 + 8 * w ∧ 0x03110000 + 8 * w < 0x04000000 := by omega
    rw [doPeerLostClear] at hexec
    generalize 0x03110000 + 8 * w = off at hexec hoff
    refine gives_of_hostWrite hs (.inr hoff) hexec ⟨rfl, fun id => ?_, fun e he => ?_⟩
    · have hlost : (s.undrain p).link.lost = s.link.lost := by rw [State.undrain_link]
      simp only [State.clearLost, hlost, List.mem_filter, Bool.not_eq_true', decide_eq_false_iff_not, Bool.and_eq_true, beq_iff_eq]
      exact and_congr_right fun hid => not_congr (and_iff_right hid)
    · have hlink : (s.undrain p).link = s.link := State.undrain_link s p
      simp only [State.clearLost, hlink, List.mem_filter, Bool.not_eq_true', decide_eq_false_iff_not, Bool.and_eq_true, beq_iff_eq] at he
      exact he

end Sys2Proof.Machine
end

section
/-! SUPPORT. The data path leaves the engines: what writes memory, counts traffic, measures, or reports a non-finite value changes no weave
engine. What works on a ring changes the ring's counts alone. -/

namespace Sys2Proof.Machine

variable {s t u : State}

/-! ### What changes no engine -/

theorem foldl_engines {α : Type} {f : State → α → State} (h : ∀ u x, (f u x).engines = u.engines) (l : List α) (s : State) :
    (l.foldl f s).engines = s.engines := by
  induction l generalizing s with
  | nil => rfl
  | cons x l ih => exact (ih _).trans (h s x)

@[simp] theorem State.modWide_engines (s : State) (q k : Nat) (f : Wide → Wide) : (s.modWide q k f).engines = s.engines := rfl
@[simp] theorem State.complete_engines (s : State) (q k st : Nat) : (s.complete q k st).engines = s.engines := rfl

@[simp] theorem State.finish_engines (s : State) (q k : Nat) : (s.finish q k).engines = s.engines := by
  rw [State.finish]
  split <;> rfl

@[simp] theorem State.logQueue_engines (s : State) (n q d k : Nat) : (s.logQueue n q d k).engines = s.engines :=
  State.engines_of_errorless (State.errorless_logQueue s n q d k)

@[simp] theorem State.chalkNan_engines (s : State) (c d : Nat) : (s.chalkNan c d).engines = s.engines :=
  State.engines_of_errorless (State.errorless_chalkNan s c d)

@[simp] theorem State.markPoisoned_engines (s : State) (q k : Nat) (b : Bool) : (s.markPoisoned q k b).engines = s.engines := by
  rw [State.markPoisoned]
  split
  · split
    · rw [State.logQueue_engines, State.modWide_engines]
    · rfl
  · rfl

@[simp] theorem State.logChan_engines (s : State) (q : Nat) (w : Wide) (b : Bool) : (s.logChan q w b).engines = s.engines := by
  rw [State.logChan]
  split
  · rw [State.logQueue_engines, State.modWide_engines]
  · rfl

@[simp] theorem State.putBytes_engines (s : State) (a : Nat) (bs : List Byte) : (s.putBytes a bs).engines = s.engines := by
  rw [State.putBytes_eq]

@[simp] theorem State.writeBytes_engines (s : State) (a : Nat) (bs : List Byte) : (s.writeBytes a bs).engines = s.engines := by
  rw [State.writeBytes, State.clearPoison_engines, State.putBytes_engines]

@[simp] theorem State.writeLe_engines (s : State) (a n v : Nat) : (s.writeLe a n v).engines = s.engines := State.writeBytes_engines ..

@[simp] theorem State.countBytes_engines (s : State) (d : Option Nat) (b : Bool) (a n : Nat) : (s.countBytes d b a n).engines = s.engines := by
  rw [State.countBytes_eq]

@[simp] theorem State.countReads_engines (s : State) (d : Nat) (rs : List (Nat × Nat)) : (s.countReads d rs).engines = s.engines :=
  foldl_engines (fun _ _ => State.countBytes_engines ..) rs s

@[simp] theorem State.mergeTable_engines (s : State) (k : Nat) (r : StatRec) : (s.mergeTable k r).engines = s.engines := rfl

@[simp] theorem State.modRec_engines (s : State) (g k n : Nat) (f : StatRec → StatRec) : (s.modRec g k n f).engines = s.engines := by
  have merged : ∀ (o : Option (Nat × StatRec)), (match o with
      | some (_, r) => if r.stepLo = n % 2 ^ 32 then s else s.mergeTable k r
      | none => s).engines = s.engines := by
    intro o
    split
    · split <;> rfl
    · rfl
  rw [State.modRec]
  split
  · rfl
  · dsimp only
    split
    · exact merged _
    · exact merged _

@[simp] theorem State.measure_engines (s : State) (g t r n : Nat) (xs : List Num) (f : Fmt) (w : Written) :
    (s.measure g t r n xs f w).engines = s.engines := State.modRec_engines ..

@[simp] theorem State.nanEvent_engines (s : State) (b : NanBy) (k v p : Nat) : (s.nanEvent b k v p).engines = s.engines := by
  rw [State.nanEvent]
  split
  · rfl
  · exact State.chalkNan_engines ..

@[simp] theorem State.nanEvents_engines (s : State) (b : NanBy) (p : Nat → Nat → Nat) (m : Bool) (w : Written) :
    (s.nanEvents b p m w).engines = s.engines := by
  have each : ∀ (l : List BadElem) (u : State),
      (l.foldl (fun s x => s.nanEvent b (nanKind x) (nanValue x.value) (p x.row x.col)) u).engines = u.engines :=
    fun l u => foldl_engines (fun _ _ => State.nanEvent_engines ..) l u
  rw [State.nanEvents]
  split
  · exact (each _ _).trans (each _ _)
  · exact each _ _

@[simp] theorem State.mmEvents_engines (s : State) (q : Nat) (w : Wide) (c : Nat) (r : Written) : (s.mmEvents q w c r).engines = s.engines :=
  foldl_engines (fun _ _ => State.nanEvents_engines ..) _ s

@[simp] theorem State.countBadOperand_engines (s : State) (g : Nat) (w : Wide) (x : Operand) (n : Nat) :
    (s.countBadOperand g w x n).engines = s.engines := by
  rw [State.countBadOperand]
  split
  · exact State.modRec_engines ..
  · rfl

@[simp] theorem State.writeRuns_engines (s : State) (d : Desc) (w : Nat) (m : Option Nat) (rs : List Run) :
    (s.writeRuns d w m rs).engines = s.engines := by
  rw [State.writeRuns]
  exact (foldl_engines (fun _ _ => by rw [State.countBytes_engines, State.clearPoison_engines]) _ _).trans
    (foldl_engines (fun _ _ => State.putBytes_engines ..) _ _)

@[simp] theorem State.writeElems_engines (s : State) (d : Desc) (f : Fmt) (m : Option Nat) (es : List (Nat × Nat × Nat)) :
    (s.writeElems d f m es).engines = s.engines := by
  rw [State.writeElems]
  split
  · dsimp only
    split
    · exact State.writeRuns_engines ..
    · exact (foldl_engines (fun _ _ => State.writeLe_engines ..) _ _).trans (State.writeRuns_engines ..)
  · exact State.writeRuns_engines ..

@[simp] theorem State.writeScale_engines (s : State) (d : Desc) (m : Option Nat) (i v : Nat) : (s.writeScale d m i v).engines = s.engines := by
  rw [State.writeScale, State.countBytes_engines, State.writeLe_engines]

@[simp] theorem State.writeLane_engines (s : State) (b d h e g k v : Nat) : (s.writeLane b d h e g k v).engines = s.engines :=
  State.writeLe_engines ..

@[simp] theorem State.writeRingRow_engines (s : State) (d : Desc) (f : Fmt) (g k : Nat) (cs : List Nat) :
    (s.writeRingRow d f g k cs).engines = s.engines := by
  have lanes : ∀ (l : List Nat) (u : State) (b d h e g : Nat) (at_ v : Nat → Nat),
      (l.foldl (fun s k => s.writeLane b d h e g (at_ k) (v k)) u).engines = u.engines :=
    fun l u _ _ _ _ _ _ _ => foldl_engines (fun _ _ => State.writeLane_engines ..) l u
  rw [State.writeRingRow]
  split
  · exact (lanes _ _ _ _ _ _ _ _ _).trans (lanes _ _ _ _ _ _ _ _ _)
  · exact lanes _ _ _ _ _ _ _ _ _

@[simp] theorem State.writeBlock_engines (s : State) (d : Desc) (k : Conv) (m : Option Nat) (x : Source) (b : Nat) :
    (s.writeBlock d k m x b).1.engines = s.engines := by
  rw [State.writeBlock]
  dsimp only
  split
  · exact State.writeElems_engines ..
  · rw [State.writeScale_engines, State.writeElems_engines]

/-- A fold over a state and what goes with it keeps the engines where each step does. -/
theorem foldl_fst_engines {α β : Type} {f : State × β → α → State × β} (h : ∀ a x, (f a x).1.engines = a.1.engines) (l : List α)
    (a : State × β) : (l.foldl f a).1.engines = a.1.engines := by
  induction l generalizing a with
  | nil => rfl
  | cons x l ih => exact (ih _).trans (h a x)

@[simp] theorem State.writeSpan_engines (s : State) (d : Desc) (k : Conv) (m : Option Nat) (a b : Nat) (x : Source) :
    (s.writeSpan d k m a b x).1.engines = s.engines := by
  rw [State.writeSpan]
  split
  · refine foldl_fst_engines (fun a y => ?_) _ _
    exact State.writeBlock_engines a.1 d k m x y
  · exact State.writeElems_engines ..

@[simp] theorem State.writeRingLine_engines (s : State) (d : Desc) (k : Conv) (x : Source) (g r : Nat) :
    (s.writeRingLine d k x g r).1.engines = s.engines := by
  rw [State.writeRingLine]
  dsimp only
  split
  · refine foldl_fst_engines (fun a _ => ?_) _ _
    dsimp only
    split
    · exact State.writeRingRow_engines ..
    · rw [State.writeLe_engines, State.writeRingRow_engines]
  · exact State.writeRingRow_engines ..

@[simp] theorem State.scopeAdd_engines (s : State) (c n : Nat) : (s.scopeAdd c n).engines = s.engines := rfl

@[simp] theorem State.poisonLanded_engines (s : State) (w : Wide) : (s.poisonLanded w).engines = s.engines := by
  rw [State.poisonLanded]
  split
  · rfl
  · dsimp only
    split
    · exact foldl_engines (fun u _ => State.poisonUnits_engines u _ _) _ _
    · refine foldl_engines (fun _ _ => ?_) _ _
      split <;> rfl

@[simp] theorem State.poisonRow_engines (s : State) (w : Wide) (r : Nat) : (s.poisonRow w r).engines = s.engines := by
  rw [State.poisonRow]
  split
  · exact foldl_engines (fun u _ => State.poisonUnits_engines u _ _) _ _
  · rfl

@[simp] theorem State.copyRingRow_engines (s : State) (q n : Nat) (w : Wide) (g r : Nat) : (s.copyRingRow q n w g r).engines = s.engines := by
  rw [State.copyRingRow]
  exact (foldl_engines (fun _ _ => State.nanEvent_engines ..) _ _).trans
    ((foldl_engines (fun _ _ => State.writeLe_engines ..) _ _).trans (State.writeRingRow_engines ..))

@[simp] theorem State.convertRingRow_engines (s : State) (q n : Nat) (w : Wide) (g r : Nat) : (s.convertRingRow q n w g r).engines = s.engines := by
  rw [State.convertRingRow]
  dsimp only
  rw [State.nanEvents_engines]
  split
  · rw [State.measure_engines, State.writeRingLine_engines]
  · exact State.writeRingLine_engines ..

@[simp] theorem State.stageRing_engines (s : State) (w : Wide) : (s.stageRing w).1.engines = s.engines := by
  rw [State.stageRing]
  split
  · exact State.writeBytes_engines ..
  · rfl

@[simp] theorem State.convertView_engines (s : State) (q : Nat) (w : Wide) (n : Nat) : (s.convertView q w n).engines = s.engines := by
  have staged : ∀ (b : Bool) (bs : List Byte), (if b = true then s.writeBytes w.shDst.desc.jit bs else s).engines = s.engines := by
    intro b bs
    split
    · exact State.writeBytes_engines ..
    · rfl
  rw [State.convertView]
  dsimp only
  rw [State.nanEvents_engines]
  split
  · rw [State.measure_engines, State.writeSpan_engines]
    exact staged _ _
  · rw [State.writeSpan_engines]
    exact staged _ _

@[simp] theorem State.fillView_engines (s : State) (w : Wide) : (s.fillView w).engines = s.engines :=
  foldl_engines (fun _ _ => by rw [State.countBytes_engines, State.writeBytes_engines]) _ s

@[simp] theorem State.copyView_engines (s : State) (w : Wide) : (s.copyView w).engines = s.engines := by
  rw [State.copyView]
  dsimp only
  split
  · exact (foldl_engines (fun _ _ => State.writeScale_engines ..) _ _).trans (State.writeElems_engines ..)
  · exact State.writeElems_engines ..

@[simp] theorem State.spread_engines (s : State) (d : Desc) (f : Fmt) (o : Nat) (bs : List Byte) : (s.spread d f o bs).engines = s.engines :=
  foldl_engines (fun _ _ => State.writeBytes_engines ..) _ s

@[simp] theorem State.openChunks_engines (s : State) (w : Wide) (key : List Byte) (n off : Nat) (cs : List (List Byte × List Byte × List Byte)) :
    (s.openChunks w key n off cs).1.engines = s.engines := by
  induction cs generalizing s n off with
  | nil => rfl
  | cons c cs ih =>
    obtain ⟨hd, ct, tag⟩ := c
    rw [State.openChunks]
    split
    · split
      · exact (ih _ _ _).trans (State.spread_engines ..)
      · rfl
    · rfl

@[simp] theorem State.shuttleDone_engines (s : State) (c i q : Nat) (w : Wide) (n st : Nat) : (s.shuttleDone c i q w n st).engines = s.engines := by
  rw [State.shuttleDone]
  split
  · rw [State.finish_engines, State.modCore_engines, State.scopeAdd_engines]
  · rw [State.complete_engines, State.modCore_engines, State.scopeAdd_engines]

/-! ### What changes the counts of rings alone -/

/-- The engines stand as `v` shows them, and in rising order. -/
structure EnginesShow {α : Type} (v : Engine → α) (s t : State) : Prop where
  rising : SMap.rising s.engines = true → SMap.rising t.engines = true
  shows : SMap.rising s.engines = true → ∀ k, v (t.engine k) = v (s.engine k)

/-- `v` does not show the counts of rings. -/
def RingBlind {α : Type} (v : Engine → α) : Prop := ∀ e b x, v (Engine.setRing e b x) = v e

namespace EnginesShow

variable {α : Type} {v : Engine → α}

theorem of_engines (h : t.engines = s.engines) : EnginesShow v s t :=
  ⟨fun hr => h ▸ hr, fun _ k => congrArg (fun m => v (SMap.get {} m k)) h⟩

theorem refl (s : State) : EnginesShow v s s := of_engines rfl

theorem trans (h : EnginesShow v s t) (h' : EnginesShow v t u) : EnginesShow v s u :=
  ⟨fun hr => h'.rising (h.rising hr), fun hr k => (h'.shows (h.rising hr) k).trans (h.shows hr k)⟩

/-- A further operation that changes no engine. -/
theorem andThen (h : EnginesShow v s t) (h' : u.engines = t.engines) : EnginesShow v s u := h.trans (of_engines h')

theorem setEngine (s : State) (g : Nat) (x : Engine) (h : v x = v (s.engine g)) : EnginesShow v s (s.setEngine g x) := by
  refine ⟨fun hr => SMap.rising_set hr, fun hr k => ?_⟩
  by_cases hk : k = g
  · subst hk
    rw [State.engine_setEngine hr]
    exact h
  · rw [State.engine_setEngine_ne hr hk]

theorem modEngine (s : State) (g : Nat) (f : Engine → Engine) (h : ∀ e, v (f e) = v e) : EnginesShow v s (s.modEngine g f) :=
  setEngine s g _ (h _)

theorem ringFilled (hv : RingBlind v) (s : State) (g b r : Nat) : EnginesShow v s (s.modEngine g (fun e => e.ringFilled b r)) :=
  modEngine s g _ (fun _ => hv _ _ _)

theorem joinRing (hv : RingBlind v) (s : State) (g b q k : Nat) : EnginesShow v s (s.joinRing g b q k) := by
  refine modEngine s g _ (fun e => ?_)
  dsimp only
  split
  · rfl
  · exact hv _ _ _

theorem foldl {β : Type} {f : State → β → State} (h : ∀ u x, EnginesShow v u (f u x)) (l : List β) (s : State) : EnginesShow v s (l.foldl f s) := by
  induction l generalizing s with
  | nil => exact refl s
  | cons x l ih => exact (h s x).trans (ih _)

theorem fillRingN (hv : RingBlind v) (g q n c : Nat) (w : Wide) (k row : Nat) (s : State) : EnginesShow v s (s.fillRingN g q n c w k row).1 := by
  induction k generalizing s row with
  | zero => exact refl s
  | succ k ih =>
    have filled : ∀ m : State, m.engines = s.engines → EnginesShow v s
        (((m.poisonRow w row).modEngine g (fun e => e.ringFilled w.shDst.desc.data (((s.engine g).ring w.shDst.desc.data).fill))).scopeAdd c (ringRowBytes w)) :=
      fun m hm => ((of_engines ((State.poisonRow_engines m w row).trans hm)).trans (ringFilled hv _ _ _ _)).andThen (State.scopeAdd_engines ..)
    rw [State.fillRingN]
    dsimp only
    split
    · refine (filled _ ?_).trans (ih _ _)
      split
      · exact State.copyRingRow_engines ..
      · exact State.convertRingRow_engines ..
    · exact refl s

theorem runShuttle (hv : RingBlind v) (s : State) (c i q : Nat) (w : Wide) : EnginesShow v s (s.runShuttle c i q w) := by
  rw [State.runShuttle]
  generalize (if w.op = 3 then [] else w.shSrc.desc.ranges w.shSrc.f w.heritage) = rs
  dsimp only
  split
  · split
    · next g _ =>
      have staged : EnginesShow v s ((((s.markPoisoned q w.cseq (s.rangesPoisoned rs || !w.ep.isEmpty)).joinRing g w.shDst.desc.data
          q w.cseq).stageRing w).1) :=
        ((of_engines (State.markPoisoned_engines ..)).trans (joinRing hv _ _ _ _ _)).andThen (State.stageRing_engines ..)
      revert staged
      generalize State.stageRing _ w = p
      intro staged
      have rows := staged.trans (fillRingN hv g q (shuttleUnit i) (shuttleCtr c i) p.2 (p.2.shSrc.desc.rows - p.2.done) p.2.done p.1)
      revert rows
      generalize State.fillRingN _ g q _ _ _ _ _ = r
      intro rows
      split
      · refine rows.andThen ?_
        rw [State.shuttleDone_engines, State.countReads_engines, State.modWide_engines]
      · exact rows.andThen (State.modWide_engines ..)
    · refine of_engines ?_
      rw [State.shuttleDone_engines, State.markPoisoned_engines]
  · refine of_engines ?_
    split
    · simp
    · split
      · split
        · split
          · simp
          · split
            · rw [State.shuttleDone_engines, State.logQueue_engines]
              refine (foldl_engines (fun _ _ => State.nanEvent_engines ..) _ _).trans ?_
              simp
            · rw [State.shuttleDone_engines]
              refine (foldl_engines (fun _ _ => State.nanEvent_engines ..) _ _).trans ?_
              simp
        · simp
      · rw [State.shuttleDone_engines]
        refine (foldl_engines (fun _ _ => State.nanEvent_engines ..) _ _).trans ?_
        split <;> simp

theorem pumpShuttles (hv : RingBlind v) (s : State) (c : Nat) : EnginesShow v s (s.pumpShuttles c) := by
  refine foldl (fun u i => ?_) _ s
  split
  · split
    · split
      · exact runShuttle hv _ _ _ _ _
      · exact refl u
    · exact refl u
  · exact refl u

theorem mmExpandRing (hv : RingBlind v) (g q : Nat) (w : Wide) (c : Nat) (t : Int) (x : Source) (n row : Nat) (s : State) :
    EnginesShow v s (s.mmExpandRing g q w c t x n row).1 := by
  induction n generalizing s row w with
  | zero => exact refl s
  | succ n ih =>
    rw [State.mmExpandRing]
    dsimp only
    split
    · refine EnginesShow.trans ?_ (ih _ _ _)
      refine EnginesShow.andThen ?_ ((State.mmEvents_engines ..).trans (State.measure_engines ..))
      exact (of_engines (State.writeRingLine_engines ..)).trans (ringFilled hv _ _ _ _)
    · exact refl s

theorem mmExpand (s : State) (g q : Nat) (w : Wide) : EnginesShow v s (s.mmExpand g q w) := by
  refine of_engines ?_
  rw [State.mmExpand]
  dsimp only
  rw [State.mmEvents_engines, State.measure_engines, State.writeSpan_engines]

theorem mmEnd (hv : RingBlind v) (s : State) (g q : Nat) (w : Wide) : EnginesShow v s (s.mmEnd g q w) := by
  rw [State.mmEnd]
  split
  · exact of_engines (State.finish_engines ..)
  · split
    · exact (mmExpand s g q w).andThen (State.finish_engines ..)
    · dsimp only
      split
      · exact (mmExpandRing hv _ _ _ _ _ _ _ _ s).andThen ((State.finish_engines ..).trans (State.modWide_engines ..))
      · exact (mmExpandRing hv _ _ _ _ _ _ _ _ s).andThen (State.modWide_engines ..)

theorem mmMaybeDone (hv : RingBlind v) (s : State) (g q k : Nat) : EnginesShow v s (s.mmMaybeDone g q k) := by
  rw [State.mmMaybeDone]
  split
  · split
    · exact mmEnd hv s g q _
    · exact refl s
  · exact refl s

theorem pumpExpand (hv : RingBlind v) (s : State) (g : Nat) : EnginesShow v s (s.pumpExpand g) := by
  refine foldl (fun u q => foldl (fun u w => ?_) _ u) _ s
  split
  · exact mmMaybeDone hv _ _ _ _
  · exact refl u

end EnginesShow

end Sys2Proof.Machine
end

section
/-! CERTIFICATE. O54: the steps of a weave engine. -/

namespace Sys2Proof.Machine

variable {s t u : State}

/-! ### The epilogue -/

namespace EnginesShow

variable {α : Type} {v : Engine → α}

theorem writeRow (hv : RingBlind v) (s : State) (g q : Nat) (w : Wide) (o row m n c : Nat) (vs : List Num) (is : List Lineage) :
    EnginesShow v s (s.writeRow g q w o row m n c vs is) := by
  rw [State.writeRow]
  extract_lets
  split
  · exact of_engines ((State.writeBytes_engines ..).trans (State.modWide_engines ..))
  · split
    next a wr runs scales vals hp =>
    have held : EnginesShow v s a := by
      refine of_engines (Eq.trans (congrArg (fun p => p.1.engines) hp.symm) ?_)
      dsimp only
      split
      · split <;> rfl
      · rfl
    clear hp
    refine EnginesShow.andThen ?_ (State.nanEvents_engines ..)
    extract_lets row b2 b3 ringRow viewRow
    have hb2 : b2.engines = a.engines := foldl_engines (fun _ _ => State.writeRingRow_engines ..) _ _
    have hb3 : b3.engines = a.engines := by
      dsimp only [b3]
      split
      · exact hb2
      · exact (foldl_engines (fun _ _ => State.writeLe_engines ..) _ _).trans hb2
    have hring : ringRow.engines = a.engines := by
      dsimp only [ringRow]
      split
      · exact hb3
      · exact hb3
    have hview : viewRow.engines = a.engines := by
      dsimp only [viewRow]
      split
      · exact State.writeElems_engines ..
      · exact State.writeRuns_engines ..
    have inRing : EnginesShow v s (if w.mmN ≤ n + c then ringRow.modEngine g (fun e => e.ringFilled w.mmOut.desc.data row) else ringRow) := by
      split
      · exact (held.andThen hring).trans (ringFilled hv _ _ _ _)
      · exact held.andThen hring
    have inView : EnginesShow v s (if w.heritage = true then viewRow else
        scales.foldl (fun s c => s.writeScale w.mmOut.desc (some w.domain) (w.mmOut.desc.scaleIx m c.1) c.2) viewRow) := by
      split
      · exact held.andThen hview
      · exact held.andThen ((foldl_engines (fun _ _ => State.writeScale_engines ..) _ _).trans hview)
    split
    · refine EnginesShow.andThen ?_ (State.measure_engines ..)
      split
      · exact inRing
      · exact inView
    · split
      · exact inRing
      · exact inView

theorem takeRow (hv : RingBlind v) (hr : ∀ e r l, v { e with regions := r, samples := l } = v e) (s : State) (g : Nat) (r : Region) :
    EnginesShow v s (s.takeRow g r) := by
  have taken : ∀ (m : State) (x : Engine), m.engines = s.engines → v x = v (s.engine g) → EnginesShow v s (m.setEngine g x) :=
    fun m x hm hx => (of_engines hm).trans (setEngine m g x (hx.trans (congrArg (fun l => v (SMap.get {} l g)) hm).symm))
  rw [State.takeRow]
  refine EnginesShow.trans ?_ (writeRow hv ..)
  generalize hm : State.logChan _ _ _ _ = m
  have hme : m.engines = s.engines := by
    rw [← hm, State.logChan_engines]
    split
    · exact State.markPoisoned_engines ..
    · rfl
  clear hm
  split
  · exact (taken m _ hme (hr _ _ _)).andThen (State.modRec_engines ..)
  · exact taken m _ hme (hr _ _ _)

theorem closeRegions (hv : RingBlind v) (hr : ∀ e r, v { e with regions := r } = v e) (s : State) (g : Nat) : EnginesShow v s (s.closeRegions g) := by
  rw [State.closeRegions]
  exact (setEngine s g _ (hr _ _)).trans (foldl (fun u x => (of_engines (State.modWide_engines ..)).trans (mmMaybeDone hv _ _ _ _)) _ _)

/-- The epilogue changes the regions, the samples, the place of its turn and the counts of rings alone. -/
theorem epilogueN (hv : RingBlind v) (hr : ∀ e r l, v { e with regions := r, samples := l } = v e) (hn : ∀ e n, v { e with epilogueNext := n } = v e)
    (g n a b : Nat) (s : State) : EnginesShow v s (s.epilogueN g n a b) := by
  induction n generalizing s a b with
  | zero => exact refl s
  | succ n ih =>
    rw [State.epilogueN]
    split
    · split
      split
      · refine EnginesShow.trans ?_ (ih _ _ _)
        exact (takeRow hv hr _ _ _).trans (modEngine _ _ _ (fun e => hn e _))
      · exact refl s
    · exact refl s

/-- The epilogue's time of a wave, of which only the order of the engines need be kept. -/
theorem epilogue (s : State) (g : Nat) : EnginesShow (fun _ => ()) s ((s.epilogue g).pumpExpand g) :=
  ((epilogueN (fun _ _ _ => rfl) (fun _ _ _ => rfl) (fun _ _ => rfl) g 1024 0 0 s).trans (closeRegions (fun _ _ _ => rfl) (fun _ _ => rfl) _ g)).trans
    (pumpExpand (fun _ _ _ => rfl) _ g)

end EnginesShow

/-! ### A wave -/

/-- What a wave's rows leave of an engine once its columns are latched. -/
def Engine.stance (e : Engine) : Nat × Nat × Nat × List Region := (e.wave, e.map, e.mode, e.regions)

namespace EnginesShow

theorem enterRow (s : State) (g p : Nat) (run : TileRun) : EnginesShow Engine.stance s (s.enterRow g p run) := by
  have entered : ∀ (x : Engine) (b : Bool), x.stance = (s.engine g).stance →
      EnginesShow Engine.stance s ((s.setEngine g x).markPoisoned run.queue run.cseq b) :=
    fun x b h => (setEngine s g x h).andThen (State.markPoisoned_engines ..)
  have rung : ∀ (b : Bool) (x : Engine) (c : Nat) (r : RingCount), (if b = true then x.setRing c r else x).stance = x.stance := by
    intro b x c r
    split <;> rfl
  rw [State.enterRow]
  dsimp only
  refine EnginesShow.andThen ?_ (State.addCtx_engines ..)
  split
  · refine EnginesShow.andThen ?_ (State.countBadOperand_engines ..)
    exact entered _ _ (rung _ _ _ _)
  · exact entered _ _ (rung _ _ _ _)

theorem enterRows (s : State) (g : Nat) : EnginesShow Engine.stance s (s.enterRows g) := by
  refine foldl (fun u top => ?_) _ s
  dsimp only
  split
  · split
    · exact enterRow u g _ _
    · exact refl u
  · exact refl u

theorem rowRead (s : State) (g : Nat) (w : Wide) (f : RowFlight) (x : RowReading) : EnginesShow Engine.stance s (s.rowRead g w f x).1 := by
  rw [State.rowRead]
  dsimp only
  split
  · refine EnginesShow.andThen ?_ (State.countBadOperand_engines ..)
    exact modEngine s g _ (fun _ => rfl)
  · exact modEngine s g _ (fun _ => rfl)

theorem readRows (s : State) (g : Nat) : EnginesShow Engine.stance s (s.readRows g) := by
  have each : ∀ (f : State × List RowFlight → RowFlight → State × List RowFlight), (∀ a x, EnginesShow Engine.stance a.1 (f a x).1) →
      ∀ (l : List RowFlight) (a : State × List RowFlight), EnginesShow Engine.stance a.1 (l.foldl f a).1 := by
    intro f hf l
    induction l with
    | nil => exact fun a => refl a.1
    | cons x l ih => exact fun a => (hf a x).trans (ih _)
  rw [State.readRows]
  refine EnginesShow.trans (each _ (fun a f => ?_) _ (s, [])) (modEngine _ g _ (fun _ => rfl))
  dsimp only
  split
  · split
    · exact rowRead _ _ _ _ _
    · exact refl _
  · exact refl _

theorem landLoadw (s : State) (g : Nat) : EnginesShow Engine.stance s (s.landLoadw g) := by
  refine foldl (fun u p => ?_) _ s
  dsimp only
  split
  · split
    · refine EnginesShow.andThen ?_ (State.finish_engines ..)
      exact setEngine u g _ rfl
    · exact refl u
  · exact refl u

end EnginesShow

/-- The regions take the columns, and the wave, the map and the modes stand. -/
theorem State.latchAll_engine {g : Nat} (hr : SMap.rising s.engines = true) :
    (((s.latchAll g).engine g).wave, ((s.latchAll g).engine g).map, ((s.latchAll g).engine g).mode) =
        ((s.engine g).wave, (s.engine g).map, (s.engine g).mode) ∧
      (∀ f r n, (s.engine g).flight = [f] → (s.engine g).regions = [r] → (r.queue, r.cseq, r.otile) = (f.queue, f.cseq, f.otile) →
        f.column (s.engine g).wave = some n → ((s.latchAll g).engine g).regions = [r.latch (s.mmOf f.queue f.cseq) f n]) := by
  have each : ∀ (c : Engine → RowFlight → Engine), (∀ e x, ((c e x).wave, (c e x).map, (c e x).mode) = (e.wave, e.map, e.mode)) →
      ∀ (l : List RowFlight) (e : Engine), ((l.foldl c e).wave, (l.foldl c e).map, (l.foldl c e).mode) = (e.wave, e.map, e.mode) := by
    intro c hc l
    induction l with
    | nil => exact fun _ => rfl
    | cons x l ih => exact fun e => (ih _).trans (hc e x)
  rw [State.latchAll, State.engine_setEngine hr]
  refine ⟨each _ (fun e x => ?_) _ _, ?_⟩
  · dsimp only
    split <;> rfl
  · intro f r n hf hx hk hc
    simp only [Prod.mk.injEq] at hk
    obtain ⟨hq, hs, ho⟩ := hk
    simp [hf, hx, hc, hq, hs, ho]

/-- A wave moves the engine's count on by one, and its regions are those that its columns left. -/
theorem State.wave_engine {g c : Nat} (hr : SMap.rising u.engines = true) :
    ((((((((u.latchAll g).enterRows g).readRows g).modEngine g (fun e => { e with wave := e.wave + 1 })).landLoadw g).addGctr g 1).pumpShuttles c).engine
      g).stance = ((u.engine g).wave + 1, (u.engine g).map, (u.engine g).mode, ((u.latchAll g).engine g).regions) := by
  obtain ⟨hx, -⟩ := State.latchAll_engine (g := g) hr
  simp only [Prod.mk.injEq] at hx
  obtain ⟨hw, hm, ho⟩ := hx
  have hl : SMap.rising (u.latchAll g).engines = true := SMap.rising_set hr
  have rows := (EnginesShow.enterRows (u.latchAll g) g).trans (EnginesShow.readRows _ g)
  have hy := rows.rising hl
  have hs := rows.shows hl g
  generalize ((u.latchAll g).enterRows g).readRows g = y at hy hs ⊢
  have late := ((EnginesShow.landLoadw (y.modEngine g (fun e => { e with wave := e.wave + 1 })) g).andThen (State.addGctr_engines _ g 1)).trans
    (EnginesShow.pumpShuttles (v := Engine.stance) (fun _ _ _ => rfl) _ c)
  rw [late.shows (SMap.rising_set hy) g, State.engine_modEngine hy]
  simp only [Engine.stance, Prod.mk.injEq] at hs ⊢
  obtain ⟨h1, h2, h3, h4⟩ := hs
  exact ⟨congrArg (· + 1) (h1.trans hw), h2.trans hm, h3.trans ho, h4⟩

/-! ### Tiles and loads -/

theorem State.engine_of_engines (h : t.engines = s.engines) (k : Nat) : t.engine k = s.engine k := by rw [State.engine, State.engine, h]

theorem State.core_of_cores (h : t.cores = s.cores) (k : Nat) : t.core k = s.core k := by rw [State.core, State.core, h]

/-- What a bobbin's filling changes: neither an engine, nor a core, nor a byte of module memory. -/
structure Fetched (s t : State) : Prop where
  engines : t.engines = s.engines
  cores : t.cores = s.cores
  wf : Memory.wf s.mem = true → Memory.wf t.mem = true
  bytes : Memory.wf s.mem = true → ∀ a, a < 2 ^ 63 → t.memByte a = s.memByte a

/-- The state without its statistics table and record slots. -/
def State.tailorless (s : State) : State := { s with tailor := {} }

theorem State.modRec_tailorless (s : State) (g k n : Nat) (f : StatRec → StatRec) : (s.modRec g k n f).tailorless = s.tailorless := by
  have own : ∀ (o : Option (Nat × StatRec)), (match o with
      | some (_, r) => if r.stepLo = n % 2 ^ 32 then s else s.mergeTable k r
      | none => s).tailorless = s.tailorless := by
    intro o
    split
    · split <;> rfl
    · rfl
  rw [State.modRec]
  split
  · rfl
  · dsimp only
    split
    · exact own _
    · exact own _

theorem State.cores_of_tailorless (h : t.tailorless = s.tailorless) : t.cores = s.cores := by
  have hx := congrArg State.cores h
  exact hx

theorem State.mem_of_tailorless (h : t.tailorless = s.tailorless) : t.mem = s.mem := by
  have hx := congrArg State.mem h
  exact hx

namespace Fetched

theorem of_eq (he : t.engines = s.engines) (hc : t.cores = s.cores) (hm : t.mem = s.mem) : Fetched s t :=
  ⟨he, hc, fun h => hm ▸ h, fun _ a _ => State.memByte_of_mem hm a⟩

theorem refl (s : State) : Fetched s s := of_eq rfl rfl rfl

theorem trans (h : Fetched s t) (h' : Fetched t u) : Fetched s u :=
  ⟨h'.engines.trans h.engines, h'.cores.trans h.cores, fun w => h'.wf (h.wf w), fun w a ha => (h'.bytes (h.wf w) a ha).trans (h.bytes w a ha)⟩

theorem logQueue (s : State) (n q d k : Nat) : Fetched s (s.logQueue n q d k) :=
  ⟨State.logQueue_engines .., State.cores_of_errorless (State.errorless_logQueue ..), (WorkOnly.logQueue s n q d k).wf,
    fun w _ ha => (WorkOnly.logQueue s n q d k).memByte w ha⟩

theorem modWide (s : State) (q k : Nat) (f : Wide → Wide) : Fetched s (s.modWide q k f) := of_eq rfl rfl rfl

theorem markPoisoned (s : State) (q k : Nat) (b : Bool) : Fetched s (s.markPoisoned q k b) := by
  rw [State.markPoisoned]
  split
  · split
    · exact (modWide s q k _).trans (logQueue ..)
    · exact refl s
  · exact refl s

theorem countReads (s : State) (d : Nat) (rs : List (Nat × Nat)) : Fetched s (s.countReads d rs) := by
  have each : ∀ (l : List (Nat × Nat)) (u : State), Fetched u (l.foldl (fun s x => s.countBytes (some d) true x.1 x.2) u) := by
    intro l
    induction l with
    | nil => exact refl
    | cons x l ih =>
      exact fun u => (of_eq (State.countBytes_engines ..) (by rw [State.countBytes_eq]) (State.countBytes_mem ..)).trans (ih _)
  exact each rs s

theorem addGctr (s : State) (i n : Nat) : Fetched s (s.addGctr i n) := of_eq rfl rfl rfl

theorem countBadOperand (s : State) (g : Nat) (w : Wide) (x : Operand) (n : Nat) : Fetched s (s.countBadOperand g w x n) := by
  rw [State.countBadOperand]
  split
  · exact of_eq (State.modRec_engines ..) (State.cores_of_tailorless (State.modRec_tailorless ..)) (State.mem_of_tailorless (State.modRec_tailorless ..))
  · exact refl s

theorem fillTile (s : State) (g : Nat) (w : Wide) (run : TileRun) : Fetched s (s.fillTile g w run).1 :=
  ((markPoisoned s _ _ _).trans (countReads ..)).trans (addGctr ..)

theorem load (c : Prop) [Decidable c] (s : State) (q k : Nat) (b : Bool) (d : Nat) (segs : List (Nat × Nat)) (i n g : Nat) (w : Wide) (x : Operand) (m : Nat) :
    Fetched s (if c then (((s.markPoisoned q k b).countReads d segs).addGctr i n).countBadOperand g w x m else
      ((s.markPoisoned q k b).countReads d segs).addGctr i n) := by
  have here : Fetched s (((s.markPoisoned q k b).countReads d segs).addGctr i n) :=
    ((Fetched.markPoisoned ..).trans (Fetched.countReads ..)).trans (Fetched.addGctr ..)
  split
  · exact here.trans (Fetched.countBadOperand ..)
  · exact here

end Fetched

/-- A tile taken leaves the engines and memory, and with its command's last tile the command leaves the tile queue. -/
theorem State.takeTile_left {c q : Nat} {w : Wide} (hc : SMap.rising s.cores = true) :
    (s.takeTile c q w).engines = s.engines ∧ (s.takeTile c q w).mem = s.mem ∧
      ((s.takeTile c q w).core c).tileQ = (if w.taken + 1 = w.tiles then (s.core c).tileQ.filter (fun y => y != (q, w.cseq)) else (s.core c).tileQ) := by
  rw [State.takeTile]
  split
  · exact ⟨rfl, rfl, (congrArg Core.tileQ (State.core_modCore (s := s.modWide q w.cseq _) hc)).trans rfl⟩
  · exact ⟨rfl, rfl, rfl⟩

/-- An engine set, its tile taken and its output ring joined: its regions, the tile queue, the other engines and memory. -/
theorem State.tile_left {m n t : State} {g q b : Nat} {w : Wide} {x : Engine} {o : Bool} (hr : SMap.rising s.engines = true)
    (hc : SMap.rising s.cores = true) (hw : Memory.wf s.mem = true) (hm : Fetched s m)
    (hn : (if o = true then ((m.setEngine g x).takeTile (g / 4) q w).joinRing g b q w.cseq else (m.setEngine g x).takeTile (g / 4) q w) = n)
    (ht : Fetched n t) :
    (t.engine g).regions = x.regions ∧
      (t.core (g / 4)).tileQ =
        (if w.taken + 1 = w.tiles then (s.core (g / 4)).tileQ.filter (fun y => y != (q, w.cseq)) else (s.core (g / 4)).tileQ) ∧
      (∀ k, k ≠ g → t.engine k = s.engine k) ∧ (∀ a, a < 2 ^ 63 → t.memByte a = s.memByte a) := by
  have hmr : SMap.rising m.engines = true := hm.engines ▸ hr
  have hmc : SMap.rising (m.setEngine g x).cores = true := hm.cores ▸ hc
  obtain ⟨he, hb, hq⟩ := State.takeTile_left (s := m.setEngine g x) (q := q) (w := w) (c := g / 4) hmc
  have hcore : (m.setEngine g x).core (g / 4) = s.core (g / 4) := State.core_of_cores hm.cores _
  rw [hcore] at hq
  generalize (m.setEngine g x).takeTile (g / 4) q w = y at hn he hb hq
  have hyr : SMap.rising y.engines = true := he ▸ SMap.rising_set hmr
  have hyg : ∀ k, y.engine k = (m.setEngine g x).engine k := State.engine_of_engines he
  have hmk : ∀ k, m.engine k = s.engine k := State.engine_of_engines hm.engines
  have joined : (n.engine g).regions = x.regions ∧ n.cores = y.cores ∧ (∀ k, k ≠ g → n.engine k = s.engine k) ∧ n.mem = y.mem := by
    rw [← hn]
    split
    · refine ⟨?_, rfl, fun k hk => ?_, rfl⟩
      · rw [(EnginesShow.joinRing (v := Engine.regions) (fun _ _ _ => rfl) y g b q w.cseq).shows hyr g, hyg, State.engine_setEngine hmr]
      · rw [State.joinRing, State.engine_modEngine_ne hyr hk, hyg, State.engine_setEngine_ne hmr hk, hmk]
    · refine ⟨?_, rfl, fun k hk => ?_, rfl⟩
      · rw [hyg, State.engine_setEngine hmr]
      · rw [hyg, State.engine_setEngine_ne hmr hk, hmk]
  obtain ⟨hng, hnc, hnk, hnm⟩ := joined
  have htk : ∀ k, t.engine k = n.engine k := State.engine_of_engines ht.engines
  have hmem : ∀ a, n.memByte a = m.memByte a := State.memByte_of_mem (hnm.trans hb)
  have hnw : Memory.wf n.mem = true := by
    rw [hnm, hb]
    exact hm.wf hw
  refine ⟨?_, ?_, fun k hk => ?_, fun a ha => ?_⟩
  · rw [htk, hng]
  · rw [← hq, State.core, ht.cores, hnc]
    rfl
  · rw [htk, hnk k hk]
  · rw [ht.bytes hnw a ha, hmem, hm.bytes hw a ha]

/-- What the engine that takes an MM's tile holds then, and what stands. -/
theorem State.takeMm_left {g q : Nat} {w : Wide} (hr : SMap.rising s.engines = true) (hc : SMap.rising s.cores = true)
    (hw : Memory.wf s.mem = true) :
    ((s.takeMm g q w).engine g).regions = (s.engine g).regions ++ [{ w.mmRegion q w.taken (s.engine g) with nextTile := 1 }] ∧
      ((s.takeMm g q w).core (g / 4)).tileQ =
        (if w.taken + 1 = w.tiles then (s.core (g / 4)).tileQ.filter (fun y => y != (q, w.cseq)) else (s.core (g / 4)).tileQ) ∧
      (∀ k, k ≠ g → (s.takeMm g q w).engine k = s.engine k) ∧ (∀ a, a < 2 ^ 63 → (s.takeMm g q w).memByte a = s.memByte a) := by
  have late : ∀ (p : Prop) [Decidable p] (u : State) (x : Operand) (c k : Nat) (f : Wide → Wide),
      Fetched u ((if p then u.countBadOperand g w x c else u).modWide q k f) := by
    intro p _ u x c k f
    split
    · exact (Fetched.countBadOperand ..).trans (Fetched.modWide ..)
    · exact Fetched.modWide ..
  rw [State.takeMm]
  exact State.tile_left hr hc hw (Fetched.fillTile ..) rfl (late _ _ _ _ _ _)

/-- A pleat with a run takes no further tile. -/
theorem State.resumeTile_of_run {g p : Nat} {run : TileRun} (h : ((s.engine g).pleat p).run = some run) : s.resumeTile g p = s := by
  rw [State.resumeTile]
  dsimp only
  rw [h]

/-- An engine set in a rising file of them, and what fetches data after it. -/
theorem State.setEngine_fetched {g : Nat} {x : Engine} (hr : SMap.rising s.engines = true) (hw : Memory.wf s.mem = true)
    (h : Fetched (s.setEngine g x) t) : t.engine g = x ∧ ∀ a, a < 2 ^ 63 → t.memByte a = s.memByte a :=
  ⟨(State.engine_of_engines h.engines g).trans (State.engine_setEngine hr), fun a ha => h.bytes hw a ha⟩

@[simp] theorem State.chargeShadow_engines (s : State) (g : Nat) (w : Wide) (x : Operand) (a b : List Num) :
    (s.chargeShadow g w x a b).engines = s.engines := State.modRec_engines ..

/-- A SEAM's configuration put in force changes its own engine alone. -/
theorem State.seamApply_left {g : Nat} {x : SeamWait} (hr : SMap.rising s.engines = true) :
    ((s.seamApply g x).engine g).map = x.map ∧ ((s.seamApply g x).engine g).mode = x.modes ∧ ((s.seamApply g x).engine g).seam = none ∧
      (∀ k, k ≠ g → (s.seamApply g x).engine k = s.engine k) := by
  have set : ∀ (y : Engine) (u : State), y.map = x.map ∧ y.mode = x.modes ∧ y.seam = none → u.engines = (s.setEngine g y).engines →
      (u.engine g).map = x.map ∧ (u.engine g).mode = x.modes ∧ (u.engine g).seam = none ∧ (∀ k, k ≠ g → u.engine k = s.engine k) := by
    intro y u hy hu
    have hg : u.engine g = y := (State.engine_of_engines hu g).trans (State.engine_setEngine hr)
    refine ⟨hg ▸ hy.1, hg ▸ hy.2.1, hg ▸ hy.2.2, fun k hk => ?_⟩
    rw [State.engine_of_engines hu, State.engine_setEngine_ne hr hk]
  rw [State.seamApply]
  dsimp only
  split
  · split
    · exact set _ _ ⟨rfl, rfl, rfl⟩ rfl
    · exact set _ _ ⟨rfl, rfl, rfl⟩ rfl
  · exact set _ _ ⟨rfl, rfl, rfl⟩ rfl

/-- Settles O54. -/
theorem engineSteps : Obligations.EngineSteps := by
  unfold Obligations.EngineSteps
  refine ⟨fun s g n hg hm => ?rate, fun s g ht hg hal => ?_⟩
  case rate =>
    exact ⟨_, if_pos hg, if_pos hm⟩
  intro core e hf
  have hr := State.tidy_engines ht
  have works : (!s.alive || (s.core (g / 4)).fence != .inService) = false := by
    simp [hal, show (s.core (g / 4)).fence = .inService from hf]
  refine ⟨fun hth => ?withheld, fun hth => ?wave, fun qi w hp => ?take, fun qi w hp hn => ?press, fun hp => ?none, fun p run hp hrun hl hq hw hle hd hc => ?load,
    fun p run hp hrun hl hd hn hle => ?drain, fun p run hp hsm hh hrun hd => ?mode, fun p x hp hsm hready => ?seam, fun x rest hsm hle hpw => ?charge,
    fun x rest hsm hle => ?wait⟩
  case withheld =>
    refine ⟨_, if_pos hg, ?_⟩
    rw [doWave, if_pos (by simp [hth])]
  case wave =>
    intro u x
    have hgo : doWave g s = if x.hemFull || !(u.anyRow x || x.busy) then u.pumpShuttles core else
        (((((((u.latchAll g).enterRows g).readRows g).modEngine g (fun e => { e with wave := e.wave + 1 })).landLoadw g).addGctr g 1).pumpShuttles core) := by
      rw [doWave, if_neg (by simp [hal, hth, show (s.core (g / 4)).fence = .inService from hf])]
    have hu : SMap.rising u.engines = true := (EnginesShow.epilogue s g).rising hr
    refine ⟨fun h => ⟨_, if_pos hg, ?_⟩, fun h1 h2 => ⟨_, if_pos hg, ?_⟩⟩
    · rw [hgo, if_pos (by rcases h with h | ⟨h, h'⟩ <;> simp [*])]
    · rw [hgo, if_neg (by rcases h2 with h | h <;> simp [h1, h])]
      have hs := State.wave_engine (g := g) (c := core) hu
      simp only [Engine.stance, Prod.mk.injEq] at hs
      obtain ⟨hw, hm, ho, hx⟩ := hs
      exact ⟨hw, hm, ho, fun f r n hfl hre hk hc => hx.trans ((State.latchAll_engine hu).2 f r n hfl hre hk hc)⟩
  case take =>
    have hp' : s.pick (s.qualified (g / 4) (fun q v => s.mmQualifies g q v)) = some (qi, w) := hp
    have hgo : doTakeTile g false s = s.takeMm g qi w := by simp only [doTakeTile, works, Bool.false_eq_true, if_false, hp']
    obtain ⟨hx, hq, hk, hb⟩ := State.takeMm_left (q := qi) (w := w) (g := g) hr (State.tidy_cores ht) (State.tidy_mem ht)
    exact ⟨_, if_pos hg, hgo, hgo ▸ hx, hgo ▸ hq, fun k h => hgo ▸ hk k h, fun a ha => hgo ▸ hb a ha⟩
  case press =>
    have hp' : s.pick (s.qualified (g / 4) (fun _ v => pressQualifies g v)) = some (qi, w) := hp
    refine ⟨_, if_pos hg, ?_⟩
    simp only [doTakeTile, works, Bool.false_eq_true, if_false, if_true, hp']
    rw [if_neg (fun h => hn.elim (fun h' => h' h.1) (fun h' => h' h.2))]
  case none =>
    have hp' : s.pick (s.qualified (g / 4) (fun q v => s.mmQualifies g q v)) = none := hp
    refine ⟨_, if_pos hg, ?_⟩
    simp only [doTakeTile, works, Bool.false_eq_true, if_false, hp']
  case load =>
    intro w r hc' wc wide k0 fill
    have hrun' : ((s.engine g).pleat p).run = some run := hrun
    have hcond : (run.loadAt.isNone && (s.engine g).loadQ.head? == some p && decide ((s.engine g).portFree ≤ (s.engine g).wave) &&
        (decide (((s.engine g).pleat p).lastEntry < (s.engine g).wave) || ((s.engine g).pleat p).lastEntry == 0) &&
        !((s.engine g).pleat p).draining && s.configured (s.engine g) p run) = true := by
      simp [show ((s.engine g).pleat p).draining = false from hd, hl, show s.configured (s.engine g) p run = true from hc,
        show (s.engine g).loadQ.head? = some p from hq, show (s.engine g).portFree ≤ (s.engine g).wave from hw]
      exact hle
    have left : ∀ {x : Engine} {t : State} {a : Nat} {b : List Nat} {c : SMap Pleat}, Fetched (s.setEngine g x) t → x.portFree = a →
        x.loadQ = b → x.pleats = c →
        (t.engine g).portFree = a ∧ (t.engine g).loadQ = b ∧ (t.engine g).pleats = c ∧ (∀ a, a < 2 ^ 63 → t.memByte a = s.memByte a) := by
      intro x t a b c ht' ha hb hc
      obtain ⟨hx, hm⟩ := State.setEngine_fetched hr (State.tidy_mem ht) ht'
      exact ⟨hx ▸ ha, hx ▸ hb, hx ▸ hc, hm⟩
    refine ⟨_, if_pos ⟨hg, hp⟩, ?_⟩
    simp only [doWarpLoad, works, Bool.false_eq_true, if_false, State.resumeTile_of_run hrun', hrun']
    rw [if_pos hcond]
    have hopens : (if (!run.loadw && (s.mmOf run.queue run.cseq).mmWide) = true then
          ((s.engine g).rect p).h + ((s.engine g).rect p).w - 1 else ((s.engine g).rect p).h) = if wide then r.h + r.w - 1 else r.h :=
      ite_congr (propext (by simp [wide, w])) (fun _ => rfl) (fun _ => rfl)
    rw [hopens]
    exact left (Fetched.load ..) rfl rfl rfl
  case drain =>
    refine ⟨_, if_pos ⟨hg, hp⟩, ?_⟩
    have hrun' : ((s.engine g).pleat p).run = some run := hrun
    have hcond : (!((s.engine g).pleat p).draining && !run.loadAt.isSome && s.needsDrain (s.engine g) p &&
        (decide (((s.engine g).pleat p).lastEntry < (s.engine g).wave) || ((s.engine g).pleat p).lastEntry == 0)) = true := by
      simp [show ((s.engine g).pleat p).draining = false from hd, hl, show s.needsDrain (s.engine g) p = true from hn]
      exact hle
    simp only [doDrainStart, works, Bool.false_eq_true, if_false, State.resumeTile_of_run hrun', hrun']
    rw [if_pos hcond, ← hrun']
    rfl
  case mode =>
    intro n
    refine ⟨_, if_pos ⟨hg, hp⟩, ?_⟩
    have hgo : doNewConfiguration g p s = s.modeApply g p := by
      simp only [doNewConfiguration, works, Bool.false_eq_true, if_false]
      split
      · next x hx =>
        have hx' : (s.engine g).seamReady x = false := hsm x hx
        rw [if_neg (by simp [hx'])]
      · rfl
    have hrun' : ((s.engine g).pleat p).run = some run := hrun
    have hd' : ((s.engine g).drained p && !(s.engine g).seamHolds p) = true := by
      simp [show (s.engine g).drained p = true from hd, show (s.engine g).seamHolds p = false from hh]
    rw [hgo, State.modeApply]
    simp only [hrun']
    rw [if_pos hd', ← hrun']
  case seam =>
    have hgo : doNewConfiguration g p s = s.seamApply g x := by
      simp only [doNewConfiguration, works, Bool.false_eq_true, if_false]
      rw [show (s.engine g).seam = some x from hsm]
      exact if_pos hready
    exact ⟨_, if_pos ⟨hg, hp⟩, hgo ▸ State.seamApply_left hr⟩
  case charge =>
    have hgo : ∃ u, doShadowCharge g s = State.mmMaybeDone u g x.queue x.cseq ∧
        u.engines = (s.setEngine g { s.engine g with samples := rest }).engines := by
      simp only [doShadowCharge, works, Bool.false_eq_true, if_false]
      rw [show (s.engine g).samples = x :: rest from hsm]
      dsimp only
      rw [if_neg (by simp [hle, hpw])]
      refine ⟨_, rfl, ?_⟩
      rw [State.modWide_engines]
      split <;> split <;> simp only [State.chargeShadow_engines]
    obtain ⟨u, hu, he⟩ := hgo
    have hur : SMap.rising u.engines = true := he ▸ SMap.rising_set hr
    have hs := (EnginesShow.mmMaybeDone (v := fun e => (e.samples, e.wave)) (fun _ _ _ => rfl) u g x.queue x.cseq).shows hur g
    rw [State.engine_of_engines he g, State.engine_setEngine hr, ← hu] at hs
    simp only [Prod.mk.injEq] at hs
    exact ⟨_, if_pos hg, hs⟩
  case wait =>
    refine ⟨_, if_pos hg, ?_⟩
    simp only [doShadowCharge, works, Bool.false_eq_true, if_false]
    rw [show (s.engine g).samples = x :: rest from hsm]
    exact if_pos (by simpa using hle)

end Sys2Proof.Machine
end

section
/-! CERTIFICATE. Queues that stop while their host's queue is under lost-host handling: the submission is gone, and the queue takes the next
(R422, R457, R469). -/

namespace Sys2Proof.Machine

/-- Core queue 0 runs a submission of host queue 64, whose host is lost; the host of port A is the steward, and no other core serves. -/
def lostSubmission : State :=
  { inService with
    queues := [(0, { sub := some { port := .hb, hq := 0 } })], hostqs := [(64, { enable := true, lost := some {} })],
    cores := (upto 23).map (fun c => (c + 1, { fence := .fenced })) }

/-- The same with an open DEGRADING record of core queue 0. -/
def lostAndReported : State :=
  { lostSubmission with errq := { offQueue := [{ seq := 1, cls := 2, kind := .queue, domId := 0, isOpen := true }], nextSeq := 2 } }

/-- Whether core queue 0 is stopped, and whether it has moved, in an outcome. -/
def queueStands : Host.Outcome State Fault Refusal → Bool × Nat
  | .next t => ((t.queue 0).stopped, (t.queue 0).movedTo)
  | _ => (true, 0)

theorem lostSubmission_tidy : lostSubmission.tidy = true := by decide +kernel
theorem lostSubmission_goesOn : queueStands (exec (.fence .ha 0) lostSubmission) = (false, 0) := by decide +kernel
theorem lostAndReported_tidy : lostAndReported.tidy = true := by decide +kernel
theorem lostAndReported_next : lostAndReported.nextRec 1 = some { seq := 1, cls := 2, kind := .queue, domId := 0, isOpen := true } := by decide +kernel
theorem lostAndReported_goesOn : queueStands (exec (.errorContainmentStep 1) lostAndReported) = (false, 0) := by decide +kernel

/-- Refutes O55: a DEGRADING record of a core queue ends the submission it runs; where that one's host queue is under lost-host handling the
queue is free for the next submission, and not stopped. -/
theorem not_errorHandling : ¬ Obligations.ErrorHandling := by
  intro h
  obtain ⟨hstep, -⟩ := h
  obtain ⟨-, hrec⟩ := hstep lostAndReported 1 lostAndReported_tidy (by decide) (by decide +kernel) (by decide +kernel)
  obtain ⟨-, hqueue, -⟩ := hrec _ lostAndReported_next
  obtain ⟨t, hexec, -, hstopped, -⟩ := hqueue rfl rfl
  have hgo := congrArg queueStands hexec
  rw [lostAndReported_goesOn] at hgo
  have hopen : (t.queue 0).stopped = false := (congrArg Prod.fst hgo).symm
  have hshut : (t.queue 0).stopped = true := hstopped
  rw [hopen] at hshut
  exact absurd hshut (by decide)

/-- Refutes O56: the queue of a fenced core that no sibling takes and whose host queue is under lost-host handling neither moves nor stops. -/
theorem not_fencingAndRetest : ¬ Obligations.FencingAndRetest := by
  intro h
  obtain ⟨hport, -⟩ := h lostSubmission 0 lostSubmission_tidy (by decide)
  obtain ⟨hfence, -⟩ := hport .ha (by unfold State.serves; decide +kernel)
  obtain ⟨t, hexec, -, -, -, -, -, -, -, hqueues, -⟩ := hfence (by decide +kernel) (by decide +kernel)
  have hgo := congrArg queueStands hexec
  rw [lostSubmission_goesOn] at hgo
  have hopen : (t.queue 0).stopped = false := (congrArg Prod.fst hgo).symm
  have hhome : (t.queue 0).movedTo = 0 := (congrArg Prod.snd hgo).symm
  rcases hqueues 0 (by decide) with hstopped | hmoved
  · have hshut : (t.queue 0).stopped = true := hstopped
    rw [hopen] at hshut
    exact absurd hshut (by decide)
  · exact hmoved hhome

end Sys2Proof.Machine
end

section
/-! CERTIFICATE. DOMAIN_PURGE of a domain whose queue works for a host queue under lost-host handling (R422, R507). -/

namespace Sys2Proof.Machine

/-- The steward asks for a purge of domain 0, in which core queue 0 runs a submission of a host queue whose host is lost. -/
def purgeAsked : State := { lostSubmission with sec := { mailA := { busy := true, opcode := 9 } } }

theorem purgeAsked_tidy : purgeAsked.tidy = true := by decide +kernel
theorem purgeAsked_goesOn : queueStands (exec (.domainPurge .ha) purgeAsked) = (false, 0) := by decide +kernel

/-- Refutes O58: the purge ends the submission of a queue of the domain; where that one's host queue is under lost-host handling the queue is free
for the next submission, and not stopped. -/
theorem not_sessionsAndKeys : ¬ Obligations.SessionsAndKeys := by
  intro h
  obtain ⟨-, -, hpurge, -⟩ := h purgeAsked .ha purgeAsked_tidy
  obtain ⟨hbegins, -⟩ := hpurge ⟨by decide +kernel, by decide +kernel⟩
  obtain ⟨t, hexec, -, -, -, -, -, hstopped, -⟩ := hbegins (by decide +kernel)
  have hgo := congrArg queueStands hexec
  rw [purgeAsked_goesOn] at hgo
  have hopen : (t.queue 0).stopped = false := (congrArg Prod.fst hgo).symm
  rw [hstopped 0 (by decide) (by decide +kernel)] at hopen
  exact absurd hopen (by decide)

end Sys2Proof.Machine
end

section
/-! SUPPORT. The security mailbox: what a request's answer leaves, and when the thimble serves a request (R508, R509). -/

namespace Sys2Proof.Machine

variable {s t u : State} {p : HostPort}

@[simp] theorem State.mail_setMail (s : State) (p : HostPort) (m : Mailbox) : (s.setMail p m).mail p = m := by cases p <;> rfl

@[simp] theorem State.mail_passArb (s : State) (a : ArbPort) (n : Nat) (p : HostPort) : (s.passArb a n).mail p = s.mail p := by cases p <;> rfl

theorem State.tidy_mail (h : s.tidy = true) (p : HostPort) : SMap.rising (s.mail p).buf = true := by
  simp only [State.tidy, secTidy, Bool.and_eq_true] at h
  cases p <;> simp [State.mail, h]

theorem State.tidy_mail_passArb (h : s.tidy = true) (a : ArbPort) (n : Nat) (p : HostPort) : SMap.rising ((s.passArb a n).mail p).buf = true := by
  rw [State.mail_passArb]
  exact State.tidy_mail h p

theorem State.tidy_fw (h : s.tidy = true) : SMap.rising s.sec.fw = true := by
  simp only [State.tidy, secTidy, Bool.and_eq_true] at h
  simp [h]

/-- Bytes put at the start of a buffer: each of them reads back, and the rest of the buffer as before. -/
theorem get_putBytes {m : SMap Byte} (h : SMap.rising m = true) (bs : List Byte) (n : Nat) :
    SMap.rising ((upto n).foldl (fun b i => SMap.set 0 b i (bs.getD i 0)) m) = true ∧
      ∀ k, SMap.get 0 ((upto n).foldl (fun b i => SMap.set 0 b i (bs.getD i 0)) m) k = if k < n then bs.getD k 0 else SMap.get 0 m k := by
  induction n with
  | zero => exact ⟨h, fun k => (if_neg (Nat.not_lt_zero k)).symm⟩
  | succ n ih =>
    obtain ⟨hr, hget⟩ := ih
    rw [show upto (n + 1) = upto n ++ [n] from List.range_succ, List.foldl_append]
    refine ⟨SMap.rising_set hr, fun k => ?_⟩
    rw [List.foldl_cons, List.foldl_nil]
    by_cases hk : k = n
    · subst hk
      rw [SMap.get_set_same hr, if_pos (Nat.lt_succ_self k)]
    · rw [SMap.get_set_other hr hk, hget]
      exact ite_congr (propext (by omega)) (fun _ => rfl) (fun _ => rfl)

/-- The reply of the thimble answers the request. -/
theorem answered_reply (h : SMap.rising (u.mail p).buf = true) (status : Nat) (resp : List Byte) : answered u (u.reply p status resp) p status resp := by
  rw [State.reply, answered, State.mail_setMail]
  exact ⟨rfl, (get_putBytes h resp resp.length).2⟩

theorem State.serve_waits {op : Nat} {f : State → State × Option (Nat × List Byte)} (h : s.takes p op = false) : s.serve p op f = s := by
  rw [State.serve, h]
  rfl

theorem State.serve_refuses {op : Nat} {f : State → State × Option (Nat × List Byte)} (h : s.takes p op = true) (hp : s.opPermitted p op = false) :
    s.serve p op f = (s.passArb .mailbox (portNum p)).reply p stConflict [] := by
  have hp' : (s.passArb .mailbox (portNum p)).opPermitted p op = false := hp
  rw [State.serve, h, Bool.not_true, if_neg Bool.false_ne_true]
  dsimp only
  rw [hp']
  rfl

/-- A request that the thimble takes up and that is permitted, answered at once. -/
theorem State.serve_answers {op : Nat} {f : State → State × Option (Nat × List Byte)} {status : Nat} {resp : List Byte} (h : s.grants p op)
    (hf : f (s.passArb .mailbox (portNum p)) = (t, some (status, resp))) : s.serve p op f = t.reply p status resp := by
  obtain ⟨ht, hp⟩ := h
  have hp' : (s.passArb .mailbox (portNum p)).opPermitted p op = true := hp
  rw [State.serve, ht, Bool.not_true, if_neg Bool.false_ne_true]
  dsimp only
  rw [hp', Bool.not_true, if_neg Bool.false_ne_true, hf]

/-- A request that the thimble takes up and that is permitted, to be answered later. -/
theorem State.serve_begins {op : Nat} {f : State → State × Option (Nat × List Byte)} (h : s.grants p op)
    (hf : f (s.passArb .mailbox (portNum p)) = (t, none)) : s.serve p op f = t := by
  obtain ⟨ht, hp⟩ := h
  have hp' : (s.passArb .mailbox (portNum p)).opPermitted p op = true := hp
  rw [State.serve, ht, Bool.not_true, if_neg Bool.false_ne_true]
  dsimp only
  rw [hp', Bool.not_true, if_neg Bool.false_ne_true, hf]

/-- A granted request's answer, from the state that its service leaves. -/
theorem answered_serve {op : Nat} {f : State → State × Option (Nat × List Byte)} {status : Nat} {resp : List Byte} (h : s.grants p op)
    (hf : f (s.passArb .mailbox (portNum p)) = (t, some (status, resp))) (ht : SMap.rising (t.mail p).buf = true) :
    answered t (s.serve p op f) p status resp := by
  rw [State.serve_answers h hf]
  exact answered_reply ht status resp

/-- The same of a request whose service reads its mailbox. -/
theorem answered_request {op : Nat} {g : State → Mailbox → State × Option (Nat × List Byte)} {status : Nat} {resp : List Byte} (h : s.grants p op)
    (hg : g (s.passArb .mailbox (portNum p)) (s.mail p) = (t, some (status, resp))) (ht : SMap.rising (t.mail p).buf = true) :
    answered t (s.serve p op (fun u => g u (u.mail p))) p status resp := by
  refine answered_serve h ?_ ht
  rw [State.mail_passArb]
  exact hg

theorem State.serve_request {op : Nat} {g : State → Mailbox → State × Option (Nat × List Byte)} (h : s.grants p op)
    (hg : g (s.passArb .mailbox (portNum p)) (s.mail p) = (t, none)) : s.serve p op (fun u => g u (u.mail p)) = t := by
  refine State.serve_begins h ?_
  rw [State.mail_passArb]
  exact hg

end Sys2Proof.Machine
end
section
/-! CERTIFICATE. O57: the security mailbox, measurements and quotes. -/

namespace Sys2Proof.Machine

variable {s t u : State} {p : HostPort}

/-- The mailbox's requests, each with its operation. -/
def mailboxRows (p : HostPort) : List (Instr × Nat) :=
  [(Instr.getInfo p, 1), (.getCerts p, 2), (.getMeas p, 3), (.extend p, 4), (.attest p, 5), (.keyRelease p, 6),
    (.domainAuth p, 7), (.sessionClose p, 8), (.domainPurge p, 9), (.domainKeygen p, 0xA), (.fwBegin p, 0x10), (.fwWrite p, 0x11),
    (.fwVerify p, 0x12), (.fwActivate p, 0x13), (.fwAbort p, 0x14), (.fwCommit p, 0x15), (.settingsWrite p, 0x20), (.setMinSvn p, 0x21)]

/-- Each request of the mailbox is served through it. -/
theorem mailboxRows_serve {row : Instr} {op : Nat} (h : (row, op) ∈ mailboxRows p) (s : State) : ∃ f, exec row s = .next (s.serve p op f) := by
  simp only [mailboxRows, List.mem_cons, List.not_mem_nil, or_false, Prod.mk.injEq] at h
  obtain ⟨rfl, rfl⟩ | ⟨rfl, rfl⟩ | ⟨rfl, rfl⟩ | ⟨rfl, rfl⟩ | ⟨rfl, rfl⟩ | ⟨rfl, rfl⟩ | ⟨rfl, rfl⟩ | ⟨rfl, rfl⟩ | ⟨rfl, rfl⟩ | ⟨rfl, rfl⟩ |
    ⟨rfl, rfl⟩ | ⟨rfl, rfl⟩ | ⟨rfl, rfl⟩ | ⟨rfl, rfl⟩ | ⟨rfl, rfl⟩ | ⟨rfl, rfl⟩ | ⟨rfl, rfl⟩ | ⟨rfl, rfl⟩ := h <;> exact ⟨_, rfl⟩

theorem State.extendHost_extends {m : Mailbox} (h : 11 ≤ m.num 0 8) (h' : m.num 0 8 ≤ 15) :
    s.extendHost m = (s.extendMeasure (m.num 0 8) (m.bytes 8 32), some (stOk, [])) := by
  rw [State.extendHost, if_pos ⟨h, h'⟩]

theorem State.extendHost_refuses {m : Mailbox} (h : m.num 0 8 < 11 ∨ 15 < m.num 0 8) : s.extendHost m = (s, some (stConflict, [])) := by
  rw [State.extendHost, if_neg (fun h' => by omega)]

theorem State.attest_notReady {m : Mailbox} (h : s.sec.identityValid = false ∨ s.sec.aliasIssued = false) :
    s.attest m = (s, some (stNotReady, [])) := by
  rw [State.attest, if_pos (by simpa using h)]

theorem State.attest_plain {m : Mailbox} (hi : s.sec.identityValid = true) (ha : s.sec.aliasIssued = true) (hf : ¬bit (m.num 64 8) 0 = true) :
    s.attest m = ({ s with freeCtr := s.freeCtr + 1 }, some (stOk, s.quoteHead (m.bytes 0 32) (m.bytes 32 32) none ++
      Config.slhSign false s.sec.aliasSeed (s.quoteHead (m.bytes 0 32) (m.bytes 32 32) none) s.freeCtr)) := by
  rw [State.attest, if_neg (by simp [hi, ha]), if_neg hf]
  rfl

theorem State.attest_full {m : Mailbox} (hi : s.sec.identityValid = true) (ha : s.sec.aliasIssued = true) (hf : bit (m.num 64 8) 0 = true)
    (hall : ∀ i, i < 4 → s.session i ≠ none) : s.attest m = (s, some (stConflict, [])) := by
  have hnone : (upto 4).find? (fun i => (s.session i).isNone) = none :=
    List.find?_range_eq_none.mpr (fun i hi => Option.isNone_eq_false_iff.mpr (Option.isSome_iff_ne_none.mpr (hall i hi)) ▸ rfl)
  rw [State.attest, if_neg (by simp [hi, ha]), if_pos hf, hnone]

theorem State.attest_opens {m : Mailbox} {i : Nat} (hi : s.sec.identityValid = true) (ha : s.sec.aliasIssued = true) (hf : bit (m.num 64 8) 0 = true)
    (hlt : i < 4) (hfree : s.session i = none) (hbelow : ∀ j, j < i → s.session j ≠ none) :
    s.attest m = s.openSession i (m.bytes 0 32) (m.bytes 32 32) := by
  have hsome : (upto 4).find? (fun i => (s.session i).isNone) = some i :=
    List.find?_range_eq_some.mpr ⟨by simp [hfree], List.mem_range.mpr hlt, fun j hj => Option.isNone_eq_false_iff.mpr (Option.isSome_iff_ne_none.mpr (hbelow j hj)) ▸ rfl⟩
  rw [State.attest, if_neg (by simp [hi, ha]), if_pos hf, hsome]

/-- The head of the quote of a session opened under number `i`. -/
def State.sessionHead (s : State) (i : Nat) (nonce user : List Byte) : List Byte :=
  s.quoteHead nonce (sha256 (Config.kemEncapsulationKey (Config.freeValue s.freeCtr) ++ user)) (some i)

/-- The session so opened. -/
def State.newSession (s : State) (i : Nat) (nonce user : List Byte) : Session :=
  { uid := s.sec.opened, dk := Config.freeValue s.freeCtr, salt := sha256 (s.sessionHead i nonce user), last := s.now }

theorem State.openSession_eq (s : State) (i : Nat) (nonce user : List Byte) :
    s.openSession i nonce user =
      ({ s with
          freeCtr := s.freeCtr + 2
          sec := { s.sec with
            opened := s.sec.opened + 1
            sessions := SMap.set none s.sec.sessions i (some (s.newSession i nonce user)) } },
        some (stOk, s.sessionHead i nonce user ++ Config.slhSign false s.sec.aliasSeed (s.sessionHead i nonce user) (s.freeCtr + 1) ++
          Config.kemEncapsulationKey (Config.freeValue s.freeCtr))) := rfl

theorem length_slhSign (seed msg : List Byte) (n : Nat) : (Config.slhSign false seed msg n).length = 17088 := by
  rw [Config.slhSign, if_neg Bool.false_ne_true, Config.length_bytesOf]

theorem length_kemEncapsulationKey (seed : BitVec 64) : (Config.kemEncapsulationKey seed).length = 1184 := by
  rw [Config.kemEncapsulationKey, Config.length_bytesOf]

/-- Settles O57. -/
theorem securityMailbox : Obligations.SecurityMailbox := by
  unfold Obligations.SecurityMailbox
  intro s p ht r
  have hm : SMap.rising (r.mail p).buf = true := State.tidy_mail_passArb ht _ _ p
  refine ⟨fun row op hrow => ?rows, fun h => ?info, ?certs, fun h => ?meas, ?extend, ?attest⟩
  case rows =>
    obtain ⟨f, hf⟩ := mailboxRows_serve hrow s
    refine ⟨fun h => ⟨_, hf, State.serve_waits h⟩, fun h hr ho => ⟨_, hf, ?_⟩, fun h hr ho => ⟨_, hf, ?_⟩⟩
    · have hno : s.opPermitted p op = false := by
        rw [State.opPermitted, hr, if_pos rfl]
        simpa [opRecovery, and_assoc] using ho
      rw [State.serve_refuses h hno]
      exact answered_reply hm _ _
    · have hno : s.opPermitted p op = false := by
        rw [State.opPermitted, hr, if_neg Bool.false_ne_true]
        rcases ho with rfl | ⟨h9, hp⟩
        · rfl
        · simp [opSteward, State.isSteward, h9, hp]
      rw [State.serve_refuses h hno]
      exact answered_reply hm _ _
  case info => exact ⟨_, rfl, answered_serve h rfl hm⟩
  case certs =>
    intro h certs
    exact ⟨_, rfl, answered_serve h rfl hm⟩
  case meas => exact ⟨_, rfl, answered_serve h rfl hm⟩
  case extend =>
    intro h k
    refine ⟨fun h11 h15 => ⟨_, rfl, r.extendMeasure k ((s.mail p).bytes 8 32), ?_, ?_⟩,
      fun hk => ⟨_, rfl, answered_request (g := State.extendHost) h (State.extendHost_refuses hk) hm⟩⟩
    · exact answered_request (g := State.extendHost) h (State.extendHost_extends h11 h15) (State.tidy_mail_passArb ht _ _ p)
    · rfl
  case attest =>
    intro h m flagged
    refine ⟨fun hno => ⟨_, rfl, answered_request (g := State.attest) h (State.attest_notReady hno) hm⟩, fun h1 h2 hf => ?plain,
      fun h1 h2 hf hall => ⟨_, rfl, answered_request (g := State.attest) h (State.attest_full h1 h2 hf hall) hm⟩, fun i h1 h2 hf hi hfree hbelow => ?opens⟩
    case plain => exact ⟨_, length_slhSign _ _ _, _, rfl, answered_request (g := State.attest) h (State.attest_plain h1 h2 hf) hm⟩
    case opens =>
      refine ⟨Config.freeValue s.freeCtr, Config.slhSign false s.sec.aliasSeed (r.sessionHead i (m.bytes 0 32) (m.bytes 32 32)) (s.freeCtr + 1),
        length_slhSign _ _ _, ?_⟩
      intro ek head x
      refine ⟨length_kemEncapsulationKey (Config.freeValue s.freeCtr), ?_⟩
      have hopen := (State.attest_opens (s := r) (m := m) h1 h2 hf hi hfree hbelow).trans (State.openSession_eq ..)
      exact ⟨_, rfl, _, answered_request (g := State.attest) h hopen (State.tidy_mail_passArb ht .mailbox (portNum p) p), rfl⟩

end Sys2Proof.Machine
end

section
/-! CERTIFICATE. O59: firmware sessions and flash operations. -/

namespace Sys2Proof.Machine

variable {s t u : State} {p : HostPort} {m : Mailbox}

/-! ### The requests of a session -/

theorem State.fwIn_of_session {k n : Nat} {last : Nat} (h : s.sec.fwSession = some (k, last)) (hs : (s.fw k).staged = n) : s.fwIn k n = true := by
  simp [State.fwIn, h, hs]

theorem State.fwIn_of_none {k n : Nat} (h : s.sec.fwSession = none) : s.fwIn k n = false := by
  simp [State.fwIn, h]

theorem State.fwTouch_of_none (h : s.sec.fwSession = none) : s.fwTouch = s := by
  have hx : s.sec.fwSession.map (fun x => (x.1, s.now)) = s.sec.fwSession := by rw [h]; rfl
  rw [State.fwTouch, hx]

/-- Outside a session a request conflicts. -/
theorem State.fwRefusal_of_none {k : Nat} (h : s.sec.fwSession = none) : s.fwRefusal k = stConflict := by
  rw [State.fwRefusal, State.fwIn_of_none h]
  rfl

theorem State.fwTouch_session {k last : Nat} (h : s.sec.fwSession = some (k, last)) : s.fwTouch.sec.fwSession = some (k, s.now) := by
  rw [State.fwTouch, h]
  rfl

theorem State.fwBegin_opens (hj : m.num 0 8 < 5) (h : s.sec.fwSession = none) :
    s.fwBegin m = ({ s with sec := { s.sec with
      fwSession := some (m.num 0 8, s.now)
      files := SMap.set {} s.sec.files (5 * (1 - (s.fw (m.num 0 8)).devA) + m.num 0 8)
        { s.file (1 - (s.fw (m.num 0 8)).devA) (m.num 0 8) with verified := false }
      fw := SMap.set {} s.sec.fw (m.num 0 8) { s.fw (m.num 0 8) with staged := 1, covered := 0 }
      flashQ := s.sec.flashQ ++ [.eraseB (m.num 0 8)] } }, some (stOk, [])) := by
  have hcond : ¬(5 ≤ m.num 0 8 ∨ s.sec.fwSession.isSome = true) := by
    rw [h]
    simpa using hj
  rw [State.fwBegin, if_neg hcond]
  rfl

theorem State.fwBegin_refuses (h : 5 ≤ m.num 0 8 ∨ s.sec.fwSession ≠ none) : s.fwBegin m = (s, some (stConflict, [])) := by
  rw [State.fwBegin, if_pos (h.imp id Option.isSome_iff_ne_none.mpr)]

/-- A block is taken where the session's slot loads, and nothing of the block is out of place. -/
theorem State.fwWrite_queues {last : Nat} (h : s.sec.fwSession = some (m.num 0 1, last)) (hs : (s.fw (m.num 0 1)).staged = 2)
    (hoff : m.num 4 4 % 4096 = 0) (hdata : m.bytes 8 (8 * m.req - 8) ≠ []) (hlen : (m.bytes 8 (8 * m.req - 8)).length ≤ 61440)
    (harea : m.num 4 4 + (m.bytes 8 (8 * m.req - 8)).length ≤ areaSize (m.num 0 1))
    (hblock : s.blockLenOk (m.num 0 1) (m.num 4 4) (m.bytes 8 (8 * m.req - 8)) = true)
    (hfree : ∀ n, n < (chunks 4096 15 (m.bytes 8 (8 * m.req - 8))).length → (s.slotB (m.num 0 1)).unit (m.num 4 4 / 4096 + n) = []) :
    s.fwWrite p m = (s.fwTouch.queueFlash (.program p (m.num 0 1) (m.num 4 4 / 4096) (chunks 4096 15 (m.bytes 8 (8 * m.req - 8)))), none) := by
  have hin : s.fwTouch.fwIn (m.num 0 1) 2 = true := State.fwIn_of_session (State.fwTouch_session h) hs
  have hover : (upto (chunks 4096 15 (m.bytes 8 (8 * m.req - 8))).length).any
      (fun k => (s.fwTouch.slotB (m.num 0 1)).unit (m.num 4 4 / 4096 + k) != []) = false := by
    rw [List.any_eq_false]
    intro k hk
    have hu : (s.fwTouch.slotB (m.num 0 1)).unit (m.num 4 4 / 4096 + k) = [] := hfree k (List.mem_range.mp hk)
    simp [hu]
  have hblock' : s.fwTouch.blockLenOk (m.num 0 1) (m.num 4 4) (m.bytes 8 (8 * m.req - 8)) = true := hblock
  rw [State.fwWrite]
  rw [hin, hover, hblock']
  rw [if_neg (by decide), if_neg (by simp [hoff, hdata]; omega)]

theorem State.fwWrite_refuses {last : Nat} (h : s.sec.fwSession = some (m.num 0 1, last)) (hs : (s.fw (m.num 0 1)).staged = 2)
    (hbad : m.num 4 4 % 4096 ≠ 0 ∨ 61440 < (m.bytes 8 (8 * m.req - 8)).length ∨ areaSize (m.num 0 1) < m.num 4 4 + (m.bytes 8 (8 * m.req - 8)).length ∨
      ∃ n, n < (chunks 4096 15 (m.bytes 8 (8 * m.req - 8))).length ∧ (s.slotB (m.num 0 1)).unit (m.num 4 4 / 4096 + n) ≠ []) :
    s.fwWrite p m = (s.fwTouch, some (stConflict, [])) := by
  have hin : s.fwTouch.fwIn (m.num 0 1) 2 = true := State.fwIn_of_session (State.fwTouch_session h) hs
  have hover : (∃ n, n < (chunks 4096 15 (m.bytes 8 (8 * m.req - 8))).length ∧ (s.slotB (m.num 0 1)).unit (m.num 4 4 / 4096 + n) ≠ []) →
      (upto (chunks 4096 15 (m.bytes 8 (8 * m.req - 8))).length).any
        (fun k => (s.fwTouch.slotB (m.num 0 1)).unit (m.num 4 4 / 4096 + k) != []) = true := by
    rintro ⟨n, hn, hu⟩
    exact List.any_eq_true.mpr ⟨n, List.mem_range.mpr hn, bne_iff_ne.mpr hu⟩
  rw [State.fwWrite]
  rw [hin, if_neg (by decide), if_pos]
  rcases hbad with h | h | h | h
  · exact .inl h
  · exact .inr (.inr (.inl h))
  · exact .inr (.inr (.inr (.inl h)))
  · exact .inr (.inr (.inr (.inr (.inr (hover h)))))

theorem State.fwWrite_of_none (h : s.sec.fwSession = none) : s.fwWrite p m = (s, some (stConflict, [])) := by
  rw [State.fwWrite]
  rw [State.fwTouch_of_none h, State.fwIn_of_none h, State.fwRefusal_of_none h]
  rfl

theorem State.fwVerify_begins {last : Nat} (h : s.sec.fwSession = some (m.num 0 8, last)) (hs : (s.fw (m.num 0 8)).staged = 2) :
    s.fwVerify m = (s.fwTouch.setFw (m.num 0 8) { s.fw (m.num 0 8) with staged := 3 }, some (stOk, [])) := by
  have hin : s.fwTouch.fwIn (m.num 0 8) 2 = true := State.fwIn_of_session (State.fwTouch_session h) hs
  rw [State.fwVerify]
  dsimp only
  rw [hin]
  rfl

theorem State.fwVerify_of_none (h : s.sec.fwSession = none) : s.fwVerify m = (s, some (stConflict, [])) := by
  rw [State.fwVerify]
  dsimp only
  rw [State.fwTouch_of_none h, State.fwIn_of_none h, State.fwRefusal_of_none h]
  rfl

theorem State.fwAbort_ends {last : Nat} (h : s.sec.fwSession = some (m.num 0 8, last)) :
    s.fwAbort m = (s.fwAbandon (m.num 0 8), some (stOk, [])) := by
  rw [State.fwAbort, h]
  exact if_pos rfl

theorem State.fwAbort_of_none (h : s.sec.fwSession = none) : s.fwAbort m = (s, some (stConflict, [])) := by rw [State.fwAbort, h]

theorem State.fwCommit_queues (hj : m.num 0 8 < 5) (h : (s.fw (m.num 0 8)).staged = 4) :
    s.fwCommit p m = (s.queueFlash (.selector (some p) (m.num 0 8)), none) := by
  rw [State.fwCommit, if_pos ⟨hj, h⟩]

theorem State.fwCommit_refuses (h : 5 ≤ m.num 0 8 ∨ (s.fw (m.num 0 8)).staged ≠ 4) : s.fwCommit p m = (s, some (stConflict, [])) := by
  rw [State.fwCommit, if_neg (fun hx => h.elim (fun h5 => by omega) (fun hs => hs hx.2))]

/-! ### Flash operations -/

theorem olderCopy_lt (a b : Bool) (m n : Nat) : olderCopy a b m n < 2 := by
  rw [olderCopy]
  split
  · decide
  · split
    · decide
    · split <;> decide

/-- The state with another flash queue. -/
def State.withFlash (s : State) (q : List FlashOp) : State := { s with sec := { s.sec with flashQ := q } }

/-- The one flash operation accepted ends. -/
theorem State.flashComplete_one {op : FlashOp} (hgo : s.ready = true ∨ s.recovery = true) (hf : s.freeze.frozen = false) (h : s.sec.flashQ = [op]) :
    doFlashComplete s = (s.withFlash []).flashDone op := by
  have herase : s.sec.flashQ.erase op = [] := by rw [h]; simp
  have hnext : (match s.sec.flashQ.find? (fun op => !op.waits) with | some op => some op | none => s.sec.flashQ.head?) = some op := by
    rw [h]
    cases hw : op.waits <;> simp [hw]
  rw [doFlashComplete, if_neg (by rcases hgo with h | h <;> simp [h, hf])]
  split
  · next o ho =>
    have hop : o = op := Option.some.inj (ho.symm.trans hnext)
    rw [hop, herase]
    rfl
  · next ho => exact absurd (ho.symm.trans hnext) (by simp)

/-- With a training record before it, another operation goes first. -/
theorem State.flashComplete_behind {n : Nat} {m1 : List Byte} (hgo : s.ready = true ∨ s.recovery = true) (hf : s.freeze.frozen = false)
    (h : s.sec.flashQ = [.training n, .aliasCert m1]) :
    doFlashComplete s = (s.withFlash [.training n]).flashDone (.aliasCert m1) := by
  have herase : s.sec.flashQ.erase (.aliasCert m1) = [.training n] := by rw [h]; simp
  have hnext : (match s.sec.flashQ.find? (fun op => !op.waits) with | some op => some op | none => s.sec.flashQ.head?) = some (.aliasCert m1) := by
    rw [h]
    simp [FlashOp.waits]
  rw [doFlashComplete, if_neg (by rcases hgo with h | h <;> simp [h, hf])]
  split
  · next o ho =>
    have hop : o = .aliasCert m1 := Option.some.inj (ho.symm.trans hnext)
    rw [hop, herase]
    rfl
  · next ho => exact absurd (ho.symm.trans hnext) (by simp)

/-- Slot B of an image with a block programmed. -/
def State.blockProgrammed (s : State) (k u : Nat) (us : List (List Byte)) : ImageFile :=
  { s.slotB k with units := (upto us.length).foldl (fun m n => SMap.set [] m (u + n) (us.getD n [])) (s.slotB k).units }

theorem State.programmed_eq (s : State) (k u : Nat) (us : List (List Byte)) :
    s.programmed k u us = { s with sec := { s.sec with
      fw := SMap.set {} s.sec.fw k { s.fw k with covered := (s.blockProgrammed k u us).units.length }
      files := SMap.set {} s.sec.files (5 * (1 - (s.fw k).devA) + k) (s.blockProgrammed k u us) } } := rfl

/-- The device whose copy of the boot selector is written next. -/
def State.selectorDevice (s : State) : Nat :=
  olderCopy (SMap.get ({} : Selector) s.sec.selectors 0).valid (SMap.get ({} : Selector) s.sec.selectors 1).valid
    (SMap.get ({} : Selector) s.sec.selectors 0).seq (SMap.get ({} : Selector) s.sec.selectors 1).seq

theorem State.writeSelector_eq (s : State) (k dev : Nat) : ∃ d n, d < 2 ∧ s.writeSelector k dev =
    { s with sec := { s.sec with selectors := SMap.set {} s.sec.selectors d { valid := true, seq := n, map := setFld (s.selector.getD {}).map k k dev } } } :=
  ⟨s.selectorDevice, _, olderCopy_lt _ _ _ _, rfl⟩

/-- The new record of a kind follows every valid copy. -/
theorem State.newSeq_follows {kind d : Nat} (hd : d < 2) (hv : s.recValid kind (s.settingRec d kind) = true) :
    (s.settingRec d kind).seq < max (if s.recValid kind (s.settingRec 0 kind) then (s.settingRec 0 kind).seq else 0)
      (if s.recValid kind (s.settingRec 1 kind) then (s.settingRec 1 kind).seq else 0) + 1 := by
  obtain rfl | rfl : d = 0 ∨ d = 1 := by omega
  · rw [if_pos hv]
    omega
  · rw [if_pos hv]
    omega

theorem length_slhSign_small (seed msg : List Byte) (n : Nat) : (Config.slhSign true seed msg n).length = 7856 := by
  rw [Config.slhSign, if_pos rfl, Config.length_bytesOf]

theorem State.length_signRecord_sig (s : State) (kind n : Nat) (vs : List Nat) : (s.signRecord kind n vs).sig.length = 7856 := by
  simp only [State.signRecord, length_slhSign_small]

/-- A record written: laid out, signed and after every valid copy. -/
theorem State.writeRecord_eq (s : State) (kind : Nat) (vs : List Nat) : ∃ (d n : Nat), d < 2 ∧
    (∀ d, d < 2 → s.recValid kind (s.settingRec d kind) = true → (s.settingRec d kind).seq < n) ∧
    s.writeRecord kind vs = { s with
      freeCtr := s.freeCtr + 1
      sec := { s.sec with records := SMap.set {} s.sec.records (3 * d + kind) (s.signRecord kind n vs) } } :=
  ⟨_, _, olderCopy_lt _ _ _ _, fun _ hd hv => State.newSeq_follows hd hv, rfl⟩

/-- A training record written: after both copies, with the delays in force and its HMAC. -/
theorem State.writeTraining_eq (s : State) (n : Nat) : ∃ (d : Nat) (x : TrainRec), d < 2 ∧ x.mac = hmac s.sec.trainKey x.bytes ∧
    (s.trainRec 0 n).seq < x.seq ∧ (s.trainRec 1 n).seq < x.seq ∧ x.delays = (List.range 48).map (fun c => (s.channel (48 * n + c)).delay) ∧
    s.writeTraining n = { s with sec := { s.sec with training := SMap.set {} s.sec.training (8 * d + n) x } } := by
  rw [State.writeTraining]
  exact ⟨_, _, olderCopy_lt _ _ _ _, rfl, Nat.lt_succ_of_le (Nat.le_max_left _ _), Nat.lt_succ_of_le (Nat.le_max_right _ _),
    List.map_map, rfl⟩

/-- The state once slot B of image `k` is judged with a status. -/
def State.judged (s : State) (k st : Nat) : State :=
  let u := if st = stOk then s.setFile (1 - (s.fw k).devA) k (s.slotB k).verifiedBy else s
  let v := u.setFw k { u.fw k with staged := if st = stOk then 4 else 5, lastStatus := st }
  { v with sec := { v.sec with fwSession := none } }

theorem doFwVerifyComplete_judges {k last : Nat} (hgo : ¬(!(s.ready || s.recovery) || s.freeze.frozen) = true)
    (hs : s.sec.fwSession = some (k, last)) (hin : s.fwIn k 3 = true) : doFwVerifyComplete s = s.judged k (s.verifyImage k (s.slotB k)) := by
  rw [doFwVerifyComplete, if_neg hgo, hs]
  exact if_pos hin

/-- The end of a check of slot B: the session is over, and the slot has its status, and its certificate where it passes. -/
theorem State.judged_left (hr : SMap.rising s.sec.fw = true) (k st : Nat) : (s.judged k st).sec.fwSession = none ∧
    s.judged k st = { s with sec := (s.judged k st).sec } ∧
    (s.judged k st).fw k = { s.fw k with staged := if st = stOk then 4 else 5, lastStatus := st } ∧
    (st ≠ stOk → (s.judged k st).sec.files = s.sec.files) ∧
    (st = stOk → (s.judged k st).sec.files = SMap.set {} s.sec.files (5 * (1 - (s.fw k).devA) + k) (s.slotB k).verifiedBy) := by
  by_cases hok : st = stOk
  · rw [State.judged, if_pos hok, if_pos hok]
    exact ⟨rfl, rfl, SMap.get_set_same hr, fun hno => absurd hok hno, fun _ => rfl⟩
  · rw [State.judged, if_neg hok, if_neg hok]
    exact ⟨rfl, rfl, SMap.get_set_same hr, fun _ => rfl, fun hyes => absurd hyes hok⟩

theorem State.fwIn_withFlash (s : State) (q : List FlashOp) (k n : Nat) : (s.withFlash q).fwIn k n = s.fwIn k n := rfl

theorem State.fwIn_setFile (s : State) (dev j k n : Nat) (f : ImageFile) : (s.setFile dev j f).fwIn k n = s.fwIn k n := rfl

theorem State.setFile_flashQ (s : State) (dev j : Nat) (f : ImageFile) : (s.setFile dev j f).sec.flashQ = s.sec.flashQ := rfl

/-- Slot B erased for the session that asked. -/
theorem State.erased_inSession {k : Nat} (hin : s.fwIn k 1 = true) (hq : s.sec.flashQ = []) :
    s.erased k = (s.setFile (1 - (s.fw k).devA) k {}).setFw k { s.fw k with staged := 2 } := by
  rw [State.erased]
  dsimp only
  rw [State.fwIn_setFile, hin, State.setFile_flashQ, hq]
  rfl

/-- Settles O59. -/
theorem firmwareSessions : Obligations.FirmwareSessions := by
  unfold Obligations.FirmwareSessions
  intro s p ht r m j served withSec touched setFw
  have hm : SMap.rising (r.mail p).buf = true := State.tidy_mail_passArb ht _ _ p
  refine ⟨?begin, ?write, fun h => ?verify, fun k last hgo hfr hs hst => ?verified, fun h => ?abort, fun k last hr hs => ?idle, fun hr => ?noIdle,
    fun h => ?commit, fun hgo hfr => ?flash, fun hr hfr hid hal hmode => ?issue, fun hal => ?issued⟩
  case begin =>
    intro h dev
    exact ⟨fun hj hs => ⟨_, rfl, answered_request (g := State.fwBegin) h (State.fwBegin_opens hj hs) (State.tidy_mail_passArb ht .mailbox (portNum p) p)⟩,
      fun hno => ⟨_, rfl, answered_request (g := State.fwBegin) h (State.fwBegin_refuses hno) hm⟩⟩
  case write =>
    intro h k off data us
    refine ⟨fun last hs hst hoff hdata hlen harea hblock hfree => ⟨_, rfl, ?_⟩, fun last hs hst hbad => ⟨_, rfl, ?_⟩, fun hs => ⟨_, rfl, ?_⟩⟩
    · exact State.serve_request (g := fun u m => u.fwWrite p m) h (State.fwWrite_queues hs hst hoff hdata hlen harea hblock hfree)
    · exact answered_request (g := fun u m => u.fwWrite p m) h (State.fwWrite_refuses hs hst hbad) (State.tidy_mail_passArb ht .mailbox (portNum p) p)
    · exact answered_request (g := fun u m => u.fwWrite p m) h (State.fwWrite_of_none hs) hm
  case verify =>
    exact ⟨fun last hs hst => ⟨_, rfl, answered_request (g := State.fwVerify) h (State.fwVerify_begins hs hst) (State.tidy_mail_passArb ht .mailbox (portNum p) p)⟩,
      fun hs => ⟨_, rfl, answered_request (g := State.fwVerify) h (State.fwVerify_of_none hs) hm⟩⟩
  case verified =>
    intro st
    have hin : s.fwIn k 3 = true := State.fwIn_of_session hs hst
    have hgo' : ¬(!(s.ready || s.recovery) || s.freeze.frozen) = true := by rcases hgo with h | h <;> simp [h, hfr]
    refine ⟨_, rfl, ?_⟩
    rw [doFwVerifyComplete_judges hgo' hs hin]
    exact State.judged_left (State.tidy_fw ht) k st
  case abort =>
    exact ⟨fun last hs => ⟨_, rfl, answered_request (g := State.fwAbort) h (State.fwAbort_ends hs) (State.tidy_mail_passArb ht .mailbox (portNum p) p)⟩,
      fun hs => ⟨_, rfl, answered_request (g := State.fwAbort) h (State.fwAbort_of_none hs) hm⟩⟩
  case idle =>
    refine ⟨_, rfl, ?_⟩
    rw [doFwIdle, hr, hs]
    rfl
  case noIdle =>
    refine ⟨_, rfl, ?_⟩
    rw [doFwIdle, hr]
    rfl
  case commit =>
    refine ⟨fun hj hst => ⟨_, rfl, ?_⟩, fun hno => ⟨_, rfl, ?_⟩⟩
    · exact State.serve_request (g := fun u m => u.fwCommit p m) h (State.fwCommit_queues hj hst)
    · exact answered_request (g := fun u m => u.fwCommit p m) h (State.fwCommit_refuses hno) hm
  case flash =>
    intro row done
    refine ⟨fun h => ?none, fun k last h hs hst => ?erase, fun q k u us h => ?program, fun k h => ?select, fun q k h => ?commits, fun kind vs b h => ?record,
      fun n h => ?training, fun m1 h => ?cert, fun n m1 h => ?behind⟩
    case none =>
      refine ⟨_, rfl, ?_⟩
      rw [doFlashComplete, h]
      exact ite_self s
    case erase =>
      have hin : (s.withFlash []).fwIn k 1 = true := (State.fwIn_withFlash s [] k 1).trans (State.fwIn_of_session hs hst)
      refine ⟨_, rfl, ?_⟩
      rw [State.flashComplete_one hgo hfr h, State.flashDone, State.erased_inSession hin rfl]
      rfl
    case program =>
      refine ⟨_, rfl, ?_⟩
      rw [State.flashComplete_one hgo hfr h, State.flashDone, State.programmed_eq]
      refine ⟨s.blockProgrammed k u us, rfl, rfl, answered_reply ?_ _ _⟩
      exact State.tidy_mail ht q
    case select =>
      obtain ⟨dev, n, hdev, hx⟩ := State.writeSelector_eq (s.withFlash []) k (s.fw k).devA
      exact ⟨_, rfl, dev, n, hdev, (State.flashComplete_one hgo hfr h).trans hx⟩
    case commits =>
      obtain ⟨dev, n, hdev, hx⟩ := State.writeSelector_eq (s.withFlash []) k (1 - (s.fw k).devA)
      refine ⟨_, rfl, dev, n, hdev, ?_⟩
      have hgone : doFlashComplete s = ((s.withFlash []).writeSelector k (1 - (s.fw k).devA)).reply q stOk [] := State.flashComplete_one hgo hfr h
      rw [hgone, hx]
      refine answered_reply ?_ _ _
      exact State.tidy_mail ht q
    case record =>
      obtain ⟨dev, n, hdev, hseq, hx⟩ := State.writeRecord_eq (s.withFlash []) kind vs
      refine ⟨_, rfl, dev, s.signRecord kind n vs, hdev, hseq, rfl, rfl, rfl, rfl, rfl, rfl, rfl, State.length_signRecord_sig s kind n vs, ?_⟩
      rw [State.flashComplete_one hgo hfr h, State.flashDone, hx]
      cases b
      · rfl
      · rfl
    case training =>
      obtain ⟨dev, x, hdev, hmac, h0, h1, hdelays, hx⟩ := State.writeTraining_eq (s.withFlash []) n
      exact ⟨_, rfl, dev, x, hdev, hmac, h0, h1, hdelays, (State.flashComplete_one hgo hfr h).trans hx⟩
    case cert => exact ⟨_, rfl, State.flashComplete_one hgo hfr h⟩
    case behind => exact ⟨_, rfl, State.flashComplete_behind hgo hfr h⟩
  case issue =>
    refine ⟨_, rfl, ?_⟩
    rw [doAliasCert, if_pos (by simp [hr, hfr, hid, hal, hmode])]
    rfl
  case issued =>
    refine ⟨_, rfl, ?_⟩
    rw [doAliasCert, if_neg (by simp [hal])]

end Sys2Proof.Machine
end

section
/-! CERTIFICATE. O60: activation, settings records, floors and the Data Object Exchange mailbox. -/

namespace Sys2Proof.Machine

variable {s t u : State} {p : HostPort} {m : Mailbox}

/-! ### Activation -/

/-- The thimble takes up nothing but a question while an activation is in progress. -/
theorem State.idle_of_takes {op : Nat} (h : s.takes p op = true) (h1 : op ≠ 1) (h3 : op ≠ 3) : s.sec.activation = none := by
  simp only [State.takes, Bool.and_eq_true] at h
  obtain ⟨-, h⟩ := h
  split at h
  · simp [h1, h3] at h
  · simp only [Bool.and_eq_true, State.inService, Bool.not_eq_true', Bool.or_eq_false_iff] at h
    obtain ⟨⟨hidle, -⟩, -⟩ := h
    cases hs : s.sec.activation with
    | none => rfl
    | some a => rw [hs] at hidle; simp at hidle

/-- The end of an activation answers its request. -/
theorem answered_endActivation (h : SMap.rising (u.mail p).buf = true) (status : Nat) :
    answered { u with sec := { u.sec with activation := none } } (u.endActivation p status) p status [] := by
  rw [State.endActivation]
  refine answered_reply ?_ _ _
  cases p <;> exact h

/-- Without a session that pins the TH nothing is purged. -/
theorem State.purgePinned_of_none (h : s.anyFlag 2 = false) : s.purgePinned = s := by
  have hnone : s.sec.sessions.filter (fun e => match e.2 with | some x => bit x.flags 2 | none => false) = [] := by
    rw [List.filter_eq_nil_iff]
    intro e he
    have hx := List.any_eq_false.mp h e he
    exact hx
  have hfold : ∀ l : List (Nat × Option Session), l = [] → (l.foldl (fun (s : State) e => match e.2 with
      | some x => (s.heldBy x.uid).foldl State.purge s
      | none => s) s) = s := by
    intro l hl
    rw [hl]
    rfl
  exact hfold _ hnone

/-- The hold of an activation begins, or it waits. -/
theorem State.beginHold_eq {a : Activation} (h : s.sec.activation = some a) (hd : a.deadline = 0) :
    s.beginHold = { s with sec := { s.sec with
      activation := some { a with deadline := if s.mayRun a.cur then s.now + activationHold a.cur else 0 } } } := by
  rw [State.beginHold, h]
  dsimp only
  by_cases hr : s.mayRun a.cur = true
  · rw [if_pos ⟨hd, hr⟩, if_pos hr]
  · rw [if_neg (fun hx => hr hx.2), if_neg hr]
    have hz : some { a with deadline := 0 } = s.sec.activation := by rw [h, ← hd]
    rw [hz]

/-- The state as the activation of image `j` begins, the rest of the operation to follow. -/
def State.activationBegun (s : State) (p : HostPort) (j deadline : Nat) (rest : List Nat) : State :=
  { s with sec := { s.sec with
      fw := SMap.set {} s.sec.fw j { s.fw j with staged := 6 }
      activation := some { port := p, rest := rest, cur := j, deadline := deadline }
      mode := if j = 0 then 2 else s.sec.mode } }

theorem State.activateNext_begins {j : Nat} {rest : List Nat} (hf : s.fitsRunning j = true) (hp : j ≠ 0 ∨ s.anyFlag 2 = false) :
    s.activateNext p (j :: rest) = s.activationBegun p j (if s.mayRun j then s.now + activationHold j else 0) rest := by
  have hold := State.beginHold_eq (s := s.activationBegun p j 0 rest) rfl rfl
  rw [State.activateNext, if_pos hf]
  change (if j = 0 then (s.activationBegun p j 0 rest).purgePinned else s.activationBegun p j 0 rest).beginHold = _
  by_cases hj : j = 0
  · subst hj
    have hpin : (s.activationBegun p 0 0 rest).purgePinned = s.activationBegun p 0 0 rest :=
      State.purgePinned_of_none (hp.elim (fun h => absurd rfl h) id)
    exact (congrArg State.beginHold hpin).trans hold
  · rw [if_neg hj]
    exact hold

theorem State.activateNext_refuses {j : Nat} {rest : List Nat} (hf : s.fitsRunning j = false) :
    s.activateNext p (j :: rest) = (s.setFw j { s.fw j with lastStatus := stIncompatible }).endActivation p stIncompatible := by
  rw [State.activateNext, hf]
  rfl

/-! ### A unit that runs its new image -/

/-- With the slots exchanged slot A holds what slot B held. -/
theorem State.slotA_exchanged {j : Nat} {x : FwImage} (h : SMap.rising s.sec.fw = true) (hx : x.devA = 1 - (s.fw j).devA) :
    (s.setFw j x).slotA j = s.slotB j := by
  have hfw : (s.setFw j x).fw j = x := SMap.get_set_same h
  rw [State.slotA, hfw, hx]
  rfl

/-- The state once image `j` is exchanged and measured as `new`. -/
def State.exchanged (s : State) (j : Nat) (new : List Byte) : State :=
  ((((s.setFw j { s.fw j with devA := 1 - (s.fw j).devA, staged := 4, covered := 0, lastStatus := stOk }).queueFlash (.selector none j)).setMreg
    (1 + j) new).extendMeasure 10 (BitVec.ofNat 8 j :: List.replicate 31 0)).extendMeasure 10 new

@[simp] theorem State.slotA_setMreg (s : State) (i j : Nat) (m : List Byte) : (s.setMreg i m).slotA j = s.slotA j := rfl
@[simp] theorem State.slotA_extendMeasure (s : State) (i j : Nat) (d : List Byte) : (s.extendMeasure i d).slotA j = s.slotA j := rfl
@[simp] theorem State.slotA_queueFlash (s : State) (op : FlashOp) (j : Nat) : (s.queueFlash op).slotA j = s.slotA j := rfl

/-- A new TH runs: its alias key follows its measurement, and no certificate of it is issued. -/
def State.thRuns (u : State) : State :=
  { u with sec := { u.sec with
      mode := 1
      aliasIssued := false
      aliasSeed := if u.sec.identityValid then aliasKey (u.mreg 1) else [] } }

theorem State.unitRuns_eq {j : Nat} (h : SMap.rising s.sec.fw = true) : s.unitRuns j =
    if j = 0 then (s.exchanged j (s.slotB j).measure).thRuns
    else if j = 1 then (upto 3).foldl State.recheckSettings (s.exchanged j (s.slotB j).measure) else s.exchanged j (s.slotB j).measure := by
  have hA := State.slotA_exchanged (x := { s.fw j with devA := 1 - (s.fw j).devA, staged := 4, covered := 0, lastStatus := stOk }) (j := j) h rfl
  rw [State.unitRuns]
  simp only [State.slotA_setMreg, State.slotA_extendMeasure, State.slotA_queueFlash, hA]
  rw [← State.exchanged]
  rfl

/-! ### Settings handled again -/

theorem LossOnly.sec (h : LossOnly s t) : t.sec = s.sec := by
  have h' := congrArg State.sec h.same
  exact h'

theorem State.setField_foldl_sec (l : List ((Nat × Nat × Nat) × Nat)) (s : State) :
    (l.foldl (fun s e => s.setField e.1.1 e.1.2.1 e.1.2.2 e.2) s).sec = s.sec := by
  induction l generalizing s with
  | nil => rfl
  | cons e l ih => exact (ih _).trans rfl

theorem State.putSettings_fw (s : State) (k : Nat) (vs : List Nat) : (s.putSettings k vs).sec.fw = s.sec.fw := by
  rw [State.putSettings]
  split
  · rfl
  · rw [State.setField_foldl_sec]

theorem State.resetSettings_fw (s : State) (k c f : Nat) : (s.resetSettings k c f).sec.fw = s.sec.fw := by
  rw [State.resetSettings]
  rw [(LossOnly.of_eventless (State.eventless_raiseEvent ..)).sec]
  split
  · exact State.putSettings_fw ..
  · exact State.putSettings_fw ..

theorem State.setFabricId_sec (s : State) (v : Nat) : (s.setFabricId v).sec = s.sec :=
  (LossOnly.foldl (fun u p => LossOnly.portDown u p 7) _ (s.setReg 0x03100000 v)).sec

theorem State.recheckSettings_fw (s : State) (k : Nat) : (s.recheckSettings k).sec.fw = s.sec.fw := by
  rw [State.recheckSettings]
  split
  · dsimp only
    split
    · exact State.resetSettings_fw ..
    · rw [State.setFabricId_sec]
      exact State.resetSettings_fw ..
  · rfl

/-! ### Replies -/

@[simp] theorem State.mail_reply (s : State) (p : HostPort) (status : Nat) (resp : List Byte) :
    ((s.reply p status resp).mail p).busy = false ∧ ((s.reply p status resp).mail p).status = status := by
  rw [State.reply, State.mail_setMail]
  exact ⟨rfl, rfl⟩

/-- A reply changes the mailboxes alone. -/
theorem State.reply_mails (s : State) (p : HostPort) (status : Nat) (resp : List Byte) :
    ∃ a b, s.reply p status resp = { s with sec := { s.sec with mailA := a, mailB := b } } := by
  cases p
  · exact ⟨_, _, rfl⟩
  · exact ⟨_, _, rfl⟩

theorem State.serve_replies {op : Nat} {g : State → Mailbox → State × Option (Nat × List Byte)} {status : Nat} {resp : List Byte} (h : s.grants p op)
    (hg : g (s.passArb .mailbox (portNum p)) (s.mail p) = (t, some (status, resp))) :
    s.serve p op (fun u => g u (u.mail p)) = t.reply p status resp := by
  refine State.serve_answers h ?_
  rw [State.mail_passArb]
  exact hg

theorem State.exchanged_fw {j : Nat} (hr : SMap.rising s.sec.fw = true) (new : List Byte) :
    (s.exchanged j new).fw j = { s.fw j with devA := 1 - (s.fw j).devA, staged := 4, covered := 0, lastStatus := stOk } := SMap.get_set_same hr

theorem State.recheckAll_fw (l : List Nat) (s : State) : (l.foldl State.recheckSettings s).sec.fw = s.sec.fw := by
  induction l generalizing s with
  | nil => rfl
  | cons k l ih => exact (ih _).trans (State.recheckSettings_fw s k)

@[simp] theorem State.thRuns_fw (s : State) (j : Nat) : s.thRuns.fw j = s.fw j := rfl

theorem State.fw_of_sec_fw (h : t.sec.fw = s.sec.fw) (j : Nat) : t.fw j = s.fw j := by rw [State.fw, State.fw, h]

/-- A unit that runs its new image: its slots are exchanged. -/
theorem State.unitRuns_fw {j : Nat} (hr : SMap.rising s.sec.fw = true) :
    (s.unitRuns j).fw j = { s.fw j with devA := 1 - (s.fw j).devA, staged := 4, covered := 0, lastStatus := stOk } := by
  rw [State.unitRuns_eq hr]
  split
  · rw [State.thRuns_fw, State.exchanged_fw hr]
  · split
    · rw [State.fw_of_sec_fw (State.recheckAll_fw _ _), State.exchanged_fw hr]
    · rw [State.exchanged_fw hr]

/-- What changes the thimble's state alone, one after another. -/
theorem State.sec_trans (h : t = { s with sec := t.sec }) (h' : u = { t with sec := u.sec }) : u = { s with sec := u.sec } :=
  h'.trans (congrArg (fun x : State => { x with sec := u.sec }) h)

theorem State.setMreg_measures (h : t.sec.measures = s.sec.measures) (i : Nat) (x : List Byte) :
    (t.setMreg i x).sec.measures = (s.setMreg i x).sec.measures := congrArg (fun l => SMap.set [] l i x) h

theorem State.extendMeasure_measures (h : t.sec.measures = s.sec.measures) (i : Nat) (d : List Byte) :
    (t.extendMeasure i d).sec.measures = (s.extendMeasure i d).sec.measures := by
  have hi : t.mreg i = s.mreg i := by rw [State.mreg, State.mreg, h]
  rw [State.extendMeasure, State.extendMeasure, hi]
  exact State.setMreg_measures h i _

theorem State.setMreg_sec (s : State) (i : Nat) (x : List Byte) : s.setMreg i x = { s with sec := (s.setMreg i x).sec } := rfl

theorem State.extendMeasure_sec (s : State) (i : Nat) (d : List Byte) : s.extendMeasure i d = { s with sec := (s.extendMeasure i d).sec } := rfl

/-- What the exchange of an image leaves of the thimble's other state. -/
theorem State.extendMeasure_left (s : State) (i : Nat) (d : List Byte) : (s.extendMeasure i d).sec.flashQ = s.sec.flashQ ∧
    (s.extendMeasure i d).sec.identityValid = s.sec.identityValid ∧ (s.extendMeasure i d).sec.sessions = s.sec.sessions ∧
    (s.extendMeasure i d).sec.domains = s.sec.domains := ⟨rfl, rfl, rfl, rfl⟩

theorem State.setFw_measures (s : State) (j : Nat) (x : FwImage) : (s.setFw j x).sec.measures = s.sec.measures := rfl

theorem State.queueFlash_measures (s : State) (op : FlashOp) : (s.queueFlash op).sec.measures = s.sec.measures := rfl

theorem State.setMreg_flashQ (s : State) (i : Nat) (x : List Byte) : (s.setMreg i x).sec.flashQ = s.sec.flashQ := rfl

theorem State.queueFlash_flashQ (s : State) (op : FlashOp) : (s.queueFlash op).sec.flashQ = s.sec.flashQ ++ [op] := rfl

theorem State.setFw_flashQ (s : State) (j : Nat) (x : FwImage) : (s.setFw j x).sec.flashQ = s.sec.flashQ := rfl

theorem State.setFw_sec (s : State) (j : Nat) (x : FwImage) : s.setFw j x = { s with sec := (s.setFw j x).sec } := rfl

theorem State.queueFlash_sec (s : State) (op : FlashOp) : s.queueFlash op = { s with sec := (s.queueFlash op).sec } := rfl

theorem State.exchanged_measures (s : State) (j : Nat) (new : List Byte) : (s.exchanged j new).sec.measures =
    (((s.setMreg (1 + j) new).extendMeasure 10 (BitVec.ofNat 8 j :: List.replicate 31 0)).extendMeasure 10 new).sec.measures := by
  rw [State.exchanged]
  refine State.extendMeasure_measures (State.extendMeasure_measures (State.setMreg_measures ?_ _ _) _ _) _ _
  rw [State.queueFlash_measures, State.setFw_measures]

theorem State.exchanged_flashQ (s : State) (j : Nat) (new : List Byte) :
    (s.exchanged j new).sec.flashQ = s.sec.flashQ ++ [.selector none j] := by
  rw [State.exchanged, (State.extendMeasure_left _ _ _).1, (State.extendMeasure_left _ _ _).1, State.setMreg_flashQ, State.queueFlash_flashQ,
    State.setFw_flashQ]

theorem State.exchanged_sec (s : State) (j : Nat) (new : List Byte) : s.exchanged j new = { s with sec := (s.exchanged j new).sec } := by
  rw [State.exchanged]
  exact State.sec_trans (State.sec_trans (State.sec_trans (State.sec_trans (State.setFw_sec _ _ _) (State.queueFlash_sec _ _)) (State.setMreg_sec _ _ _))
    (State.extendMeasure_sec _ _ _)) (State.extendMeasure_sec _ _ _)

/-- `t` holds the keys of `s`: its identity, sessions and domains. -/
def State.KeysStand (s t : State) : Prop :=
  t.sec.identityValid = s.sec.identityValid ∧ t.sec.sessions = s.sec.sessions ∧ t.sec.domains = s.sec.domains

theorem State.KeysStand.trans (h : s.KeysStand t) (h' : t.KeysStand u) : s.KeysStand u := by
  obtain ⟨hi, hs, hd⟩ := h
  obtain ⟨hi', hs', hd'⟩ := h'
  exact ⟨hi'.trans hi, hs'.trans hs, hd'.trans hd⟩

theorem State.keysStand_setFw (s : State) (j : Nat) (x : FwImage) : s.KeysStand (s.setFw j x) := ⟨rfl, rfl, rfl⟩

theorem State.keysStand_queueFlash (s : State) (op : FlashOp) : s.KeysStand (s.queueFlash op) := ⟨rfl, rfl, rfl⟩

theorem State.keysStand_setMreg (s : State) (i : Nat) (x : List Byte) : s.KeysStand (s.setMreg i x) := ⟨rfl, rfl, rfl⟩

theorem State.keysStand_extendMeasure (s : State) (i : Nat) (d : List Byte) : s.KeysStand (s.extendMeasure i d) := s.keysStand_setMreg i _

/-- The exchange of an image leaves the keys. -/
theorem State.exchanged_keys (s : State) (j : Nat) (new : List Byte) : s.KeysStand (s.exchanged j new) := by
  rw [State.exchanged]
  exact ((((s.keysStand_setFw j _).trans (State.keysStand_queueFlash _ _)).trans (State.keysStand_setMreg _ _ _)).trans
    (State.keysStand_extendMeasure _ _ _)).trans (State.keysStand_extendMeasure _ _ _)

theorem State.thRuns_left (s : State) : s.thRuns.sec.measures = s.sec.measures ∧ s.thRuns.sec.flashQ = s.sec.flashQ ∧
    s.thRuns = { s with sec := s.thRuns.sec } := ⟨rfl, rfl, rfl⟩

theorem State.thRuns_th (s : State) : s.thRuns.sec.mode = 1 ∧ s.thRuns.sec.aliasIssued = false ∧
    s.thRuns.sec.aliasSeed = (if s.sec.identityValid then aliasKey (s.thRuns.mreg 1) else []) ∧ s.thRuns.sec.sessions = s.sec.sessions ∧
    s.thRuns.sec.domains = s.sec.domains := ⟨rfl, rfl, rfl, rfl, rfl⟩

/-- A unit but the management controller that runs its new image changes the thimble's state alone. -/
theorem State.unitRuns_left {j : Nat} (hr : SMap.rising s.sec.fw = true) (hj : j ≠ 1) :
    (s.unitRuns j).sec.measures = (((s.setMreg (1 + j) (s.slotB j).measure).extendMeasure 10
        (BitVec.ofNat 8 j :: List.replicate 31 0)).extendMeasure 10 (s.slotB j).measure).sec.measures ∧
      (s.unitRuns j).sec.flashQ = s.sec.flashQ ++ [.selector none j] ∧ s.unitRuns j = { s with sec := (s.unitRuns j).sec } := by
  have hm := State.exchanged_measures s j (s.slotB j).measure
  have hq := State.exchanged_flashQ s j (s.slotB j).measure
  have hx := State.exchanged_sec s j (s.slotB j).measure
  rw [State.unitRuns_eq hr, if_neg hj]
  split
  · obtain ⟨hm', hq', hx'⟩ := State.thRuns_left (s.exchanged j (s.slotB j).measure)
    exact ⟨hm'.trans hm, hq'.trans hq, State.sec_trans hx hx'⟩
  · exact ⟨hm, hq, hx⟩

/-- A new TH that runs. -/
theorem State.unitRuns_th (hr : SMap.rising s.sec.fw = true) : (s.unitRuns 0).sec.mode = 1 ∧ (s.unitRuns 0).sec.aliasIssued = false ∧
    (s.unitRuns 0).sec.aliasSeed = (if s.sec.identityValid then aliasKey ((s.unitRuns 0).mreg 1) else []) ∧
    (s.unitRuns 0).sec.sessions = s.sec.sessions ∧ (s.unitRuns 0).sec.domains = s.sec.domains := by
  obtain ⟨hi, hs, hd⟩ := State.exchanged_keys s 0 (s.slotB 0).measure
  obtain ⟨hm', ha', hk', hs', hd'⟩ := State.thRuns_th (s.exchanged 0 (s.slotB 0).measure)
  rw [hi] at hk'
  rw [State.unitRuns_eq hr, if_pos rfl]
  exact ⟨hm', ha', hk', hs'.trans hs, hd'.trans hd⟩

/-- The state with the activation over. -/
def State.activationOver (s : State) : State := { s with sec := { s.sec with activation := none } }

theorem State.activationOver_fw (s : State) (j : Nat) : s.activationOver.fw j = s.fw j := rfl

/-! ### Settings records and floors -/

theorem State.settingsWrite_queues (hi : s.sec.identityValid = true) (hk : m.num 0 8 < 3) (hb : s.sec.settingsBusy = false) :
    s.settingsWrite m = (s.writeSettings (m.num 0 8), some (stOk, [])) := by
  rw [State.settingsWrite, hi, if_neg (by decide), hb, if_neg (by simpa using hk)]

theorem State.settingsWrite_refuses (hi : s.sec.identityValid = true) (h : 3 ≤ m.num 0 8 ∨ s.sec.settingsBusy = true) :
    s.settingsWrite m = (s, some (stConflict, [])) := by
  rw [State.settingsWrite, hi, if_neg (by decide), if_pos h]

theorem State.settingsWrite_notReady (hi : s.sec.identityValid = false) : s.settingsWrite m = (s, some (stNotReady, [])) := by
  rw [State.settingsWrite, hi]
  rfl

theorem State.setMinSvn_refuses (hi : s.sec.identityValid = true) (h : m.num 8 8 < s.floor (m.num 0 8) ∨ (s.slotA (m.num 0 8)).svn < m.num 8 8) :
    s.setMinSvn m = (s, some (stConflict, [])) := by
  rw [State.setMinSvn, hi, if_neg (by decide), if_pos (.inr (h.imp id .inl))]

theorem State.setMinSvn_raises (hi : s.sec.identityValid = true) (hb : s.sec.settingsBusy = false) (hj : m.num 0 8 < 5)
    (hf : s.floor (m.num 0 8) ≤ m.num 8 8) (ha : m.num 8 8 ≤ (s.slotA (m.num 0 8)).svn) :
    s.setMinSvn m = ((s.raiseFloor (m.num 0 8) (m.num 8 8)).writeSettings 0, some (stOk, [])) := by
  rw [State.setMinSvn, hi, if_neg (by decide), if_neg (by simp [hb]; omega)]

/-- The state with the floor of image `j` at `svn`. -/
def State.withFloor (s : State) (j svn : Nat) : State := { s with sec := { s.sec with floors := SMap.set 0 s.sec.floors j svn } }

/-- A floor raised changes its own entry, a measurement, and the slot below it. -/
theorem State.raiseFloor_left {j svn : Nat} (hr : SMap.rising s.sec.fw = true) :
    (s.raiseFloor j svn).sec.floors = SMap.set 0 s.sec.floors j svn ∧
      (s.raiseFloor j svn).fw j = { s.fw j with staged := if (s.fw j).staged = 4 ∧ (s.slotB j).svn < svn then 5 else (s.fw j).staged } ∧
      (s.raiseFloor j svn).sec.files = s.sec.files ∧ s.raiseFloor j svn = { s with sec := (s.raiseFloor j svn).sec } := by
  by_cases h : (s.fw j).staged = 4 ∧ (s.slotB j).svn < svn
  · have hx : s.raiseFloor j svn = ((s.withFloor j svn).setFw j { s.fw j with staged := 5 }).measureSettings 0 :=
      congrArg (fun u => State.measureSettings u 0) (if_pos h)
    rw [hx, if_pos h]
    exact ⟨rfl, SMap.get_set_same hr, rfl, rfl⟩
  · have hx : s.raiseFloor j svn = (s.withFloor j svn).measureSettings 0 := congrArg (fun u => State.measureSettings u 0) (if_neg h)
    rw [hx, if_neg h]
    exact ⟨rfl, rfl, rfl, rfl⟩

/-! ### The Data Object Exchange mailbox -/

/-- A port changed twice. -/
theorem State.modPort_undrain {f g : Port → Port} (h : f { s.port p with draining := false } = g { s.port p with draining := false }) :
    (s.undrain p).modPort p f = s.modPort p (fun x => g { x with draining := false }) := by
  cases p
  · exact congrArg (fun x => { s with ha := x }) h
  · exact congrArg (fun x => { s with hb := x }) h

/-- Settles O60. -/
theorem activationAndSettings : Obligations.ActivationAndSettings := by
  unfold Obligations.ActivationAndSettings
  intro s p ht r m chosen setFw
  have hm : SMap.rising (r.mail p).buf = true := State.tidy_mail_passArb ht .mailbox (portNum p) p
  have hfw : SMap.rising s.sec.fw = true := State.tidy_fw ht
  refine ⟨fun h => ?activate, fun a hr hfr ha hcur => ?unit, ?settings, ?floor, fun hr hup hfr => ?exchange⟩
  case activate =>
    have hidle : s.sec.activation = none := State.idle_of_takes h.1 (by decide) (by decide)
    have hstart : doFwActivate p s = r.activateNext p chosen := by
      refine State.serve_request (g := fun u m => u.fwActivate p m) h ?_
      rfl
    refine ⟨fun hno => ⟨_, rfl, ?_⟩, fun j rest hch hfit => ⟨_, rfl, ?_⟩, fun j rest hch hfit hpin => ⟨_, rfl, ?_⟩⟩
    · have hr : r = { r with sec := { r.sec with activation := none } } := by
        have hr' : r.sec.activation = none := hidle
        rw [← hr']
      have hend := answered_endActivation hm stOk
      rw [← hr] at hend
      rw [hstart, hno]
      exact hend
    · rw [hstart, hch, State.activateNext_refuses (s := r) hfit]
      refine answered_endActivation ?_ _
      exact hm
    · rw [hstart, hch, State.activateNext_begins (s := r) hfit hpin]
      rfl
  case unit =>
    have hgo : ¬(!s.ready || s.freeze.frozen) = true := by simp [hr, hfr]
    refine ⟨fun hrest hd hrun => ⟨_, if_pos hcur, ?runs⟩, fun hno => ⟨⟨_, if_pos hcur, ?_⟩, ⟨_, if_pos hcur, ?_⟩⟩, fun hd hrun => ⟨_, if_pos hcur, ?late⟩⟩
    case runs =>
      have hx : doFwUnitRunning a.cur s = (s.unitRuns a.cur).activationOver.reply a.port stOk [] := by
        rw [doFwUnitRunning, if_neg hgo, ha]
        dsimp only
        rw [if_pos ⟨rfl, hd, hrun⟩, hrest]
        rfl
      obtain ⟨hbusy, hstatus⟩ := State.mail_reply (s.unitRuns a.cur).activationOver a.port stOk []
      obtain ⟨x, y, hmails⟩ := State.reply_mails (s.unitRuns a.cur).activationOver a.port stOk []
      have hstaged := State.unitRuns_fw (j := a.cur) hfw
      rw [hx]
      refine ⟨?_, ?_, hbusy, hstatus, fun hj => ?_, fun hj => ?_⟩
      · rw [hmails]
        exact hstaged
      · rw [hmails]
        rfl
      · intro new
        obtain ⟨hm', hq', hx'⟩ := State.unitRuns_left hfw hj
        rw [hmails]
        exact ⟨hm', hq', State.sec_trans hx' rfl⟩
      · rw [hmails]
        have hth := State.unitRuns_th hfw
        rw [← hj] at hth
        exact hth
    · have hno' : ¬(a.cur = a.cur ∧ a.deadline ≠ 0 ∧ s.mayRun a.cur = true) := fun hx => hno.elim hx.2.1 (fun h => by rw [hx.2.2] at h; cases h)
      rw [doFwUnitRunning, if_neg hgo, ha]
      exact if_neg hno'
    · have hno' : ¬(a.cur = a.cur ∧ a.deadline ≠ 0 ∧ s.mayRun a.cur = true) := fun hx => hno.elim hx.2.1 (fun h => by rw [hx.2.2] at h; cases h)
      rw [doActivationTimeout, if_neg hgo, ha]
      exact if_neg hno'
    case late =>
      rw [doActivationTimeout, if_neg hgo, ha]
      dsimp only
      rw [if_pos ⟨rfl, hd, hrun⟩]
      refine ⟨_, answered_endActivation ?_ _, ?_⟩
      · exact State.tidy_mail ht a.port
      · rfl
  case settings =>
    intro h k
    exact ⟨fun hi hk hb => ⟨_, rfl, answered_request (g := State.settingsWrite) h (State.settingsWrite_queues hi hk hb) hm⟩,
      fun hi hno => ⟨_, rfl, answered_request (g := State.settingsWrite) h (State.settingsWrite_refuses hi hno) hm⟩,
      fun hi => ⟨_, rfl, answered_request (g := State.settingsWrite) h (State.settingsWrite_notReady hi) hm⟩⟩
  case floor =>
    intro h j svn
    refine ⟨fun hi hno => ⟨_, rfl, answered_request (g := State.setMinSvn) h (State.setMinSvn_refuses hi hno) hm⟩, fun hi hb hj hf ha => ⟨_, rfl, ?_⟩⟩
    have hx : doSetMinSvn p s = ((r.raiseFloor j svn).writeSettings 0).reply p stOk [] :=
      State.serve_replies (g := State.setMinSvn) h (State.setMinSvn_raises (s := r) hi hb hj hf ha)
    obtain ⟨hfloors, hstaged, hfiles, hrest⟩ := State.raiseFloor_left (s := r) (j := j) (svn := svn) hfw
    generalize r.raiseFloor j svn = u at hx hfloors hstaged hfiles hrest
    obtain ⟨hbusy, hstatus⟩ := State.mail_reply (u.writeSettings 0) p stOk []
    obtain ⟨a, b, hmails⟩ := State.reply_mails (u.writeSettings 0) p stOk []
    rw [hx]
    refine ⟨hbusy, hstatus, ?_⟩
    rw [hmails]
    refine ⟨hfloors, hstaged, rfl, hfiles, ?_⟩
    rw [hrest]
    rfl
  case exchange =>
    intro only row
    have hgo : ∀ o, doDataObject p o s = (s.undrain p).doe p o := by
      intro o
      rw [doDataObject, hr, hup, hfr]
      rfl
    have hsame : s.undrain p = s.modPort p (fun x => id { x with draining := false }) := rfl
    have hpsk : (s.undrain p).anyPsk = s.anyPsk := by cases p <;> rfl
    refine ⟨fun h => ⟨_, rfl, ?_⟩, fun ok h => ⟨_, rfl, ?_⟩, fun h k key hk => ⟨⟨_, rfl, ?_⟩, fun hkey => ⟨_, rfl, ?_⟩, ⟨_, rfl, ?_⟩⟩,
      fun h k key => ⟨⟨_, rfl, ?_⟩, ⟨_, rfl, ?_⟩, ⟨_, rfl, ?_⟩⟩⟩
    · rw [hgo, State.doe, hpsk, h, Bool.and_self, if_pos rfl]
      exact State.modPort_undrain rfl
    · rw [hgo, State.doe, hpsk, if_neg (by rcases h with h | h <;> simp [h])]
      exact hsame
    · rw [hgo, State.doe, if_pos hk]
      exact State.modPort_undrain (g := fun x => { x with ideKeys := SMap.set 0 x.ideKeys k key }) (if_pos h)
    · rw [hgo, State.doe]
      exact State.modPort_undrain (g := fun x => { x with ideSecure := setIns x.ideSecure k }) (if_pos (by rw [Bool.and_eq_true]; exact ⟨h, hkey⟩))
    · rw [hgo, State.doe]
      exact State.modPort_undrain (g := fun x => { x with ideSecure := setDel x.ideSecure k }) (if_pos h)
    · have hno : ¬(s.port p).spdmPsk = true := by rw [h]; exact Bool.false_ne_true
      rw [hgo, State.doe]
      split
      · exact State.modPort_undrain (if_neg hno)
      · exact hsame
    · rw [hgo, State.doe]
      exact State.modPort_undrain (if_neg (by rw [Bool.and_eq_true]; exact fun hx => by rw [hx.1] at h; cases h))
    · have hno : ¬(s.port p).spdmPsk = true := by rw [h]; exact Bool.false_ne_true
      rw [hgo, State.doe]
      exact State.modPort_undrain (if_neg hno)

end Sys2Proof.Machine
end

section
/-! SUPPORT. A module whose only collectives are sums of norms without a group: what such a collective begins, receives and ends leaves memory,
in any state. -/

namespace Sys2Proof.Machine

variable {s t u : State} {c : Coll}

/-- A sum of norms without a group. -/
structure Coll.Idle (c : Coll) : Prop where
  kind : c.kind = .norm
  groups : c.groups = 0
  elems : c.elems = 0
  norms : c.norms = []

/-- Every collective in progress is a sum of norms without a group. -/
def State.Idle (s : State) : Prop := ∀ c ∈ s.link.colls, c.Idle

/-- While every collective is a sum of norms without a group, what leads from `s` to `t` leaves memory, and every collective such a sum. -/
structure IdleLeaves (s t : State) : Prop where
  left : s.Idle → t.mem = s.mem ∧ t.Idle

/-! ### A collective changed -/

namespace Coll.Idle

theorem records (h : c.Idle) : c.kind.records = true := by rw [h.kind]; rfl
theorem copies (h : c.Idle) : c.kind.copies = false := by rw [h.kind]; rfl

theorem notReduce (h : c.Idle) : ¬(c.kind = .reduce ∨ c.kind = .reduceScatter) := by
  rw [h.kind]
  rintro (h | h)
  · cases h
  · cases h

theorem chunkLen (h : c.Idle) (x : Nat) : c.chunkLen x = 0 := by rw [Coll.chunkLen, h.elems, Nat.zero_sub, Nat.min_zero]

theorem chunkCount (h : c.Idle) : c.chunkCount = 0 := by
  rw [Coll.chunkCount, h.elems, cdiv]
  have hper : c.per = 32 := if_pos h.records
  rw [hper]

theorem maskGroups (h : c.Idle) : maskGroups c.groups = [] := by
  rw [h.groups]
  decide

theorem setNode (h : c.Idle) (x l i : Nat) (v : CollNode) : (c.setNode x l i v).Idle := ⟨h.kind, h.groups, h.elems, h.norms⟩

theorem freeNode (h : c.Idle) (x : Nat) (n : Nat × Nat) : (c.freeNode x n).Idle := h.setNode _ _ _ _

theorem addKids (h : c.Idle) (x l i : Nat) (a b : Partial) : (c.addKids x l i a b).1.Idle := by
  simp only [Coll.addKids]
  split
  · exact ((h.setNode _ _ _ _).freeNode _ _).freeNode _ _
  · exact h.setNode _ _ _ _

theorem results (h : c.Idle) (r : SMap (SMap (Option (List Byte)))) : Coll.Idle { c with results := r } := ⟨h.kind, h.groups, h.elems, h.norms⟩

theorem doneChunks (h : c.Idle) (l : List Nat) : Coll.Idle { c with doneChunks := l } := ⟨h.kind, h.groups, h.elems, h.norms⟩

theorem ended (h : c.Idle) (st : Option Nat) : Coll.Idle { c with endedAs := st, nodes := [], results := [] } := ⟨h.kind, h.groups, h.elems, h.norms⟩

end Coll.Idle

theorem State.Idle.coll {comm k : Nat} (h : s.Idle) (hc : s.coll comm k = some c) : c.Idle := h c (List.mem_of_find?_eq_some hc)

namespace IdleLeaves

theorem of_colls (hm : t.mem = s.mem) (hc : t.link.colls = s.link.colls) : IdleLeaves s t := ⟨fun h => ⟨hm, fun c hin => h c (hc ▸ hin)⟩⟩

theorem refl (s : State) : IdleLeaves s s := of_colls rfl rfl

theorem trans (h : IdleLeaves s t) (h' : IdleLeaves t u) : IdleLeaves s u := by
  refine ⟨fun hs => ?_⟩
  obtain ⟨hm, ht⟩ := h.left hs
  obtain ⟨hm', hu⟩ := h'.left ht
  exact ⟨hm'.trans hm, hu⟩

theorem of_traffic (h : TrafficOnly s t) : IdleLeaves s t := of_colls h.mem h.colls

theorem ofIte {p : Prop} [Decidable p] (h : IdleLeaves s t) (h' : IdleLeaves s u) : IdleLeaves s (if p then t else u) := by
  split
  · exact h
  · exact h'

theorem foldl {α : Type} {f : State → α → State} (hf : ∀ u a, IdleLeaves u (f u a)) (l : List α) (s : State) : IdleLeaves s (l.foldl f s) := by
  induction l generalizing s with
  | nil => exact refl s
  | cons a l ih => exact (hf s a).trans (ih _)

/-- With every collective such a sum, what is done for the collective found is done for such a sum. -/
theorem of_idle (h : s.Idle → IdleLeaves s t) : IdleLeaves s t := ⟨fun hs => (h hs).left hs⟩

theorem setColl (s : State) (hc : c.Idle) : IdleLeaves s (s.setColl c) := by
  refine ⟨fun h => ⟨rfl, fun d hd => ?_⟩⟩
  obtain ⟨e, he, hx⟩ := List.mem_map.mp hd
  rw [← hx]
  split
  · exact hc
  · exact h e he

theorem modColl (s : State) (comm k : Nat) {f : Coll → Coll} (hf : ∀ c, c.Idle → (f c).Idle) : IdleLeaves s (s.modColl comm k f) := by
  refine of_idle fun h => ?_
  rw [State.modColl]
  split
  · next c hc => exact setColl s (hf c (h.coll hc))
  · exact refl s

/-! ### Messages sent -/

theorem sendStream (s : State) (dst n : Nat) (m : Msg) : IdleLeaves s (s.sendStream dst n m) := by
  have hcount : ∀ u : State, IdleLeaves u (u.countSent m) := fun u => by
    rw [State.countSent]
    split <;> exact of_colls rfl rfl
  simp only [State.sendStream]
  split
  · exact refl s
  split
  · simp only [State.leave]
    split
    · exact ((of_traffic (TrafficOnly.setStream ..)).trans (hcount _)).trans (of_traffic (TrafficOnly.dispatchMsg ..))
    · exact of_traffic (TrafficOnly.setStream ..)
  · exact of_traffic (TrafficOnly.setStream ..)

theorem sendColl (s : State) (comm k sig rank mkind x l i part : Nat) (data : List Byte) :
    IdleLeaves s (s.sendColl comm k sig rank mkind x l i part data) := (sendStream s _ _ _).trans (of_colls rfl rfl)

theorem sendParts (s : State) (c : Coll) (rank mkind x l i : Nat) (bs : List Byte) : IdleLeaves s (s.sendParts c rank mkind x l i bs) :=
  foldl (fun u _ => sendColl u ..) _ _

theorem sendAborts (s : State) (comm k status : Nat) : IdleLeaves s (s.sendAborts comm k status) := foldl (fun u _ => sendColl u ..) _ _

theorem complete (s : State) (qi k st : Nat) : IdleLeaves s (s.complete qi k st) := of_colls rfl rfl

/-! ### The end of a collective -/

theorem endNorm (s : State) (hc : c.Idle) (status : Nat) : IdleLeaves s (s.endNorm c status) := by
  simp only [State.endNorm, hc.maskGroups, State.normGroups, hc.norms, List.foldl_nil, ite_self]
  exact of_colls rfl rfl

theorem leaveColl (s : State) (hc : c.Idle) (status : Nat) : IdleLeaves s (s.leaveColl c status) := by
  simp only [State.leaveColl, hc.kind]
  generalize ht : ({ s with link := _ } : State) = t
  refine trans (t := t) ?_ (endNorm t hc status)
  rw [← ht]
  exact ⟨fun h => ⟨rfl, fun d hd => h d (List.mem_filter.mp hd).1⟩⟩

theorem settleCommN (s : State) (comm j : Nat) : IdleLeaves s (s.settleCommN comm j) := by
  induction j generalizing s with
  | zero => exact refl s
  | succ j ih =>
    refine of_idle fun h => ?_
    simp only [State.settleCommN]
    split
    · next c hc =>
      split
      · exact (leaveColl s (h c (List.mem_of_find?_eq_some hc)) _).trans (ih _)
      · exact refl s
    · exact refl s

theorem settleComm (s : State) (comm : Nat) : IdleLeaves s (s.settleComm comm) := settleCommN s comm _

theorem endColl (s : State) (hc : c.Idle) (status : Nat) : IdleLeaves s (s.endColl c status) := (setColl s (hc.ended _)).trans (settleComm _ _)

theorem endColls (s : State) (p : Coll → Bool) (status : Nat) : IdleLeaves s (s.endColls p status) := by
  have hall : ∀ (l : List Coll), (∀ c ∈ l, c.Idle) → ∀ s : State, IdleLeaves s (l.foldl (fun s c => (s.sendAborts c.comm c.k status).endColl c status) s) := by
    intro l
    induction l with
    | nil => exact fun _ s => refl s
    | cons c l ih =>
      intro hl s
      exact ((sendAborts s _ _ _).trans (endColl _ (hl c List.mem_cons_self) status)).trans (ih (fun d hd => hl d (List.mem_cons_of_mem _ hd)) _)
  exact of_idle fun h => hall _ (fun c hc => h c (List.mem_filter.mp hc).1) s

theorem collConflict (s : State) (hc : c.Idle) : IdleLeaves s (s.collConflict c) := (sendAborts s _ _ _).trans (endColl _ hc _)

/-! ### A module lost -/

theorem enterSourceLost (s : State) (n : Nat) : IdleLeaves s (s.enterSourceLost n) := by
  simp only [State.enterSourceLost]
  exact trans (t := s.setTack n _) (of_colls rfl rfl) (foldl (fun u _ => complete u ..) _ _)

theorem loseSources (s : State) (id : Nat) : IdleLeaves s (s.loseSources id) := by
  simp only [State.loseSources]
  exact foldl (fun u _ => enterSourceLost u _) _ _

/-- What follows the loss of a module for the tacks, collectives and communicators. -/
theorem ofLoss (s t : State) (id : Nat) (cs : List Nat) (h : IdleLeaves s t) :
    IdleLeaves s (cs.foldl (fun s c => if (s.comm c).lost.isNone then s.setComm c { s.comm c with lost := some id } else s)
      ((t.loseSources id).endColls (fun c => cs.contains c.comm) stPeerLost)) := by
  refine h.trans (((loseSources t id).trans (endColls _ _ _)).trans (foldl (fun u c => ?_) _ _))
  split
  · exact of_colls rfl rfl
  · exact refl u

theorem declareLost (s : State) (id : Nat) : IdleLeaves s (s.declareLost id) := by
  simp only [State.declareLost]
  split
  · exact refl s
  · exact ofLoss s _ id _ (of_colls rfl rfl)

theorem abortLoss (s : State) (comm src status : Nat) : IdleLeaves s (s.abortLoss comm src status) := by
  simp only [State.abortLoss]
  split
  · exact trans (t := s.draw.2) (of_colls rfl rfl) (declareLost _ _)
  · exact refl s

theorem collAbort (s : State) (c : Coll) (src status : Nat) : IdleLeaves s (s.collAbort c src status) := by
  have hend : ∀ u : State, IdleLeaves u (match u.coll c.comm c.k with | some c => if c.endedAs.isSome then u else u.endColl c status | none => u) := fun u =>
    of_idle fun h => by
      split
      · next d hd =>
        split
        · exact refl u
        · exact endColl u (h.coll hd) status
      · exact refl u
  simp only [State.collAbort]
  refine trans ((abortLoss s c.comm src status).trans ?_) (hend _)
  split
  · exact of_colls rfl rfl
  · exact refl _

/-! ### Partial results, on their way up and down -/

theorem tryGet (s : State) (hc : c.Idle) (x l i : Nat) : IdleLeaves s (s.tryGet c x l i) := by
  rw [State.tryGet]
  dsimp only
  split
  · exact ofIte ((setColl s (hc.setNode _ _ _ _)).trans (sendColl _ ..)) (refl s)
  · exact refl s

theorem retryGets (s : State) (comm k : Nat) : IdleLeaves s (s.retryGets comm k) := by
  simp only [State.retryGets]
  split
  · refine foldl (fun u e => of_idle fun h => ?_) _ _
    split
    · next d hd => exact tryGet u (h.coll hd) ..
    · exact refl u
  · exact refl s

theorem dutyDone (s : State) (c : Coll) (key : Nat) : IdleLeaves s (s.dutyDone c key) := modColl s _ _ fun _ h => h.doneChunks _

theorem takeResult (s : State) (hc : c.Idle) (x owner : Nat) (bs : List Byte) (inputs : Nat → Lineage) :
    IdleLeaves s (s.takeResult c x owner bs inputs) := by
  simp only [State.takeResult, hc.kind, hc.chunkLen]
  refine trans (modColl s _ _ fun d hd => ?_) (dutyDone _ c _)
  exact ⟨hd.kind, hd.groups, hd.elems, by rw [hd.norms]; rfl⟩

theorem distribute (s : State) (hc : c.Idle) (x : Nat) (bs : List Byte) (inputs : Nat → Lineage) : IdleLeaves s (s.distribute c x bs inputs) := by
  rw [State.distribute, if_neg hc.notReduce]
  exact (foldl (fun u _ => sendParts u ..) _ _).trans (takeResult _ hc ..)

theorem rootDone (s : State) (hc : c.Idle) (x : Nat) (p : Partial) : IdleLeaves s (s.rootDone c x p) := by
  rw [State.rootDone, if_pos hc.records]
  exact distribute s hc ..

theorem supplyN (s : State) (comm k x f l i : Nat) (p : Partial) : IdleLeaves s (s.supplyN comm k x f l i p) := by
  induction f generalizing s l i p with
  | zero => exact refl s
  | succ f ih =>
    refine of_idle fun h => ?_
    simp only [State.supplyN]
    split
    · exact refl s
    · next c hc =>
      have hc := h.coll hc
      have hd : (c.setNode x l i { c.node x l i with value := some p }).Idle := hc.setNode _ _ _ _
      generalize c.setNode x l i _ = d at hd
      have he (j n : Nat) (e : CollNode) : IdleLeaves s ((s.setColl d).setColl (d.setNode x j n e)) := (setColl s hd).trans (setColl _ (hd.setNode _ _ _ _))
      split
      · exact (setColl s hd).trans (rootDone _ hd x p)
      split
      · exact ((setColl s hd).trans (setColl _ (hd.freeNode _ _))).trans (ih _ _ _ _)
      split
      · split
        · exact ((he _ _ _).trans (setColl _ ((hd.setNode _ _ _ _).addKids _ _ _ _ _))).trans (ih _ _ _ _)
        exact ofIte (he _ _ _) ((he _ _ _).trans (tryGet _ (hd.setNode _ _ _ _) ..))
      · exact (setColl s hd).trans (sendColl _ ..)

/-! ### A message of a collective -/

theorem holdColl (s : State) (p : Nat) (m : Msg) : IdleLeaves s (s.holdColl p m) := by
  have hsent : IdleLeaves s (if m.mkind = 0xA then s.sendAborts m.comm m.k stConflict else s) := by
    split
    · exact sendAborts s ..
    · exact refl s
  exact hsent.trans (of_colls rfl rfl)

theorem collReady (s : State) (hc : c.Idle) (m : Msg) : IdleLeaves s (s.collReady c m) := by
  simp only [State.collReady]
  split
  · split
    · exact (setColl s (hc.setNode _ _ _ _)).trans (tryGet _ (hc.setNode _ _ _ _) ..)
    · exact refl s
  · exact refl s

theorem collGet (s : State) (hc : c.Idle) (m : Msg) : IdleLeaves s (s.collGet c m) := by
  simp only [State.collGet]
  split
  · rw [if_neg fun h => (hc.freeNode _ _).notReduce h.1]
    exact ((setColl s (hc.freeNode _ _)).trans (sendParts _ ..)).trans (retryGets _ ..)
  · exact refl s

theorem collData (s : State) (hc : c.Idle) (m : Msg) : IdleLeaves s (s.collData c m) := by
  simp only [State.collData]
  split
  · exact refl s
  · split
    · exact refl s
    · split
      · exact refl s
      · split
        · exact setColl s (hc.setNode _ _ _ _)
        · have hd (j n : Nat) (e : CollNode) : IdleLeaves s (s.setColl (c.setNode m.chunk j n e)) := setColl s (hc.setNode _ _ _ _)
          split
          · exact ((((hd _ _ _).trans (setColl _ ((hc.setNode _ _ _ _).addKids _ _ _ _ _))).trans (supplyN _ ..)).trans (retryGets _ ..)).trans (settleComm _ _)
          · exact hd _ _ _

theorem collPut (s : State) (hc : c.Idle) (m : Msg) : IdleLeaves s (s.collPut c m) := by
  simp only [State.collPut]
  split
  · exact setColl s (hc.results _)
  · rw [if_neg (by rw [hc.copies]; exact Bool.false_ne_true), if_neg (hc.results _).notReduce]
    exact (((setColl s (hc.results _)).trans (foldl (fun u _ => sendParts u ..) _ _)).trans (takeResult _ (hc.results _) ..)).trans (settleComm _ _)

theorem collMsg (s : State) (p : Nat) (m : Msg) : IdleLeaves s (s.collMsg p m) := by
  refine of_idle fun h => ?_
  simp only [State.collMsg]
  split
  · next c hc =>
    have hc := h.coll hc
    split
    · exact refl s
    split
    · exact holdColl s p m
    split
    · exact collAbort s c ..
    split
    · exact collConflict s hc
    split
    · exact collReady s hc m
    split
    · exact collGet s hc m
    split
    · exact collData s hc m
    · exact collPut s hc m
  · have hloss : IdleLeaves s (if m.mkind = 0x0C then s.abortLoss m.comm m.src (m.t3 % 256) else s) := by
      split
      · exact abortLoss s ..
      · exact refl s
    exact hloss.trans (ofIte (holdColl _ p m) (refl _))

theorem withHeld (s : State) (l : List (Nat × Msg)) : IdleLeaves s { s with link := { s.link with held := l } } := of_colls rfl rfl

theorem takeHeld (s : State) (comm k : Nat) : IdleLeaves s (s.takeHeld comm k) := by
  rw [State.takeHeld]
  exact (withHeld s _).trans (foldl (f := fun u (x : Nat × Msg) => u.collMsg x.1 x.2) (fun u x => collMsg u x.1 x.2) _ _)

/-- The beginning of such a sum. -/
theorem beginColl (s : State) (hc : c.Idle) (aux : Nat) : IdleLeaves s (s.beginColl c aux) := by
  rw [State.beginColl, hc.copies, hc.chunkCount]
  exact ((setColl s hc).trans (takeHeld _ _ _)).trans (settleComm _ _)

end IdleLeaves

end Sys2Proof.Machine
end

section
/-! CERTIFICATE. Collectives (O39): a collective begins in a state whose memory is not in canonical form. -/

namespace Sys2Proof.Machine

variable {s t u : State} {qi : Nat}

/-! ### A queue whose submission is gone -/

/-- A value other than the default reads back, in any map. -/
theorem SMap.get_set_of_ne {α : Type} [DecidableEq α] {d v : α} (h : v ≠ d) (m : SMap α) (k : Nat) : SMap.get d (SMap.set d m k v) k = v := by
  induction m with
  | nil => simp [SMap.set, SMap.cons, SMap.get, h]
  | cons e m ih =>
    obtain ⟨j, w⟩ := e
    rw [SMap.set]
    split
    · simp [SMap.cons, SMap.get, h]
    · next hle =>
      split
      · simp [SMap.cons, SMap.get, h]
      · next hne => rw [SMap.get, if_neg hle, if_neg hne, ih]

/-- Queue `qi` runs no submission, and has run one. -/
def State.Gone (qi : Nat) (s : State) : Prop := (s.queue qi).sub = none ∧ (s.queue qi).lastHq ≠ 0

theorem State.gone_setQueue {x : CoreQ} (hsub : x.sub = none) (hlast : x.lastHq ≠ 0) : (s.setQueue qi x).Gone qi := by
  have hx : (s.setQueue qi x).queue qi = x := SMap.get_set_of_ne (fun h => hlast (by rw [h])) _ _
  rw [State.Gone, hx]
  exact ⟨hsub, hlast⟩

theorem State.gone_of_queues (hq : t.queues = s.queues) (h : s.Gone qi) : t.Gone qi := by
  rw [State.Gone, State.queue, hq]
  exact h

theorem State.gone_modQueue {f : CoreQ → CoreQ} (h : s.Gone qi) (hsub : (f (s.queue qi)).sub = (s.queue qi).sub)
    (hlast : (f (s.queue qi)).lastHq = (s.queue qi).lastHq) : (s.modQueue qi f).Gone qi := by
  obtain ⟨hnone, hne⟩ := h
  exact State.gone_setQueue (hsub.trans hnone) (hlast ▸ hne)

theorem State.gone_drainRecsN (h : s.Gone qi) (hq n : Nat) : (s.drainRecsN qi hq n).Gone qi := by
  induction n generalizing s with
  | zero => exact h
  | succ n ih =>
    obtain ⟨hnone, hne⟩ := h
    simp only [State.drainRecsN]
    split
    · exact ⟨hnone, hne⟩
    · split
      · exact ih (State.gone_of_queues (State.writeRec_queues ..) (State.gone_setQueue hnone hne))
      · exact ⟨hnone, hne⟩

theorem State.gone_pushRec (h : s.Gone qi) (hq : Nat) (r : PendingRec) : (s.pushRec qi hq r).Gone qi :=
  State.gone_drainRecsN (State.gone_modQueue h rfl rfl) hq _

theorem State.gone_returnHome (h : s.Gone qi) : (s.returnHome qi).Gone qi := by
  simp only [State.returnHome]
  split
  · exact State.gone_modQueue (State.gone_of_queues (s := s) rfl h) rfl rfl
  · exact h

theorem State.endSubmission_gone {b : Submission} (hb : (s.queue qi).sub = some b) (st : Nat) : (s.endSubmission qi st).Gone qi := by
  simp only [State.endSubmission, hb]
  generalize ({ bytes := _, isEnd := true, irq := b.irq } : PendingRec) = r
  generalize hu : s.setQueue qi _ = u
  have hgone : u.Gone qi := by
    rw [← hu]
    refine State.gone_setQueue ?_ ?_
    · rfl
    · exact Nat.succ_ne_zero b.hostq
  refine State.gone_returnHome (State.gone_of_queues ?_ (State.gone_pushRec hgone b.hostq r))
  rw [State.lostStep_queues, State.settleStop_queues]

/-- The check of a submission's end ends it or changes nothing. -/
theorem State.checkEnd_gone_or_same (s : State) (qi : Nat) : (s.checkEnd qi).Gone qi ∨ s.checkEnd qi = s := by
  simp only [State.checkEnd]
  split
  · next b hb =>
    split
    · refine .inl (State.endSubmission_gone (b := b) ?_ _)
      split
      · exact hb
      · exact hb
    · exact .inr rfl
  · exact .inr rfl

/-- A queue that still runs a submission has ended none, and has written nothing. -/
theorem State.checkExhausted_mem (h : ((s.checkExhausted qi).queue qi).sub ≠ none) : (s.checkExhausted qi).mem = s.mem := by
  rw [State.checkExhausted] at h ⊢
  split
  · rfl
  · next hno =>
    rw [if_neg hno] at h
    rcases State.checkEnd_gone_or_same (s.modQueue qi (fun q => { q with sub := q.sub.map (fun x => { x with ended := true }) })) qi with hgone | hsame
    · exact absurd hgone.1 h
    · rw [hsame]
      rfl

theorem State.joinClose_mem (s : State) (qi : Nat) (w : Wide) : (s.joinClose qi w).mem = s.mem := by
  rw [State.joinClose]
  split <;> rfl

/-! ### The state -/

/-- A COLL NORM of no group, with its records at address register 3 and its sums at 2. -/
def normWords : Words := { w0 := BitVec.ofNat 64 (15 * 2 ^ 60 + 8 * 2 ^ 52 + 5 * 2 ^ 28 + 3 * 2 ^ 8 + 8 + 2 * 2 ^ 4), w1 := 0, w2 := 0 }

/-- The nonzero bytes of a descriptor at `a` of a row of 16 FP32 numbers in page `n` of core store 0. -/
def rowDescriptor (a n : Nat) : List Host.Cell :=
  [(a + 1, BitVec.ofNat 8 n), (a + 5, 0x0D), (a + 32, 1), (a + 36, 16), (a + 58, 10)]

/-- Core queue 0 at a COLL NORM; chalk buffer 0 owes a GAP record, whose event an earlier event waits before. Memory is not in rising order:
the cell at 2^62 stands behind one of host memory. -/
def gapOwed : State :=
  { inService with
    ha := { inService.ha with evqEnable := true, evqSize := 4, evqBase := 0x10000 }
    queues := [(0, { sub := some { base := 0x0D0000000000, words := 64 }, pc := 0x0D0000000000, a := [(2, 0x0D0000000100), (3, 0x0D0000000180)] })]
    regs := [(0x02800800, 11 * 2 ^ 26), (0x03200000, 2 ^ 63 + 2 ^ 48)]
    chalk := [(0, { cfg := 2 ^ 64 - 1, state := .recording, pending := 1 })]
    evBuf := [{ code := 0, time := 0, payload := 0 }]
    mem := rowDescriptor 0x0D0000000100 0x20 ++ rowDescriptor 0x0D0000000180 0x30 ++ [(2 ^ 63 + 0x10000, 1), (2 ^ 62, 7)] }

/-- The command as it is dispatched, and its operands. -/
def normDispatched : State := gapOwed.dispatched 0 normWords
def normTaken : Wide := normDispatched.taken ((gapOwed.took 0).newWide 0 normWords)
def normOps : SMap Operand := (normDispatched.allOps normTaken).getD []

/-- The command that a verdict passes. -/
def Verdict.command : Verdict → Wide
  | .pass w => w
  | _ => {}

def normChecked : Wide := (normDispatched.checkOp (normDispatched.serving 0) { normTaken with ops := normOps }).command

/-- The command as it is accepted. -/
def normCommand : Wide := normDispatched.settled { normTaken with ops := normOps } normOps normChecked

theorem gapOwed_passes : gapOwed.passes 0 0 normWords normCommand := by
  refine ⟨⟨by decide, by decide, by decide +kernel, by decide +kernel⟩, by decide +kernel, by decide +kernel, by decide +kernel, by decide +kernel,
    by decide +kernel, by decide +kernel, by decide +kernel, by decide +kernel, by decide +kernel, normOps, normChecked, ?_, ?_, ?_, rfl, ?_⟩
  · show normDispatched.allOps normTaken = some normOps
    decide +kernel
  · show normTaken.tackBad = false
    decide +kernel
  · show normDispatched.checkOp (normDispatched.serving 0) { normTaken with ops := normOps } = .pass normChecked
    decide +kernel
  · decide +kernel

/-- Its collective is a sum of norms without a group. -/
theorem normColl_idle (k : Nat) : Coll.Idle { (gapOwed.begun 0 normWords normCommand).collOf 0 normCommand with k := k } := by
  refine ⟨?_, ?_, ?_, rfl⟩
  · show collKind normCommand.op = .norm
    decide +kernel
  · show normCommand.n1 = 0
    decide +kernel
  · show normCommand.collElems = 0
    decide +kernel

/-- The byte at 2^62, and whether core queue 0 still runs its submission, in an outcome. -/
def cellAndQueue : Host.Outcome State Fault Refusal → Byte × Bool
  | .next t => (t.memByte (2 ^ 62), (t.queue 0).sub.isSome)
  | _ => (0, false)

theorem gapOwed_begins : cellAndQueue (exec (.collNorm 0 0 normWords) gapOwed) = (7, true) := by decide +kernel

/-- Refutes O39: as the COLL NORM is dispatched, an event that waits is written to the ring of port A, and clears the cell that hid the one at 2^62
behind it: no state with the bytes that stood before begins the collective so, for the collective itself writes no memory. With memory in
rising order an event changes no byte below 2^63. -/
theorem not_collectiveCommands : ¬ Obligations.CollectiveCommands := by
  intro h
  obtain ⟨hbegins, -⟩ := h gapOwed 0 0 normWords normCommand (.collNorm 0 0 normWords) gapOwed_passes (by decide +kernel)
    (.inr (.inr (.inr (.inr (.inr ⟨by decide +kernel, rfl⟩)))))
  obtain ⟨t, hexec, v, ht, -, -, -, -, hcolls, -, hbytes, -, -⟩ := hbegins (by decide +kernel) (by decide +kernel) (by decide +kernel)
  have hgo := congrArg cellAndQueue hexec
  rw [gapOwed_begins] at hgo
  have hcell : t.memByte (2 ^ 62) = 7 := (congrArg Prod.fst hgo).symm
  have hsub : (t.queue 0).sub.isSome = true := (congrArg Prod.snd hgo).symm
  have hidle := normColl_idle (gapOwed.comm normCommand.coComm).nextK
  generalize ({ (gapOwed.begun (8 * 0 + 0) normWords normCommand).collOf (8 * 0 + 0) normCommand with k := _ } : Coll) = y at ht hidle
  have hplaced : (v.placeColl y).Idle := by
    intro d hd
    have hd' : d ∈ v.link.colls ++ [y] := hd
    rw [hcolls] at hd'
    have hy : d = y := List.mem_singleton.mp hd'
    rw [hy]
    exact hidle
  have hmem : t.mem = v.mem := by
    rw [ht] at hsub ⊢
    rw [State.checkExhausted_mem (by intro hnone; rw [hnone] at hsub; cases hsub), State.joinClose_mem]
    exact ((IdleLeaves.beginColl (v.placeColl y) hidle _).left hplaced).1
  have hbyte := hbytes (2 ^ 62) (by decide)
  rw [← State.memByte_of_mem hmem, hcell] at hbyte
  exact absurd hbyte (by decide +kernel)

end Sys2Proof.Machine
end

section
/-! CERTIFICATE. A step, and the module as reset leaves it (O1, O2, O3). -/

namespace Sys2Proof.Machine

/-- Settles O1: a step takes the command at the front. -/
theorem stepRunsFront : Obligations.StepRunsFront := by
  unfold Obligations.StepRunsFront
  exact fun _ _ _ => rfl

/-- Settles O2: memory, queues, tacks and engines are at their defaults, and each register at the reset value of its layout. -/
theorem resetState : Obligations.ResetState := by
  unfold Obligations.ResetState
  refine ⟨rfl, fun _ => rfl, rfl, rfl, fun _ => ⟨rfl, rfl, rfl⟩, fun _ => rfl, fun _ => rfl, ?_, ?_, ?_, ?_⟩
  · decide +kernel
  · decide +kernel
  · decide +kernel
  · decide +kernel

/-- Settles O3: memory and the sets of units are empty, and the images in rising order. -/
theorem tidyAtReset : Obligations.TidyAtReset := by
  unfold Obligations.TidyAtReset
  decide +kernel

end Sys2Proof.Machine
end
